-- ==== Sys2Proof/Word.lean ====
section
/-! DEFINITION. The words the GX-732 manual names (R8): bytes, 64-bit values, vectors of 512 bytes, predicates of 512 bits, taint masks. -/

namespace Sys2Proof

/-- 8 bits (R8). -/
abbrev Byte := BitVec 8

/-- 64 bits: the *dword* of R8, a scalar register's value. -/
abbrev DWord := BitVec 64

/-- The 512-byte content of one vector register (R8, R139). -/
abbrev VReg := BitVec 4096

/-- A 512-bit predicate (R140). -/
abbrev PReg := BitVec 512

/-- A 16-bit taint mask, bit j for load tag j (R108). -/
abbrev Taint := BitVec 16

end Sys2Proof
end

