-- ==== Sys2Proof/Config.lean ====
section
/-! DEFINITION. Config: what an implementation fixes and the values the manual leaves open. Every constant here has no body, so a claim holds whatever its value is. -/

namespace Sys2Proof

/-- A value the manual leaves undefined where it is drawn; the argument is `State.free`, which the drawing step
advances (R7, R108; log 1). -/
opaque Config.freeWord : Nat → DWord

/-- An undefined vector-register value (R108; log 1). -/
opaque Config.freeVReg : Nat → VReg

/-- The FP32 special function number `op` as the part computes it (R163: one fixed function of the input bits, within
the bound of R163; a value outside the bound is not used; log 2). -/
opaque Config.special32 : (op : Nat) → BitVec 32 → BitVec 32

/-- The data a memory returns for an uncorrectable unit (R470 states no value; log 1). -/
opaque Config.poisonByte : Nat → Byte

/-- Modulus and public exponent of the RSA-3072 key fused into the part (R468; log 6). -/
opaque Config.bootModulus : Nat
opaque Config.bootExponent : Nat

/-- The RSA-3072 signature of a digest under the device identity key of a die (R468; log 6). -/
opaque Config.attestSign : (die : Nat) → List Byte → List Byte

/-- Byte of the resident control-store area at an address, as the firmware of a boot image loads it (R370, R468; log 11). -/
opaque Config.residentByte : (image : List Byte) → Nat → Byte

end Sys2Proof
end

