-- ==== Sys2Proof/Machine/Fp.lean ====
section
/-! DEFINITION. Number formats, rounding and arithmetic (R46 to R68, R163, R164): exact values, one rounding at the end. -/

namespace Sys2Proof.Machine

/-- Exception conditions, as the low bits of `FP_FLAGS` (R60): NV 16, DZ 8, OF 4, UF 2, NX 1. -/
abbrev Fl := BitVec 5

def Fl.nv : Fl := 16
def Fl.dz : Fl := 8
def Fl.of : Fl := 4
def Fl.uf : Fl := 2
def Fl.nx : Fl := 1

/-- The floating-point formats of R47. -/
inductive Fmt where
  | e4m3 | e5m2 | bf16 | f16 | f32
  deriving DecidableEq, Repr

/-- Width in bits (R47). -/
def Fmt.w : Fmt → Nat
  | .e4m3 => 8 | .e5m2 => 8 | .bf16 => 16 | .f16 => 16 | .f32 => 32

/-- Fraction bits F (R47). -/
def Fmt.frac : Fmt → Nat
  | .e4m3 => 3 | .e5m2 => 2 | .bf16 => 7 | .f16 => 10 | .f32 => 23

/-- Exponent bias (R47). -/
def Fmt.bias : Fmt → Int
  | .e4m3 => 7 | .e5m2 => 15 | .bf16 => 127 | .f16 => 15 | .f32 => 127

/-- Bits of the largest finite magnitude (R47). -/
def Fmt.maxFin : Fmt → Nat
  | .e4m3 => 0x7E | .e5m2 => 0x7B | .bf16 => 0x7F7F | .f16 => 0x7BFF | .f32 => 0x7F7FFFFF

/-- Whether the format has an infinity (R47). -/
def Fmt.hasInf : Fmt → Bool
  | .e4m3 => false | .e5m2 => true | .bf16 => true | .f16 => true | .f32 => true

/-- The canonical NaN (R49). -/
def Fmt.nan : Fmt → Nat
  | .e4m3 => 0x7F | .e5m2 => 0x7E | .bf16 => 0x7FC0 | .f16 => 0x7E00 | .f32 => 0x7FC00000

/-- A value before rounding: `fin neg m e` is (−1)^neg × m × 2^e, and with m = 0 a signed zero (R48). -/
inductive Fv where
  | nan
  | inf (neg : Bool)
  | fin (neg : Bool) (m : Nat) (e : Int)
  deriving DecidableEq, Repr

/-- Weight of the lowest subnormal bit: 2^(1 − bias − F). -/
def Fmt.qmin (f : Fmt) : Int := 1 - f.bias - (f.frac : Int)

/-- The value of an element (R48); `flush` reads a subnormal as zero of its sign (R59). -/
def Fmt.read (f : Fmt) (flush : Bool) (x : Nat) : Fv :=
  let mag := x % 2 ^ (f.w - 1)
  let neg := x / 2 ^ (f.w - 1) % 2 = 1
  let e := mag / 2 ^ f.frac
  let m := mag % 2 ^ f.frac
  if mag > f.maxFin then
    (if f.hasInf ∧ mag = f.maxFin + 1 then .inf neg else .nan)
  else if e = 0 then .fin neg (if flush then 0 else m) f.qmin
  else .fin neg (2 ^ f.frac + m) (f.qmin + (e - 1 : Nat))

/-- Rounding modes of R54. -/
inductive Rm where
  | rne | rtz | rup | rdn | rna
  deriving DecidableEq, Repr

/-- The mode a 3-bit RM field names; the reserved codes are refused before this is used (R54). -/
def Rm.ofCode : Nat → Rm
  | 1 => .rtz | 2 => .rup | 3 => .rdn | 4 => .rna | _ => .rne

/-- m × 2^k as an integer under `rm`, for a value of sign `neg`, and whether it is inexact (R54). -/
def roundMag (rm : Rm) (neg : Bool) (m : Nat) (k : Int) : Nat × Bool :=
  if 0 ≤ k then (m * 2 ^ k.toNat, false)
  else
    let d := 2 ^ (-k).toNat
    let q := m / d
    let r := m % d
    if r = 0 then (q, false)
    else
      let up := match rm with
        | .rne => decide (2 * r > d) || (decide (2 * r = d) && decide (q % 2 = 1))
        | .rna => decide (2 * r ≥ d)
        | .rtz => false
        | .rup => !neg
        | .rdn => neg
      (if up then q + 1 else q, true)

/-- How a rounding treats overflow and tiny results: `sat` is the policy of R55, `flush` the exposed mode of R59. -/
structure RoundCtl where
  rm : Rm := .rne
  sat : Bool := false
  flush : Bool := false
  deriving DecidableEq, Repr

/-- The sign bit placed above a magnitude. -/
def Fmt.signed (f : Fmt) (neg : Bool) (mag : Nat) : Nat := (if neg then 2 ^ (f.w - 1) else 0) + mag

/-- An infinite result in format f: R55 (saturate policy; FP8 E4M3 has none). -/
def Fmt.infinite (f : Fmt) (sat neg : Bool) : Nat × Fl :=
  if sat then (f.signed neg f.maxFin, 0)
  else if f.hasInf then (f.signed neg (f.maxFin + 1), 0)
  else (f.nan, Fl.nv)

/-- Overflow under R55's table. -/
def Fmt.overflow (f : Fmt) (c : RoundCtl) (neg : Bool) : Nat × Fl :=
  let toInf := match c.rm with
    | .rne => true | .rna => true | .rtz => false | .rup => !neg | .rdn => neg
  if c.sat || !toInf then (f.signed neg f.maxFin, Fl.of ||| Fl.nx)
  else
    let r := f.infinite false neg
    (r.1, r.2 ||| Fl.of ||| Fl.nx)

/-- Rounding of a value to format f with its conditions (R55, R57, R59). -/
def Fmt.round (f : Fmt) (c : RoundCtl) : Fv → Nat × Fl
  | .nan => (f.nan, 0)
  | .inf neg => f.infinite c.sat neg
  | .fin neg m e =>
    if m = 0 then (f.signed neg 0, 0)
    else
      let top : Int := e + (Nat.log2 m : Nat)
      let q : Int := Max.max (top - (f.frac : Int)) f.qmin
      let (n, inexact) := roundMag c.rm neg m (e - q)
      let mag := (q - f.qmin).toNat * 2 ^ f.frac + n
      if mag > f.maxFin then f.overflow c neg
      else if n ≠ 0 ∧ mag < 2 ^ f.frac then
        (if c.flush then (f.signed neg 0, Fl.uf ||| Fl.nx)
         else (f.signed neg mag, if inexact then Fl.uf ||| Fl.nx else 0))
      else (f.signed neg mag, if inexact then Fl.nx else 0)

/-- The signed integer m × 2^e scaled to the exponent `e0 ≤ e`. -/
def scaleTo (e0 : Int) (neg : Bool) (m : Nat) (e : Int) : Int :=
  let a : Int := (m * 2 ^ (e - e0).toNat : Nat)
  if neg then -a else a

/-- The value of a signed integer times 2^e, zero with sign `zneg`. -/
def Fv.ofInt (zneg : Bool) (x : Int) (e : Int) : Fv :=
  if x = 0 then .fin zneg 0 0 else .fin (decide (x < 0)) x.natAbs e

/-- −x. -/
def Fv.neg : Fv → Fv
  | .nan => .nan
  | .inf s => .inf (!s)
  | .fin s m e => .fin (!s) m e

/-- Exact x + y; the sign of an exact zero sum by R57; ∞ − ∞ is NaN with NV (R58). -/
def Fv.add (rm : Rm) : Fv → Fv → Fv × Fl
  | .nan, _ => (.nan, 0)
  | _, .nan => (.nan, 0)
  | .inf s, .inf t => if s = t then (.inf s, 0) else (.nan, Fl.nv)
  | .inf s, .fin _ _ _ => (.inf s, 0)
  | .fin _ _ _, .inf t => (.inf t, 0)
  | .fin s m e, .fin t n d =>
    if m = 0 ∧ n = 0 then (.fin (if s = t then s else decide (rm = .rdn)) 0 0, 0)
    else if m = 0 then (.fin t n d, 0)
    else if n = 0 then (.fin s m e, 0)
    else
      let e0 := Min.min e d
      (Fv.ofInt (decide (rm = .rdn)) (scaleTo e0 s m e + scaleTo e0 t n d) e0, 0)

/-- Exact x × y; ∞ × 0 is NaN with NV (R58). -/
def Fv.mul : Fv → Fv → Fv × Fl
  | .nan, _ => (.nan, 0)
  | _, .nan => (.nan, 0)
  | .inf s, .inf t => (.inf (s != t), 0)
  | .inf s, .fin t n _ => if n = 0 then (.nan, Fl.nv) else (.inf (s != t), 0)
  | .fin s m _, .inf t => if m = 0 then (.nan, Fl.nv) else (.inf (s != t), 0)
  | .fin s m e, .fin t n d => (.fin (s != t) (m * n) (e + d), 0)

/-- Exact a × b + c (R57, R147: ∞ × 0 sets NV even when c is NaN). -/
def Fv.fma (rm : Rm) (a b c : Fv) : Fv × Fl :=
  let p := Fv.mul a b
  if p.2 ≠ 0 then (.nan, p.2)
  else
    let r := Fv.add rm p.1 c
    (r.1, r.2)

/-- Order of two values that are not NaN: x < y, with zeros equal. -/
def Fv.lt : Fv → Fv → Bool
  | .nan, _ => false
  | _, .nan => false
  | .inf s, .inf t => s && !t
  | .inf s, .fin _ _ _ => s
  | .fin _ _ _, .inf t => !t
  | .fin s m e, .fin t n d =>
    let e0 := Min.min e d
    decide (scaleTo e0 s m e < scaleTo e0 t n d)

def Fv.isNan : Fv → Bool
  | .nan => true
  | _ => false

def Fv.isZero : Fv → Bool
  | .fin _ m _ => decide (m = 0)
  | _ => false

def Fv.isNeg : Fv → Bool
  | .nan => false
  | .inf s => s
  | .fin s _ _ => s

/-- Equality of values that are not NaN; −0 equals +0. -/
def Fv.eq (x y : Fv) : Bool := !x.isNan && !y.isNan && !Fv.lt x y && !Fv.lt y x

/-- Minimum by R58: NaN wins; min(+0, −0) = −0. -/
def Fv.min (x y : Fv) : Fv :=
  if x.isNan || y.isNan then .nan
  else if Fv.eq x y then (if x.isNeg then x else y)
  else if Fv.lt x y then x else y

/-- Maximum by R58: max(+0, −0) = +0. -/
def Fv.max (x y : Fv) : Fv :=
  if x.isNan || y.isNan then .nan
  else if Fv.eq x y then (if x.isNeg then y else x)
  else if Fv.lt x y then y else x

/-- A floating-point value as an integer in [lo, hi] (R56): nearest end with NV when outside, NaN gives 0 with NV. -/
def Fv.toInt (rm : Rm) (lo hi : Int) : Fv → Int × Fl
  | .nan => (0, Fl.nv)
  | .inf s => (if s then lo else hi, Fl.nv)
  | .fin s m e =>
    let (n, ix) := roundMag rm s m e
    let v : Int := if s then -(n : Int) else n
    if v < lo then (lo, Fl.nv) else if hi < v then (hi, Fl.nv) else (v, if ix then Fl.nx else 0)

/-! ## The tree of R66 -/

/-- Smallest L with n ≤ 2^L, found with fuel. -/
def treeDepth (n : Nat) : Nat := if n ≤ 1 then 0 else Nat.log2 (n - 1) + 1

/-- One level of the tree: neighbours combined, the left operand of lower index (R66). -/
def treeLevel {α : Type} (op : α → α → α × Fl) : List α → List α × Fl
  | a :: b :: t =>
    let r := op a b
    let rest := treeLevel op t
    (r.1 :: rest.1, r.2 ||| rest.2)
  | l => (l, 0)

def treeLevels {α : Type} (op : α → α → α × Fl) : Nat → List α → List α × Fl
  | 0, l => (l, 0)
  | k + 1, l =>
    let r := treeLevel op l
    let r' := treeLevels op k r.1
    (r'.1, r.2 ||| r'.2)

/-- `tree_reduce` of R66: padded with the identity to a power of two. -/
def treeReduce {α : Type} (op : α → α → α × Fl) (ident : α) (xs : List α) : α × Fl :=
  let d := treeDepth xs.length
  let r := treeLevels op d (xs ++ List.replicate (2 ^ d - xs.length) ident)
  (r.1.headD ident, r.2)

/-- Reduction operations of R66. -/
inductive RedOp where
  | add | min | max
  deriving DecidableEq, Repr

/-- `op_round` on encodings of a floating-point format (R66, R58, R59). -/
def RedOp.fpRound (op : RedOp) (f : Fmt) (flush : Bool) (x y : Nat) : Nat × Fl :=
  let a := f.read flush x
  let b := f.read flush y
  match op with
  | .add =>
    let s := Fv.add .rne a b
    let r := f.round { flush := flush } s.1
    (r.1, s.2 ||| r.2)
  | .min => f.round { flush := flush } (Fv.min a b)
  | .max => f.round { flush := flush } (Fv.max a b)

/-- Identity of a floating-point reduction (R66). -/
def RedOp.fpIdent (op : RedOp) (f : Fmt) : Nat :=
  match op with
  | .add => f.signed true 0
  | .min => f.signed false (f.maxFin + 1)
  | .max => f.signed true (f.maxFin + 1)

/-- Integer node of R66 on 32-bit values; `uns` compares unsigned (R158). -/
def RedOp.intRound (op : RedOp) (uns : Bool) (x y : BitVec 32) : BitVec 32 × Fl :=
  let lt := if uns then decide (x.toNat < y.toNat) else decide (x.toInt < y.toInt)
  match op with
  | .add => (x + y, 0)
  | .min => (if lt then x else y, 0)
  | .max => (if lt then y else x, 0)

/-- Identity of an integer reduction (R66, R158). -/
def RedOp.intIdent (op : RedOp) (uns : Bool) : BitVec 32 :=
  match op with
  | .add => 0
  | .min => if uns then 0xFFFFFFFF else 0x7FFFFFFF
  | .max => if uns then 0 else 0x80000000

/-! ## Matrix products (R61 to R65) -/

/-- Exact sum of a group of products (R64): the value added to the accumulator. -/
def groupSum (ps : List (Fv × Fv)) : Fv :=
  let prods := ps.map fun p => Fv.mul p.1 p.2
  if prods.any (fun p => p.1.isNan) then .nan
  else
    let hasInf (s : Bool) := prods.any fun p => decide (p.1 = .inf s)
    if hasInf false && hasInf true then .nan
    else if hasInf false then .inf false
    else if hasInf true then .inf true
    else
      let e0 := prods.foldl (fun e p => match p.1 with
        | .fin _ m d => if m = 0 then e else Min.min e d
        | _ => e) 0
      let sum := prods.foldl (fun (a : Int) p => match p.1 with
        | .fin s m d => if m = 0 then a else a + scaleTo e0 s m d
        | _ => a) 0
      let allNegZero := prods.all fun p => p.1.isNeg && p.1.isZero
      Fv.ofInt allNegZero sum e0

/-- Cut a list into pieces of at most g, with fuel (R63). -/
def chunks {α : Type} (g : Nat) : Nat → List α → List (List α)
  | 0, _ => []
  | fuel + 1, l => if l.isEmpty then [] else l.take g :: chunks g fuel (l.drop g)

/-- `mma_element` of R64 on FP32 accumulator bits. -/
def mmaElement (acc : Nat) (ad flush : Bool) (g : Nat) (ps : List (Fv × Fv)) : Nat :=
  let start := if ad then Fmt.f32.signed true 0 else acc
  (chunks g ps.length ps).foldl (fun a grp =>
    (Fmt.f32.round { flush := flush } (Fv.add .rne (Fmt.f32.read flush a) (groupSum grp)).1).1) start

/-- The integer accumulation of R65: exact group sums, wrapped to 32 bits. -/
def mmaElementInt (acc : BitVec 32) (ad : Bool) (ps : List (Int × Int)) : BitVec 32 :=
  (if ad then 0 else acc) + BitVec.ofInt 32 (ps.foldl (fun a p => a + p.1 * p.2) 0)

/-! ## Block floating point (R51 to R53) -/

/-- Value of mantissa q (an m-bit field) under exponent byte e (R52). -/
def bfpRead (m q e : Nat) : Fv :=
  if e = 0xFF then .nan
  else
    let v : Int := (BitVec.ofNat m q).toInt
    Fv.ofInt false v ((e : Int) - 127 - ((m : Int) - 1))

/-- floor(log2 |x|) + 1 of a non-zero value. -/
def Fv.top : Fv → Int
  | .fin _ m e => e + (Nat.log2 m : Nat) + 1
  | _ => 0

/-- `bfp_quantise` of R53: exponent byte, mantissas as m-bit fields, conditions. -/
def bfpQuantise (xs : List Fv) (m : Nat) (rm : Rm) : Nat × List Nat × Fl :=
  if xs.any (fun x => match x with | .fin _ _ _ => false | _ => true) then (0xFF, xs.map (fun _ => 0), Fl.nv)
  else if xs.all Fv.isZero then (0, xs.map (fun _ => 0), 0)
  else
    let t := (xs.filter fun x => !x.isZero).foldl (fun (a : Option Int) x =>
      match a with | none => some x.top | some v => some (Max.max v x.top)) none
    let e : Int := Max.max 0 (Min.min 0xFE (t.getD 0 + 127))
    let sc : Int := e - 127 - ((m : Int) - 1)
    let qs := xs.map fun x => match x with
      | .fin s n d =>
        let r := roundMag rm s n (d - sc)
        let v : Int := if s then -(r.1 : Int) else r.1
        let hi : Int := 2 ^ (m - 1) - 1
        let lo : Int := -(2 ^ (m - 1))
        let nx : Fl := if r.2 then Fl.nx else 0
        if v > hi then (hi, nx ||| Fl.of) else if v < lo then (lo, nx ||| Fl.of) else (v, nx)
      | _ => (0, 0)
    (e.toNat, qs.map (fun q => (BitVec.ofInt m q.1).toNat), qs.foldl (fun a q => a ||| q.2) 0)

/-! ## Special functions (R163, R164)

An irrational result is handed to the rounding as an odd multiple of a far smaller unit that lies strictly between
the same neighbours of the format as the exact result. -/

/-- Fixed-point bits of the evaluation. -/
def spP : Nat := 512

/-- ln 2 with `spP` fraction bits, by the series of 1 / (k 2^k). -/
def ln2Fix : Nat := (List.range 520).foldl (fun a k => a + 2 ^ spP / ((k + 1) * 2 ^ (k + 1))) 0

/-- e^x for 0 ≤ x < 1 (both with `spP` fraction bits), by its Taylor series. -/
def expFix (x : Nat) : Nat :=
  ((List.range 120).foldl (fun (p : Nat × Nat) k => (p.1 + p.2, p.2 * x / ((k + 1) * 2 ^ spP))) (0, 2 ^ spP)).1

/-- 2^(k + f) for an integer k and a fraction f with `spP` bits, not zero, as a value strictly between neighbours. -/
def exp2Parts (k : Int) (f : Nat) : Fv :=
  let y := expFix (f * ln2Fix / 2 ^ spP)
  .fin false (2 * (y / 2 ^ 40) + 1) (k - ((spP : Int) - 40) - 1)

/-- A dyadic magnitude m 2^e as (floor, fraction with `spP` bits); the fraction bits of any finite operand fit. -/
def splitFix (m : Nat) (e : Int) : Nat × Nat :=
  let v := if 0 ≤ e + spP then m * 2 ^ (e + spP).toNat else m / 2 ^ (-(e + spP)).toNat
  (v / 2 ^ spP, v % 2 ^ spP)

/-- 2^a for a finite operand. -/
def spExp2 (neg : Bool) (m : Nat) (e : Int) : Fv :=
  if m = 0 then .fin false 1 0
  else if e + (Nat.log2 m : Nat) ≥ 16 then .fin false 1 (if neg then -65536 else 65536)
  else
    let (n, f) := splitFix m e
    if f = 0 then .fin false 1 (if neg then -(n : Int) else n)
    else if neg then exp2Parts (-(n : Int) - 1) (2 ^ spP - f)
    else exp2Parts n f

/-- Fraction bits of log2 x for x in [1, 2) with `spP` fraction bits, by repeated squaring. -/
def log2Bits : Nat → Nat → Nat → Nat
  | 0, _, acc => acc
  | k + 1, x, acc =>
    let y := x * x / 2 ^ spP
    if y ≥ 2 * 2 ^ spP then log2Bits k (y / 2) (2 * acc + 1) else log2Bits k y (2 * acc)

/-- log2 of m 2^e, m > 0. -/
def spLog2 (m : Nat) (e : Int) : Fv :=
  let l := Nat.log2 m
  let k : Int := e + l
  if m = 2 ^ l then Fv.ofInt false k 0
  else
    let t : Int := k * 2 ^ 200 + log2Bits 200 (m * 2 ^ spP / 2 ^ l) 0
    if 0 ≤ t then .fin false (2 * t.toNat + 1) (-201) else .fin true (2 * ((-t).toNat - 1) + 1) (-201)

/-- 1 / (m 2^e), m > 0. -/
def spRcp (neg : Bool) (m : Nat) (e : Int) : Fv :=
  let l := Nat.log2 m
  if m = 2 ^ l then .fin neg 1 (-(e + l))
  else .fin neg (2 * (2 ^ (l + 80) / m) + 1) (-(e + l + 80) - 1)

/-- 1 / √(m 2^e), m > 0. -/
def spRsq (m : Nat) (e : Int) : Fv :=
  let (m, e) := if e % 2 = 0 then (m, e) else (2 * m, e - 1)
  let l := Nat.log2 m
  if m = 2 ^ l ∧ l % 2 = 0 then .fin false 1 (-((e + l) / 2))
  else .fin false (2 * Nat.sqrt (2 ^ (2 * (l + 80)) / m) + 1) (-(e / 2 + l + 80) - 1)

/-- e^(−y) with `spP` fraction bits for y = m 2^e below 512. -/
def expNeg (m : Nat) (e : Int) : Nat :=
  let (n, f) := splitFix m e
  let v := (n * 2 ^ spP + f) * 2 ^ spP / ln2Fix
  let k := v / 2 ^ spP
  let g := v % 2 ^ spP
  expFix ((2 ^ spP - g) * ln2Fix / 2 ^ spP) / 2 ^ (k + 1)

/-- A value just below the magnitude m 2^e. -/
def justBelow (neg : Bool) (m : Nat) (e : Int) : Fv := .fin neg (m * 2 ^ 80 - 1) (e - 80)

/-- tanh of a non-zero finite operand. -/
def spTanh (neg : Bool) (m : Nat) (e : Int) : Fv :=
  let t := e + (Nat.log2 m : Nat)
  if t < -60 then justBelow neg m e
  else if t ≥ 6 then justBelow neg 1 0
  else
    let x := expNeg m (e + 1)
    let y := (2 ^ spP - x) * 2 ^ spP / (2 ^ spP + x)
    .fin neg (2 * (y / 2 ^ 200) + 1) (-((spP : Int) - 200) - 1)

/-- The logistic function of a finite operand. -/
def spSigm (neg : Bool) (m : Nat) (e : Int) : Fv :=
  if m = 0 then .fin false 1 (-1)
  else
    let big := e + (Nat.log2 m : Nat) ≥ 8
    if big ∧ !neg then justBelow false 1 0
    else if big then .fin false 1 (-360)
    else
      let x := expNeg m e
      let y := (if neg then x else 2 ^ spP) * 2 ^ spP / (2 ^ spP + x)
      .fin false (2 * (y / 2 ^ 40) + 1) (-((spP : Int) - 40) - 1)

/-- The special functions, numbered by their opcode (R163). -/
inductive Sp where
  | exp2 | log2 | rcp | rsq | tanh | sigm
  deriving DecidableEq, Repr

def Sp.op : Sp → Nat
  | .exp2 => 0x39 | .log2 => 0x3A | .rcp => 0x3B | .rsq => 0x3C | .tanh => 0x3D | .sigm => 0x3E

/-- The exact value with the table's conditions (R164) and whether the table or an exact case gives it. -/
def Sp.value (op : Sp) : Fv → Fv × Fl
  | .nan => (.nan, 0)
  | .inf s => match op with
    | .exp2 => (if s then .fin false 0 0 else .inf false, 0)
    | .log2 => if s then (.nan, Fl.nv) else (.inf false, 0)
    | .rcp => (.fin s 0 0, 0)
    | .rsq => if s then (.nan, Fl.nv) else (.fin false 0 0, 0)
    | .tanh => (.fin s 1 0, 0)
    | .sigm => (if s then .fin false 0 0 else .fin false 1 0, 0)
  | .fin s m e => match op with
    | .exp2 => (spExp2 s m e, 0)
    | .log2 => if m = 0 then (.inf true, Fl.dz) else if s then (.nan, Fl.nv) else (spLog2 m e, 0)
    | .rcp => if m = 0 then (.inf s, Fl.dz) else (spRcp s m e, 0)
    | .rsq => if m = 0 then (.inf s, Fl.dz) else if s then (.nan, Fl.nv) else (spRsq m e, 0)
    | .tanh => (if m = 0 then .fin s 0 0 else spTanh s m e, 0)
    | .sigm => (spSigm s m e, 0)

/-- |x| ≤ 2^k apart: |x − y| ≤ 2^k for finite values. -/
def Fv.within (x y : Fv) (n : Nat) (k : Int) : Bool :=
  match x, y with
  | .fin s m e, .fin t p d =>
    let e0 := Min.min (Min.min e d) k
    decide ((scaleTo e0 s m e - scaleTo e0 t p d).natAbs ≤ n * 2 ^ (k - e0).toNat)
  | _, _ => false

/-- R163's FP32 bound: n × 2^k around the exact value y of a function at input x. -/
def Sp.bound (op : Sp) (x y : Fv) : Nat × Int :=
  let ulp : Int := Max.max (y.top - 1 - 23) (-149)
  match op with
  | .log2 => if x.top = 0 ∨ x.top = 1 then (1, -22) else (2, ulp)
  | .rcp => (1, ulp)
  | .rsq => (1, ulp)
  | .exp2 => (2, ulp)
  | .tanh => (2, ulp)
  | .sigm => (2, ulp)

/-- Whether the value is one of R164's exact ones: table rows and exact cases. -/
def Sp.exact (op : Sp) (x y : Fv) : Bool :=
  match x with
  | .fin _ m e =>
    if m = 0 then true
    else match op with
      | .exp2 => match y with
        | .fin _ n _ => decide (n = 1) && decide (e + (Nat.log2 m : Nat) < 16)
        | _ => true
      | .log2 => decide (m = 2 ^ Nat.log2 m) || y.isNan
      | .rcp => match y with | .fin _ n _ => decide (n = 1) | _ => true
      | .rsq => match y with | .fin _ n _ => decide (n = 1) | _ => true
      | .tanh => false
      | .sigm => false
  | _ => true

/-- A special function on an element (R163, R164): rounded exactly for 8- and 16-bit types; for FP32 the part's own
function where it lies in the bound. -/
def Sp.eval (op : Sp) (f : Fmt) (c : RoundCtl) (x : Nat) : Nat × Fl :=
  let a := f.read c.flush x
  let v := op.value a
  let direct := f.round c v.1
  if f ≠ .f32 ∨ op.exact a v.1 then (direct.1, direct.2 ||| v.2)
  else
    let r := Config.special32 op.op (BitVec.ofNat 32 x)
    let y := Fmt.f32.read false r.toNat
    let b := op.bound a v.1
    if Fv.within y v.1 b.1 b.2 ∧ direct.2 &&& Fl.of = 0 then
      let p := f.round c y
      (p.1, p.2 ||| Fl.nx ||| (if y.top ≤ -126 ∧ !y.isZero then Fl.uf else 0))
    else (direct.1, direct.2 ||| v.2 ||| Fl.nx)

end Sys2Proof.Machine
end

