-- ==== Sys2Proof/Syntax.lean ====
section
/-! DEFINITION. The instruction words: one structure per slot-word form (R80 to R96, R98), and one constructor of `Instr` per row of the opcode table. -/

namespace Sys2Proof

/-- R form with size and signedness (R80, R126): FN[0] is `w`, FN[1] is `u`; `e`, `f` are EA and EB. -/
structure ArithR where
  d : BitVec 6
  a : BitVec 6
  e : Bool
  b : BitVec 6
  f : Bool
  u : Bool
  w : Bool
  deriving DecidableEq, Repr

/-- R form of the logic, shift and rotate instructions (R130). -/
structure LogicR where
  d : BitVec 6
  a : BitVec 6
  e : Bool
  b : BitVec 6
  f : Bool
  w : Bool
  deriving DecidableEq, Repr

/-- I form (R80, R128). -/
structure ImmI where
  d : BitVec 6
  a : BitVec 6
  e : Bool
  imm : BitVec 11
  deriving DecidableEq, Repr

/-- I form of the shift immediates (R131). -/
structure ShiftI where
  d : BitVec 6
  a : BitVec 6
  e : Bool
  c : BitVec 6
  deriving DecidableEq, Repr

/-- R form with one source (R131, R137). -/
structure UnaryR where
  d : BitVec 6
  a : BitVec 6
  e : Bool
  deriving DecidableEq, Repr

/-- R form of CMP: FN is COND (R132). -/
structure CmpR where
  d : BitVec 6
  a : BitVec 6
  e : Bool
  b : BitVec 6
  f : Bool
  cond : BitVec 4
  deriving DecidableEq, Repr

/-- C form of CMPI (R80, R132). -/
structure CmpC where
  d : BitVec 6
  a : BitVec 6
  e : Bool
  cond : BitVec 4
  imm : BitVec 7
  deriving DecidableEq, Repr

/-- R form of CMPP (R132). -/
structure CmppR where
  p : BitVec 3
  a : BitVec 6
  e : Bool
  b : BitVec 6
  f : Bool
  cond : BitVec 4
  deriving DecidableEq, Repr

/-- C form of CMPPI (R132). -/
structure CmppC where
  p : BitVec 3
  a : BitVec 6
  e : Bool
  cond : BitVec 4
  imm : BitVec 7
  deriving DecidableEq, Repr

/-- R form of SEL: FN[2:0] names the predicate (R133). -/
structure SelR where
  d : BitVec 6
  a : BitVec 6
  e : Bool
  b : BitVec 6
  f : Bool
  p : BitVec 3
  deriving DecidableEq, Repr

/-- R form with two sources and FN reserved (R133, R134, R137). -/
structure BinR where
  d : BitVec 6
  a : BitVec 6
  e : Bool
  b : BitVec 6
  f : Bool
  deriving DecidableEq, Repr

/-- R form of LEA: FN[2:0] is the shift (R129). -/
structure LeaR where
  d : BitVec 6
  a : BitVec 6
  e : Bool
  b : BitVec 6
  f : Bool
  sh : BitVec 3
  deriving DecidableEq, Repr

/-- F form (R80, R134). -/
structure FieldF where
  d : BitVec 6
  a : BitVec 6
  wid : BitVec 6
  ofs : BitVec 6
  deriving DecidableEq, Repr

/-- K form and the S form of PMFCR and PMTCR: register, CRN, EA (R80, R96). -/
structure CrK where
  r : BitVec 6
  crn : BitVec 12
  e : Bool
  deriving DecidableEq, Repr

/-- A vector slot word without its opcode (R84). -/
structure VWord where
  typ : BitVec 4
  rm : BitVec 3
  pen : Bool
  pg : BitVec 3
  rpt : BitVec 2
  sat : Bool
  ea : Bool
  eb : Bool
  ec : Bool
  bs : Bool
  res : BitVec 2
  imm : BitVec 12
  vd : BitVec 6
  va : BitVec 6
  vb : BitVec 6
  vc : BitVec 6
  deriving DecidableEq, Repr

/-- A matrix slot word without its opcode (R87). -/
structure MWord where
  mfmt : BitVec 4
  rz : Bool
  sat : Bool
  rq : BitVec 2
  dt : BitVec 3
  dec : Bool
  scale : BitVec 8
  acc2 : BitVec 2
  res : BitVec 10
  acc : BitVec 2
  oa : BitVec 4
  ob : BitVec 4
  na : Bool
  nb : Bool
  ad : Bool
  sr : BitVec 6
  ea : Bool
  sd : BitVec 4
  deriving DecidableEq, Repr

/-- A memory and stream slot word without its opcode (R89); the plan operations use it too (R376). -/
structure MemWord where
  disp : BitVec 16
  ord : BitVec 2
  scope : BitVec 3
  pen : Bool
  pg : BitVec 3
  ea : Bool
  ed : Bool
  ei : Bool
  u : Bool
  res : BitVec 3
  dr : BitVec 6
  base : BitVec 6
  idx : BitVec 6
  sz : BitVec 3
  sh : BitVec 3
  deriving DecidableEq, Repr

/-- A copy and collective slot word without its opcode (R91). -/
structure CpWord where
  off : BitVec 12
  dt : BitVec 3
  dec : Bool
  acw : Bool
  sr : BitVec 6
  ea : Bool
  rq : BitVec 2
  le : Bool
  res : BitVec 5
  stg : BitVec 3
  ch : BitVec 8
  lc : BitVec 6
  fe : Bool
  fl : BitVec 5
  res0 : Bool
  deriving DecidableEq, Repr

/-- S form with two scalar operands (R96, R458). -/
structure SysR where
  a : BitVec 6
  b : BitVec 6
  e : Bool
  deriving DecidableEq, Repr

/-- EGB form GC (R98). -/
structure GcWord where
  ha : BitVec 5
  hb : BitVec 5
  hc : BitVec 5
  cond : BitVec 4
  imm : BitVec 32
  deriving DecidableEq, Repr

/-- EGB form GH with its trailing words (R98); NW is the number of trailing words. -/
structure GhWord where
  handle : BitVec 12
  aux : BitVec 32
  trail : List (BitVec 64)
  deriving DecidableEq, Repr

/-- EGB form GO with its handle words, as 16-bit references, and attribute words (R98, R99). -/
structure OpWord where
  opid : BitVec 10
  cons : BitVec 32
  refs : List (BitVec 16)
  attrs : List (BitVec 64)
  deriving DecidableEq, Repr

/-- The operands of a hardware event or of an action from outside. An event has no encoding: the turn that lets it
happen names its operands here, and each event's constructor says which it reads. -/
structure EvArgs where
  u : Nat := 0
  k : Nat := 0
  m : Nat := 0
  n : Nat := 0
  v : BitVec 64 := 0
  flag : Bool := false
  bytes : List (BitVec 8) := []
  deriving DecidableEq, Repr

/-- The steps of the part: one constructor per row of the opcode table, instructions by slot first and the hardware
events, whose operands stand in `EvArgs`, after them. -/
inductive Instr where
  /-- ADD (R126). -/
  | add (f : ArithR)
  /-- SUB (R126). -/
  | sub (f : ArithR)
  /-- MUL (R126). -/
  | mul (f : ArithR)
  /-- MULH (R126). -/
  | mulh (f : ArithR)
  /-- DIV (R127). -/
  | div (f : ArithR)
  /-- REM (R127). -/
  | rem (f : ArithR)
  /-- ADDI (R128). -/
  | addi (f : ImmI)
  /-- RSBI (R128). -/
  | rsbi (f : ImmI)
  /-- MULI (R128). -/
  | muli (f : ImmI)
  /-- MIN (R126). -/
  | min (f : ArithR)
  /-- MAX (R126). -/
  | max (f : ArithR)
  /-- AND (R130). -/
  | and (f : LogicR)
  /-- OR (R130). -/
  | or (f : LogicR)
  /-- XOR (R130). -/
  | xor (f : LogicR)
  /-- ANDN (R130). -/
  | andn (f : LogicR)
  /-- ORN (R130). -/
  | orn (f : LogicR)
  /-- ANDI (R128). -/
  | andi (f : ImmI)
  /-- ORI (R128). -/
  | ori (f : ImmI)
  /-- XORI (R128). -/
  | xori (f : ImmI)
  /-- SHL (R130). -/
  | shl (f : LogicR)
  /-- SHR (R130). -/
  | shr (f : LogicR)
  /-- SAR (R130). -/
  | sar (f : LogicR)
  /-- ROL (R130). -/
  | rol (f : LogicR)
  /-- ROR (R130). -/
  | ror (f : LogicR)
  /-- SHLI (R131). -/
  | shli (f : ShiftI)
  /-- SHRI (R131). -/
  | shri (f : ShiftI)
  /-- SARI (R131). -/
  | sari (f : ShiftI)
  /-- RORI (R131). -/
  | rori (f : ShiftI)
  /-- POPC (R131). -/
  | popc (f : UnaryR)
  /-- CLZ (R131). -/
  | clz (f : UnaryR)
  /-- CMP (R132). -/
  | cmp (f : CmpR)
  /-- CMPI (R132). -/
  | cmpi (f : CmpC)
  /-- CMPP (R132). -/
  | cmpp (f : CmppR)
  /-- CMPPI (R132). -/
  | cmppi (f : CmppC)
  /-- SEL (R133). -/
  | sel (f : SelR)
  /-- CMOV (R133). -/
  | cmov (f : BinR)
  /-- LEA (R129). -/
  | lea (f : LeaR)
  /-- BFX (R134). -/
  | bfx (f : BinR)
  /-- BFXS (R134). -/
  | bfxs (f : BinR)
  /-- BFXI (R134). -/
  | bfxi (f : FieldF)
  /-- BFXSI (R134). -/
  | bfxsi (f : FieldF)
  /-- BFI (R134). -/
  | bfi (f : BinR)
  /-- BFII (R134). -/
  | bfii (f : FieldF)
  /-- MOVI (R135). -/
  | movi (d : BitVec 6) (imm : BitVec 18)
  /-- MOVL (R135). -/
  | movl (d : BitVec 6) (lit : BitVec 64)
  /-- MFCR (R136). -/
  | mfcr (f : CrK)
  /-- MTCR (R136). -/
  | mtcr (f : CrK)
  /-- TCLR (R137). -/
  | tclr (d : BitVec 6)
  /-- TGET (R137). -/
  | tget (f : UnaryR)
  /-- TSPILL (R137). -/
  | tspill (f : UnaryR)
  /-- TFILL (R137). -/
  | tfill (f : BinR)
  /-- VADD (R147). -/
  | vadd (f : VWord)
  /-- VSUB (R147). -/
  | vsub (f : VWord)
  /-- VMUL (R147). -/
  | vmul (f : VWord)
  /-- VMULH (R147). -/
  | vmulh (f : VWord)
  /-- VFMA (R147). -/
  | vfma (f : VWord)
  /-- VFMS (R147). -/
  | vfms (f : VWord)
  /-- VFNMA (R147). -/
  | vfnma (f : VWord)
  /-- VABS (R147). -/
  | vabs (f : VWord)
  /-- VNEG (R147). -/
  | vneg (f : VWord)
  /-- VMIN (R147). -/
  | vmin (f : VWord)
  /-- VMAX (R147). -/
  | vmax (f : VWord)
  /-- VSHL (R148). -/
  | vshl (f : VWord)
  /-- VSHR (R148). -/
  | vshr (f : VWord)
  /-- VSAR (R148). -/
  | vsar (f : VWord)
  /-- VCLAMP (R147). -/
  | vclamp (f : VWord)
  /-- VDOT4 (R149). -/
  | vdot4 (f : VWord)
  /-- VCMP (R150). -/
  | vcmp (f : VWord)
  /-- VSEL (R151). -/
  | vsel (f : VWord)
  /-- VAND (R151). -/
  | vand (f : VWord)
  /-- VOR (R151). -/
  | vor (f : VWord)
  /-- VXOR (R151). -/
  | vxor (f : VWord)
  /-- VNOT (R151). -/
  | vnot (f : VWord)
  /-- VMOV (R151). -/
  | vmov (f : VWord)
  /-- PAND (R152). -/
  | pand (f : VWord)
  /-- POR (R152). -/
  | por (f : VWord)
  /-- PXOR (R152). -/
  | pxor (f : VWord)
  /-- PNOT (R152). -/
  | pnot (f : VWord)
  /-- PMOV (R152). -/
  | pmov (f : VWord)
  /-- PCNT (R152). -/
  | pcnt (f : VWord)
  /-- PSET (R152). -/
  | pset (f : VWord)
  /-- VIOTA (R153). -/
  | viota (f : VWord)
  /-- VCVT (R154). -/
  | vcvt (f : VWord)
  /-- VWIDEN (R154). -/
  | vwiden (f : VWord)
  /-- VWIDEN4 (R154). -/
  | vwiden4 (f : VWord)
  /-- VNARROW (R154). -/
  | vnarrow (f : VWord)
  /-- VNARROW4 (R154). -/
  | vnarrow4 (f : VWord)
  /-- VBPACK (R156). -/
  | vbpack (f : VWord)
  /-- VBUNPK (R157). -/
  | vbunpk (f : VWord)
  /-- VRSUM (R158). -/
  | vrsum (f : VWord)
  /-- VRMIN (R158). -/
  | vrmin (f : VWord)
  /-- VRMAX (R158). -/
  | vrmax (f : VWord)
  /-- VPERM (R159). -/
  | vperm (f : VWord)
  /-- VROT (R160). -/
  | vrot (f : VWord)
  /-- VZIP (R161). -/
  | vzip (f : VWord)
  /-- VUNZIP (R161). -/
  | vunzip (f : VWord)
  /-- VBCST (R162). -/
  | vbcst (f : VWord)
  /-- VBCSTI (R162). -/
  | vbcsti (f : VWord) (lit : BitVec 32)
  /-- VMOVS (R162). -/
  | vmovs (f : VWord)
  /-- VINS (R162). -/
  | vins (f : VWord)
  /-- VEXP2 (R163). -/
  | vexp2 (f : VWord)
  /-- VLOG2 (R163). -/
  | vlog2 (f : VWord)
  /-- VRCP (R163). -/
  | vrcp (f : VWord)
  /-- VRSQ (R163). -/
  | vrsq (f : VWord)
  /-- VTANH (R163). -/
  | vtanh (f : VWord)
  /-- VSIGM (R163). -/
  | vsigm (f : VWord)
  /-- VRDA (R166). -/
  | vrda (f : VWord)
  /-- VWRA (R167). -/
  | vwra (f : VWord)
  /-- VPOPQ (R169). -/
  | vpopq (f : VWord)
  /-- OCLAIM (R182). -/
  | oclaim (f : MWord)
  /-- ORELEASE (R182). -/
  | orelease (f : MWord)
  /-- OFILL (R184). -/
  | ofill (f : MWord)
  /-- OSTAT (R183). -/
  | ostat (f : MWord)
  /-- OZERO (R186). -/
  | ozero (f : MWord)
  /-- MMA (R188). -/
  | mma (f : MWord)
  /-- DRAIN (R189). -/
  | drain (f : MWord)
  /-- ACLR (R190). -/
  | aclr (f : MWord)
  /-- ALOAD (R190). -/
  | aload (f : MWord)
  /-- AMOV (R190). -/
  | amov (f : MWord)
  /-- MSYNC (R191). -/
  | msync (f : MWord)
  /-- MSTAT (R192). -/
  | mstat (f : MWord)
  /-- LD (R235). -/
  | ld (f : MemWord)
  /-- LDX (R235). -/
  | ldx (f : MemWord)
  /-- ST (R235). -/
  | st (f : MemWord)
  /-- VLD (R236). -/
  | vld (f : MemWord)
  /-- VST (R236). -/
  | vst (f : MemWord)
  /-- VGATH (R237). -/
  | vgath (f : MemWord)
  /-- VSCAT (R237). -/
  | vscat (f : MemWord)
  /-- PREF (R239). -/
  | pref (f : MemWord)
  /-- ACQR (R240). -/
  | acqr (f : MemWord)
  /-- L2PIN (R241). -/
  | l2pin (f : MemWord)
  /-- L2UNPIN (R241). -/
  | l2unpin (f : MemWord)
  /-- SPLD (R242). -/
  | spld (f : MemWord)
  /-- SPST (R242). -/
  | spst (f : MemWord)
  /-- VSPLD (R242). -/
  | vspld (f : MemWord)
  /-- VSPST (R242). -/
  | vspst (f : MemWord)
  /-- RALLOC (R243). -/
  | ralloc (f : MemWord)
  /-- RFREE (R245). -/
  | rfree (f : MemWord)
  /-- STLOOK (R246). -/
  | stlook (f : MemWord)
  /-- STFILL (R247). -/
  | stfill (f : MemWord)
  /-- STEVICT (R248). -/
  | stevict (f : MemWord)
  /-- SDSET (R199). -/
  | sdset (f : MemWord)
  /-- ATADD (R238). -/
  | atadd (f : MemWord)
  /-- ATMIN (R238). -/
  | atmin (f : MemWord)
  /-- ATMAX (R238). -/
  | atmax (f : MemWord)
  /-- ATXCH (R238). -/
  | atxch (f : MemWord)
  /-- ATCAS (R238). -/
  | atcas (f : MemWord)
  /-- CPY (R392). -/
  | cpy (f : CpWord)
  /-- CPYR (R393). -/
  | cpyr (f : CpWord)
  /-- CPYS (R394). -/
  | cpys (f : CpWord)
  /-- CFILL (R395). -/
  | cfill (f : CpWord)
  /-- CSEND (R401). -/
  | csend (f : CpWord)
  /-- CQSEND (R402). -/
  | cqsend (f : CpWord)
  /-- CHOPEN (R403). -/
  | chopen (f : CpWord)
  /-- CHCLOSE (R403). -/
  | chclose (f : CpWord)
  /-- SLUICE (R406). -/
  | sluice (f : CpWord)
  /-- SLSTAT (R410). -/
  | slstat (f : CpWord)
  /-- SLABORT (R411). -/
  | slabort (f : CpWord)
  /-- DTLOAD (R396). -/
  | dtload (f : CpWord)
  /-- CWAIT (R397). -/
  | cwait (f : CpWord)
  /-- CSTAT (R397). -/
  | cstat (f : CpWord)
  /-- FPOST (R424). -/
  | fpost (k : BitVec 5) (r : BitVec 6) (ea : Bool)
  /-- FSET (R424). -/
  | fset (k : BitVec 5) (r : BitVec 6) (ea : Bool)
  /-- FWAIT (R425). -/
  | fwait (k : BitVec 5) (r : BitVec 6) (ea : Bool) (lim : BitVec 5)
  /-- FGET (R426). -/
  | fget (k : BitVec 5) (r : BitVec 6)
  /-- LSET (R426). -/
  | lset (m : BitVec 6) (r : BitVec 6) (ea : Bool)
  /-- LWAIT (R425). -/
  | lwait (m : BitVec 6) (lim : BitVec 5)
  /-- QPUSH (R307). -/
  | qpush (c : BitVec 8) (r : BitVec 6) (ea : Bool) (lim : BitVec 5)
  /-- QPOP (R307). -/
  | qpop (c : BitVec 8) (r : BitVec 6) (lim : BitVec 5)
  /-- BAR (R427). -/
  | bar (sc : BitVec 3) (lim : BitVec 5)
  /-- FENCE (R266). -/
  | fence (sc : BitVec 3)
  /-- XFENCE (R267). -/
  | xfence (pa pb : BitVec 3)
  /-- PBR (R454). -/
  | pbr (bt : BitVec 3) (off : BitVec 21)
  /-- PBRL (R454). -/
  | pbrl (bt : BitVec 3) (lit : BitVec 64)
  /-- PBRS (R454). -/
  | pbrs (bt : BitVec 3) (r : BitVec 6) (ea : Bool)
  /-- BR (R454). -/
  | br (bt : BitVec 3) (cond : BitVec 8) (ea : Bool)
  /-- CALL (R454). -/
  | call (bt : BitVec 3) (cond : BitVec 8) (lt : BitVec 3) (ea : Bool)
  /-- RET (R454). -/
  | ret (bt : BitVec 3) (cond : BitVec 8) (ea : Bool)
  /-- LOOP (R454). -/
  | loop (bt : BitVec 3) (r : BitVec 6) (ea : Bool)
  /-- TRAP (R457). -/
  | trap (imm : BitVec 16)
  /-- BKPT (R457). -/
  | bkpt (imm : BitVec 16)
  /-- SYSC (R457). -/
  | sysc (imm : BitVec 16)
  /-- CWB (R458). -/
  | cwb (f : SysR)
  /-- IINV (R458). -/
  | iinv (f : SysR)
  /-- TLBINV (R458). -/
  | tlbinv (f : SysR)
  /-- TLBWR (R458). -/
  | tlbwr (f : SysR)
  /-- TLBPROBE (R458). -/
  | tlbprobe (f : SysR)
  /-- PMFCR (R458). -/
  | pmfcr (f : CrK)
  /-- PMTCR (R458). -/
  | pmtcr (f : CrK)
  /-- CTXSW_SAVE (R458). -/
  | ctxswSave (f : SysR)
  /-- CTXSW_RESTORE (R452). -/
  | ctxswRestore (f : SysR)
  /-- CTXSW_STOP (R458). -/
  | ctxswStop (f : SysR)
  /-- DBELL (R458). -/
  | dbell (r : BitVec 6) (ea : Bool)
  /-- BLOCK (R367). -/
  | block (nm1 : BitVec 5) (budget : BitVec 16)
  /-- OP (R367). -/
  | op (w : OpWord)
  /-- EGB_LOOP (R354). -/
  | egbLoop (g : GcWord)
  /-- ENDLOOP (R354). -/
  | endloop (g : GcWord)
  /-- EGB_BR (R355). -/
  | egbBr (g : GcWord)
  /-- BRC (R355). -/
  | brc (g : GcWord)
  /-- EGB_CALL (R355). -/
  | egbCall (g : GcWord)
  /-- EGB_RET (R355). -/
  | egbRet (g : GcWord)
  /-- GEND (R358). -/
  | gend (g : GcWord)
  /-- CAPBEG (R359). -/
  | capbeg (g : GcWord)
  /-- CAPEND (R359). -/
  | capend (g : GcWord)
  /-- REPLAY (R359). -/
  | replay (g : GcWord)
  /-- HSET (R356). -/
  | hset (g : GcWord)
  /-- HADD (R356). -/
  | hadd (g : GcWord)
  /-- HMUL (R356). -/
  | hmul (g : GcWord)
  /-- HDIV (R356). -/
  | hdiv (g : GcWord)
  /-- HMIN (R356). -/
  | hmin (g : GcWord)
  /-- HMAX (R356). -/
  | hmax (g : GcWord)
  /-- HLD (R362). -/
  | hld (g : GhWord)
  /-- HDEF (R360). -/
  | hdef (g : GhWord)
  /-- HFREE (R361). -/
  | hfree (g : GhWord)
  /-- HRESHAPE (R360). -/
  | hreshape (g : GhWord)
  /-- HSHARD (R361). -/
  | hshard (g : GhWord)
  /-- HALIAS (R360). -/
  | halias (g : GhWord)
  /-- CHLOAD (R365). -/
  | chload (g : GhWord)
  /-- CHLOAD_OFF (R365). -/
  | chloadOff (g : GhWord)
  /-- PARAM (R363). -/
  | param (g : GhWord)
  /-- STEP (R357). -/
  | egbStep (g : GcWord)
  /-- WAITH (R364). -/
  | waith (g : GhWord)
  /-- SIGNAL (R357). -/
  | signal (g : GcWord)
  /-- CSLOAD (R366). -/
  | csload (g : GhWord)
  /-- PATTR (R376). -/
  | pattr (f : MemWord)
  /-- PSHAPE (R376). -/
  | pshape (f : MemWord)
  /-- PHREF (R376). -/
  | phref (f : MemWord)
  /-- PHDESC (R376). -/
  | phdesc (f : MemWord)
  /-- PSETEXT (R376). -/
  | psetext (f : MemWord)
  /-- PLOUT (R376). -/
  | plout (f : MemWord)
  /-- PRESID (R376). -/
  | presid (f : MemWord)
  /-- PSWEEP (R376). -/
  | psweep (f : MemWord)
  /-- PRESTORE (R329). -/
  | prestore (f : MemWord)
  /-- PREGION (R376). -/
  | pregion (f : MemWord)
  /-- PSWAIT (R376). -/
  | pswait (f : MemWord)
  /-- TCLR_C (R137). -/
  | tclrC
  /-- SUSPEND (R427). -/
  | suspend
  /-- MODE_EX (R455). -/
  | modeEx
  /-- MODE_IL (R455). -/
  | modeIl
  /-- DONE (R456). -/
  | done
  /-- YIELD (R456). -/
  | yield
  /-- TRET (R457). -/
  | tret
  /-- FBAR (R458). -/
  | fbar
  /-- TLBINVA (R458). -/
  | tlbinva
  /-- WAITI (R458). -/
  | waiti
  /-- Event FILL_COMPLETE (R176): u in `u`; slot in `k`. -/
  | fillComplete
  /-- Event MATRIX_START (R479): u in `u`. -/
  | matrixStart
  /-- Event DRAIN_ROW_DELIVERY (R189): u in `u`; k in `k`. -/
  | drainRowDelivery
  /-- Event LOAD_BIND (R115): u in `u`; tag in `k`. -/
  | loadBind
  /-- Event PRODUCER_WRITEBACK (R110): u in `u`; k in `k`. -/
  | producerWriteback
  /-- Event STORE_PERFORM (R257): u in `u`; k in `k`. -/
  | storePerform
  /-- Event COPY_PERFORM (R388): d in `u`; k in `k`. -/
  | copyPerform
  /-- Event LANDING_UNIT_ARRIVAL (R421): k in `u`. -/
  | landingUnitArrival
  /-- Event FLAG_POST_ARRIVAL (R418): k in `u`. -/
  | flagPostArrival
  /-- Event QPUSH_ARRIVAL (R305): k in `u`. -/
  | qpushArrival
  /-- Event CONTRIBUTION_ARRIVAL (R409): k in `u`. -/
  | contributionArrival
  /-- Event MEMBER_COMPLETION (R409): k in `u`; m in `k`. -/
  | memberCompletion
  /-- Event ABORT_TOKEN_ARRIVAL (R411): k in `u`. -/
  | abortTokenArrival
  /-- Event WAIT_LIMIT_EXPIRY (R428): u in `u`. -/
  | waitLimitExpiry
  /-- Event DEADLINE_EXPIRY (R302): u in `u`; pos in `k`. -/
  | deadlineExpiry
  /-- Event SHOOTDOWN_COMPLETE (R290): k in `u`. -/
  | shootdownComplete
  /-- Event PAGE_WALK_COMPLETE (R287): d in `u`; k in `k`. -/
  | pageWalkComplete
  /-- Event TRAP_ENTRY (R438): u in `u`; cause in `k`; info in `v`. -/
  | trapEntry
  /-- Event RECORD_TAKE (R39): u in `u`. -/
  | recordTake
  /-- Event AGE_PROMOTION (R42): d in `u`; role in `k`; k in `m`. -/
  | agePromotion
  /-- Event POINT_FIRE (R320): d in `u`; sw in `k`. -/
  | pointFire
  /-- Event POINT_COMPLETE (R321): d in `u`; sw in `k`; i in `m`. -/
  | pointComplete
  /-- Event PREEMPT_BOUND_EXPIRY (R449): u in `u`. -/
  | preemptBoundExpiry
  /-- Event CONTEXT_SAVE (R450): d in `u`; c in `k`. -/
  | contextSave
  /-- Event OPERATOR_ISSUE (R346): d in `u`; c in `k`; b in `m`; e in `n`. -/
  | operatorIssue
  /-- Event OPERATOR_COMPLETE (R273): d in `u`; c in `k`; b in `m`; e in `n`. -/
  | operatorComplete
  /-- Event BLOCK_COMMIT (R347): d in `u`; c in `k`; b in `m`. -/
  | blockCommit
  /-- Event GLAUNCH_WRITE (R333): d in `u`; v in `v`. -/
  | glaunchWrite
  /-- Event GPATCH_WRITE (R351): d in `u`; v in `v`. -/
  | gpatchWrite
  /-- Event GSTAT_FAULT_CLEAR (R334): d in `u`; c in `k`. -/
  | gstatFaultClear
  /-- Event CCTL_OFFLINE (R463): u in `u`. -/
  | cctlOffline
  /-- Event CCTL_ONLINE (R463): u in `u`. -/
  | cctlOnline
  /-- Event CCTL_RESTART (R463): u in `u`. -/
  | cctlRestart
  /-- Event DSVC_DRAIN (R469): d in `u`. -/
  | dsvcDrain
  /-- Event DSVC_REENABLE (R469): d in `u`. -/
  | dsvcReenable
  /-- Event SPV_WARN_CLEAR (R206): u in `u`. -/
  | spvWarnClear
  /-- Event TRACE_ENABLE (R431): u in `u`. -/
  | traceEnable
  /-- Event TRACE_DISABLE (R431): u in `u`. -/
  | traceDisable
  /-- Event ERXTAIL_WRITE (R467): p in `u`; v in `v`. -/
  | erxtailWrite
  /-- Event ETXTAIL_WRITE (R467): p in `u`; v in `v`. -/
  | etxtailWrite
  /-- Event RING_ENABLE (R467): p in `u`; tx in `flag`; log2n in `k`. -/
  | ringEnable
  /-- Event RING_STOP (R467): p in `u`; tx in `flag`. -/
  | ringStop
  /-- Event ESTAT_CLR (R467): p in `u`. -/
  | estatClr
  /-- Event FRAME_RECEIVE (R467): p in `u`; good in `flag`; bytes in `bytes`. -/
  | frameReceive
  /-- Event FRAME_TRANSMIT (R467): p in `u`. -/
  | frameTransmit
  /-- Event REGISTER_WRITE (R5): d in `u`; off in `k`; v in `v`. -/
  | registerWrite
  /-- Event HOST_BAR2_ACCESS (R465): pkg in `u`; off in `k`; a write in `flag`, its bytes in `bytes`; len in `m`. -/
  | hostBar2Access
  /-- Event POWER_ON_RESET (R468): pkg in `u`. -/
  | powerOnReset
  /-- Event DIE_RESET (R7): d in `u`. -/
  | dieReset
  /-- Event ATTESTATION_REQUEST (R468): d in `u`; nonce in `bytes`. -/
  | attestationRequest
  /-- Event FIRMWARE_UPDATE (R473): u in `u`. -/
  | firmwareUpdate
  /-- Event LANE_RETRAIN (R473): link in `u`. -/
  | laneRetrain
  /-- Event ROW_SPARING (R473): stack in `u`; row in `k`. The first of a row begins its copy, the next ends it. -/
  | rowSparing
  /-- Event FLIT_RETRY (R470): link in `u`; whether the retry fails too in `flag`. -/
  | flitRetry
  /-- Event LINK_RETRY_LIMIT (R471): link in `u`. -/
  | linkRetryLimit
  /-- Event THERMAL_TRIP (R472): d in `u`. -/
  | thermalTrip
  /-- Event STACK_SPARES_EXHAUSTED (R471): stack in `u`. -/
  | stackSparesExhausted
  /-- Event TILE_WRITE_COMPLETE (R479): u in `u`; k in `k`. -/
  | tileWriteComplete
  /-- Event EMPTY_BUNDLE (R71): u in `u`; ck in `flag`. -/
  | emptyBundle
  /-- Event ILLEGAL_WORD (R101): addr in `v`. -/
  | illegalWord
  deriving DecidableEq, Repr

end Sys2Proof
end

