-- ==== Sys2Proof/WellFormed.lean ====
section
/-! DEFINITION. WellFormed: the reserved fields, reserved codes and operand limits that the encoding chapters state of each slot word (R77 check 5, R79 to R96, R142 to R169, R180 to R190, R235 to R248, R376, R391, R423). A word that breaks one raises the illegal-operand trap. -/

namespace Sys2Proof

/-! ## Element types (R79, R139) -/

/-- Width of a TYPE code (R139); 0 for a reserved code. -/
def typeW (t : Nat) : Nat :=
  if t < 2 then 4 else if t < 4 then 8 else if t < 6 then 16 else if t < 8 then 32
  else if t < 10 then 8 else if t < 12 then 16 else if t = 12 then 32 else 0

/-- Element count n(t) (R139). -/
def typeN (t : Nat) : Nat := 4096 / typeW t

def typeIsFp (t : Nat) : Bool := decide (8 ≤ t ∧ t ≤ 12)

/-- The classes of R142, with the special lists of R149 and R166. -/
inductive TyClass where
  | none0 | a | a8 | i4 | i | s | f | ifp | sfp | i4fp | dot | tile
  deriving DecidableEq, Repr

/-- Membership of a TYPE code in a class (R142). -/
def TyClass.has (c : TyClass) (t : Nat) : Bool :=
  match c with
  | .none0 => decide (t = 0)
  | .a => decide (t ≤ 12)
  | .a8 => decide (2 ≤ t ∧ t ≤ 12)
  | .i4 => decide (t ≤ 7)
  | .i => decide (2 ≤ t ∧ t ≤ 7)
  | .s => decide (t = 2 ∨ t = 4 ∨ t = 6)
  | .f => typeIsFp t
  | .ifp => decide (2 ≤ t ∧ t ≤ 7) || typeIsFp t
  | .sfp => decide (t = 2 ∨ t = 4 ∨ t = 6) || typeIsFp t
  | .i4fp => decide (t ≤ 7) || typeIsFp t
  | .dot => decide (t = 6 ∨ t = 7)
  | .tile => decide (t = 6 ∨ t = 7 ∨ t = 12)

/-- When RM is named (R142, R154, R163). -/
inductive RmUse where
  | no | fp | yes | fpNarrow
  deriving DecidableEq, Repr

/-- When SAT is named (R142, R147). -/
inductive SatUse where
  | no | yes | intOnly
  deriving DecidableEq, Repr

/-- The fields of R84 a vector opcode names. -/
structure VUse where
  ty : TyClass
  rm : RmUse := .no
  sat : SatUse := .no
  pen : Bool := true
  rpt : Bool := true
  va : Bool := false
  vb : Bool := false
  vc : Bool := false
  bs : Bool := false
  /-- Bits of IMM12 that may be set. -/
  imm : Nat := 0
  /-- Registers written from VD, and the step of VD and VA per repetition (R144). -/
  dn : Nat := 1
  ds : Nat := 1
  as : Nat := 1
  /-- VD, VA or VC is not a vector register. -/
  dv : Bool := true
  av : Bool := true
  /-- VC written as a source of R86 other than a vector. -/
  cv : Bool := true
  deriving DecidableEq, Repr

/-- The generic checks of a vector word against the fields its opcode names (R84, R86, R142 to R144). -/
def VWord.fits (f : VWord) (u : VUse) : Bool :=
  let t := f.typ.toNat
  let r := f.rpt.toNat
  f.res = 0 && u.ty.has t
  && (match u.rm with
    | .no => f.rm = 0
    | .fp => if typeIsFp t then decide (f.rm.toNat ≤ 4) else f.rm = 0
    | .yes => decide (f.rm.toNat ≤ 4)
    | .fpNarrow => if t = 12 then f.rm = 0 else decide (f.rm.toNat ≤ 4))
  && (match u.sat with
    | .no => !f.sat
    | .yes => true
    | .intOnly => !f.sat || !typeIsFp t)
  && (if f.pen then u.pen else f.pg = 0)
  && (u.rpt || r = 0)
  && (u.va || (f.va = 0 && !f.ea))
  && (u.vb || (f.vb = 0 && !f.eb))
  && (u.vc || (f.vc = 0 && !f.ec))
  && (u.bs || !f.bs)
  && (f.imm.toNat &&& u.imm = f.imm.toNat)
  && (!u.dv || decide (f.vd.toNat + u.ds * r + u.dn ≤ 64))
  && (!(u.va && u.av) || decide (f.va.toNat + u.as * r + u.as ≤ 64))
  && (!(u.vb && !f.bs) || decide (f.vb.toNat + r < 64))
  && (!(u.vc && u.cv) || decide (f.vc.toNat + r < 64))

/-- Elementwise instruction with one or two sources (R147, R148, R151). -/
def vUse2 (ty : TyClass) (rm : RmUse) (sat : SatUse) : VUse :=
  { ty := ty, rm := rm, sat := sat, va := true, vb := true, bs := true }

def vUse1 (ty : TyClass) (rm : RmUse) (sat : SatUse) : VUse :=
  { ty := ty, rm := rm, sat := sat, va := true }

def vUse3 (sat : SatUse) (rm : RmUse) : VUse :=
  { ty := .ifp, rm := rm, sat := sat, va := true, vb := true, vc := true, bs := true }

/-- Predicate logic (R152): registers are predicates, everything else is zero. -/
def predUse (a b : Bool) : VUse :=
  { ty := .none0, pen := false, rpt := false, va := a, vb := b, dv := false, av := false }

/-- Codes VCMP accepts (R83). -/
def vcmpCond (t c : Nat) : Bool :=
  if typeIsFp t then decide (c ≤ 5 ∨ c = 12) else decide (c ≤ 5 ∨ c = 10 ∨ c = 11)

/-- Width relation of a conversion and its types (R154). -/
def cvtFits (f : VWord) (num den : Nat) : Bool :=
  let s := f.imm.toNat % 16
  decide (s ≤ 12) && decide (typeW f.typ.toNat * den = typeW s * num)

def cvtUse : VUse := { ty := .a, rm := .yes, sat := .yes, pen := false, va := true, imm := 0xF }

/-- A lane index below the element count (R86, R162). -/
def laneOk (f : VWord) : Bool := decide (f.imm.toNat < typeN f.typ.toNat)

/-- Bits [5:3] of a predicate field are zero (R86). -/
def predField (r : BitVec 6) : Bool := decide (r.toNat < 8)

/-! ## Matrix words (R87, R88) -/

/-- The fields of R87 a matrix opcode names. -/
structure MUse where
  mfmt : Bool := false
  rz : Bool := false
  rq : Bool := false
  dt : Bool := false
  scale : Bool := false
  acc2 : Bool := false
  acc : Bool := false
  oa : Bool := false
  ob : Bool := false
  sr : Bool := false
  ea : Bool := false
  sd : Bool := false
  deriving DecidableEq, Repr

def MWord.fits (f : MWord) (u : MUse) : Bool :=
  f.res = 0 && (u.mfmt || f.mfmt = 0) && (u.rz || (!f.rz && !f.sat)) && (u.rq || f.rq = 0)
  && (u.dt || (f.dt = 0 && !f.dec)) && (u.scale || f.scale = 0) && (u.acc2 || f.acc2 = 0)
  && (u.acc || f.acc = 0) && (u.oa || f.oa = 0) && (u.ob || (f.ob = 0 && !f.na && !f.nb && !f.ad))
  && (u.sr || f.sr = 0) && (u.ea || !f.ea) && (u.sd || f.sd = 0)

/-! ## Memory words (R89, R90) -/

/-- The fields of R89 a memory opcode names; `ords` lists the ORD codes it accepts. -/
structure MemUse where
  disp : Bool := false
  ords : List Nat := [0]
  scope : Bool := false
  pen : Bool := false
  ea : Bool := true
  ed : Bool := false
  idx : Bool := false
  u : Bool := false
  dr : Bool := true
  base : Bool := true
  szs : List Nat := [0]
  sh : Bool := false
  deriving DecidableEq, Repr

def MemWord.fits (f : MemWord) (u : MemUse) : Bool :=
  f.res = 0 && (u.disp || f.disp = 0) && u.ords.contains f.ord.toNat
  && (if u.scope || f.ord ≠ 0 then decide (f.scope.toNat ≤ 4) else f.scope = 0)
  && (if f.pen then u.pen else f.pg = 0) && (u.ea || !f.ea) && (u.ed || !f.ed)
  && (u.idx || (f.idx = 0 && !f.ei)) && (u.u || !f.u) && (u.dr || f.dr = 0) && (u.base || f.base = 0)
  && u.szs.contains f.sz.toNat && (u.sh || f.sh = 0)

/-- Address forms with displacement, index and shift. -/
def memAddr (ords szs : List Nat) (ed pen : Bool) : MemUse :=
  { disp := true, ords := ords, ed := ed, pen := pen, idx := true, szs := szs, sh := true }

/-- Atomics (R238). -/
def memAtomic (u cas : Bool) : MemUse :=
  { ords := [0, 1, 2, 3], scope := true, ed := true, idx := cas, u := u, szs := [2, 3] }

/-! ## Copy words (R91, R92, R391) -/

structure CpUse where
  off : Bool := false
  dt : Bool := false
  dec : Bool := false
  acw : Bool := false
  sr : Bool := false
  ea : Bool := false
  rq : Bool := false
  le : Bool := false
  stg : Bool := false
  ch : Bool := false
  fe : Bool := false
  cl : Bool := false
  deriving DecidableEq, Repr

def CpWord.fits (f : CpWord) (u : CpUse) : Bool :=
  f.res = 0 && !f.res0 && (u.off || f.off = 0) && (u.dt || f.dt = 0) && (u.dec || !f.dec) && (u.acw || !f.acw)
  && (u.sr || f.sr = 0) && (u.ea || !f.ea) && (u.rq || f.rq = 0) && (u.le || (!f.le && f.lc = 0))
  && (u.stg || f.stg = 0) && (u.ch || f.ch = 0) && (u.fe || (!f.fe && f.fl = 0))
  && (!u.cl || decide (f.stg.toNat < 4))

/-! ## Branch conditions (R94) -/

/-- COND8 has no reserved bit set. -/
def condOk (c : BitVec 8) : Bool :=
  match c.toNat / 64 with
  | 0 => decide (c.toNat % 64 = 0)
  | 3 => decide (c.toNat / 8 % 2 = 0)
  | _ => true

/-- COND8 tests a predicate. -/
def condIsPred (c : BitVec 8) : Bool := decide (c.toNat / 64 = 3)

/-! ## Graph words (R98, R101, R353) -/

/-- The fields of form GC an opcode names; `imm` is the mask of IMM32. -/
structure GcUse where
  ha : Bool := false
  hb : Bool := false
  hc : Bool := false
  cond : Bool := false
  imm : Nat := 0
  deriving DecidableEq, Repr

def GcWord.fits (g : GcWord) (u : GcUse) : Bool :=
  (u.ha || g.ha = 0) && (u.hb || g.hb = 0) && (u.hc || g.hc = 0)
  && (if u.cond then decide (g.cond.toNat ≤ 9) else g.cond = 0)
  && (g.imm.toNat &&& u.imm = g.imm.toNat)

/-- Form GH: HANDLE named or zero, the mask of AUX, and NW. -/
def GhWord.fits (g : GhWord) (handle : Bool) (aux nw : Nat) : Bool :=
  (handle || g.handle = 0) && (g.aux.toNat &&& aux = g.aux.toNat) && decide (g.trail.length = nw)

def full32 : Nat := 0xFFFFFFFF

/-- Form GO (R98, R99): handles at most 16, attributes at most 31, reserved bits of references zero. -/
def OpWord.fits (w : OpWord) : Bool :=
  decide (w.refs.length ≤ 16) && decide (w.attrs.length ≤ 31) && w.refs.all fun r => r.toNat / 4096 % 4 = 0

/-! ## Every instruction -/

/-- R77 check 5: no reserved field or code is set and every operand lies in its limits. Hardware events carry no
encoding and are well formed. -/
def Instr.wf : Instr → Bool
  | .cmp f => decide (f.cond.toNat ≤ 11)
  | .cmpi f => decide (f.cond.toNat ≤ 11)
  | .cmpp f => decide (f.cond.toNat ≤ 11)
  | .cmppi f => decide (f.cond.toNat ≤ 11)
  | .vadd f => f.fits (vUse2 .ifp .fp .yes)
  | .vsub f => f.fits (vUse2 .ifp .fp .yes)
  | .vmul f => f.fits (vUse2 .ifp .fp .yes)
  | .vmulh f => f.fits (vUse2 .i .no .no)
  | .vfma f => f.fits (vUse3 .yes .fp)
  | .vfms f => f.fits (vUse3 .yes .fp)
  | .vfnma f => f.fits (vUse3 .yes .fp)
  | .vabs f => f.fits (vUse1 .sfp .no .intOnly)
  | .vneg f => f.fits (vUse1 .sfp .no .intOnly)
  | .vmin f => f.fits (vUse2 .ifp .no .no)
  | .vmax f => f.fits (vUse2 .ifp .no .no)
  | .vshl f => f.fits (vUse2 .i .no .no)
  | .vshr f => f.fits (vUse2 .i .no .no)
  | .vsar f => f.fits (vUse2 .i .no .no)
  | .vclamp f => f.fits (vUse3 .no .no)
  | .vdot4 f => f.fits { ty := .dot, sat := .yes, va := true, vb := true, vc := true, bs := true, imm := 3 }
  | .vcmp f => f.fits { ty := .a8, rpt := false, va := true, vb := true, bs := true, imm := 0xF, dv := false }
      && predField f.vd && vcmpCond f.typ.toNat f.imm.toNat
  | .vsel f => f.fits { ty := .a, va := true, vb := true, vc := true, bs := true, cv := false }
      && predField f.vc && !f.ec
  | .vand f => f.fits (vUse2 .a .no .no)
  | .vor f => f.fits (vUse2 .a .no .no)
  | .vxor f => f.fits (vUse2 .a .no .no)
  | .vnot f => f.fits (vUse1 .a .no .no)
  | .vmov f => f.fits (vUse1 .a .no .no)
  | .pand f => f.fits (predUse true true) && predField f.vd && predField f.va && predField f.vb && !f.ea && !f.eb
  | .por f => f.fits (predUse true true) && predField f.vd && predField f.va && predField f.vb && !f.ea && !f.eb
  | .pxor f => f.fits (predUse true true) && predField f.vd && predField f.va && predField f.vb && !f.ea && !f.eb
  | .pnot f => f.fits (predUse true false) && predField f.vd && predField f.va && !f.ea
  | .pmov f => f.fits (predUse true false) && predField f.vd && predField f.va && !f.ea
  | .pcnt f => f.fits (predUse true false) && predField f.va && !f.ea
  | .pset f => f.fits { predUse false true with bs := true, imm := 3 } && predField f.vd
      && (match f.imm.toNat with
        | 0 => !f.bs && !f.eb && f.vb = 0
        | 1 => !f.bs && !f.eb && f.vb = 0
        | 2 => f.bs
        | _ => false)
  | .viota f => f.fits { ty := .i }
  | .vcvt f => f.fits { cvtUse with pen := true } && cvtFits f 1 1 && decide (f.typ.toNat ≠ f.imm.toNat)
  | .vwiden f => f.fits { cvtUse with dn := 2, ds := 2 } && cvtFits f 2 1 && decide (f.vd.toNat % 2 = 0)
  | .vwiden4 f => f.fits { cvtUse with dn := 4, ds := 4 } && cvtFits f 4 1 && decide (f.vd.toNat % 4 = 0)
  | .vnarrow f => f.fits { cvtUse with as := 2 } && cvtFits f 1 2 && decide (f.va.toNat % 2 = 0)
  | .vnarrow4 f => f.fits { cvtUse with as := 4 } && cvtFits f 1 4 && decide (f.va.toNat % 4 = 0)
  | .vbpack f => f.fits { ty := .none0, rm := .yes, pen := false, va := true, vc := true, imm := 0xFF } && !f.ec
      && typeIsFp (f.imm.toNat % 16) && decide (2 ≤ f.imm.toNat / 16 ∧ f.imm.toNat / 16 ≤ 8) && decide (f.vd ≠ f.vc)
  | .vbunpk f => f.fits { ty := .f, rm := .yes, sat := .yes, pen := false, va := true, vc := true, imm := 0xF0 }
      && decide (2 ≤ f.imm.toNat / 16 ∧ f.imm.toNat / 16 ≤ 8)
  | .vrsum f => f.fits { ty := .i4fp, rpt := false, va := true, dv := false }
  | .vrmin f => f.fits { ty := .i4fp, rpt := false, va := true, dv := false }
  | .vrmax f => f.fits { ty := .i4fp, rpt := false, va := true, dv := false }
  | .vperm f => f.fits { ty := .a8, va := true, vb := true }
  | .vrot f => if f.bs then f.fits { ty := .a, va := true, vb := true, bs := true }
      else f.fits { ty := .a, va := true, imm := 0xFFF }
  | .vzip f => f.fits { ty := .a, pen := false, va := true, vb := true, dn := 2, ds := 2 } && decide (f.vd.toNat % 2 = 0)
  | .vunzip f => f.fits { ty := .a, pen := false, va := true, vb := true, dn := 2, ds := 2 } && decide (f.vd.toNat % 2 = 0)
  | .vbcst f => if f.bs then f.fits { ty := .a, vb := true, bs := true }
      else f.fits { ty := .a, va := true, imm := 0xFFF } && laneOk f
  | .vbcsti f _ => f.fits { ty := .a, rpt := false }
  | .vmovs f => f.fits { ty := .a, pen := false, rpt := false, va := true, imm := 0xFFF, dv := false } && laneOk f
  | .vins f => f.fits { ty := .a, pen := false, vb := true, bs := true, imm := 0xFFF } && f.bs && laneOk f
  | .vexp2 f => f.fits (vUse1 .f .fpNarrow .yes)
  | .vlog2 f => f.fits (vUse1 .f .fpNarrow .yes)
  | .vrcp f => f.fits (vUse1 .f .fpNarrow .yes)
  | .vrsq f => f.fits (vUse1 .f .fpNarrow .yes)
  | .vtanh f => f.fits (vUse1 .f .fpNarrow .yes)
  | .vsigm f => f.fits (vUse1 .f .fpNarrow .yes)
  | .vrda f => f.fits { ty := .tile, rpt := false, va := true, av := false, imm := 0x7F } && !f.ea && decide (f.va.toNat < 16)
  | .vwra f => f.fits { ty := .tile, rpt := false, vb := true, dv := false, imm := 0x7F } && decide (f.vd.toNat < 16)
  | .vpopq f => f.fits { ty := .none0, pen := false, rpt := false, va := true, av := false } && !f.ea && decide (f.va.toNat < 4)
  | .oclaim f => f.fits { oa := true }
  | .orelease f => f.fits { oa := true }
  | .ofill f => f.fits { oa := true, sd := true, sr := true, ea := true, mfmt := true, dt := true }
      && decide (f.mfmt.toNat < 5 ∨ 8 ≤ f.mfmt.toNat) && (f.dec || f.dt = 0)
  | .ostat f => f.fits { oa := true, sr := true }
  | .ozero f => f.fits { oa := true }
  | .mma f => f.fits { acc := true, oa := true, ob := true }
  | .drain f => f.fits { acc := true, rq := true, mfmt := true, rz := true, scale := true } && decide (f.mfmt.toNat ≤ 6)
  | .aclr f => f.fits { acc := true }
  | .aload f => f.fits { acc := true, sr := true, ea := true }
  | .amov f => f.fits { acc := true, acc2 := true }
  | .msync f => f.fits {}
  | .mstat f => f.fits { sr := true }
  | .ld f => f.fits (memAddr [0, 1] [0, 1, 2, 3] false false)
  | .ldx f => f.fits (memAddr [0, 1] [0, 1, 2, 3] false false)
  | .st f => f.fits (memAddr [0, 2] [0, 1, 2, 3] true false)
  | .vld f => f.fits (memAddr [0, 1] [4] false true)
  | .vst f => f.fits (memAddr [0, 2] [4] true true)
  | .vgath f => f.fits (memAddr [0] [0, 1, 2, 3] false true)
  | .vscat f => f.fits (memAddr [0] [0, 1, 2, 3] true true)
  | .pref f => f.fits { memAddr [0] [0, 1] false false with dr := false }
  | .acqr f => f.fits { ords := [1], scope := true, idx := true, dr := false }
  | .l2pin f => f.fits { idx := true, dr := false }
  | .l2unpin f => f.fits { idx := true, dr := false }
  | .spld f => f.fits (memAddr [0] [0, 1, 2, 3] false false)
  | .spst f => f.fits (memAddr [0] [0, 1, 2, 3] true false)
  | .vspld f => f.fits (memAddr [0] [4] false true)
  | .vspst f => f.fits (memAddr [0] [4] true true)
  | .ralloc f => f.fits {}
  | .rfree f => f.fits { dr := false }
  | .stlook f => f.fits {}
  | .stfill f => f.fits { ed := true }
  | .stevict f => f.fits { dr := false }
  | .sdset f => f.fits { szs := [1, 2, 3, 4], sh := true } && decide (f.dr.toNat < 16)
      && decide (f.sh.toNat + f.sz.toNat ≤ 4) && decide (f.base.toNat + f.sz.toNat ≤ 64)
  | .atadd f => f.fits (memAtomic false false)
  | .atmin f => f.fits (memAtomic true false)
  | .atmax f => f.fits (memAtomic true false)
  | .atxch f => f.fits (memAtomic false false)
  | .atcas f => f.fits (memAtomic false true)
  | .cpy f => f.fits { stg := true, off := true, dt := true, dec := true, fe := true } && (f.dec || f.dt = 0)
  | .cpyr f => f.fits { stg := true, off := true, acw := true, le := true, fe := true }
  | .cpys f => f.fits { stg := true, off := true, fe := true } && decide (f.stg.toNat % 2 = 0)
  | .cfill f => f.fits { stg := true, off := true, sr := true, ea := true, fe := true }
  | .csend f => f.fits { ch := true, stg := true, off := true }
  | .cqsend f => f.fits { ch := true, rq := true }
  | .chopen f => f.fits { ch := true }
  | .chclose f => f.fits { ch := true }
  | .sluice f => f.fits { stg := true, fe := true, cl := true }
  | .slstat f => f.fits { stg := true, sr := true, cl := true }
  | .slabort f => f.fits { stg := true, cl := true }
  | .dtload f => f.fits { stg := true, dt := true }
  | .cwait f => f.fits { stg := true }
  | .cstat f => f.fits { stg := true, sr := true }
  | .bar sc _ => decide (sc.toNat ≤ 4)
  | .fence sc => decide (sc.toNat ≤ 4)
  | .xfence pa pb => decide (pa.toNat ≤ 4) && decide (pb.toNat ≤ 4) && decide (pa ≠ pb)
  | .pbrl _ lit => decide (lit.toNat % 4 = 0)
  | .br _ c _ => condOk c
  | .call _ c _ _ => condOk c
  | .ret _ c _ => condOk c
  | .op w => w.fits
  | .egbLoop g => g.fits { ha := true, hb := true, imm := full32 }
  | .endloop g => g.fits {}
  | .egbBr g => g.fits { imm := full32 }
  | .brc g => g.fits { ha := true, hb := true, cond := true, imm := full32 }
  | .egbCall g => g.fits { imm := full32 }
  | .egbRet g => g.fits {}
  | .gend g => g.fits {}
  | .capbeg g => g.fits { imm := 0xF }
  | .capend g => g.fits { imm := 0xF }
  | .replay g => g.fits { imm := 0xF }
  | .hset g => g.fits { ha := true, imm := full32 }
  | .hadd g => g.fits { ha := true, hb := true, hc := true, imm := full32 }
  | .hmul g => g.fits { ha := true, hb := true, hc := true }
  | .hdiv g => g.fits { ha := true, hb := true, hc := true, imm := 1 }
  | .hmin g => g.fits { ha := true, hb := true, hc := true }
  | .hmax g => g.fits { ha := true, hb := true, hc := true }
  | .hld g => g.fits true 0xF1F 0
  | .hdef g => g.fits true 0 12
  | .hfree g => g.fits true 0 0
  | .hreshape g => g.fits true 0 11
  | .hshard g => g.fits true 0 1
  | .halias g => g.fits true 0xFFF 12
  | .chload g => g.fits true 0 2 && decide (g.handle.toNat < 256)
  | .chloadOff g => g.fits true 1 0 && decide (g.handle.toNat < 256) && decide (g.aux = 1)
  | .param g => g.fits true 0x1F 0
  | .egbStep g => g.fits {}
  | .waith g => g.fits true 1 0
  | .signal g => g.fits { ha := true, imm := 0xFF }
  | .csload g => g.fits false 0 1
  | .pattr f => f.fits {}
  | .pshape f => f.fits {}
  | .phref f => f.fits {}
  | .phdesc f => f.fits { idx := true }
  | .psetext f => f.fits { idx := true, ed := true }
  | .plout f => f.fits { idx := true, ed := true }
  | .presid f => f.fits { ed := true }
  | .psweep f => f.fits {}
  | .prestore f => f.fits {}
  | .pregion f => f.fits {}
  | .pswait f => f.fits { dr := false }
  | .add _ | .sub _ | .mul _ | .mulh _ | .div _ | .rem _ | .addi _ | .rsbi _ | .muli _ | .min _ | .max _ | .and _
  | .or _ | .xor _ | .andn _ | .orn _ | .andi _ | .ori _ | .xori _ | .shl _ | .shr _ | .sar _ | .rol _ | .ror _
  | .shli _ | .shri _ | .sari _ | .rori _ | .popc _ | .clz _ | .sel _ | .cmov _ | .lea _ | .bfx _ | .bfxs _ | .bfxi _
  | .bfxsi _ | .bfi _ | .bfii _ | .movi _ _ | .movl _ _ | .mfcr _ | .mtcr _ | .tclr _ | .tclrC | .tget _ | .tspill _
  | .tfill _ | .fillComplete | .matrixStart | .drainRowDelivery | .loadBind | .producerWriteback
  | .storePerform | .copyPerform | .landingUnitArrival | .flagPostArrival | .qpushArrival
  | .contributionArrival | .memberCompletion | .abortTokenArrival | .fpost _ _ _ | .fset _ _ _
  | .fwait _ _ _ _ | .fget _ _ | .lset _ _ _ | .lwait _ _ | .qpush _ _ _ _ | .qpop _ _ _ | .suspend
  | .waitLimitExpiry | .deadlineExpiry | .pbr _ _ | .pbrs _ _ _ | .loop _ _ _ | .modeEx | .modeIl | .done
  | .yield | .trap _ | .tret | .bkpt _ | .sysc _ | .cwb _ | .iinv _ | .fbar | .tlbinv _ | .tlbinva | .tlbwr _
  | .tlbprobe _ | .pmfcr _ | .pmtcr _ | .ctxswSave _ | .ctxswRestore _ | .ctxswStop _ | .waiti | .dbell _ _
  | .shootdownComplete | .pageWalkComplete | .trapEntry | .recordTake | .agePromotion
  | .pointFire | .pointComplete | .preemptBoundExpiry | .contextSave | .operatorIssue
  | .operatorComplete | .blockCommit | .block _ _ | .glaunchWrite | .gpatchWrite
  | .gstatFaultClear | .cctlOffline | .cctlOnline | .cctlRestart | .dsvcDrain | .dsvcReenable
  | .spvWarnClear | .traceEnable | .traceDisable | .erxtailWrite | .etxtailWrite | .ringEnable
  | .ringStop | .estatClr | .frameReceive | .frameTransmit | .registerWrite
  | .hostBar2Access | .powerOnReset | .dieReset | .attestationRequest | .firmwareUpdate
  | .laneRetrain | .rowSparing | .flitRetry | .linkRetryLimit | .thermalTrip | .stackSparesExhausted
  | .tileWriteComplete | .emptyBundle | .illegalWord => true

end Sys2Proof
end

