-- ==== Sys2Proof/Decode.lean ====
section
/-! DEFINITION. Decode: from the words of a slot, or of an EGB program, to an instruction, and back (R69 to R101). -/

namespace Sys2Proof

/-- The issue slots of R70; `sa` and `sb` share one map (R80), and `pms` is the memory slot of a plan routine (R374). -/
inductive Slot where
  | sa | vx | mx | ms | cp | sy | br | pms
  deriving DecidableEq, Repr

/-- What a slot word decodes to. `badOperand i` has a reserved bit outside the fields of `i` set: it raises the
illegal-operand trap after the opcode checks of R77 have been made on `i`. -/
inductive Dec where
  | ok (i : Instr)
  /-- Opcode unassigned in the slot's map: illegal-instruction (R77 check 2). -/
  | unassigned
  | badOperand (i : Instr)
  deriving DecidableEq, Repr

/-- The decoded instruction where every bit is in order. -/
def Dec.instr? : Dec → Option Instr
  | .ok i => if i.wf then some i else none
  | .unassigned => none
  | .badOperand _ => none

/-- `ok` when the reserved bits of the word are zero. -/
def Dec.of (clean : Bool) (i : Instr) : Dec := if clean then .ok i else .badOperand i

/-! ## Scalar words (R80 to R82) -/

def getArithR (w : BitVec 32) : ArithR :=
  { d := w.extractLsb' 18 6, a := w.extractLsb' 12 6, e := w.getLsbD 11, b := w.extractLsb' 5 6,
    f := w.getLsbD 4, u := w.getLsbD 1, w := w.getLsbD 0 }

def getLogicR (w : BitVec 32) : LogicR :=
  { d := w.extractLsb' 18 6, a := w.extractLsb' 12 6, e := w.getLsbD 11, b := w.extractLsb' 5 6,
    f := w.getLsbD 4, w := w.getLsbD 0 }

def getImmI (w : BitVec 32) : ImmI :=
  { d := w.extractLsb' 18 6, a := w.extractLsb' 12 6, e := w.getLsbD 11, imm := w.extractLsb' 0 11 }

def getShiftI (w : BitVec 32) : ShiftI :=
  { d := w.extractLsb' 18 6, a := w.extractLsb' 12 6, e := w.getLsbD 11, c := w.extractLsb' 0 6 }

def getUnaryR (w : BitVec 32) : UnaryR :=
  { d := w.extractLsb' 18 6, a := w.extractLsb' 12 6, e := w.getLsbD 11 }

def getCmpR (w : BitVec 32) : CmpR :=
  { d := w.extractLsb' 18 6, a := w.extractLsb' 12 6, e := w.getLsbD 11, b := w.extractLsb' 5 6,
    f := w.getLsbD 4, cond := w.extractLsb' 0 4 }

def getCmpC (w : BitVec 32) : CmpC :=
  { d := w.extractLsb' 18 6, a := w.extractLsb' 12 6, e := w.getLsbD 11, cond := w.extractLsb' 7 4,
    imm := w.extractLsb' 0 7 }

def getCmppR (w : BitVec 32) : CmppR :=
  { p := w.extractLsb' 18 3, a := w.extractLsb' 12 6, e := w.getLsbD 11, b := w.extractLsb' 5 6,
    f := w.getLsbD 4, cond := w.extractLsb' 0 4 }

def getCmppC (w : BitVec 32) : CmppC :=
  { p := w.extractLsb' 18 3, a := w.extractLsb' 12 6, e := w.getLsbD 11, cond := w.extractLsb' 7 4,
    imm := w.extractLsb' 0 7 }

def getSelR (w : BitVec 32) : SelR :=
  { d := w.extractLsb' 18 6, a := w.extractLsb' 12 6, e := w.getLsbD 11, b := w.extractLsb' 5 6,
    f := w.getLsbD 4, p := w.extractLsb' 0 3 }

def getBinR (w : BitVec 32) : BinR :=
  { d := w.extractLsb' 18 6, a := w.extractLsb' 12 6, e := w.getLsbD 11, b := w.extractLsb' 5 6, f := w.getLsbD 4 }

def getLeaR (w : BitVec 32) : LeaR :=
  { d := w.extractLsb' 18 6, a := w.extractLsb' 12 6, e := w.getLsbD 11, b := w.extractLsb' 5 6,
    f := w.getLsbD 4, sh := w.extractLsb' 0 3 }

def getFieldF (w : BitVec 32) : FieldF :=
  { d := w.extractLsb' 18 6, a := w.extractLsb' 12 6, wid := w.extractLsb' 6 6, ofs := w.extractLsb' 0 6 }

def getCrK (w : BitVec 32) : CrK :=
  { r := w.extractLsb' 18 6, crn := w.extractLsb' 6 12, e := w.getLsbD 5 }

/-- A word of `sa` or `sb` with its literal words l0, l1 (R81, R82). -/
def decodeScalar (w l0 l1 : BitVec 32) : Dec :=
  let d := w.extractLsb' 18 6
  let arith (k : ArithR → Instr) := Dec.of (w.extractLsb' 2 2 = 0) (k (getArithR w))
  let logic (k : LogicR → Instr) := Dec.of (w.extractLsb' 1 3 = 0) (k (getLogicR w))
  let imm (k : ImmI → Instr) := Dec.ok (k (getImmI w))
  let shift (k : ShiftI → Instr) := Dec.of (w.extractLsb' 6 5 = 0) (k (getShiftI w))
  let unary (k : UnaryR → Instr) := Dec.of (w.extractLsb' 0 11 = 0) (k (getUnaryR w))
  let bin (k : BinR → Instr) := Dec.of (w.extractLsb' 0 4 = 0) (k (getBinR w))
  let field (k : FieldF → Instr) := Dec.ok (k (getFieldF w))
  match (w.extractLsb' 24 8).toNat with
  | 0x01 => arith .add
  | 0x02 => arith .sub
  | 0x03 => arith .mul
  | 0x04 => arith .mulh
  | 0x05 => arith .div
  | 0x06 => arith .rem
  | 0x07 => imm .addi
  | 0x08 => imm .rsbi
  | 0x09 => imm .muli
  | 0x0A => arith .min
  | 0x0B => arith .max
  | 0x10 => logic .and
  | 0x11 => logic .or
  | 0x12 => logic .xor
  | 0x13 => logic .andn
  | 0x14 => logic .orn
  | 0x15 => imm .andi
  | 0x16 => imm .ori
  | 0x17 => imm .xori
  | 0x18 => logic .shl
  | 0x19 => logic .shr
  | 0x1A => logic .sar
  | 0x1B => logic .rol
  | 0x1C => logic .ror
  | 0x1D => shift .shli
  | 0x1E => shift .shri
  | 0x1F => shift .sari
  | 0x20 => shift .rori
  | 0x21 => unary .popc
  | 0x22 => unary .clz
  | 0x24 => .ok (.cmp (getCmpR w))
  | 0x25 => .ok (.cmpi (getCmpC w))
  | 0x26 => Dec.of (w.extractLsb' 21 3 = 0) (.cmpp (getCmppR w))
  | 0x27 => Dec.of (w.extractLsb' 21 3 = 0) (.cmppi (getCmppC w))
  | 0x28 => Dec.of (!w.getLsbD 3) (.sel (getSelR w))
  | 0x29 => bin .cmov
  | 0x2A => Dec.of (!w.getLsbD 3) (.lea (getLeaR w))
  | 0x2C => bin .bfx
  | 0x2D => bin .bfxs
  | 0x2E => field .bfxi
  | 0x2F => field .bfxsi
  | 0x30 => bin .bfi
  | 0x31 => field .bfii
  | 0x32 => .ok (.movi d (w.extractLsb' 0 18))
  | 0x33 => Dec.of (w.extractLsb' 0 18 = 0) (.movl d (l1 ++ l0))
  | 0x34 => Dec.of (w.extractLsb' 0 5 = 0) (.mfcr (getCrK w))
  | 0x35 => Dec.of (w.extractLsb' 0 5 = 0) (.mtcr (getCrK w))
  | 0x36 => Dec.of (w.extractLsb' 0 18 = 0) (.tclr d)
  | 0x37 => Dec.of (w.extractLsb' 0 24 = 0) .tclrC
  | 0x38 => unary .tget
  | 0x39 => unary .tspill
  | 0x3A => bin .tfill
  | _ => .unassigned

/-! ## Vector, matrix, memory and copy words (R84 to R92) -/

def getVWord (w : BitVec 64) : VWord :=
  { typ := w.extractLsb' 60 4, rm := w.extractLsb' 57 3, pen := w.getLsbD 56, pg := w.extractLsb' 53 3,
    rpt := w.extractLsb' 51 2, sat := w.getLsbD 50, ea := w.getLsbD 49, eb := w.getLsbD 48, ec := w.getLsbD 47,
    bs := w.getLsbD 46, res := w.extractLsb' 44 2, imm := w.extractLsb' 32 12, vd := w.extractLsb' 18 6,
    va := w.extractLsb' 12 6, vb := w.extractLsb' 6 6, vc := w.extractLsb' 0 6 }

def getMWord (w : BitVec 64) : MWord :=
  { mfmt := w.extractLsb' 60 4, rz := w.getLsbD 59, sat := w.getLsbD 58, rq := w.extractLsb' 56 2,
    dt := w.extractLsb' 53 3, dec := w.getLsbD 52, scale := w.extractLsb' 44 8, acc2 := w.extractLsb' 42 2,
    res := w.extractLsb' 32 10, acc := w.extractLsb' 22 2, oa := w.extractLsb' 18 4, ob := w.extractLsb' 14 4,
    na := w.getLsbD 13, nb := w.getLsbD 12, ad := w.getLsbD 11, sr := w.extractLsb' 5 6, ea := w.getLsbD 4,
    sd := w.extractLsb' 0 4 }

def getMemWord (w : BitVec 64) : MemWord :=
  { disp := w.extractLsb' 48 16, ord := w.extractLsb' 46 2, scope := w.extractLsb' 43 3, pen := w.getLsbD 42,
    pg := w.extractLsb' 39 3, ea := w.getLsbD 38, ed := w.getLsbD 37, ei := w.getLsbD 36, u := w.getLsbD 35,
    res := w.extractLsb' 32 3, dr := w.extractLsb' 18 6, base := w.extractLsb' 12 6, idx := w.extractLsb' 6 6,
    sz := w.extractLsb' 3 3, sh := w.extractLsb' 0 3 }

def getCpWord (w : BitVec 64) : CpWord :=
  { off := w.extractLsb' 52 12, dt := w.extractLsb' 49 3, dec := w.getLsbD 48, acw := w.getLsbD 47,
    sr := w.extractLsb' 41 6, ea := w.getLsbD 40, rq := w.extractLsb' 38 2, le := w.getLsbD 37,
    res := w.extractLsb' 32 5, stg := w.extractLsb' 21 3, ch := w.extractLsb' 13 8, lc := w.extractLsb' 7 6,
    fe := w.getLsbD 6, fl := w.extractLsb' 1 5, res0 := w.getLsbD 0 }

/-- Opcode of a 64-bit slot word: bits 31:24 (R71). -/
def opcode64 (w : BitVec 64) : Nat := (w.extractLsb' 24 8).toNat

/-- A `vx` word with its literal (R85). -/
def decodeVector (w : BitVec 64) (l0 : BitVec 32) : Dec :=
  let f := getVWord w
  match opcode64 w with
  | 0x01 => .ok (.vadd f)
  | 0x02 => .ok (.vsub f)
  | 0x03 => .ok (.vmul f)
  | 0x04 => .ok (.vmulh f)
  | 0x05 => .ok (.vfma f)
  | 0x06 => .ok (.vfms f)
  | 0x07 => .ok (.vfnma f)
  | 0x08 => .ok (.vabs f)
  | 0x09 => .ok (.vneg f)
  | 0x0A => .ok (.vmin f)
  | 0x0B => .ok (.vmax f)
  | 0x0C => .ok (.vshl f)
  | 0x0D => .ok (.vshr f)
  | 0x0E => .ok (.vsar f)
  | 0x0F => .ok (.vclamp f)
  | 0x10 => .ok (.vcmp f)
  | 0x11 => .ok (.vsel f)
  | 0x12 => .ok (.vand f)
  | 0x13 => .ok (.vor f)
  | 0x14 => .ok (.vxor f)
  | 0x15 => .ok (.vnot f)
  | 0x16 => .ok (.pand f)
  | 0x17 => .ok (.por f)
  | 0x18 => .ok (.pxor f)
  | 0x19 => .ok (.pnot f)
  | 0x1A => .ok (.pmov f)
  | 0x1B => .ok (.pcnt f)
  | 0x1C => .ok (.viota f)
  | 0x1D => .ok (.pset f)
  | 0x20 => .ok (.vcvt f)
  | 0x21 => .ok (.vwiden f)
  | 0x22 => .ok (.vwiden4 f)
  | 0x23 => .ok (.vnarrow f)
  | 0x24 => .ok (.vnarrow4 f)
  | 0x25 => .ok (.vbpack f)
  | 0x26 => .ok (.vbunpk f)
  | 0x28 => .ok (.vrsum f)
  | 0x29 => .ok (.vrmin f)
  | 0x2A => .ok (.vrmax f)
  | 0x30 => .ok (.vperm f)
  | 0x31 => .ok (.vrot f)
  | 0x32 => .ok (.vzip f)
  | 0x33 => .ok (.vunzip f)
  | 0x34 => .ok (.vbcst f)
  | 0x35 => .ok (.vbcsti f l0)
  | 0x36 => .ok (.vmov f)
  | 0x37 => .ok (.vmovs f)
  | 0x38 => .ok (.vins f)
  | 0x39 => .ok (.vexp2 f)
  | 0x3A => .ok (.vlog2 f)
  | 0x3B => .ok (.vrcp f)
  | 0x3C => .ok (.vrsq f)
  | 0x3D => .ok (.vtanh f)
  | 0x3E => .ok (.vsigm f)
  | 0x40 => .ok (.vdot4 f)
  | 0x44 => .ok (.vrda f)
  | 0x45 => .ok (.vwra f)
  | 0x48 => .ok (.vpopq f)
  | _ => .unassigned

/-- An `mx` word (R88). -/
def decodeMatrix (w : BitVec 64) : Dec :=
  let f := getMWord w
  match opcode64 w with
  | 0x01 => .ok (.oclaim f)
  | 0x02 => .ok (.orelease f)
  | 0x03 => .ok (.ofill f)
  | 0x04 => .ok (.ostat f)
  | 0x05 => .ok (.ozero f)
  | 0x08 => .ok (.mma f)
  | 0x09 => .ok (.drain f)
  | 0x0A => .ok (.aclr f)
  | 0x0B => .ok (.aload f)
  | 0x0C => .ok (.amov f)
  | 0x10 => .ok (.msync f)
  | 0x11 => .ok (.mstat f)
  | _ => .unassigned

/-- An `ms` word of a core (R90). -/
def decodeMemory (w : BitVec 64) : Dec :=
  let f := getMemWord w
  match opcode64 w with
  | 0x01 => .ok (.ld f)
  | 0x02 => .ok (.ldx f)
  | 0x03 => .ok (.st f)
  | 0x04 => .ok (.vld f)
  | 0x05 => .ok (.vst f)
  | 0x06 => .ok (.vgath f)
  | 0x07 => .ok (.vscat f)
  | 0x08 => .ok (.pref f)
  | 0x0C => .ok (.acqr f)
  | 0x10 => .ok (.spld f)
  | 0x11 => .ok (.spst f)
  | 0x12 => .ok (.vspld f)
  | 0x13 => .ok (.vspst f)
  | 0x14 => .ok (.ralloc f)
  | 0x15 => .ok (.rfree f)
  | 0x16 => .ok (.stlook f)
  | 0x17 => .ok (.stfill f)
  | 0x18 => .ok (.stevict f)
  | 0x19 => .ok (.sdset f)
  | 0x20 => .ok (.l2pin f)
  | 0x21 => .ok (.l2unpin f)
  | 0x28 => .ok (.atadd f)
  | 0x29 => .ok (.atmin f)
  | 0x2A => .ok (.atmax f)
  | 0x2B => .ok (.atxch f)
  | 0x2C => .ok (.atcas f)
  | _ => .unassigned

/-- An `ms` word of a plan routine (R374, R376). -/
def decodePlanMemory (w : BitVec 64) : Dec :=
  let f := getMemWord w
  match opcode64 w with
  | 0x01 => .ok (.ld f)
  | 0x02 => .ok (.ldx f)
  | 0x03 => .ok (.st f)
  | 0x28 => .ok (.atadd f)
  | 0x29 => .ok (.atmin f)
  | 0x2A => .ok (.atmax f)
  | 0x2B => .ok (.atxch f)
  | 0x2C => .ok (.atcas f)
  | 0x40 => .ok (.pattr f)
  | 0x41 => .ok (.pshape f)
  | 0x42 => .ok (.phref f)
  | 0x43 => .ok (.phdesc f)
  | 0x44 => .ok (.psetext f)
  | 0x45 => .ok (.plout f)
  | 0x46 => .ok (.presid f)
  | 0x47 => .ok (.psweep f)
  | 0x48 => .ok (.prestore f)
  | 0x49 => .ok (.pregion f)
  | 0x4A => .ok (.pswait f)
  | _ => .unassigned

/-- A `cp` word (R92). -/
def decodeCopy (w : BitVec 64) : Dec :=
  let f := getCpWord w
  match opcode64 w with
  | 0x01 => .ok (.cpy f)
  | 0x02 => .ok (.cpyr f)
  | 0x03 => .ok (.cpys f)
  | 0x04 => .ok (.cfill f)
  | 0x08 => .ok (.csend f)
  | 0x09 => .ok (.cqsend f)
  | 0x0A => .ok (.chopen f)
  | 0x0B => .ok (.chclose f)
  | 0x10 => .ok (.sluice f)
  | 0x11 => .ok (.slstat f)
  | 0x12 => .ok (.slabort f)
  | 0x18 => .ok (.dtload f)
  | 0x19 => .ok (.cwait f)
  | 0x1A => .ok (.cstat f)
  | _ => .unassigned

/-! ## Sync and branch words (R93 to R96, R423) -/

/-- A `sy` word (R93, R423, R306). -/
def decodeSync (w : BitVec 32) : Dec :=
  let k := w.extractLsb' 16 5
  let m := w.extractLsb' 16 6
  let c := w.extractLsb' 16 8
  let r := w.extractLsb' 10 6
  let ea := w.getLsbD 9
  let lim := w.extractLsb' 4 5
  let sc := w.extractLsb' 1 3
  let tail : Bool := w.extractLsb' 0 4 = 0
  let ix3 : Bool := w.extractLsb' 21 3 = 0
  match (w.extractLsb' 24 8).toNat with
  | 0x01 => Dec.of (ix3 && tail && lim = 0) (.fpost k r ea)
  | 0x02 => Dec.of (ix3 && tail && lim = 0) (.fset k r ea)
  | 0x03 => Dec.of (ix3 && tail) (.fwait k r ea lim)
  | 0x04 => Dec.of (ix3 && tail && lim = 0 && !ea) (.fget k r)
  | 0x08 => Dec.of (w.extractLsb' 22 2 = 0 && tail && lim = 0) (.lset m r ea)
  | 0x09 => Dec.of (w.extractLsb' 22 2 = 0 && tail && r = 0 && !ea) (.lwait m lim)
  | 0x10 => Dec.of tail (.qpush c r ea lim)
  | 0x11 => Dec.of (tail && !ea) (.qpop c r lim)
  | 0x18 => Dec.of (c = 0 && r = 0 && !ea && !w.getLsbD 0) (.bar sc lim)
  | 0x19 => Dec.of (c = 0 && r = 0 && !ea && lim = 0 && !w.getLsbD 0) (.fence sc)
  | 0x1A => Dec.of (w.extractLsb' 22 2 = 0 && w.extractLsb' 0 16 = 0) (.xfence (w.extractLsb' 19 3) (w.extractLsb' 16 3))
  | 0x20 => Dec.of (w.extractLsb' 0 24 = 0) .suspend
  | _ => .unassigned

/-- A `br` word with its literal words (R94 to R96). -/
def decodeBranch (w l0 l1 : BitVec 32) : Dec :=
  let bt := w.extractLsb' 21 3
  let c := w.extractLsb' 13 8
  let lt := w.extractLsb' 10 3
  let r := w.extractLsb' 4 6
  let ea := w.getLsbD 3
  let low3 : Bool := w.extractLsb' 0 3 = 0
  let none24 : Bool := w.extractLsb' 0 24 = 0
  let code := w.extractLsb' 0 16
  let code0 : Bool := w.extractLsb' 16 8 = 0
  let sys : SysR := { a := w.extractLsb' 18 6, b := w.extractLsb' 12 6, e := w.getLsbD 11 }
  let sys0 : Bool := w.extractLsb' 0 11 = 0
  match (w.extractLsb' 24 8).toNat with
  | 0x01 => .ok (.pbr bt (w.extractLsb' 0 21))
  | 0x02 => Dec.of (w.extractLsb' 0 21 = 0) (.pbrl bt (l1 ++ l0))
  | 0x03 => Dec.of (low3 && c = 0 && lt = 0) (.pbrs bt r ea)
  | 0x04 => Dec.of (low3 && r = 0 && lt = 0) (.br bt c ea)
  | 0x05 => Dec.of (low3 && r = 0) (.call bt c lt ea)
  | 0x06 => Dec.of (low3 && r = 0 && lt = 0) (.ret bt c ea)
  | 0x07 => Dec.of (low3 && c = 0 && lt = 0) (.loop bt r ea)
  | 0x08 => Dec.of (w.extractLsb' 1 23 = 0) (if w.getLsbD 0 then .modeEx else .modeIl)
  | 0x09 => Dec.of none24 .done
  | 0x0A => Dec.of none24 .yield
  | 0x0B => Dec.of code0 (.trap code)
  | 0x0C => Dec.of none24 .tret
  | 0x0D => Dec.of code0 (.bkpt code)
  | 0x0E => Dec.of code0 (.sysc code)
  | 0x10 => Dec.of sys0 (.cwb sys)
  | 0x11 => Dec.of sys0 (.iinv sys)
  | 0x12 => Dec.of none24 .fbar
  | 0x20 => Dec.of sys0 (.tlbinv sys)
  | 0x21 => Dec.of none24 .tlbinva
  | 0x22 => Dec.of sys0 (.tlbwr sys)
  | 0x23 => Dec.of sys0 (.tlbprobe sys)
  | 0x24 => Dec.of (w.extractLsb' 0 5 = 0) (.pmfcr (getCrK w))
  | 0x25 => Dec.of (w.extractLsb' 0 5 = 0) (.pmtcr (getCrK w))
  | 0x26 => Dec.of sys0 (.ctxswSave sys)
  | 0x27 => Dec.of none24 .waiti
  | 0x28 => Dec.of (sys0 && sys.b = 0) (.dbell sys.a sys.e)
  | _ => .unassigned

/-- A slot word of any slot, 32-bit words in the low half, with its literal words (R71, R74). -/
def decodeSlot (s : Slot) (w : BitVec 64) (l0 l1 : BitVec 32) : Dec :=
  match s with
  | .sa => decodeScalar (w.setWidth 32) l0 l1
  | .vx => decodeVector w l0
  | .mx => decodeMatrix w
  | .ms => decodeMemory w
  | .cp => decodeCopy w
  | .sy => decodeSync (w.setWidth 32)
  | .br => decodeBranch (w.setWidth 32) l0 l1
  | .pms => decodePlanMemory w

/-- Bytes of a slot word (R70). -/
def Slot.bytes : Slot → Nat
  | .sa => 4 | .vx => 8 | .mx => 8 | .ms => 8 | .cp => 8 | .sy => 4 | .br => 4 | .pms => 8

/-- Literal words of an opcode (R74): MOVL, PBRL and VBCSTI. -/
def Slot.lits (s : Slot) (op : Nat) : Nat :=
  match s with
  | .sa => if op = 0x33 then 2 else 0
  | .br => if op = 0x02 then 2 else 0
  | .vx => if op = 0x35 then 1 else 0
  | .mx => 0 | .ms => 0 | .cp => 0 | .sy => 0 | .pms => 0

/-! ## Graph words (R97 to R101) -/

def getGc (w : BitVec 64) : GcWord :=
  { ha := w.extractLsb' 51 5, hb := w.extractLsb' 46 5, hc := w.extractLsb' 41 5, cond := w.extractLsb' 37 4,
    imm := w.extractLsb' 0 32 }

/-- Words that follow a top-level word: handle and attribute words, or NW descriptor words (R98, R99). -/
def egbTrail (w : BitVec 64) : Nat :=
  match (w.extractLsb' 56 8).toNat with
  | 0x02 => ((w.extractLsb' 41 5).toNat + 3) / 4 + (w.extractLsb' 36 5).toNat
  | 0x26 | 0x30 | 0x31 | 0x32 | 0x33 | 0x34 | 0x38 | 0x39 | 0x3B | 0x3D => (w.extractLsb' 40 4).toNat
  | _ => 0

/-- The 16-bit references of the handle words (R99). -/
def refsOf (ws : List (BitVec 64)) : List (BitVec 16) :=
  ws.flatMap fun w => [w.extractLsb' 0 16, w.extractLsb' 16 16, w.extractLsb' 32 16, w.extractLsb' 48 16]

/-- A top-level EGB word with the words that follow it (R98 to R101, R353). An unassigned EOP, a reserved bit, an
NH above 16 or a wrong NW is no instruction: the illegal word of R101. A reference in a place NH leaves unused is
dropped here and judged by `unusedRefsClear`. -/
def decodeEgb (w : BitVec 64) (trail : List (BitVec 64)) : Option Instr :=
  let g := getGc w
  let h : GhWord := { handle := w.extractLsb' 44 12, aux := w.extractLsb' 0 32, trail := trail.take (w.extractLsb' 40 4).toNat }
  let nh := (w.extractLsb' 41 5).toNat
  let na := (w.extractLsb' 36 5).toNat
  let hw := (nh + 3) / 4
  let gc (i : Instr) : Option Instr := if w.extractLsb' 32 5 = 0 ∧ i.wf then some i else none
  let gh (i : Instr) : Option Instr :=
    if w.extractLsb' 32 8 = 0 ∧ h.trail.length = (w.extractLsb' 40 4).toNat ∧ i.wf then some i else none
  match (w.extractLsb' 56 8).toNat with
  | 0x01 => if w.extractLsb' 32 19 = 0 ∧ w.extractLsb' 0 16 = 0 then
      some (.block (w.extractLsb' 51 5) (w.extractLsb' 16 16)) else none
  | 0x02 =>
    let o : OpWord :=
      { opid := w.extractLsb' 46 10, cons := w.extractLsb' 0 32,
        refs := (refsOf (trail.take hw)).take nh, attrs := (trail.drop hw).take na }
    let i := Instr.op o
    if w.extractLsb' 32 4 = 0 ∧ nh ≤ 16 ∧ hw + na ≤ trail.length ∧ i.wf then some i else none
  | 0x10 => gc (.egbLoop g)
  | 0x11 => gc (.endloop g)
  | 0x12 => gc (.egbBr g)
  | 0x13 => gc (.brc g)
  | 0x14 => gc (.egbCall g)
  | 0x15 => gc (.egbRet g)
  | 0x16 => gc (.gend g)
  | 0x18 => gc (.capbeg g)
  | 0x19 => gc (.capend g)
  | 0x1A => gc (.replay g)
  | 0x20 => gc (.hset g)
  | 0x21 => gc (.hadd g)
  | 0x22 => gc (.hmul g)
  | 0x23 => gc (.hdiv g)
  | 0x24 => gc (.hmin g)
  | 0x25 => gc (.hmax g)
  | 0x26 => gh (.hld h)
  | 0x30 => gh (.hdef h)
  | 0x31 => gh (.hfree h)
  | 0x32 => gh (.hreshape h)
  | 0x33 => gh (.hshard h)
  | 0x34 => gh (.halias h)
  | 0x38 => if h.aux = 1 then gh (.chloadOff h) else gh (.chload { h with aux := h.aux })
  | 0x39 => gh (.param h)
  | 0x3A => gc (.egbStep g)
  | 0x3B => gh (.waith h)
  | 0x3C => gc (.signal g)
  | 0x3D => gh (.csload h)
  | _ => none

/-- The places of the handle words beyond NH hold zero (R99: otherwise a graph fault, not an illegal word). -/
def unusedRefsClear (nh : Nat) (trail : List (BitVec 64)) : Bool :=
  ((refsOf (trail.take ((nh + 3) / 4))).drop nh).all fun r => r = 0

/-! ## The encoder -/

/-- The words of an instruction: a slot word with its literals, or EGB words. -/
inductive Enc where
  | slot (s : Slot) (w : BitVec 64) (l0 l1 : BitVec 32)
  | egb (w : BitVec 64) (trail : List (BitVec 64))
  deriving DecidableEq, Repr

def encArithR (op : BitVec 8) (f : ArithR) : BitVec 32 :=
  op ++ f.d ++ f.a ++ BitVec.ofBool f.e ++ f.b ++ BitVec.ofBool f.f ++ 0#2 ++ BitVec.ofBool f.u ++ BitVec.ofBool f.w

def encLogicR (op : BitVec 8) (f : LogicR) : BitVec 32 :=
  op ++ f.d ++ f.a ++ BitVec.ofBool f.e ++ f.b ++ BitVec.ofBool f.f ++ 0#3 ++ BitVec.ofBool f.w

def encImmI (op : BitVec 8) (f : ImmI) : BitVec 32 := op ++ f.d ++ f.a ++ BitVec.ofBool f.e ++ f.imm

def encShiftI (op : BitVec 8) (f : ShiftI) : BitVec 32 := op ++ f.d ++ f.a ++ BitVec.ofBool f.e ++ 0#5 ++ f.c

def encUnaryR (op : BitVec 8) (f : UnaryR) : BitVec 32 := op ++ f.d ++ f.a ++ BitVec.ofBool f.e ++ 0#11

def encBinR (op : BitVec 8) (f : BinR) : BitVec 32 :=
  op ++ f.d ++ f.a ++ BitVec.ofBool f.e ++ f.b ++ BitVec.ofBool f.f ++ 0#4

def encFieldF (op : BitVec 8) (f : FieldF) : BitVec 32 := op ++ f.d ++ f.a ++ f.wid ++ f.ofs

def encCrK (op : BitVec 8) (f : CrK) : BitVec 32 := op ++ f.r ++ f.crn ++ BitVec.ofBool f.e ++ 0#5

def encVWord (op : BitVec 8) (f : VWord) : BitVec 64 :=
  f.typ ++ f.rm ++ BitVec.ofBool f.pen ++ f.pg ++ f.rpt ++ BitVec.ofBool f.sat ++ BitVec.ofBool f.ea
    ++ BitVec.ofBool f.eb ++ BitVec.ofBool f.ec ++ BitVec.ofBool f.bs ++ f.res ++ f.imm ++ op ++ f.vd ++ f.va ++ f.vb ++ f.vc

def encMWord (op : BitVec 8) (f : MWord) : BitVec 64 :=
  f.mfmt ++ BitVec.ofBool f.rz ++ BitVec.ofBool f.sat ++ f.rq ++ f.dt ++ BitVec.ofBool f.dec ++ f.scale ++ f.acc2
    ++ f.res ++ op ++ f.acc ++ f.oa ++ f.ob ++ BitVec.ofBool f.na ++ BitVec.ofBool f.nb ++ BitVec.ofBool f.ad
    ++ f.sr ++ BitVec.ofBool f.ea ++ f.sd

def encMemWord (op : BitVec 8) (f : MemWord) : BitVec 64 :=
  f.disp ++ f.ord ++ f.scope ++ BitVec.ofBool f.pen ++ f.pg ++ BitVec.ofBool f.ea ++ BitVec.ofBool f.ed
    ++ BitVec.ofBool f.ei ++ BitVec.ofBool f.u ++ f.res ++ op ++ f.dr ++ f.base ++ f.idx ++ f.sz ++ f.sh

def encCpWord (op : BitVec 8) (f : CpWord) : BitVec 64 :=
  f.off ++ f.dt ++ BitVec.ofBool f.dec ++ BitVec.ofBool f.acw ++ f.sr ++ BitVec.ofBool f.ea ++ f.rq
    ++ BitVec.ofBool f.le ++ f.res ++ op ++ f.stg ++ f.ch ++ f.lc ++ BitVec.ofBool f.fe ++ f.fl ++ BitVec.ofBool f.res0

def encSync (op ix : BitVec 8) (r : BitVec 6) (ea : Bool) (lim : BitVec 5) (sc : BitVec 3) : BitVec 32 :=
  op ++ ix ++ r ++ BitVec.ofBool ea ++ lim ++ sc ++ 0#1

/-- Form B of R94. -/
def encB (op : BitVec 8) (bt : BitVec 3) (c : BitVec 8) (lt : BitVec 3) (r : BitVec 6) (ea : Bool) : BitVec 32 :=
  op ++ bt ++ c ++ lt ++ r ++ BitVec.ofBool ea ++ 0#3

def encSysR (op : BitVec 8) (f : SysR) : BitVec 32 := op ++ f.a ++ f.b ++ BitVec.ofBool f.e ++ 0#11

def encGc (op : BitVec 8) (g : GcWord) : BitVec 64 := op ++ g.ha ++ g.hb ++ g.hc ++ g.cond ++ 0#5 ++ g.imm

def encGh (op : BitVec 8) (g : GhWord) : Enc :=
  .egb (op ++ g.handle ++ BitVec.ofNat 4 g.trail.length ++ 0#8 ++ g.aux) g.trail

/-- Handle words from references, four a word, unused places zero (R99); the fuel is the number of words. -/
def packRefs : Nat → List (BitVec 16) → List (BitVec 64)
  | 0, _ => []
  | k + 1, rs =>
    (rs.getD 3 0 ++ rs.getD 2 0 ++ rs.getD 1 0 ++ rs.getD 0 0 : BitVec 64) :: packRefs k (rs.drop 4)

def sc32 (w : BitVec 32) : Enc := .slot .sa (w.setWidth 64) 0 0
def sy32 (w : BitVec 32) : Enc := .slot .sy (w.setWidth 64) 0 0
def br32 (w : BitVec 32) : Enc := .slot .br (w.setWidth 64) 0 0

/-- The words of an instruction; a hardware event has none. -/
def encode : Instr → Option Enc
  | .add f => some (sc32 (encArithR 0x01 f))
  | .sub f => some (sc32 (encArithR 0x02 f))
  | .mul f => some (sc32 (encArithR 0x03 f))
  | .mulh f => some (sc32 (encArithR 0x04 f))
  | .div f => some (sc32 (encArithR 0x05 f))
  | .rem f => some (sc32 (encArithR 0x06 f))
  | .addi f => some (sc32 (encImmI 0x07 f))
  | .rsbi f => some (sc32 (encImmI 0x08 f))
  | .muli f => some (sc32 (encImmI 0x09 f))
  | .min f => some (sc32 (encArithR 0x0A f))
  | .max f => some (sc32 (encArithR 0x0B f))
  | .and f => some (sc32 (encLogicR 0x10 f))
  | .or f => some (sc32 (encLogicR 0x11 f))
  | .xor f => some (sc32 (encLogicR 0x12 f))
  | .andn f => some (sc32 (encLogicR 0x13 f))
  | .orn f => some (sc32 (encLogicR 0x14 f))
  | .andi f => some (sc32 (encImmI 0x15 f))
  | .ori f => some (sc32 (encImmI 0x16 f))
  | .xori f => some (sc32 (encImmI 0x17 f))
  | .shl f => some (sc32 (encLogicR 0x18 f))
  | .shr f => some (sc32 (encLogicR 0x19 f))
  | .sar f => some (sc32 (encLogicR 0x1A f))
  | .rol f => some (sc32 (encLogicR 0x1B f))
  | .ror f => some (sc32 (encLogicR 0x1C f))
  | .shli f => some (sc32 (encShiftI 0x1D f))
  | .shri f => some (sc32 (encShiftI 0x1E f))
  | .sari f => some (sc32 (encShiftI 0x1F f))
  | .rori f => some (sc32 (encShiftI 0x20 f))
  | .popc f => some (sc32 (encUnaryR 0x21 f))
  | .clz f => some (sc32 (encUnaryR 0x22 f))
  | .cmp f => some (sc32 (0x24#8 ++ f.d ++ f.a ++ BitVec.ofBool f.e ++ f.b ++ BitVec.ofBool f.f ++ f.cond))
  | .cmpi f => some (sc32 (0x25#8 ++ f.d ++ f.a ++ BitVec.ofBool f.e ++ f.cond ++ f.imm))
  | .cmpp f => some (sc32 (0x26#8 ++ 0#3 ++ f.p ++ f.a ++ BitVec.ofBool f.e ++ f.b ++ BitVec.ofBool f.f ++ f.cond))
  | .cmppi f => some (sc32 (0x27#8 ++ 0#3 ++ f.p ++ f.a ++ BitVec.ofBool f.e ++ f.cond ++ f.imm))
  | .sel f => some (sc32 (0x28#8 ++ f.d ++ f.a ++ BitVec.ofBool f.e ++ f.b ++ BitVec.ofBool f.f ++ 0#1 ++ f.p))
  | .cmov f => some (sc32 (encBinR 0x29 f))
  | .lea f => some (sc32 (0x2A#8 ++ f.d ++ f.a ++ BitVec.ofBool f.e ++ f.b ++ BitVec.ofBool f.f ++ 0#1 ++ f.sh))
  | .bfx f => some (sc32 (encBinR 0x2C f))
  | .bfxs f => some (sc32 (encBinR 0x2D f))
  | .bfxi f => some (sc32 (encFieldF 0x2E f))
  | .bfxsi f => some (sc32 (encFieldF 0x2F f))
  | .bfi f => some (sc32 (encBinR 0x30 f))
  | .bfii f => some (sc32 (encFieldF 0x31 f))
  | .movi d imm => some (sc32 (0x32#8 ++ d ++ imm))
  | .movl d lit => some (.slot .sa ((0x33#8 ++ d ++ 0#18 : BitVec 32).setWidth 64) (lit.extractLsb' 0 32) (lit.extractLsb' 32 32))
  | .mfcr f => some (sc32 (encCrK 0x34 f))
  | .mtcr f => some (sc32 (encCrK 0x35 f))
  | .tclr d => some (sc32 (0x36#8 ++ d ++ 0#18))
  | .tclrC => some (sc32 0x37000000)
  | .tget f => some (sc32 (encUnaryR 0x38 f))
  | .tspill f => some (sc32 (encUnaryR 0x39 f))
  | .tfill f => some (sc32 (encBinR 0x3A f))
  | .vadd f => some (.slot .vx (encVWord 0x01 f) 0 0)
  | .vsub f => some (.slot .vx (encVWord 0x02 f) 0 0)
  | .vmul f => some (.slot .vx (encVWord 0x03 f) 0 0)
  | .vmulh f => some (.slot .vx (encVWord 0x04 f) 0 0)
  | .vfma f => some (.slot .vx (encVWord 0x05 f) 0 0)
  | .vfms f => some (.slot .vx (encVWord 0x06 f) 0 0)
  | .vfnma f => some (.slot .vx (encVWord 0x07 f) 0 0)
  | .vabs f => some (.slot .vx (encVWord 0x08 f) 0 0)
  | .vneg f => some (.slot .vx (encVWord 0x09 f) 0 0)
  | .vmin f => some (.slot .vx (encVWord 0x0A f) 0 0)
  | .vmax f => some (.slot .vx (encVWord 0x0B f) 0 0)
  | .vshl f => some (.slot .vx (encVWord 0x0C f) 0 0)
  | .vshr f => some (.slot .vx (encVWord 0x0D f) 0 0)
  | .vsar f => some (.slot .vx (encVWord 0x0E f) 0 0)
  | .vclamp f => some (.slot .vx (encVWord 0x0F f) 0 0)
  | .vcmp f => some (.slot .vx (encVWord 0x10 f) 0 0)
  | .vsel f => some (.slot .vx (encVWord 0x11 f) 0 0)
  | .vand f => some (.slot .vx (encVWord 0x12 f) 0 0)
  | .vor f => some (.slot .vx (encVWord 0x13 f) 0 0)
  | .vxor f => some (.slot .vx (encVWord 0x14 f) 0 0)
  | .vnot f => some (.slot .vx (encVWord 0x15 f) 0 0)
  | .pand f => some (.slot .vx (encVWord 0x16 f) 0 0)
  | .por f => some (.slot .vx (encVWord 0x17 f) 0 0)
  | .pxor f => some (.slot .vx (encVWord 0x18 f) 0 0)
  | .pnot f => some (.slot .vx (encVWord 0x19 f) 0 0)
  | .pmov f => some (.slot .vx (encVWord 0x1A f) 0 0)
  | .pcnt f => some (.slot .vx (encVWord 0x1B f) 0 0)
  | .viota f => some (.slot .vx (encVWord 0x1C f) 0 0)
  | .pset f => some (.slot .vx (encVWord 0x1D f) 0 0)
  | .vcvt f => some (.slot .vx (encVWord 0x20 f) 0 0)
  | .vwiden f => some (.slot .vx (encVWord 0x21 f) 0 0)
  | .vwiden4 f => some (.slot .vx (encVWord 0x22 f) 0 0)
  | .vnarrow f => some (.slot .vx (encVWord 0x23 f) 0 0)
  | .vnarrow4 f => some (.slot .vx (encVWord 0x24 f) 0 0)
  | .vbpack f => some (.slot .vx (encVWord 0x25 f) 0 0)
  | .vbunpk f => some (.slot .vx (encVWord 0x26 f) 0 0)
  | .vrsum f => some (.slot .vx (encVWord 0x28 f) 0 0)
  | .vrmin f => some (.slot .vx (encVWord 0x29 f) 0 0)
  | .vrmax f => some (.slot .vx (encVWord 0x2A f) 0 0)
  | .vperm f => some (.slot .vx (encVWord 0x30 f) 0 0)
  | .vrot f => some (.slot .vx (encVWord 0x31 f) 0 0)
  | .vzip f => some (.slot .vx (encVWord 0x32 f) 0 0)
  | .vunzip f => some (.slot .vx (encVWord 0x33 f) 0 0)
  | .vbcst f => some (.slot .vx (encVWord 0x34 f) 0 0)
  | .vmov f => some (.slot .vx (encVWord 0x36 f) 0 0)
  | .vmovs f => some (.slot .vx (encVWord 0x37 f) 0 0)
  | .vins f => some (.slot .vx (encVWord 0x38 f) 0 0)
  | .vexp2 f => some (.slot .vx (encVWord 0x39 f) 0 0)
  | .vlog2 f => some (.slot .vx (encVWord 0x3A f) 0 0)
  | .vrcp f => some (.slot .vx (encVWord 0x3B f) 0 0)
  | .vrsq f => some (.slot .vx (encVWord 0x3C f) 0 0)
  | .vtanh f => some (.slot .vx (encVWord 0x3D f) 0 0)
  | .vsigm f => some (.slot .vx (encVWord 0x3E f) 0 0)
  | .vdot4 f => some (.slot .vx (encVWord 0x40 f) 0 0)
  | .vrda f => some (.slot .vx (encVWord 0x44 f) 0 0)
  | .vwra f => some (.slot .vx (encVWord 0x45 f) 0 0)
  | .vpopq f => some (.slot .vx (encVWord 0x48 f) 0 0)
  | .vbcsti f l => some (.slot .vx (encVWord 0x35 f) l 0)
  | .oclaim f => some (.slot .mx (encMWord 0x01 f) 0 0)
  | .orelease f => some (.slot .mx (encMWord 0x02 f) 0 0)
  | .ofill f => some (.slot .mx (encMWord 0x03 f) 0 0)
  | .ostat f => some (.slot .mx (encMWord 0x04 f) 0 0)
  | .ozero f => some (.slot .mx (encMWord 0x05 f) 0 0)
  | .mma f => some (.slot .mx (encMWord 0x08 f) 0 0)
  | .drain f => some (.slot .mx (encMWord 0x09 f) 0 0)
  | .aclr f => some (.slot .mx (encMWord 0x0A f) 0 0)
  | .aload f => some (.slot .mx (encMWord 0x0B f) 0 0)
  | .amov f => some (.slot .mx (encMWord 0x0C f) 0 0)
  | .msync f => some (.slot .mx (encMWord 0x10 f) 0 0)
  | .mstat f => some (.slot .mx (encMWord 0x11 f) 0 0)
  | .ld f => some (.slot .ms (encMemWord 0x01 f) 0 0)
  | .ldx f => some (.slot .ms (encMemWord 0x02 f) 0 0)
  | .st f => some (.slot .ms (encMemWord 0x03 f) 0 0)
  | .vld f => some (.slot .ms (encMemWord 0x04 f) 0 0)
  | .vst f => some (.slot .ms (encMemWord 0x05 f) 0 0)
  | .vgath f => some (.slot .ms (encMemWord 0x06 f) 0 0)
  | .vscat f => some (.slot .ms (encMemWord 0x07 f) 0 0)
  | .pref f => some (.slot .ms (encMemWord 0x08 f) 0 0)
  | .acqr f => some (.slot .ms (encMemWord 0x0C f) 0 0)
  | .spld f => some (.slot .ms (encMemWord 0x10 f) 0 0)
  | .spst f => some (.slot .ms (encMemWord 0x11 f) 0 0)
  | .vspld f => some (.slot .ms (encMemWord 0x12 f) 0 0)
  | .vspst f => some (.slot .ms (encMemWord 0x13 f) 0 0)
  | .ralloc f => some (.slot .ms (encMemWord 0x14 f) 0 0)
  | .rfree f => some (.slot .ms (encMemWord 0x15 f) 0 0)
  | .stlook f => some (.slot .ms (encMemWord 0x16 f) 0 0)
  | .stfill f => some (.slot .ms (encMemWord 0x17 f) 0 0)
  | .stevict f => some (.slot .ms (encMemWord 0x18 f) 0 0)
  | .sdset f => some (.slot .ms (encMemWord 0x19 f) 0 0)
  | .l2pin f => some (.slot .ms (encMemWord 0x20 f) 0 0)
  | .l2unpin f => some (.slot .ms (encMemWord 0x21 f) 0 0)
  | .atadd f => some (.slot .ms (encMemWord 0x28 f) 0 0)
  | .atmin f => some (.slot .ms (encMemWord 0x29 f) 0 0)
  | .atmax f => some (.slot .ms (encMemWord 0x2A f) 0 0)
  | .atxch f => some (.slot .ms (encMemWord 0x2B f) 0 0)
  | .atcas f => some (.slot .ms (encMemWord 0x2C f) 0 0)
  | .pattr f => some (.slot .pms (encMemWord 0x40 f) 0 0)
  | .pshape f => some (.slot .pms (encMemWord 0x41 f) 0 0)
  | .phref f => some (.slot .pms (encMemWord 0x42 f) 0 0)
  | .phdesc f => some (.slot .pms (encMemWord 0x43 f) 0 0)
  | .psetext f => some (.slot .pms (encMemWord 0x44 f) 0 0)
  | .plout f => some (.slot .pms (encMemWord 0x45 f) 0 0)
  | .presid f => some (.slot .pms (encMemWord 0x46 f) 0 0)
  | .psweep f => some (.slot .pms (encMemWord 0x47 f) 0 0)
  | .prestore f => some (.slot .pms (encMemWord 0x48 f) 0 0)
  | .pregion f => some (.slot .pms (encMemWord 0x49 f) 0 0)
  | .pswait f => some (.slot .pms (encMemWord 0x4A f) 0 0)
  | .cpy f => some (.slot .cp (encCpWord 0x01 f) 0 0)
  | .cpyr f => some (.slot .cp (encCpWord 0x02 f) 0 0)
  | .cpys f => some (.slot .cp (encCpWord 0x03 f) 0 0)
  | .cfill f => some (.slot .cp (encCpWord 0x04 f) 0 0)
  | .csend f => some (.slot .cp (encCpWord 0x08 f) 0 0)
  | .cqsend f => some (.slot .cp (encCpWord 0x09 f) 0 0)
  | .chopen f => some (.slot .cp (encCpWord 0x0A f) 0 0)
  | .chclose f => some (.slot .cp (encCpWord 0x0B f) 0 0)
  | .sluice f => some (.slot .cp (encCpWord 0x10 f) 0 0)
  | .slstat f => some (.slot .cp (encCpWord 0x11 f) 0 0)
  | .slabort f => some (.slot .cp (encCpWord 0x12 f) 0 0)
  | .dtload f => some (.slot .cp (encCpWord 0x18 f) 0 0)
  | .cwait f => some (.slot .cp (encCpWord 0x19 f) 0 0)
  | .cstat f => some (.slot .cp (encCpWord 0x1A f) 0 0)
  | .fpost k r ea => some (sy32 (encSync 0x01 (0#3 ++ k) r ea 0 0))
  | .fset k r ea => some (sy32 (encSync 0x02 (0#3 ++ k) r ea 0 0))
  | .fwait k r ea lim => some (sy32 (encSync 0x03 (0#3 ++ k) r ea lim 0))
  | .fget k r => some (sy32 (encSync 0x04 (0#3 ++ k) r false 0 0))
  | .lset m r ea => some (sy32 (encSync 0x08 (0#2 ++ m) r ea 0 0))
  | .lwait m lim => some (sy32 (encSync 0x09 (0#2 ++ m) 0 false lim 0))
  | .qpush c r ea lim => some (sy32 (encSync 0x10 c r ea lim 0))
  | .qpop c r lim => some (sy32 (encSync 0x11 c r false lim 0))
  | .bar sc lim => some (sy32 (encSync 0x18 0 0 false lim sc))
  | .fence sc => some (sy32 (encSync 0x19 0 0 false 0 sc))
  | .xfence pa pb => some (sy32 (encSync 0x1A (0#2 ++ pa ++ pb) 0 false 0 0))
  | .suspend => some (sy32 0x20000000)
  | .pbr bt off => some (br32 (0x01#8 ++ bt ++ off))
  | .pbrl bt lit => some (.slot .br ((0x02#8 ++ bt ++ 0#21 : BitVec 32).setWidth 64) (lit.extractLsb' 0 32) (lit.extractLsb' 32 32))
  | .pbrs bt r ea => some (br32 (encB 0x03 bt 0 0 r ea))
  | .br bt c ea => some (br32 (encB 0x04 bt c 0 0 ea))
  | .call bt c lt ea => some (br32 (encB 0x05 bt c lt 0 ea))
  | .ret bt c ea => some (br32 (encB 0x06 bt c 0 0 ea))
  | .loop bt r ea => some (br32 (encB 0x07 bt 0 0 r ea))
  | .modeEx => some (br32 0x08000001)
  | .modeIl => some (br32 0x08000000)
  | .done => some (br32 0x09000000)
  | .yield => some (br32 0x0A000000)
  | .trap imm => some (br32 (0x0B#8 ++ 0#8 ++ imm))
  | .tret => some (br32 0x0C000000)
  | .bkpt imm => some (br32 (0x0D#8 ++ 0#8 ++ imm))
  | .sysc imm => some (br32 (0x0E#8 ++ 0#8 ++ imm))
  | .cwb f => some (br32 (encSysR 0x10 f))
  | .iinv f => some (br32 (encSysR 0x11 f))
  | .fbar => some (br32 0x12000000)
  | .tlbinv f => some (br32 (encSysR 0x20 f))
  | .tlbinva => some (br32 0x21000000)
  | .tlbwr f => some (br32 (encSysR 0x22 f))
  | .tlbprobe f => some (br32 (encSysR 0x23 f))
  | .pmfcr f => some (br32 (encCrK 0x24 f))
  | .pmtcr f => some (br32 (encCrK 0x25 f))
  | .ctxswSave f => some (br32 (encSysR 0x26 f))
  | .ctxswRestore f => some (br32 (encSysR 0x26 f))
  | .ctxswStop f => some (br32 (encSysR 0x26 f))
  | .waiti => some (br32 0x27000000)
  | .dbell r ea => some (br32 (encSysR 0x28 { a := r, b := 0, e := ea }))
  | .block nm1 budget => some (.egb (0x01#8 ++ nm1 ++ 0#19 ++ budget ++ 0#16) [])
  | .op w => some (.egb (0x02#8 ++ w.opid ++ BitVec.ofNat 5 w.refs.length ++ BitVec.ofNat 5 w.attrs.length ++ 0#4 ++ w.cons)
      (packRefs ((w.refs.length + 3) / 4) w.refs ++ w.attrs))
  | .egbLoop g => some (.egb (encGc 0x10 g) [])
  | .endloop g => some (.egb (encGc 0x11 g) [])
  | .egbBr g => some (.egb (encGc 0x12 g) [])
  | .brc g => some (.egb (encGc 0x13 g) [])
  | .egbCall g => some (.egb (encGc 0x14 g) [])
  | .egbRet g => some (.egb (encGc 0x15 g) [])
  | .gend g => some (.egb (encGc 0x16 g) [])
  | .capbeg g => some (.egb (encGc 0x18 g) [])
  | .capend g => some (.egb (encGc 0x19 g) [])
  | .replay g => some (.egb (encGc 0x1A g) [])
  | .hset g => some (.egb (encGc 0x20 g) [])
  | .hadd g => some (.egb (encGc 0x21 g) [])
  | .hmul g => some (.egb (encGc 0x22 g) [])
  | .hdiv g => some (.egb (encGc 0x23 g) [])
  | .hmin g => some (.egb (encGc 0x24 g) [])
  | .hmax g => some (.egb (encGc 0x25 g) [])
  | .egbStep g => some (.egb (encGc 0x3A g) [])
  | .signal g => some (.egb (encGc 0x3C g) [])
  | .hld g => some (encGh 0x26 g)
  | .hdef g => some (encGh 0x30 g)
  | .hfree g => some (encGh 0x31 g)
  | .hreshape g => some (encGh 0x32 g)
  | .hshard g => some (encGh 0x33 g)
  | .halias g => some (encGh 0x34 g)
  | .param g => some (encGh 0x39 g)
  | .waith g => some (encGh 0x3B g)
  | .csload g => some (encGh 0x3D g)
  | .chload g => some (encGh 0x38 g)
  | .chloadOff g => some (encGh 0x38 g)
  | .fillComplete | .matrixStart | .drainRowDelivery | .loadBind | .producerWriteback
  | .storePerform | .copyPerform | .landingUnitArrival | .flagPostArrival | .qpushArrival
  | .contributionArrival | .memberCompletion | .abortTokenArrival | .waitLimitExpiry | .deadlineExpiry
  | .shootdownComplete | .pageWalkComplete | .trapEntry | .recordTake | .agePromotion
  | .pointFire | .pointComplete | .preemptBoundExpiry | .contextSave | .operatorIssue
  | .operatorComplete | .blockCommit | .glaunchWrite | .gpatchWrite | .gstatFaultClear
  | .cctlOffline | .cctlOnline | .cctlRestart | .dsvcDrain | .dsvcReenable | .spvWarnClear
  | .traceEnable | .traceDisable | .erxtailWrite | .etxtailWrite | .ringEnable | .ringStop
  | .estatClr | .frameReceive | .frameTransmit | .registerWrite | .hostBar2Access
  | .powerOnReset | .dieReset | .attestationRequest | .firmwareUpdate | .laneRetrain | .rowSparing
  | .flitRetry | .linkRetryLimit | .thermalTrip | .stackSparesExhausted | .tileWriteComplete
  | .emptyBundle | .illegalWord => none

/-! ## The opcode table's words -/

/-- The instruction the decoder reads from a table word (bits numbered as the table numbers them). A word of 32
bits is read in the scalar slot; where that map refuses it, in the sync slot; then in the branch slot. A word of 64
bits is read in the vector, matrix, memory and copy slots in that order, then as a plan operation and as EGB. Bits
above `nbits` are zero. -/
def decodeTableWord (nbits w : Nat) : Option Instr :=
  let x := BitVec.ofNat 64 (w % 2 ^ nbits)
  let try32 := (decodeSlot .sa x 0 0).instr? <|> (decodeSlot .sy x 0 0).instr? <|> (decodeSlot .br x 0 0).instr?
  let try64 := (decodeSlot .vx x 0 0).instr? <|> (decodeSlot .mx x 0 0).instr? <|> (decodeSlot .ms x 0 0).instr?
    <|> (decodeSlot .cp x 0 0).instr? <|> (decodeSlot .pms x 0 0).instr? <|> decodeEgb x []
  if nbits ≤ 32 then try32 else try64

/-- The slot in which `decodeTableWord` reads a word. -/
def tableSlot (nbits w : Nat) : Slot :=
  let x := BitVec.ofNat 64 (w % 2 ^ nbits)
  let ok (s : Slot) : Bool := (decodeSlot s x 0 0).instr?.isSome
  if nbits ≤ 32 then (if ok .sa then .sa else if ok .sy then .sy else .br)
  else if ok .vx then .vx else if ok .mx then .mx else if ok .ms then .ms else if ok .cp then .cp else .pms

end Sys2Proof
end

