-- ==== Sys2Proof/Machine/Tbl.lean ====
section
/-! DEFINITION. Tables by number and the canonical byte memory: the plain data that State is built from, and the bit and byte helpers that the operations share. -/

namespace Sys2Proof.Machine

/-! ## Tables -/

/-- Numbered entries; a number that is not listed stands for the reader's default. -/
abbrev Tbl (α : Type) := List (Nat × α)

/-- The entry of number k. -/
def Tbl.get? {α : Type} : Tbl α → Nat → Option α
  | [], _ => none
  | (k', v) :: t, k => if k' = k then some v else Tbl.get? t k

/-- The entry of number k, or the default d. -/
def Tbl.getD {α : Type} (t : Tbl α) (k : Nat) (d : α) : α := (Tbl.get? t k).getD d

/-- Write entry k, keeping numbers in rising order. -/
def Tbl.set {α : Type} : Tbl α → Nat → α → Tbl α
  | [], k, v => [(k, v)]
  | (k', v') :: t, k, v =>
    if k' = k then (k, v) :: t else if k < k' then (k, v) :: (k', v') :: t else (k', v') :: Tbl.set t k v

/-- Forget entry k. -/
def Tbl.del {α : Type} : Tbl α → Nat → Tbl α
  | [], _ => []
  | (k', v') :: t, k => if k' = k then Tbl.del t k else (k', v') :: Tbl.del t k

/-- Apply f to every listed entry. -/
def Tbl.mapV {α : Type} (f : α → α) (t : Tbl α) : Tbl α := t.map fun p => (p.1, f p.2)

/-- Some listed entry satisfies f. -/
def Tbl.anyV {α : Type} (f : α → Bool) (t : Tbl α) : Bool := t.any fun p => f p.2

/-- The lowest number below n that is not listed. -/
def Tbl.free {α : Type} (t : Tbl α) (n : Nat) : Option Nat := (List.range n).find? fun k => (Tbl.get? t k).isNone

/-! ## Byte memory -/

/-- Bytes at physical addresses: addresses strictly rising, no entry 0; an unlisted byte reads 0 (log 4). -/
abbrev Memory := List Host.Cell

/-- What an unlisted byte reads as (R23 gives the memory no contents after power-on; log 4). -/
def Memory.unlisted : Byte := 0

/-- The byte at an address. -/
def Memory.read : Memory → Nat → Byte
  | [], _ => Memory.unlisted
  | (k, b) :: t, a => if k = a then b else Memory.read t a

/-- Write one byte, keeping the canonical form. -/
def Memory.write : Memory → Nat → Byte → Memory
  | [], a, b => if b = Memory.unlisted then [] else [(a, b)]
  | (k, c) :: t, a, b =>
    if k = a then (if b = Memory.unlisted then t else (a, b) :: t)
    else if a < k then (if b = Memory.unlisted then (k, c) :: t else (a, b) :: (k, c) :: t)
    else (k, c) :: Memory.write t a b

/-- The canonical form above a lower limit. -/
def Memory.wfFrom : Nat → Memory → Bool
  | _, [] => true
  | lo, (k, b) :: t => decide (lo ≤ k) && decide (b ≠ Memory.unlisted) && Memory.wfFrom (k + 1) t

/-- The canonical form: addresses strictly rising and no entry equal to what an unlisted address reads as. -/
def Memory.wf (m : Memory) : Bool := Memory.wfFrom 0 m

/-- The entries from an address upwards. -/
def Memory.above (a : Nat) : Memory → Memory
  | [] => []
  | (k, b) :: t => if k < a then Memory.above a t else (k, b) :: t

/-- The entries below an address. -/
def Memory.below (a : Nat) : Memory → Memory
  | [] => []
  | (k, b) :: t => if k < a then (k, b) :: Memory.below a t else []

/-- n bytes from an address, where no entry lies below it. -/
def Memory.readFrom : Memory → Nat → Nat → List Byte
  | _, _, 0 => []
  | [], a, n + 1 => Memory.unlisted :: Memory.readFrom [] (a + 1) n
  | (k, b) :: t, a, n + 1 =>
    if k = a then b :: Memory.readFrom t (a + 1) n else Memory.unlisted :: Memory.readFrom ((k, b) :: t) (a + 1) n

/-- n bytes from an address. -/
def Memory.readN (m : Memory) (a n : Nat) : List Byte := Memory.readFrom (Memory.above a m) a n

/-- Entries that hold bytes from an address upwards, in front of the entries above them. -/
def Memory.cells (t : Memory) : Nat → List Byte → Memory
  | _, [] => t
  | a, b :: bs => if b = Memory.unlisted then Memory.cells t (a + 1) bs else (a, b) :: Memory.cells t (a + 1) bs

/-- Bytes written from an address upwards. -/
def Memory.writeN (m : Memory) (a : Nat) (bs : List Byte) : Memory :=
  Memory.below a m ++ Memory.cells (Memory.above (a + bs.length) m) a bs

/-! ## Bytes and words (R4: little-endian) -/

/-- The number whose little-endian bytes are given. -/
def leNat : List Byte → Nat
  | [] => 0
  | b :: t => b.toNat + 256 * leNat t

/-- The n little-endian bytes of a number. -/
def toBytes : Nat → Nat → List Byte
  | 0, _ => []
  | n + 1, x => BitVec.ofNat 8 x :: toBytes n (x / 256)

/-- The 64-bit value of up to eight bytes. -/
def leWord (bs : List Byte) : DWord := BitVec.ofNat 64 (leNat bs)

/-- Bits hi..lo of a value as a number. -/
def bits (x : DWord) (hi lo : Nat) : Nat := x.toNat / 2 ^ lo % 2 ^ (hi - lo + 1)

/-- x with bits hi..lo replaced by v. -/
def setBits (x : DWord) (hi lo v : Nat) : DWord :=
  let m := 2 ^ (hi - lo + 1)
  BitVec.ofNat 64 (x.toNat % 2 ^ lo + (v % m) * 2 ^ lo + x.toNat / 2 ^ (hi + 1) * 2 ^ (hi + 1))

/-- Sign extension of the low n bits of x to 64 bits. -/
def sextN (n x : Nat) : DWord :=
  let y := x % 2 ^ n
  if y < 2 ^ (n - 1) then BitVec.ofNat 64 y else BitVec.ofNat 64 (y + 2 ^ 64 - 2 ^ n)

/-- The low n bits of x as a two's-complement integer. -/
def sintN (n x : Nat) : Int :=
  let y := x % 2 ^ n
  if y < 2 ^ (n - 1) then (y : Int) else (y : Int) - (2 ^ n : Nat)

/-- Elements of width w packed from element 0 upwards (R139). -/
def packElems (w : Nat) : List Nat → Nat
  | [] => 0
  | x :: t => x % 2 ^ w + 2 ^ w * packElems w t

/-- The vector register that holds the elements (R139). -/
def vecOf (w : Nat) (xs : List Nat) : VReg := BitVec.ofNat 4096 (packElems w xs)

/-- Element i of width w (R139). -/
def elem (w : Nat) (x : VReg) (i : Nat) : Nat := x.toNat / 2 ^ (w * i) % 2 ^ w

/-- The n elements of a register. -/
def elems (w n : Nat) (x : VReg) : List Nat := (List.range n).map fun i => elem w x i

/-- A vector register's bytes in ascending order (R139). -/
def vecBytes (x : VReg) : List Byte := toBytes 512 x.toNat

/-- Round n up to a multiple of k. -/
def roundUp (n k : Nat) : Nat := (n + k - 1) / k * k

/-- Bit j of a taint mask. -/
def tagBit (j : Nat) : Taint := BitVec.ofNat 16 (2 ^ j)

end Sys2Proof.Machine
end

