-- ==== Sys2Proof/Machine/State.lean ====
section
/-! DEFINITION. State: everything the manual gives the machine, as plain data, and the machine after reset. -/

namespace Sys2Proof.Machine

/-! ## Registers of a core (R108, R139, R140, R196, R201, R441) -/

/-- A register with its full/empty bit and taint mask (R108). Every register holds a value (log 3). -/
structure Reg (α : Type) where
  val : α
  full : Bool := true
  taint : Taint := 0
  deriving DecidableEq, Repr

/-- A 64-bit word with a taint mask and no full/empty bit: branch-target, stream and staging words (R114, R196, R201). -/
structure TWord where
  val : DWord := 0
  taint : Taint := 0
  deriving DecidableEq, Repr

/-- A repeat latch: the last word a slot executed and its literals (R72). -/
structure Latch where
  word : BitVec 64 := 0
  l0 : BitVec 32 := 0
  l1 : BitVec 32 := 0
  deriving DecidableEq, Repr

/-- The register state of a core that the shadow set copies (R441), with the LIVE bits and queue pointers it records. -/
structure Regs where
  s : Tbl (Reg DWord) := []
  v : Tbl (Reg VReg) := []
  p : Tbl (Reg PReg) := []
  b : Tbl TWord := []
  /-- Control taint CT (R118). -/
  ct : Taint := 0
  /-- Counting flags f0 to f31 (R418). -/
  flag : Tbl Nat := []
  /-- FP_FLAGS (R60). -/
  fp : BitVec 5 := 0
  /-- Pipeline mode: true is exposed (R59, R455). -/
  exposed : Bool := false
  /-- Valid repeat latches by slot number (R72). -/
  latch : Tbl Latch := []
  /-- Stream words, word w of sdn at 4n + w (R196). -/
  sd : Tbl TWord := []
  /-- Copy and collective staging words, word w at 4n + w (R201). -/
  ck : Tbl TWord := []
  cl : Tbl TWord := []
  /-- LIVE bit of each tile (R172). -/
  live : BitVec 4 := 0
  /-- Head and tail pointers of the result queues, rising counts (R177). -/
  rqHead : Tbl Nat := []
  rqTail : Tbl Nat := []
  deriving DecidableEq, Repr

/-- State of a load tag (R115). -/
inductive TagState where
  | free | pending | bound
  deriving DecidableEq, Repr

/-- A load tag (R108, R115). -/
structure Tag where
  st : TagState := .free
  gen : BitVec 3 := 0
  hold : Bool := false
  time : Nat := 0
  deriving DecidableEq, Repr

/-- A register of the scalar, vector or predicate file. -/
inductive RegName where
  | s (n : Nat)
  | v (n : Nat)
  | p (n : Nat)
  deriving DecidableEq, Repr

/-- Part of an access: `len` bytes at offset `off` of the access, at virtual and physical addresses. -/
structure Piece where
  off : Nat
  va : Nat
  pa : Nat
  len : Nat
  deriving DecidableEq, Repr

/-- A global load in flight (R115, R116): its pieces, what it may not pass, and where its value goes. -/
structure Load where
  tag : Nat
  dest : RegName
  /-- Bytes of the result, and whether it is sign-extended (R235). -/
  size : Nat
  sext : Bool := false
  pieces : List Piece := []
  /-- Bytes taken from the withholding buffer at issue, by offset (R219). -/
  fwd : Tbl Byte := []
  /-- Value fixed at issue: an atomic's old value or an L1 hit. -/
  fixed : Option Nat := none
  /-- Tags that must bind first (R116, R255, R262), and the fill time an L1 line must have (R116). -/
  waits : Taint := 0
  minFill : Nat := 0
  /-- Performed at the L2 or beyond rather than at the L1 (R218). -/
  beyond : Bool := false
  /-- Cycle of its issue, and the least latencies of its kind: of an L1 hit, else (R475, R477). -/
  sent : Nat := 0
  least : Nat := 4
  far : Nat := 30
  /-- An acquire: at `.quad` or wider the later loads of the core need newer lines (R262). -/
  acq : Bool := false
  acqWide : Bool := false
  /-- Issued before the current checkpoint (R113), and cancelled by a rollback. -/
  preCk : Bool := false
  cancelled : Bool := false
  deriving DecidableEq, Repr

/-- A long-latency producer in flight that is no load (R110): the value it will write. -/
structure Producer where
  id : Nat
  dest : RegName
  val : Nat
  taint : Taint := 0
  /-- FP_FLAGS bits that become set with the result (R60). -/
  fp : BitVec 5 := 0
  /-- Issued by the vector slot: a read of `FP_FLAGS` waits for it (R60). -/
  vx : Bool := false
  /-- The value is not known yet: a `VPOPQ` of this queue waits for its row (R169), a `VRDA` for its tile (R168). -/
  waiting : Bool := false
  fromRq : Option Nat := none
  /-- Cycle of its issue; the first cycle in which its result can be read, or `lag` cycles after the value is known if that is later
  (R475, R477); issued in exposed mode: written exactly then. -/
  sent : Nat := 0
  minDue : Nat := 0
  lag : Nat := 0
  exposed : Bool := false
  preCk : Bool := false
  deriving DecidableEq, Repr

/-- A result on its way to the cycle that writes it, with the flags it sets there (R60, R475): its register is pending in interlocked
mode (R112). -/
structure PipeWrite where
  due : Nat
  /-- Cycle in which its instruction issued: of two results due together the later in program order stands (R475). -/
  sent : Nat := 0
  dest : Option RegName
  val : Nat := 0
  taint : Taint := 0
  fp : BitVec 5 := 0
  /-- Issued in interlocked mode: its destination has its taint since the issue (R112). -/
  il : Bool := false
  /-- Issued by the vector slot: a read of `FP_FLAGS` waits for it (R60). -/
  vx : Bool := false
  preCk : Bool := false
  deriving DecidableEq, Repr

/-! ## Continuation records (R295), resume lists (R299) and trackers (R389) -/

/-- A continuation record's fields (R295). -/
structure Record where
  st : Nat := 0
  ctx : Nat := 0
  rclass : Nat := 0
  role : Nat := 0
  code : Nat := 0
  sweep : Nat := 0
  frame : Nat := 0
  join : Nat := 0
  /-- Coordinates in the layout of TASK_COORD (R207). -/
  coord : DWord := 0
  enq : Nat := 0
  saveix : Nat := 0
  rpc : Nat := 0
  wkind : Nat := 0
  wix : Nat := 0
  wtgt : Nat := 0
  timedOut : Bool := false
  dlv : Bool := false
  dline : Nat := 0
  deriving DecidableEq, Repr

/-- Tracker of one copy staging register (R389, R397). -/
structure CkTrack where
  out : Nat := 0
  err : Bool := false
  code : Nat := 0
  addr : Nat := 0
  deriving DecidableEq, Repr

/-- Tracker of one collective staging register: the instance its last SLUICE started (R389). -/
structure ClTrack where
  valid : Bool := false
  part : Nat := 0
  group : Nat := 0
  step : Nat := 0
  buf : Nat := 0
  deriving DecidableEq, Repr

/-- One set of trackers (R389). -/
structure Trackers where
  ck : Tbl CkTrack := []
  cl : Tbl ClTrack := []
  deriving DecidableEq, Repr

/-- A position of the resume list (R299). -/
structure ResumePos where
  r : Record
  id : Nat := 0
  ready : Bool := false
  trk : Trackers := {}
  /-- Cycle at which its wait first failed (R432 WAIT). -/
  since : Nat := 0
  /-- Its task is aborted and waits for its commands; whether its point then restarts (R446). -/
  ending : Option Bool := none
  deriving DecidableEq, Repr

/-- The running task of a compute core (R295, R207). `id` names the task for ownership of slots and regions. -/
structure Task where
  r : Record
  id : Nat
  deriving DecidableEq, Repr

/-! ## Sweeps (R312 to R319) -/

/-- A sweep descriptor (R314). -/
structure SweepDesc where
  addr : Nat := 0
  ndim : Nat := 1
  rclass : Nat := 0
  role : Nat := 0
  code : Nat := 0
  fbase : Nat := 0
  rdepth : Nat := 0
  joinen : Bool := false
  ndep : Nat := 0
  fstride : Nat := 0
  join : Nat := 0
  /-- Extents and dependence vectors as stored (dwords 4 and 5). -/
  ext : DWord := 0
  dv : DWord := 0
  fsave : Nat := 0
  deriving DecidableEq, Repr

/-- State of a sweep-table entry (R318). -/
inductive SweepSt where
  | active | paused | retiring
  deriving DecidableEq, Repr

/-- A sweep-table entry that is not Free (R318). -/
structure Sweep where
  st : SweepSt := .active
  ctx : Nat
  desc : SweepDesc
  /-- Frontier base B and the states of points at or above it by linear index: 1 Held, 2 Complete, 3 Restart (R319). -/
  base : Nat := 0
  win : Tbl Nat := []
  /-- Block serial and entry of the operator whose plan routine created it (R377). -/
  blk : Nat := 0
  ent : Nat := 0
  /-- Points whose task and its effects have finished: their completion is in arrival (R321). -/
  finishing : List Nat := []
  /-- Id of the sweep when it was saved, or its own (R318). -/
  oldId : Nat := 0
  /-- Restart points that a restore brought and that have not been fired again: the first candidates (R329). -/
  first : List Nat := []
  deriving DecidableEq, Repr

/-! ## Graph contexts (R332 to R371) -/

/-- A handle-table entry (R340): the resolved descriptor words of R337, sharding, root and scoreboard counts. -/
structure Handle where
  words : List DWord := []
  isAlias : Bool := false
  root : Nat := 0
  /-- Sharding word in the layout of dword 12 (R340, R341). -/
  shard : DWord := 0
  pr : Nat := 0
  pw : Nat := 0
  /-- Resident fields in the layout of dword 14, and the block that set them. -/
  resident : DWord := 0
  resBlk : Nat := 0
  deriving DecidableEq, Repr

/-- State of a context (R334). -/
inductive CtxSt where
  | free | running | faulted | preempted
  deriving DecidableEq, Repr

/-- The fields of a context descriptor (R332). -/
structure CtxDesc where
  entry : Nat := 0
  root : Nat := 0
  agelim : Nat := 0
  savebase : Nat := 0
  /-- Spill rings by role: LOG2CAP and RING. -/
  cap : List Nat := []
  ring : List Nat := []
  hsave : Nat := 0
  pbase : Nat := 0
  sigaddr : Nat := 0
  mesh : Nat := 0
  csave : Nat := 0
  deriving DecidableEq, Repr

/-- A loop-stack entry (R354). -/
structure LoopEnt where
  body : Nat
  count : Nat
  index : Nat := 0
  reg : Nat
  deriving DecidableEq, Repr

/-- A call-stack entry: a return address, and for a replay the capture entry (R355, R359). -/
structure CallEnt where
  ret : Nat
  replay : Option Nat := none
  deriving DecidableEq, Repr

/-- A capture-table entry (R352): Open or Closed. -/
structure Capture where
  closed : Bool := false
  start : Nat := 0
  stop : Nat := 0
  deriving DecidableEq, Repr

/-- Stage of an entry (R343): accepted, issued, complete. -/
inductive Stage where
  | accepted | issued | complete
  deriving DecidableEq, Repr

/-- An accepted entry (R343 to R346). -/
structure Entry where
  stage : Stage := .accepted
  opid : Nat := 0
  cons : Nat := 0
  refs : List (BitVec 16) := []
  /-- Root handle of each reference at acceptance (R345), 0 for a block-local one, and its own table entry at issue (R376). -/
  roots : List Nat := []
  snap : List Handle := []
  attrs : List DWord := []
  /-- Address of its OP word. -/
  addr : Nat := 0
  /-- h0 to h31 at acceptance (R344). -/
  hregs : Tbl DWord := []
  /-- PLOUT records: offset and format word of output o (R376). -/
  louts : Tbl (DWord × DWord) := []
  /-- PSETEXT records: reference j and extent k, with the value (R376). -/
  exts : List (Nat × Nat × Nat) := []
  /-- Its plan routine has executed DONE, and the sweeps the routine made that have not retired (R377). -/
  planDone : Bool := false
  sweeps : List Nat := []
  /-- Sweeps the routine created or restored, by the id it was given: the id each has now (R376 PSWAIT). -/
  made : Tbl Nat := []
  /-- Block-local outputs of a built-in operator: their shape, and elements as bit patterns, dimension 0
  innermost (R386). -/
  locs : Tbl (Handle × List Nat) := []
  /-- Collectives that the sequencer inserts for it (R413): whether they have been determined, those still to start, as
  reference, axis, kind, ROP and exponent bytes, and the instance that has not ended. -/
  planned : Bool := false
  todo : List (Nat × Nat × Nat × Nat × Bool) := []
  colls : List Nat := []
  deriving DecidableEq, Repr

/-- A block that has not committed (R343, R347). -/
structure Block where
  serial : Nat
  addr : Nat := 0
  budget : Nat := 0
  bank : Nat := 0
  gen : Nat := 0
  entries : List Entry := []
  /-- Entries still to be read: acceptance stands inside the block (R367). -/
  left : Nat := 0
  /-- Operator regions by core: first granule; present when the budget is allocated (R349). -/
  regions : Tbl Nat := []
  allocated : Bool := false
  deriving DecidableEq, Repr

/-- An entry of a bank's operator table (R371). -/
structure OpEnt where
  nout : Nat := 0
  pre : Nat := 0
  plan : Nat := 0
  deriving DecidableEq, Repr

/-- A control-store bank: its code bytes by address, its operator table and its decomposed ids (R370, R384). -/
structure Bank where
  code : Memory := []
  ops : Tbl OpEnt := []
  /-- EGB words of the decomposition of an id (R385). -/
  decs : Tbl (List (BitVec 64)) := []
  deriving DecidableEq, Repr

/-- Progress of a pre-emption or restore of a context (R327, R450). -/
inductive PreSt where
  | none | pausing | restoring
  deriving DecidableEq, Repr

/-- A loaded channel-table entry (R398, R304, R400). -/
structure ChanEnt where
  e0 : DWord := 0
  e1 : DWord := 0
  /-- Receiver's side: ring and indices (R304), open bit (R403). -/
  pushIx : Nat := 0
  popIx : Nat := 0
  ring : Tbl DWord := []
  isOpen : Bool := false
  /-- Landing slots that are full (R400). -/
  full : List Nat := []
  /-- Sender's side: tile sends issued, modulo 2^16 (R398). -/
  sendIx : Nat := 0
  deriving DecidableEq, Repr

/-- A graph context (R332 to R335, R350 to R352). -/
structure Ctx where
  st : CtxSt := .free
  desc : CtxDesc := {}
  /-- Address of the next word to accept. -/
  pc : Nat := 0
  patch : Bool := false
  actgen : Bool := false
  done : Bool := false
  fault : Bool := false
  recA : DWord := 0
  recB : DWord := 0
  h : Tbl DWord := []
  step : DWord := 0
  /-- Top of the stack first. -/
  loops : List LoopEnt := []
  calls : List CallEnt := []
  caps : Tbl Capture := []
  handles : Tbl Handle := []
  blocks : List Block := []
  nextSerial : Nat := 1
  /-- Loaded channel-table entries (R398). -/
  chans : Tbl ChanEnt := []
  bank0 : Bank := {}
  bank1 : Bank := {}
  curBank : Bool := false
  pre : PreSt := .none
  /-- A CTXSW stop or a collective abort waits for handlers to reach a group (R460). -/
  stopping : Bool := false
  /-- Saved records that a collective abort removed: core and record (R411). -/
  removed : List (Nat × Record) := []
  /-- Saved sweeps of the last save by old id (R451): FSAVE, and the operator they belong to. -/
  saved : Tbl (Nat × Nat × Nat) := []
  /-- A restore in progress: the save area and its records as read, the new id of each sweep it has installed by old id, the
sweep it waits to install with the number of its request; 0, or one more than the records that have returned once the queues
have (R36, R452). -/
  image : List DWord := []
  remap : Tbl Nat := []
  want : Option (Nat × Sweep) := none
  back : Nat := 0
  /-- Spilled records of each role: ring index of the oldest and their count (R297). -/
  spillHead : Tbl Nat := []
  spillLen : Tbl Nat := []
  deriving DecidableEq, Repr

/-! ## Channels, copies and collectives (R388 to R411) -/

/-- A landing counter (R421); `slot` is the channel landing slot it was armed for (context, channel, slot). -/
structure Landing where
  count : Nat := 0
  target : Nat := 0
  fe : Bool := false
  fl : Nat := 0
  posted : Bool := false
  slot : Option (Nat × Nat × Nat) := none
  deriving DecidableEq, Repr

/-- A place in a scratchpad or in global memory that a copy reads or writes. -/
inductive Side where
  /-- Global bytes from a virtual address in a translation space. -/
  | glob (tsid va : Nat)
  /-- Scratchpad bytes of a unit. -/
  | spad (u a : Nat)
  /-- A pattern (CFILL) or rows taken from a result queue (CQSEND), as bytes repeated from the start. -/
  | bytes (bs : List Byte)
  /-- A landing slot of a channel (R401): receiving unit, context of the sender, channel and slot. -/
  | slot (u ctx ch s : Nat)
  deriving DecidableEq, Repr

/-- A copy command in a die's copy queue, or withheld (R388 to R402). -/
structure Copy where
  id : Nat := 0
  /-- Issuing unit, its task (R389) and the staging register whose tracker counts it. -/
  u : Nat := 0
  task : Nat := 0
  ck : Nat := 0
  tracked : Bool := true
  /-- Its destination is a scratchpad reached over the network, the issuing core's own included (R393). -/
  remote : Bool := false
  src : Side := .bytes []
  dst : Side := .bytes []
  len : Nat := 0
  /-- Decode the source under this code-table slot (R392). -/
  dec : Option Nat := none
  /-- Accumulate on write in format AFMT (R393). -/
  acc : Option Nat := none
  lc : Option Nat := none
  /-- Flag posted on completion: unit and flag. -/
  flag : Option (Nat × Nat) := none
  /-- DTLOAD of a code-table slot (R396). -/
  dtload : Option Nat := none
  /-- SPV_MODE.MODE at issue, and access taint not yet bound (R116, R226). -/
  warn : Bool := false
  waits : Taint := 0
  /-- Source bytes read; those read that fill no unit yet; units to be written, the last first, by offset, with the address their
  page was translated to (R254, R290). -/
  rpos : Nat := 0
  carry : List Byte := []
  buf : List (Nat × Nat × List Byte) := []
  /-- A send that has begun to write its landing slot (R401). -/
  wrote : Bool := false
  /-- Last invalid word logged: one that two blocks share is one read (R206). -/
  lastBad : Option Nat := none
  /-- First source byte in a queue row with an uncorrectable error (R402, R470). -/
  badFrom : Option Nat := none
  /-- The error it ends with once its units are read (R391, R416). -/
  fails : Option (Nat × Nat) := none
  /-- It has stopped at an error and its units still land; its first unit has landed (R391, R400). -/
  stopped : Bool := false
  begun : Bool := false
  deriving DecidableEq, Repr

/-- A SLUICE as issued: the staging words and where it came from (R405, R406). -/
structure Member where
  u : Nat := 0
  task : Nat := 0
  cl : Nat := 0
  w0 : DWord := 0
  w1 : DWord := 0
  w2 : DWord := 0
  w3 : DWord := 0
  tsid : Nat := 0
  flag : Option Nat := none
  /-- Block and entry for which a sequencer inserted the member; `u` is then its context's unit (R414). -/
  inserted : Option (Nat × Nat) := none
  /-- The contribution as bit patterns, once its engine has read it; and whether the member is finished. -/
  contrib : Option (List Nat) := none
  done : Bool := false
  /-- Its elements are at its home, or the CAUSE for which they could not be written; its record follows (R274, R409). -/
  put : Bool := false
  bad : Nat := 0
  deriving DecidableEq, Repr

/-- A live instance of a collective (R405 to R409). `line` tells the inserted ones of one step apart: the mesh axis and
the packages along it (R414). `sums` is the running arrival-order result. -/
structure Inst where
  id : Nat
  part : Nat
  group : Nat
  step : Nat
  line : Nat := 0
  members : List Member := []
  arrived : Nat := 0
  sums : List Nat := []
  committed : Bool := false
  results : List Nat := []
  ovf : Bool := false
  nv : Bool := false
  /-- Some member failed in the distribution: the step has not completed at every member (R411). -/
  partly : Bool := false
  /-- Its abort: CAUSE, AGREED, and the task that issued the `SLABORT`. -/
  abort : Option Nat := none
  agreed : Nat := 0xFFFFFFFF
  exempt : Option (Nat × Nat) := none
  deriving DecidableEq, Repr

/-- The last ended instance of a partition and TAG (R406): its record fields. -/
structure Ended where
  part : Nat
  tag : Nat
  line : Nat
  step : Nat
  group : Nat
  state : Nat
  cause : Nat
  agreed : Nat
  arrived : Nat
  deriving DecidableEq, Repr

/-- What a finished member's record tells, kept for `SLSTAT` (R410): STATE and CAUSE of its record, and ARRIVED. -/
structure MemberEnd where
  m : Member
  part : Nat
  state : Nat
  cause : Nat
  arrived : Nat
  deriving DecidableEq, Repr

/-! ## The withholding buffer (R442) -/

/-- A withheld effect. -/
inductive WKind where
  /-- Bytes of a global store, by pieces and offset; release stores wait for everything earlier (R261). -/
  | store (pieces : List Piece) (data : Tbl Byte) (release wide : Bool)
  | post (target flag : Nat)
  | doorbell (target : Nat)
  | copy (c : Copy)
  /-- A member, and what its tracker named before (R389). -/
  | sluice (m : Member) (was : ClTrack)
  /-- The issuer's task, and its tracker (R411). -/
  | slabort (task cl : Nat) (t : ClTrack)
  deriving DecidableEq, Repr

/-- An entry of the withholding buffer: released once a checkpoint has passed (R258). `serial` orders entries. -/
structure WEntry where
  serial : Nat
  k : WKind
  /-- Translation space of its issuer (R283). -/
  tsid : Nat := 0
  released : Bool := false
  waits : Taint := 0
  /-- L1 lines filled before this are absent for the access (R116). -/
  minFill : Nat := 0
  deriving DecidableEq, Repr

/-! ## The matrix engine (R172 to R179, R479) -/

/-- State of an operand slot (R176). -/
inductive OpSt where
  | free | claimed | filling | ready | faulted
  deriving DecidableEq, Repr

/-- An operand slot (R174). Elements are stored as bit patterns, row-major; BFP block exponents beside them. -/
structure OpSlot where
  st : OpSt := .free
  owner : Option Nat := none
  relpend : Bool := false
  /-- RELPEND as of the last checkpoint (R179). -/
  relCk : Bool := false
  /-- A release point has passed since RELPEND was set (R176). -/
  relPoint : Bool := false
  zero : Bool := false
  fmt : Nat := 0
  rows : Nat := 0
  k : Nat := 0
  fcause : Nat := 0
  el : List Nat := []
  exps : List Nat := []
  deriving DecidableEq, Repr

/-- A fill in flight (R184, R200): its record and base as copied at issue. -/
structure Fill where
  slot : Nat
  /-- Cycle in which it can become Ready, once the fill unit has started it (R479); it waits for a `DTLOAD` before it in its own
  group (R194). -/
  due : Option Nat := none
  afterDt : Bool := false
  w0 : DWord
  w1 : DWord
  w2 : DWord
  base : Nat
  mfmt : Nat
  dec : Option Nat := none
  warn : Bool := false
  exposed : Bool := false
  preCk : Bool := false
  /-- Units read before the fill ends, by number: address, byte, and whether its word was valid (R184, R268). -/
  got : Tbl (List (Nat × Byte × Bool)) := []
  deriving DecidableEq, Repr

/-- An instruction of the matrix queue (R479). -/
inductive MxOp where
  | mma (acc oa ob : Nat) (na nb ad exposed : Bool)
  | drain (acc rq mfmt : Nat) (rz sat : Bool) (scale : Int) (exposed : Bool)
  | aclr (acc : Nat)
  | aload (acc : Nat) (v : VReg)
  | amov (acc src : Nat)
  /-- The places of `OCLAIM`, `ORELEASE` or `OZERO`, which acted at its issue, and of an `OFILL` of a slot. -/
  | claim
  | fill (slot : Nat)
  /-- `VRDA` and `VWRA` that wait for their turn at the tile (R168): the line, the active elements, and the producer and
  old value, or the value written. -/
  | rda (acc dir x : Nat) (act : PReg) (prod : Nat) (old : VReg)
  | wra (acc dir x : Nat) (act : PReg) (v : VReg)
  deriving DecidableEq, Repr

/-- A queued or running matrix instruction. -/
structure MxEnt where
  id : Nat
  op : MxOp
  pc : Nat
  started : Bool := false
  /-- Cycle in which what has started is complete (R479). -/
  due : Nat := 0
  /-- An MMA has passed its checks, and the slots whose fill it still waits for (R188). -/
  checked : Bool := true
  fills : List Nat := []
  preCk : Bool := false
  deriving DecidableEq, Repr

/-- A drain delivering its rows (R189): rows left, with the flags each sets, and the cycle of the next (R479). -/
structure Draining where
  id : Nat
  due : Nat := 0
  acc : Nat
  rq : Nat
  rows : List (VReg × BitVec 5)
  preCk : Bool := false
  deriving DecidableEq, Repr

/-! ## Caches, TLBs, regions (R216, R223, R227, R286) -/

/-- An L1 data line: 128 bytes as it was filled, updated by the core's own stores (R216, R256); or a fetch block of the L1
instruction cache, 64 bytes (R278). -/
structure L1Line where
  tsid : Nat
  va : Nat
  pa : Nat
  fill : Nat
  bytes : List Byte
  /-- An uncorrectable error stands in it (R470). -/
  bad : Bool := false
  deriving DecidableEq, Repr

/-- A TLB entry (R286): `size` 0 to 3 names 4 KiB, 64 KiB, 2 MiB, 1 GiB. -/
structure TlbEnt where
  tsid : Nat
  vpage : Nat
  size : Nat
  pa : Nat
  r : Bool
  w : Bool
  x : Bool
  dev : Bool
  deriving DecidableEq, Repr

/-- State of a granule that is not Free (R223). -/
inductive Gran where
  | task (id : Nat) (first : Nat) (ck : Bool)
  | oper (ctx blk : Nat)
  | landing (ctx ch : Nat)
  deriving DecidableEq, Repr

/-- A tag-table entry that is valid (R227). -/
structure TagEnt where
  d : Bool
  s : Bool := false
  key : Nat
  spaddr : Nat
  len : Nat
  fage : Nat := 0
  deriving DecidableEq, Repr

/-- A code table: symbols with their code value and length (R230, R231). -/
abbrev CodeTable := List (Nat × Nat × Nat)

/-- A 64-bit trap return state (R438). -/
structure RetState where
  ckpt : Nat := 0
  latch : Tbl Latch := []
  exposed : Bool := false
  recs : List DWord := []
  deriving DecidableEq, Repr

/-! ## Units -/

/-- Why a group is held (R41, R111, R425): which condition, with the cycle its limit started and its limit. -/
inductive Hold where
  /-- Buffer entries, engine queues and other waits without a limit. -/
  | plain
  /-- An empty register (R111), and a load without a free tag (R115): counted by R430. -/
  | regs
  | tag
  /-- The trace unit's staging has no room for the packets of the group (R431). -/
  | trace
  /-- A wait of R302: its WKIND (8 for `BAR`), index and target, and the `CYCLE`[47:0] at which its limit expires. -/
  | timed (kind ix tgt : Nat) (limit : Option Nat)
  /-- A plan routine at `PSWAIT`, or (`entry`) at the wait of `PSWEEP` or `PRESTORE` (R450). -/
  | parked (entry : Bool)
  deriving DecidableEq, Repr

/-- What a unit is doing (R326, R437, R45). `ending`: its task has ended and waits for its commands (R446, R452). -/
inductive Run where
  | idle | running | ending | stopped | offline
  deriving DecidableEq, Repr

/-- Why a slot stops its group (R41, R111, R435). -/
inductive Stop where
  /-- The slot raises the trap with this cause and `TREC_INFO` (R434). -/
  | trap (cause : Nat) (info : DWord)
  /-- The group waits; `ck`: after an implicit checkpoint (R259); `force`: after a forced one (R443). -/
  | wait (h : Hold) (ck force : Bool)
  /-- The group waits for a walk of this TSID and address (R286). -/
  | walk (tsid va : Nat)
  /-- `CWAIT` raises the copy fault with this `TREC_INFO` and clears ERR of the tracker (R397). -/
  | copyFault (k : Nat) (info : DWord)
  /-- The task suspends at this wait (R300): WKIND, WIX, WTGT, cycle limit of the wait. -/
  | suspend (kind ix tgt : Nat) (limit : Option Nat)
  /-- A plan routine waits for a sweep-table entry for this sweep (R36). -/
  | sweep (w : Sweep)
  /-- `QPUSH` sends its entry to the receiver of this channel and waits for it (R305). -/
  | push (ch : Nat) (v : DWord)
  /-- The group turns out to need a checkpoint before it: it accesses a device register (R275). -/
  | checkpoint
  deriving DecidableEq, Repr

/-- How far the push of the group in progress has come (R305): none on its way, push `id` on its way, applied by the receiver,
or found the channel full. -/
inductive PushSt where
  | none | flying (id : Nat) | applied | full
  deriving DecidableEq, Repr

/-- What must still happen to a group after its slots have executed (R76, R220, R266, R300, R427, R438, R455). -/
inductive After where
  /-- `FENCE`, `XFENCE`, `CWB` and `TLBINV` wait for the accesses of their own group that precede them too (R252, R266, R267). -/
  | fence
  | xfence (pa pb : Nat)
  | stores
  | shoot (tsid va : Nat)
  /-- `BAR` of a scope, with its limit: its arrival follows what precedes it in its group (R427). -/
  | bar (scope : Nat) (limit : Option Nat)
  /-- A slot behind a fence or a `BAR` in its pair, with the address of its bundle: it executes once that is passed (R76, R266, R267). -/
  | late (slot bpc : Nat) (i : Instr)
  /-- The checkpoint that follows the group (R220). -/
  | ck
  /-- `MODE` switches once every register is full (R111). -/
  | mode (ex : Bool)
  /-- A call-class trap (R438). -/
  | call (cause : Nat) (info : DWord)
  | done | yield | suspend | tret
  deriving DecidableEq, Repr

/-- The checkpoint shadow set (R441) with what a checkpoint records beside it (R179, R438). -/
structure Shadow where
  regs : Regs := {}
  ready : List Nat := []
  addr : Nat := 0
  /-- Tiles written and Ready slots overwritten since the checkpoint (R179, R445). -/
  tileHit : Bool := false
  slotHit : Bool := false
  deriving DecidableEq, Repr

/-- Everything a compute core, a control core or a plan routine holds. A control core or a plan routine uses its part
of it (R20, R21, R373). -/
structure Core where
  id : Nat := 0
  run : Run := .idle
  /-- `live` is written by the group in progress; `pre` is what its sources read (R76); `shadow` is the last checkpoint. -/
  live : Regs := {}
  pre : Regs := {}
  shadow : Shadow := {}
  /-- Address of the next group; of the group, bundle and following group in progress (R75, R94). -/
  pc : Nat := 0
  gpc : Nat := 0
  bpc : Nat := 0
  npc : Nat := 0
  /-- Slot number in progress, slots present in the group, and how it goes. -/
  slot : Nat := 0
  present : Nat := 0
  sig : Option Stop := none
  /-- What follows the group, in slot order. -/
  after : List After := []
  /-- Control-register writes of the group in progress, by CRN: they take effect for the next group (R136). -/
  crw : Tbl (DWord × Taint) := []
  held : Hold := .plain
  holding : Bool := false
  /-- The implicit checkpoint of a wait has been taken for the group at `pc` (R259); a resumed wait's TO (R303). -/
  waitCk : Bool := false
  /-- Scope code of the weir at which this core has arrived; the round it arrived in has completed (R422, R427). -/
  barArrived : Option Nat := none
  barDone : Bool := false
  timedOut : Bool := false
  deadline : Option Nat := none
  push : PushSt := .none
  /-- The shootdown of the `TLBINV` in progress (R289). -/
  shoot : PushSt := .none
  /-- A step is running the slots of a group; the group's checkpoint has been taken; one follows the group (R220). -/
  inGroup : Bool := false
  ckDone : Bool := false
  ckAfter : Bool := false
  /-- How an ending task ends (0 `DONE`, 1 its point restarts, 2 its context has stopped) and what the core is then. -/
  endKind : Nat := 0
  endTo : Run := .idle
  /-- First cycle of the next group (R474, R481, R482); it follows a redirection; cycle of the last write of each
  branch-target register. -/
  notBefore : Nat := 0
  redirected : Bool := false
  bWrote : Tbl Nat := []
  /-- Cycle from which the divider and the vector unit take their next instruction (R477, R478). -/
  divFree : Nat := 0
  vxFree : Nat := 0
  /-- Cycle from which the matrix array is free (R479). -/
  arrayFree : Nat := 0
  /-- Scratchpad banks that engines, and that the core's own access, use in the present cycle (R480). -/
  engineBanks : List Nat := []
  coreBanks : List Nat := []
  /-- Walks that denied this core: TSID, 4 KiB page, reason of R293 (R286). -/
  denied : List (Nat × Nat × Nat) := []
  /-- Trap state (R209, R210, R436). -/
  tlevel : Nat := 0
  tvec1 : Nat := 0
  tvec2 : Nat := 0
  tscratch : DWord := 0
  trecPc : DWord := 0
  trecCause : DWord := 0
  trecOp : DWord := 0
  trecTile : DWord := 0
  trecInfo : DWord := 0
  trecCkpt : DWord := 0
  ret0 : RetState := {}
  ret1 : RetState := {}
  /-- First group after a checkpoint-taking event (R438, R440). -/
  ckNext : Bool := false
  /-- The last checkpoint stands at the next group, and nothing has issued since. -/
  ckHere : Bool := false
  /-- Task and its registers (R207, R295). -/
  task : Option Task := none
  nextTask : Nat := 1
  resume : Tbl ResumePos := []
  /-- Tasks whose positions a context save has written: save frame and record by task; their trackers stand there (R389). -/
  saved : Tbl (Nat × Record) := []
  /-- Aborted tasks whose saved records are gone, until their commands have completed (R446). -/
  leaving : List Nat := []
  trk : Trackers := {}
  /-- Load tags and loads (R115), producers (R110), exposed-mode pipeline (R475). -/
  tags : Tbl Tag := []
  loads : List Load := []
  prods : List Producer := []
  pipe : List PipeWrite := []
  nextId : Nat := 1
  /-- Tags of acquires that have not bound, and the fill time later loads need (R262). -/
  acqWaits : Taint := 0
  l1Floor : Nat := 0
  /-- Withholding buffer (R442). -/
  wb : List WEntry := []
  nextSerial : Nat := 1
  /-- Matrix state (R172 to R177): tile rows at 128 × tile + row. -/
  tiles : Tbl VReg := []
  slots : Tbl OpSlot := []
  fills : List Fill := []
  mxq : List MxEnt := []
  draining : List Draining := []
  /-- Rows of queue q at 2^32 × q + index, and PROMISED (R177). -/
  rows : Tbl VReg := []
  promised : Tbl Nat := []
  /-- Scratchpad words that are valid, by word address (R222, R225): contents of an invalid word are not read. -/
  spad : Tbl (BitVec 32) := []
  /-- 8-byte scratchpad words, and rows of result queues, that hold an uncorrectable error (R470). -/
  spadBad : List Nat := []
  rowsBad : List Nat := []
  /-- `SPST` and `VSPST` writes not yet performed at their banks, oldest first: bytes by address (R268). -/
  spq : List (Tbl Byte) := []
  grans : Tbl Gran := []
  /-- RFREE requests recorded and not performed, by first granule (R245). -/
  freeing : List Nat := []
  tagTab : Tbl TagEnt := []
  /-- Code-table slots; a slot being loaded by DTLOAD (R230, R396). -/
  codes : Tbl CodeTable := []
  dtBusy : List Nat := []
  /-- Landing counters (R421). -/
  lc : Tbl Landing := []
  /-- L1 data lines, L1 instruction lines by (TSID, VA) with the bytes fetched, L1 TLB (R216, R277, R286). -/
  l1 : List L1Line := []
  l1i : List L1Line := []
  ifetch : List L1Line := []
  tlb : List TlbEnt := []
  /-- Control registers (R205 to R211). -/
  spv : DWord := 0
  pinLost : Bool := false
  ptBase : Nat := 0
  irqPend : BitVec 6 := 0
  irqMask : BitVec 6 := 0
  /-- Performance counters and trace (R429, R431). -/
  pmc : Tbl DWord := []
  /-- Events each counter has counted in the present cycle: a write of the counter comes before them (R429). -/
  pmcNow : Tbl Nat := []
  /-- Of the present cycle: counters whose OVF an event has set, a write of 1 to `PIN_STAT`, an allocation by `RALLOC` (R208, R250). -/
  ovfNow : List Nat := []
  pinWrote : Bool := false
  allocNow : Bool := false
  pmsel : Tbl DWord := []
  traceCtl : BitVec 3 := 0
  traceStopped : Bool := false
  traceWrapped : Bool := false
  traceW : Nat := 0
  traceBuf : Memory := []
  /-- Packet bytes in the trace unit's 64-byte staging, oldest first: not yet in the buffer (R431). -/
  staged : List Byte := []
  /-- Branch outcomes held for an ATOM packet, oldest first, and bytes written since the last SYNC (R432). -/
  atoms : List Bool := []
  sinceSync : Nat := 0
  /-- Branch-target registers last written by a dynamic target (R432). -/
  dynB : List Nat := []
  /-- The wait of the group that did not complete at once: WKIND (8 for `BAR`), index, and the cycle at which its check first failed
(R302, R432). -/
  waited : Option (Nat × Nat × Nat) := none
  /-- The core leaves offline state after the die's next drain cycle (R463). -/
  onlinePending : Bool := false
  /-- `CCTL`.STOPPED (R463): a double fault stopped the core, and RESTART has not been written since. -/
  halted : Bool := false
  /-- What the task must do at its next group: 1 pre-emption (R448), 2 its context has stopped, 3 a collective abort whose
  CAUSE is `stopInfo` (R460). -/
  stopReq : Nat := 0
  stopInfo : Nat := 0
  stopSince : Nat := 0
  /-- Plan routine: context, block serial and entry it runs for; bank address space (R373). -/
  planCtx : Nat := 0
  planBlk : Nat := 0
  planEnt : Nat := 0
  planRun : Bool := false
  /-- The sweep it waits to create or restore, as read, with the number of its request (R36, R314). -/
  want : Option (Nat × Sweep) := none
  deriving DecidableEq, Repr

/-- What a die that has passed step 1 of a shootdown still waits for, and what its last steps act on (R290). -/
structure ShootDie where
  die : Nat
  /-- Loads by unit, tag and generation; withheld entries by unit and serial; collectives by instance. -/
  loads : List (Nat × Nat × Nat) := []
  stores : List (Nat × Nat) := []
  colls : List Nat := []
  /-- Units of copy commands under way to the page: command and offset. -/
  copies : List (Nat × Nat) := []
  /-- Virtual page and physical frames: start and length. -/
  page : Nat × Nat := (0, 0)
  frames : List (Nat × Nat) := []
  deriving DecidableEq, Repr

/-- A shootdown in progress (R290): dies that have not begun, those between step 1 and their end, and the cores whose pins it has
cleared, which learn it as it completes (R208). -/
structure Shoot where
  id : Nat
  u : Nat
  tsid : Nat
  va : Nat
  dies : List Nat
  active : List ShootDie := []
  lost : List Nat := []
  deriving DecidableEq, Repr

/-- A walk (R287): its requesters learn its result at its completion. One that has started keeps the root it started from
(R283); the first 64 of a die have started. -/
structure Walk where
  id : Nat
  tsid : Nat
  va : Nat
  us : List Nat := []
  root : Option Nat := none
  /-- Level of the entry it reads next, and the table of that level where it is below the root (R281). -/
  level : Nat := 4
  table : Nat := 0
  deriving DecidableEq, Repr

/-- Registers of an Ethernet port (R467). -/
structure EthPort where
  rxBase : DWord := 0
  rxCfg : DWord := 0
  rxHead : Nat := 0
  rxTail : Nat := 0
  txBase : DWord := 0
  txCfg : DWord := 0
  txHead : Nat := 0
  txTail : Nat := 0
  noDesc : Nat := 0
  tooBig : Nat := 0
  bad : Nat := 0
  emac : DWord := 0
  faultV : Bool := false
  faultA : Nat := 0
  /-- Frames sent, oldest first, as they left with padding and frame check sequence. -/
  sent : List (List Byte) := []
  deriving DecidableEq, Repr

/-- A unit that can go offline (R45, R471): a core, a die, a stack by its die, a link by the model's number (log 10). -/
inductive HwUnit where
  | core (u : Nat)
  | die (d : Nat)
  | stack (d : Nat)
  | link (l : Nat)
  deriving DecidableEq, Repr

/-- One die beside its cores (R16 to R36, R297, R318, R370, R389, R462). -/
structure Die where
  ctxs : Tbl Ctx := []
  sweeps : Tbl Sweep := []
  lastFired : Nat := 15
  /-- Number of the next request for a sweep-table entry (R36). -/
  nextAsk : Nat := 1
  /-- Role queues: on-chip records in order of readiness, with the promotion mark of R42. -/
  roleq : Tbl (List Record) := []
  /-- Issued entries that wait for a plan routine to start: context, block serial and entry, in order of issue (R373). -/
  planq : List (Nat × Nat × Nat) := []
  copyq : List Copy := []
  nextCopy : Nat := 1
  l2tlb : List TlbEnt := []
  /-- The latest translation a walk of this die gave for each page, also where no TLB holds it any more: the page and the frame
  that a shootdown acts on (R290, R291). -/
  known : List TlbEnt := []
  walks : List Walk := []
  nextWalk : Nat := 1
  /-- Pin sets by physical line (R221): cores 0-71 and 72, 73. -/
  pins : Tbl (List Nat) := []
  refused : Bool := false
  eclass : Nat := 0
  replreq : Bool := false
  drain : Bool := false
  offline : Bool := false
  /-- Row of its stack that is being copied to a spare, and replace requests that wait for its end (R473). -/
  sparing : Option Nat := none
  replWait : List HwUnit := []
  partition : Nat := 0
  hwin : DWord := 0
  eth : EthPort := {}
  /-- Cycle of the last die reset: CYCLE counts from it (R208). -/
  since : Nat := 0
  deriving DecidableEq, Repr

/-! ## The pod -/

/-- A flag post or a channel push on its way (R305, R420). -/
structure Post where
  id : Nat
  src : Nat
  target : Nat
  flag : Nat
  deriving DecidableEq, Repr

/-- An entry of a `QPUSH` on its way (R305): the sender's context, channel and its table entry, and the cycle of its issue. -/
structure Push where
  id : Nat
  src : Nat
  dst : Nat
  ctx : Nat
  ch : Nat
  val : DWord
  e0 : DWord := 0
  e1 : DWord := 0
  sentAt : Nat := 0
  deriving DecidableEq, Repr

/-- A 64-byte unit or part of one on its way to a scratchpad (R393, R401, R421). -/
structure Unit64 where
  id : Nat
  copy : Copy
  u : Nat
  addr : Nat
  off : Nat := 0
  bytes : List Byte
  counter : Option Nat := none
  deriving DecidableEq, Repr

/-- What the next step is (R1 to R9 give no order among agents; log 7). -/
inductive Turn where
  /-- A unit issues its next group, or a context accepts its next word. -/
  | issue (u : Nat)
  /-- A hardware event or an action from outside, with its operands. -/
  | event (i : Instr) (a : EvArgs)
  /-- Cycles pass. -/
  | tick (n : Nat)
  /-- An L1 data or instruction line or a TLB entry of a unit, or of its die's L2 TLB, is replaced (R217, R286). -/
  | evict (u : Nat) (what : Nat) (i : Nat)
  /-- A unit fetches block n ahead of its group (R294). -/
  | prefetch (u : Nat) (n : Nat)
  /-- A walk for an engine of a die arrives at the walker (R286). -/
  | fill (d tsid va : Nat)
  /-- Walk n of a die reads one entry (R287). -/
  | walkStep (d n : Nat)
  /-- Scratchpad write n of a unit's pending stores is performed at its bank, after earlier ones to its bytes (R268). -/
  | bank (u : Nat) (n : Nat)
  /-- Landed unit n of those still to be written is written, after the earlier ones of its issuer (R263). -/
  | late (n : Nat)
  /-- The trace unit of a core writes n staged bytes into its buffer (R431). -/
  | stage (u : Nat) (n : Nat)
  /-- An uncorrectable error of a kind arises in unit u at place i (R470). -/
  | upset (u kind i : Nat)
  /-- A host request to a register through BAR0 of package p: a read, or a write of a value (R464). -/
  | hostReg (p o : Nat) (v : Option DWord)
  /-- The host port, or the management controller, interrupts control core u (R211). -/
  | irq (u : Nat) (host : Bool)
  deriving DecidableEq, Repr

/-- The machine: one pod of packages (R16, R25). -/
structure State where
  cores : Tbl Core := []
  dies : Tbl Die := []
  mem : Memory := []
  /-- Unit an instruction acts for, and the operands of the event in progress. -/
  cur : Nat := 0
  /-- That unit and its die as they stood before the slots of the group in progress (R76). -/
  groupCore : Core := {}
  groupDie : Die := {}
  ev : EvArgs := {}
  /-- Cycles since power-on. -/
  now : Nat := 0
  turns : List Turn := []
  /-- An issue found its group held and no event has happened since. -/
  tried : List Nat := []
  insts : List Inst := []
  ended : List Ended := []
  /-- Ends of members that trackers may name, the latest first (R410). -/
  memberEnds : List MemberEnd := []
  /-- Highest STEP completed at every member, by (line × 256 + partition) × 64 + TAG (R411 AGREED). -/
  agreed : Tbl Nat := []
  nextInst : Nat := 1
  posts : List Post := []
  pushes : List Push := []
  units : List Unit64 := []
  /-- Units that have landed for their command, which completes, and are written later: nothing but a release of the issuer orders
  them before what another core reads (R263, R269). -/
  late : List Unit64 := []
  shoots : List Shoot := []
  nextNet : Nat := 1
  /-- Packages of the domain (R25). -/
  packages : List Nat := [0]
  /-- Packages whose fabric configuration has been written (R25, R205). -/
  fabric : List Nat := []
  offlineStacks : List Nat := []
  offlineLinks : List Nat := []
  /-- Failed retries in a row by link (R470), and spared rows by stack (R473). -/
  retries : Tbl Nat := []
  spared : List (Nat × Nat) := []
  /-- Poisoned 128-byte lines (R470). -/
  poison : List Nat := []
  /-- By package: the controller's boot flash and the running image (R33, R468); replace requests (R471), attestation answers
  and reported boot failures (R468). -/
  flash : Tbl (List Byte) := []
  image : Tbl (List Byte) := []
  /-- The image a control core runs since its firmware was updated (R473). -/
  coreImage : Tbl (List Byte) := []
  replace : List HwUnit := []
  answers : List (List Byte) := []
  bootFailed : List Nat := []
  /-- MSI-X vectors raised, as 64 × package + vector, and answers to host reads, oldest first (R464, R465); none is Unsupported Request. -/
  msix : List Nat := []
  hostReads : List (Option (List Byte)) := []
  /-- Order of the binds and line fills: a later one has a higher number (R115, R116). -/
  seq : Nat := 1
  /-- Counter of the free values of Config (log 1). -/
  free : Nat := 0
  deriving DecidableEq, Repr

/-- What stops the model itself. Every trap and fault of the manual is a next state. -/
inductive Fault where
  /-- A turn or an event names a unit number that no part has; raised by `step` and by the events that take a unit
  number. Safe: the machine has no such unit. -/
  | noSuchUnit (u : Nat)
  deriving DecidableEq, Repr

/-- What the model refuses. -/
inductive Refusal where
  /-- An instruction without a meaning yet; raised by the dispatch. Safe. -/
  | notModelled (mnemonic : String)
  deriving DecidableEq, Repr

/-- The state of a unit after die reset (R7, R108, R205 to R211). -/
def Core.reset (u : Nat) : Core := { id := u }

/-- The machine right after power-on reset (R7, R468): nothing listed, every register at its default, no turn taken. -/
def State.reset : State := {}

end Sys2Proof.Machine
end

