-- ==== Sys2Proof/Machine/Base.lean ====
section
/-! DEFINITION. Units, dies and contexts of the state, the registers of a unit (R108, R109), and register sources, destinations and producers (R110 to R117, R475). -/

namespace Sys2Proof.Machine

/-! ## Units (R16, R19, R20, R28, R373) -/

def dieOf (u : Nat) : Nat := u / 128

def isCompute (u : Nat) : Bool := decide (u % 128 < 72)

def isControl (u : Nat) : Bool := decide (72 ≤ u % 128 ∧ u % 128 < 74)

def isPlan (u : Nat) : Bool := decide (80 ≤ u % 128 ∧ u % 128 < 88)

/-- Control cores 0 and 1 of a die (R21). -/
def controlUnits (d : Nat) : List Nat := [d * 128 + 72, d * 128 + 73]

/-- Compute cores of a die (R20). -/
def computeUnits (d : Nat) : List Nat := (List.range 72).map fun i => d * 128 + i

/-- Plan routines of a die (R374). -/
def planUnits (d : Nat) : List Nat := (List.range 8).map fun i => d * 128 + 80 + i

/-- Packages are 0 to 767, dies 0 to 31 (R16, R205); units 0 to 127 of a die. -/
def unitExists (u : Nat) : Bool :=
  decide (u < 768 * 32 * 128) && (isCompute u || isControl u || isPlan u || decide (96 ≤ u % 128 ∧ u % 128 < 100))

def dieExists (d : Nat) : Bool := decide (d < 768 * 32)

/-! ## Parts of the state -/

def State.coreAt (s : State) (u : Nat) : Core := Tbl.getD s.cores u (Core.reset u)

/-- The unit an instruction acts for. -/
def State.core (s : State) : Core := s.coreAt s.cur

def State.setCoreAt (s : State) (u : Nat) (c : Core) : State := { s with cores := Tbl.set s.cores u c }

def State.updAt (s : State) (u : Nat) (f : Core → Core) : State := s.setCoreAt u (f (s.coreAt u))

def State.upd (s : State) (f : Core → Core) : State := s.updAt s.cur f

def State.dieAt (s : State) (d : Nat) : Die := Tbl.getD s.dies d {}

def State.updDie (s : State) (d : Nat) (f : Die → Die) : State :=
  { s with dies := Tbl.set s.dies d (f (s.dieAt d)) }

def State.ctxAt (s : State) (d c : Nat) : Ctx := Tbl.getD (s.dieAt d).ctxs c {}

def State.updCtx (s : State) (d c : Nat) (f : Ctx → Ctx) : State :=
  s.updDie d fun x => { x with ctxs := Tbl.set x.ctxs c (f (Tbl.getD x.ctxs c {})) }

/-- Apply f at every unit of a list. -/
def State.updAll (s : State) (us : List Nat) (f : Core → Core) : State := us.foldl (fun t u => t.updAt u f) s

/-- `CYCLE` of a die: cycles since die reset (R208). -/
def State.cycle (s : State) (d : Nat) : Nat := s.now - (s.dieAt d).since

/-- `CYCLE`[47:0] of a die (R295, R432). -/
def State.cycle48 (s : State) (d : Nat) : Nat := s.cycle d % 2 ^ 48

/-- Set an `IRQ_PEND` bit at one control core (R211); bit 3 rising raises MSI-X vector 2 × die + n (R464). -/
def State.irq (s : State) (u bit : Nat) : State :=
  let rises := decide (bit = 3) && !(s.coreAt u).irqPend.getLsbD 3
  State.updAt { s with msix := if rises then s.msix ++ [u / 128 * 2 + (u % 128 - 72)] else s.msix } u
    fun c => { c with irqPend := c.irqPend ||| BitVec.ofNat 6 (2 ^ bit) }

/-- Set an `IRQ_PEND` bit at both control cores of a die. -/
def State.irqDie (s : State) (d bit : Nat) : State := (controlUnits d).foldl (fun t u => t.irq u bit) s

/-! ## Registers (R108, R109) -/

def Regs.sReg (r : Regs) (n : Nat) : Reg DWord := if n = 0 then { val := 0 } else Tbl.getD r.s n { val := 0 }
def Regs.vReg (r : Regs) (n : Nat) : Reg VReg := Tbl.getD r.v n { val := 0 }
def Regs.pReg (r : Regs) (n : Nat) : Reg PReg := Tbl.getD r.p n { val := 0 }
def Regs.bReg (r : Regs) (n : Nat) : TWord := Tbl.getD r.b n {}

/-- A write to `s0` is discarded (R109). -/
def Regs.setS (r : Regs) (n : Nat) (x : Reg DWord) : Regs := if n = 0 then r else { r with s := Tbl.set r.s n x }
def Regs.setV (r : Regs) (n : Nat) (x : Reg VReg) : Regs := { r with v := Tbl.set r.v n x }
def Regs.setP (r : Regs) (n : Nat) (x : Reg PReg) : Regs := { r with p := Tbl.set r.p n x }
def Regs.setB (r : Regs) (n : Nat) (x : TWord) : Regs := { r with b := Tbl.set r.b n x }

/-- Write a register by name: value, full/empty bit and taint. -/
def Regs.put (r : Regs) (d : RegName) (val : Nat) (full : Bool) (taint : Taint) : Regs :=
  match d with
  | .s n => r.setS n ⟨BitVec.ofNat 64 val, full, taint⟩
  | .v n => r.setV n ⟨BitVec.ofNat 4096 val, full, taint⟩
  | .p n => r.setP n ⟨BitVec.ofNat 512 val, full, taint⟩

/-- Taint of a register by name. -/
def Regs.taintOf (r : Regs) : RegName → Taint
  | .s n => (r.sReg n).taint
  | .v n => (r.vReg n).taint
  | .p n => (r.pReg n).taint

def Regs.valOf (r : Regs) : RegName → Nat
  | .s n => (r.sReg n).val.toNat
  | .v n => (r.vReg n).val.toNat
  | .p n => (r.pReg n).val.toNat

def Regs.fullOf (r : Regs) : RegName → Bool
  | .s n => (r.sReg n).full
  | .v n => (r.vReg n).full
  | .p n => (r.pReg n).full

/-- Every register is full (R111 `MODE`, R113). -/
def Regs.allFull (r : Regs) : Bool :=
  r.s.all (fun p => p.1 == 0 || p.2.full) && r.v.all (fun p => p.2.full) && r.p.all (fun p => p.2.full)

/-- Apply f to every taint mask and CT: registers, branch targets, stream and staging words (R119, R121). -/
def Regs.mapTaint (f : Taint → Taint) (r : Regs) : Regs :=
  { r with
    s := Tbl.mapV (fun x => { x with taint := f x.taint }) r.s
    v := Tbl.mapV (fun x => { x with taint := f x.taint }) r.v
    p := Tbl.mapV (fun x => { x with taint := f x.taint }) r.p
    b := Tbl.mapV (fun x => { x with taint := f x.taint }) r.b
    sd := Tbl.mapV (fun x => { x with taint := f x.taint }) r.sd
    ck := Tbl.mapV (fun x => { x with taint := f x.taint }) r.ck
    cl := Tbl.mapV (fun x => { x with taint := f x.taint }) r.cl
    ct := f r.ct }

/-- Tags that some mask or CT names (R121). -/
def Regs.named (r : Regs) : Taint :=
  r.s.foldl (fun t p => t ||| p.2.taint) 0 ||| r.v.foldl (fun t p => t ||| p.2.taint) 0 |||
  r.p.foldl (fun t p => t ||| p.2.taint) 0 ||| r.b.foldl (fun t p => t ||| p.2.taint) 0 |||
  r.sd.foldl (fun t p => t ||| p.2.taint) 0 ||| r.ck.foldl (fun t p => t ||| p.2.taint) 0 |||
  r.cl.foldl (fun t p => t ||| p.2.taint) 0 ||| r.ct

/-- A register of the group in progress: read from before the group (R76). -/
def State.pre (s : State) : Regs := s.core.pre

/-- Change the live registers. -/
def State.live (s : State) (f : Regs → Regs) : State := s.upd fun c => { c with live := f c.live }

/-- The state before the slots of the group in progress, for the unit and its die: what every source reads (R76). An
instruction executed alone reads the state it finds. -/
def State.prior (s : State) : State :=
  if s.core.inGroup then State.updDie (s.setCoreAt s.cur s.groupCore) (dieOf s.cur) fun _ => s.groupDie else s

/-! ## Stops -/

/-- What a slot does: it answers the state after its effect, or why its group stops. -/
abbrev Eff (α : Type) := Except Stop α

def stall : Stop := .wait .plain false false

/-- A wait for an empty register (R111). -/
def emptyStall : Stop := .wait .regs false false

/-- Illegal operand: [2:0] slot (R434). -/
def illegalOperand (s : State) : Stop := .trap 0x03 (BitVec.ofNat 64 s.core.slot)

/-- Empty register: slot, file and register (R434). -/
def emptyRegister (s : State) (d : RegName) : Stop :=
  .trap 0x05 (BitVec.ofNat 64 (match d with
    | .s n => s.core.slot + n * 256
    | .v n => s.core.slot + 64 + n * 256
    | .p n => s.core.slot + 128 + n * 256))

/-- Continue where the condition holds, else stop. -/
def need (b : Bool) (e : Stop) : Eff Unit := if b then .ok () else .error e

/-! ## Sources (R111, R124) -/

/-- The unit as the group in progress found it (R76); an instruction executed alone finds it as it is. -/
def State.found (s : State) : Core := if s.core.inGroup then s.groupCore else s.core

/-- A result issued before the group is still to be written to the register (R112; log 15). -/
def State.pending (s : State) (d : RegName) : Bool := s.found.pipe.any fun w => decide (w.dest = some d)

/-- May a source be read now? In interlocked mode a pending register waits, and an empty one traps (empty action 1) or waits (R78,
R111, R112). -/
def source (s : State) (d : RegName) (e : Bool) : Eff Unit :=
  if s.pre.exposed then .ok ()
  else if s.pending d then .error stall
  else if s.pre.fullOf d then .ok () else if e then .error (emptyRegister s d) else .error emptyStall

/-- `read_s` (R124). -/
def srcS (s : State) (n : BitVec 6) (e : Bool) : Eff DWord :=
  (source s (.s n.toNat) e).map fun _ => (s.pre.sReg n.toNat).val

def srcV (s : State) (n : Nat) (e : Bool) : Eff VReg := (source s (.v n) e).map fun _ => (s.pre.vReg n).val

/-- `read_p` (R124): a predicate source waits. -/
def srcP (s : State) (n : Nat) : Eff PReg := (source s (.p n) false).map fun _ => (s.pre.pReg n).val

/-- Taint of a scalar source. -/
def taintS (s : State) (n : BitVec 6) : Taint := (s.pre.sReg n.toNat).taint

/-- Signed or unsigned reading of an operand, 32 or 64 bits (`opnd`, R124). -/
def opnd (x : DWord) (w32 uns : Bool) : Int :=
  if w32 then (if uns then ((x.setWidth 32).toNat : Int) else (x.setWidth 32).toInt)
  else (if uns then (x.toNat : Int) else x.toInt)

/-- A mathematical result to 64 bits (`res`, R124). -/
def res64 (r : Int) (w32 uns : Bool) : DWord :=
  if w32 then (if uns then (BitVec.ofInt 32 r).setWidth 64 else (BitVec.ofInt 32 r).signExtend 64)
  else BitVec.ofInt 64 r

/-! ## Destinations (R109, R111, R112, R475) -/

/-- In interlocked mode a writer waits while its destination is pending or empty (R111, R112). -/
def destOk (s : State) (d : RegName) : Eff Unit :=
  if s.pre.exposed then .ok () else if s.pending d then .error stall else need (s.pre.fullOf d) emptyStall

/-- `s0` is no destination (R109). -/
def RegName.isZero : RegName → Bool
  | .s 0 => true
  | _ => false

/-- A register takes a new taint mask alone. -/
def Regs.taintTo (r : Regs) (d : RegName) (t : Taint) : Regs := r.put d (r.valOf d) (r.fullOf d) t

/-- A fixed-latency result of latency L: value and flags are written so that a group at t + L finds them (R60, R475), its taint too in
exposed mode; in interlocked mode the destination has it at once (R112). A plan routine's register holds it for the next group (R374). -/
def State.result (s : State) (d : RegName) (val : Nat) (t : Taint) (L : Nat) (fp : BitVec 5) (vx : Bool := false) : State :=
  if isPlan s.cur then s.live fun r => r.put d val true t
  else s.upd fun c => { c with
    live := if s.pre.exposed then c.live else c.live.taintTo d t
    pipe := c.pipe ++ [{ due := s.now + L, sent := s.now, dest := if d.isZero then none else some d, val := val
                         taint := if s.pre.exposed then t else 0, fp := fp, il := !s.pre.exposed, vx := vx }] }

/-- A long-latency result (R110); a plan routine has no full/empty bits (R374). In interlocked mode the destination is empty, with its new taint, until the producer
writes it, at t + L or later (R475); in exposed mode it is written at its exact latency. -/
def State.produce (s : State) (d : RegName) (val : Nat) (t : Taint) (L : Nat) (fp : BitVec 5) (vx : Bool := false) : State :=
  if s.pre.exposed || isPlan s.cur then s.result d val t L fp vx
  else s.upd fun c =>
    { c with
      live := c.live.put d (s.pre.valOf d) d.isZero t
      prods := c.prods ++ [{ id := c.nextId, dest := d, val := val, taint := t, fp := fp, vx := vx, sent := s.now, minDue := s.now + L }]
      nextId := c.nextId + 1 }

/-- Write a scalar register with latency L (`write_s`, R124). -/
def State.writeS (s : State) (n : BitVec 6) (v : DWord) (t : Taint) (L : Nat) : State :=
  s.result (.s n.toNat) v.toNat t L 0

/-- A scalar destination may be written now. -/
def dstS (s : State) (n : BitVec 6) : Eff Unit := destOk s (.s n.toNat)

/-- Insert a result behind those due earlier, or due with it and issued no later. -/
def insertDue (w : PipeWrite) : List PipeWrite → List PipeWrite
  | [] => [w]
  | x :: t => if x.due < w.due ∨ (x.due = w.due ∧ x.sent ≤ w.sent) then x :: insertDue w t else w :: x :: t

/-- A result is written: value, in exposed mode the taint, and flags; the full/empty bit stays (R60, R111, R112). -/
def PipeWrite.land (w : PipeWrite) (r : Regs) : Regs :=
  { (match w.dest with
     | some d => r.put d w.val (r.fullOf d) (if w.il then r.taintOf d else w.taint)
     | none => r) with fp := r.fp ||| w.fp }

/-- Write the results whose cycle has come, in the order of their cycles and then of the program (R475). One from before the
checkpoint reaches the shadow set too (R60, R113). -/
def Core.settlePipe (c : Core) (now : Nat) : Core :=
  let due := (c.pipe.filter fun w => decide (w.due ≤ now)).foldl (fun l w => insertDue w l) []
  { c with
    live := due.foldl (fun r w => w.land r) c.live
    shadow := { c.shadow with regs := (due.filter fun w => w.preCk).foldl (fun r w => w.land r) c.shadow.regs }
    pipe := c.pipe.filter fun w => !decide (w.due ≤ now) }

end Sys2Proof.Machine
end

