-- ==== Sys2Proof/Machine/Descriptors.lean ====
section
/-! DEFINITION. Tensor descriptors (R337, R338), sharding (R341, R342), the mesh of a context (R332), the bytes of a handle's storage, and the handle that an access concerns (R335, R435). -/

namespace Sys2Proof.Machine

/-! ## Descriptor words (R337) -/

def descBase (w : List DWord) : Nat := bits (w.getD 0 0) 55 0
def descFmt (w : List DWord) : Nat := bits (w.getD 1 0) 63 59
def descNdim (w : List DWord) : Nat := bits (w.getD 1 0) 58 56
def descLayout (w : List DWord) : Nat := bits (w.getD 1 0) 55 48
def descScale (w : List DWord) : Nat := bits (w.getD 11 0) 55 0

/-- Extent word k, as stored. -/
def extWord (w : List DWord) (k : Nat) : Nat := if k % 2 = 0 then bits (w.getD (2 + k / 2) 0) 31 0 else bits (w.getD (2 + k / 2) 0) 63 32

/-- Extent k of a resolved descriptor. -/
def descExt (w : List DWord) (k : Nat) : Nat := extWord w k

def descExts (w : List DWord) : List Nat := (List.range 6).map (descExt w)

/-- Stride k, in elements. -/
def descStride (w : List DWord) (k : Nat) : Int := sintN 48 (bits (w.getD (5 + k) 0) 47 0)

/-- m of a BFPm format code; 0 for a TYPE code. -/
def bfpOf (fmt : Nat) : Nat := if 0x11 ≤ fmt then fmt - 0x0F else 0

def prodOf (l : List Nat) : Nat := l.foldl (· * ·) 1

/-- An extent with its shape register read (R337); none where it is out of range or a reserved bit is set. -/
def resolveExt (h : Tbl DWord) (x : Nat) : Option Nat :=
  let v := if x / 2 ^ 31 = 0 then some x else if x / 2 ^ 5 % 2 ^ 26 ≠ 0 then none else some (Tbl.getD h (x % 32) 0).toNat
  match v with
  | some n => if 1 ≤ n ∧ n < 2 ^ 31 then some n else none
  | none => none

/-- The three extent words of six extents. -/
def extWords (e : List Nat) : List DWord :=
  (List.range 3).map fun i => BitVec.ofNat 64 (e.getD (2 * i) 1 % 2 ^ 32 + e.getD (2 * i + 1) 1 % 2 ^ 32 * 2 ^ 32)

/-- The descriptor with its extents resolved. -/
def resolveDesc (h : Tbl DWord) (w : List DWord) : Option (List DWord) :=
  match (List.range 6).mapM fun k => resolveExt h (extWord w k) with
  | some e => some (w.take 2 ++ extWords e ++ w.drop 5)
  | none => none

/-! ## Element addresses (R338) -/

/-- Edge of a tile; 0 for the strided layout. -/
def tileEdge (layout : Nat) : Nat := if layout = 1 then 128 else if layout = 2 then 64 else 0

/-- `elem_offset`. -/
def elemOffset (w : List DWord) (i : List Nat) : Int :=
  let t := tileEdge (descLayout w)
  let far := ((List.range 6).drop (if t = 0 then 0 else 2)).foldl (fun (a : Int) k => a + i.getD k 0 * descStride w k) 0
  if t = 0 then far
  else
    let x := i.getD 0 0
    let y := i.getD 1 0
    far + ((x % t + t * (y % t) : Nat) : Int) + (x / t : Nat) * descStride w 0 + (y / t : Nat) * descStride w 1

/-- Least and greatest offset along one dimension. -/
def dimSpan (t unit ext : Nat) (stride : Int) : Int × Int :=
  let f (i : Nat) : Int := if t = 0 then i * stride else (i % t * unit : Nat) + (i / t : Nat) * stride
  let pts := if t = 0 then [0, ext - 1] else [0, ext - 1, (ext - 1) / t * t] ++ (if t ≤ ext then [t - 1, ext / t * t - 1] else [])
  (pts.foldl (fun a i => min a (f i)) 0, pts.foldl (fun a i => max a (f i)) (f 0))

/-- Least and greatest element offset of a tensor with these extents. -/
def offsetSpan (w : List DWord) (ext : List Nat) : Int × Int :=
  let t := tileEdge (descLayout w)
  (List.range 6).foldl (fun a k =>
    let s := dimSpan (if k < 2 then t else 0) (if k = 0 then 1 else t) (ext.getD k 1) (descStride w k)
    (a.1 + s.1, a.2 + s.2)) (0, 0)

/-- Byte address of the element at an offset: of its byte, or of its block of 16. -/
def offsetAddr (w : List DWord) (off : Int) : Int :=
  let m := bfpOf (descFmt w)
  if m ≠ 0 then descBase w + 2 * m * (off / 16) else descBase w + off * typeW (descFmt w) / 8

/-- An address as 64 bits: one below zero has non-zero upper bits, which no translation maps. -/
def addr64 (x : Int) : Nat := (BitVec.ofInt 64 x).toNat

/-- Bytes that an access to one element takes. -/
def unitBytes (w : List DWord) : Nat :=
  let m := bfpOf (descFmt w)
  if m ≠ 0 then 2 * m else max 1 (typeW (descFmt w) / 8)

/-- First bytes and ends of the ranges of a tensor with these extents: its elements, and for a BFP format its exponents. -/
def byteRanges (w : List DWord) (ext : List Nat) : List (Nat × Nat) :=
  let s := offsetSpan w ext
  ((offsetAddr w s.1).toNat, (offsetAddr w s.2).toNat + unitBytes w) ::
    (if bfpOf (descFmt w) = 0 then [] else [((descScale w + s.1 / 16).toNat, (descScale w + s.2 / 16).toNat + 1)])

/-- A resolved descriptor is well formed (R337, R338). -/
def descOk (w : List DWord) : Bool :=
  let f := descFmt w
  let n := descNdim w
  let l := descLayout w
  let t := tileEdge l
  let m := bfpOf f
  let rest := (List.range 6).drop 1
  let s := offsetSpan w (descExts w)
  decide (w.length = 12 ∧ bits (w.getD 0 0) 63 56 = 0 ∧ descBase w % 64 = 0 ∧ (f ≤ 0x0C ∨ (0x11 ≤ f ∧ f ≤ 0x17))) &&
  decide (1 ≤ n ∧ n ≤ 6 ∧ l ≤ 2 ∧ bits (w.getD 1 0) 47 0 = 0 ∧ bits (w.getD 11 0) 63 56 = 0) &&
  (List.range 6).all (fun k => decide (bits (w.getD (5 + k) 0) 63 48 = 0) && (decide (k < n) || decide (descExt w k = 1 ∧ descStride w k = 0))) &&
  (decide (t = 0) || decide (2 ≤ n ∧ descStride w 0 % (t * t : Nat) = 0 ∧ descStride w 1 % (t * t : Nat) = 0)) &&
  (decide (m ≠ 0 ∨ typeW f ≠ 4) || (decide (descStride w 0 = 1) && rest.all fun k => decide (descStride w k % 2 = 0))) &&
  (if m = 0 then decide (descScale w = 0) else decide (descStride w 0 = 1) && rest.all fun k => decide (descStride w k % 16 = 0)) &&
  decide ((descBase w : Int) + s.2 * (if m = 0 then typeW f else m) / 8 < (2 ^ 56 : Nat))

/-! ## Sharding (R341, R342) -/

def shardScope (x : DWord) : Nat := bits x 63 61
def axisMode (x : DWord) (k : Nat) : Nat := bits x (5 * k + 4) (5 * k + 3)
def axisDim (x : DWord) (k : Nat) : Nat := bits x (5 * k + 2) (5 * k)

/-- The sharding word of a handle without `HSHARD`: `.pkg`, every axis replicated. -/
def noShard : DWord := BitVec.ofNat 64 (3 * 2 ^ 61)

/-- SIZEk of the mesh. -/
def CtxDesc.size (d : CtxDesc) (k : Nat) : Nat := d.mesh / 2 ^ (10 * k) % 1024

/-- Product of the sizes of the axes that split dimension d. -/
def splitOf (c : CtxDesc) (x : DWord) (d : Nat) : Nat :=
  prodOf (((List.range 3).filter fun k => decide (axisMode x k = 1 ∧ axisDim x k = d)).map c.size)

/-- The sharding word is allowed for a descriptor. -/
def shardOk (c : CtxDesc) (w : List DWord) (x : DWord) : Bool :=
  decide (2 ≤ shardScope x ∧ shardScope x ≤ 4 ∧ bits x 60 15 = 0) &&
  (List.range 3).all (fun k => match axisMode x k with
    | 0 => decide (axisDim x k = 0)
    | 1 => decide (axisDim x k < descNdim w) && (decide (c.size k ≤ 1) || decide (shardScope x = 4))
    | 2 => decide (axisDim x k = 0) && (decide (c.size k ≤ 1) || decide (shardScope x = 4))
    | _ => false) &&
  (List.range 6).all fun d => decide (descExt w d % splitOf c x d = 0)

/-- Packages that hold a die of the partition, ascending (R332, R469). -/
def State.partPackages (s : State) (part : Nat) : List Nat :=
  s.packages.filter fun p => (List.range 32).any fun k => decide ((s.dieAt (p * 32 + k)).partition = part)

/-- Mesh coordinate k of the package of die d in its context (R332). -/
def State.meshCoord (s : State) (d ctx k : Nat) : Nat :=
  let c := (s.ctxAt d ctx).desc
  let rank := (s.partPackages (s.dieAt d).partition).findIdx fun p => decide (p = d / 32)
  match k with
  | 0 => rank % c.size 0
  | 1 => rank / c.size 0 % c.size 1
  | _ => rank / (c.size 0 * c.size 1)

/-- Indices of dimension j that this member holds, with the splits of some axes left out. -/
def State.localRange (s : State) (d ctx : Nat) (w : List DWord) (x : DWord) (skip : Nat → Bool) (j : Nat) : Nat × Nat :=
  let c := (s.ctxAt d ctx).desc
  let r := ((List.range 3).filter fun k => decide (axisMode x k = 1 ∧ axisDim x k = j) && !skip k).foldl
    (fun (a : Nat × Nat) k => (a.1 * c.size k + s.meshCoord d ctx k, a.2 * c.size k)) (0, 1)
  let n := descExt w j / r.2
  (r.1 * n, (r.1 + 1) * n)

/-- Extents of the storage of an output where axis k is taken whole. -/
def State.storeExts (s : State) (d c : Nat) (h : Handle) (k : Nat) : List Nat :=
  (List.range 6).map fun j => let r := s.localRange d c h.words h.shard (fun a => decide (a = k)) j; r.2 - r.1

/-- A reference's KIND reads or writes its handle (R345). -/
def refKind (r : BitVec 16) : Nat := r.toNat / 2 ^ 14
def refReads (r : BitVec 16) : Bool := decide (refKind r = 0 ∨ refKind r = 2)
def refWrites (r : BitVec 16) : Bool := decide (refKind r = 1 ∨ refKind r = 2)
def refHandle (r : BitVec 16) : Nat := r.toNat % 4096
def refEntry (r : BitVec 16) : Nat := r.toNat / 128 % 32
def refOut (r : BitVec 16) : Nat := r.toNat % 128

/-! ## The handle that an access concerns (R335, R435) -/

def Ctx.handle? (x : Ctx) (h : Nat) : Option Handle := Tbl.get? x.handles h

/-- Bytes that an access of a trap's cause and `TREC_INFO` takes, first and end: the line that a translation fault of a data access
records, the address of the others (R293, R434). -/
def accessBytes (cause : Nat) (info : DWord) : Option (Nat × Nat) :=
  if cause = 0x08 then
    let a := bits info 63 12 * 4096 + bits info 5 0 * 64
    if info.getLsbD 8 || decide (bits info 7 6 = 3) then none else some (a, a + 64)
  else if cause = 0x09 ∨ cause = 0x0A ∨ cause = 0x0B then some (info.toNat, info.toNat + 1)
  else none

/-- The first handle that a reference of an entry names and whose storage holds one of these bytes. -/
def State.handleOf (s : State) (d ctx blk ent : Nat) (r : Nat × Nat) : Option Nat :=
  let x := s.ctxAt d ctx
  match (x.blocks.find? fun b => decide (b.serial = blk)).bind fun b => b.entries[ent]? with
  | none => none
  | some e => ((e.refs.filter fun q => decide (refKind q ≠ 3)).map refHandle).find? fun h => match x.handle? h with
    | some y => (byteRanges y.words (s.storeExts d ctx y 3)).any fun p => decide (p.1 < r.2 ∧ r.1 < p.2)
    | none => false

end Sys2Proof.Machine
end

