-- ==== Sys2Proof/Machine/Trace.lean ====
section
/-! DEFINITION. Performance counters (R429, R430) and the instruction trace (R431, R432). -/

namespace Sys2Proof.Machine

/-! ## Performance counters -/

/-- Counter n selects event `ev` and is enabled (R429). -/
def Core.selects (c : Core) (n ev : Nat) : Bool :=
  let m := Tbl.getD c.pmsel n 0
  decide (bits m 63 63 = 1 ∧ bits m 7 0 = ev)

/-- Add k to counter n; OVF is set where COUNT wraps (R429). -/
def Core.addPmc (c : Core) (n k : Nat) : Core :=
  let x := (Tbl.getD c.pmc n 0).toNat + k
  let first := decide (2 ^ 64 ≤ x) && !(Tbl.getD c.pmsel n 0).getLsbD 62
  { c with
    ovfNow := if first then n :: c.ovfNow else c.ovfNow
    pmc := Tbl.set c.pmc n (BitVec.ofNat 64 x)
    pmcNow := Tbl.set c.pmcNow n (Tbl.getD c.pmcNow n 0 + k)
    pmsel := if 2 ^ 64 ≤ x then Tbl.set c.pmsel n (setBits (Tbl.getD c.pmsel n 0) 62 62 1) else c.pmsel }

/-- k events of code `ev` (R430). -/
def Core.count (c : Core) (ev k : Nat) : Core :=
  if c.pmsel.isEmpty then c
  else (List.range 8).foldl (fun c n => if c.selects n ev && decide (0 < k) then c.addPmc n k else c) c

def State.countAt (s : State) (u ev k : Nat) : State := s.updAt u fun c => c.count ev k

/-! ## Trace packets -/

/-- One byte into the trace buffer: at its end WRAP continues at 0 and no WRAP stops the trace (R431). -/
def Core.traceByte (c : Core) (b : Byte) : Core :=
  if c.traceStopped then c
  else
    let w := c.traceW + 1
    let c := { c with traceBuf := Memory.write c.traceBuf c.traceW b }
    if w < 16384 then { c with traceW := w }
    else if c.traceCtl.getLsbD 1 then { c with traceW := 0, traceWrapped := true }
    else { c with traceW := 0, traceStopped := true }

/-- The trace unit writes up to n staged bytes into the buffer; once the trace has stopped, none remain (R431). -/
def Core.writeStaged (c : Core) (n : Nat) : Core :=
  let t := (c.staged.take n).foldl Core.traceByte { c with staged := c.staged.drop n }
  if t.traceStopped then { t with staged := [] } else t

/-- The trace unit writes until the staging has room for n bytes. -/
def Core.traceRoom (c : Core) (n : Nat) : Core := c.writeStaged (c.staged.length + n - 64)

/-- The bytes of a packet enter the staging (R431). -/
def Core.traceBytes (c : Core) (bs : List Byte) : Core :=
  if c.traceStopped then c else { c with staged := c.staged ++ bs, sinceSync := c.sinceSync + bs.length }

/-- The staging holds the packets of the group just executed. -/
def Core.stagingFits (c : Core) : Bool := decide (c.staged.length ≤ 64)

/-- Held branch outcomes as an ATOM packet: a marker bit above them, the oldest in bit 0 (R432). -/
def Core.flushAtoms (c : Core) : Core :=
  match c.atoms with
  | [] => c
  | l => { c.traceBytes [BitVec.ofNat 8 (0x40 + packElems 1 ((l.map fun b => b.toNat) ++ [1]))] with atoms := [] }

/-- SYNC: the next group's address and `CYCLE`[47:0]; TARGET packets count from here (R432). -/
def Core.sync (c : Core) (cycle : Nat) : Core :=
  let c := c.flushAtoms.traceBytes (0x10#8 :: toBytes 8 c.pc ++ toBytes 6 cycle)
  { c with sinceSync := 0, dynB := [] }

/-- A packet other than SYNC; a SYNC precedes the first after every 1,024 bytes (R432). -/
def Core.packet (c : Core) (cycle : Nat) (bs : List Byte) : Core :=
  if !c.traceCtl.getLsbD 0 || c.traceStopped then c
  else
    let c := c.flushAtoms
    (if 1024 ≤ c.sinceSync then c.sync cycle else c).traceBytes bs

/-- A branch outcome; three held outcomes are written (R432). -/
def Core.outcome (c : Core) (cycle : Nat) (taken : Bool) : Core :=
  if !c.traceCtl.getLsbD 0 || c.traceStopped then c
  else
    let c := { c with atoms := c.atoms ++ [taken] }
    if 3 ≤ c.atoms.length then
      (if 1024 ≤ c.sinceSync then (c.sync cycle) else c).flushAtoms
    else c

/-- TASK packet of a start (0) or resumption (1), followed by a SYNC (R432): with an ATOM and a SYNC before them at most 41 bytes,
which are no group's and for which the unit makes room. -/
def Core.traceTask (c : Core) (cycle what : Nat) (r : Record) : Core :=
  if !c.traceCtl.getLsbD 0 || c.traceStopped then c
  else
    ((c.traceRoom 41).packet cycle (BitVec.ofNat 8 (0x20 + what * 4 + r.ctx) :: toBytes 8 r.coord.toNat ++
      [BitVec.ofNat 8 (r.rclass * 64 + r.role * 16 + r.sweep)])).sync cycle

/-- TASK packet of `DONE` (2) or of a suspension or `YIELD` (3) (R432). -/
def Core.traceLeave (c : Core) (cycle what : Nat) : Core :=
  match c.task with
  | none => c
  | some t => c.packet cycle [BitVec.ofNat 8 (0x20 + what * 4 + t.r.ctx)]

/-- TARGET packet (R432). -/
def Core.traceTarget (c : Core) (cycle a : Nat) : Core := c.packet cycle (0x50#8 :: toBytes 8 a)

/-- TRAP packet (R432). -/
def Core.traceTrap (c : Core) (cycle level cause ckpt entry : Nat) : Core :=
  c.packet cycle (BitVec.ofNat 8 (0x60 + level) :: toBytes 2 cause ++ toBytes 8 ckpt ++ toBytes 8 entry)

/-- WAIT packet, with WAITP (R432). -/
def Core.traceWait (c : Core) (cycle kind ix waited : Nat) : Core :=
  if c.traceCtl.getLsbD 2 then
    c.packet cycle (BitVec.ofNat 8 (0x70 + kind) :: BitVec.ofNat 8 ix :: toBytes 4 (min waited 0xFFFFFFFF))
  else c

/-- WAIT packet of the group's wait, which ends with the group or with a trap (R432). -/
def Core.endWait (c : Core) (cycle : Nat) : Core :=
  match c.waited with
  | some (kind, ix, since) => { c.traceWait cycle kind ix ((cycle + 2 ^ 48 - since) % 2 ^ 48) with waited := none }
  | none => c

/-- A write of `TRACE_CTL`: EN rising clears WPTR, STOPPED and WRAPPED and writes a SYNC; falling writes an END after
the staged packets (R431). -/
def Core.setTraceCtl (c : Core) (cycle : Nat) (v : BitVec 3) : Core :=
  let was := c.traceCtl.getLsbD 0
  let is := v.getLsbD 0
  if is && !was then
    { c with traceCtl := v, traceW := 0, traceStopped := false, traceWrapped := false, staged := [], atoms := [] }.sync cycle
  else if was && !is then
    let c := c.packet cycle [0xFF#8]
    { c.writeStaged c.staged.length with traceCtl := v }
  else { c with traceCtl := v }

end Sys2Proof.Machine
end

