-- ==== Sys2Proof/Machine/Ops.lean ====
section
/-! DEFINITION. The shared operations of a core: tags (R119 to R121), checkpoints (R440 to R443), rollback (R444), the end and abort of tasks (R446, R447, R452), the stop of a context (R336), taking a trap (R435 to R438) and the return from one (R457). -/

namespace Sys2Proof.Machine

/-! ## Tags (R115, R119, R121) -/

def Core.tag (c : Core) (j : Nat) : Tag := Tbl.getD c.tags j {}

def Core.setTag (c : Core) (j : Nat) (t : Tag) : Core := { c with tags := Tbl.set c.tags j t }

def Core.tagsIn (c : Core) (f : Tag → Bool) : List Nat := (List.range 16).filter fun j => f (c.tag j)

/-- The mask of a list of tags. -/
def tagMask (l : List Nat) : Taint := l.foldl (fun m j => m ||| tagBit j) 0

def Core.pendingMask (c : Core) : Taint := tagMask (c.tagsIn fun t => decide (t.st = .pending))

/-- Latest bind time among the Bound tags of a mask (R116). -/
def Core.boundTime (c : Core) (m : Taint) : Nat :=
  (c.tagsIn fun t => decide (t.st = .bound)).foldl (fun x j => if m.getLsbD j then max x (c.tag j).time else x) 0

/-- Tags named by results on their way (log 15). -/
def Core.onTheWay (c : Core) : Taint := c.pipe.foldl (fun t w => t ||| w.taint) 0 ||| c.prods.foldl (fun t p => if p.exposed then t ||| p.taint else t) 0

/-- A Bound tag with no hold that no mask of the live or the shadow set names becomes Free (R121). A group in progress
reads the masks from before it (R76), so its accesses still find the bind times of the tags they name (R116). -/
def Core.freeTags (c : Core) : Core :=
  let named := c.live.named ||| c.shadow.regs.named ||| c.onTheWay ||| (if c.inGroup then c.pre.named else 0)
  (c.tagsIn fun t => decide (t.st = .bound) && !t.hold).foldl
    (fun c j => if named.getLsbD j then c else c.setTag j { c.tag j with st := .free }) c

/-- The results of a cycle are written, and the tags that no mask names any more are Free (R121, R475). -/
def Core.arrive (c : Core) (now : Nat) : Core := (c.settlePipe now).freeTags

/-- Lines of the L1 filled before a time become absent (R119 step 1). -/
def Core.dropL1Before (c : Core) (time : Nat) : Core := { c with l1 := c.l1.filter fun l => decide (time ≤ l.fill) }

/-- Collapse: free every Bound tag, drop older L1 lines, and remove the bits from every mask (R119). -/
def Core.collapse (c : Core) : Core :=
  let js := c.tagsIn fun t => decide (t.st = .bound)
  let m := tagMask js
  let clear : Regs → Regs := Regs.mapTaint fun t => t &&& ~~~m
  let c := c.dropL1Before (c.boundTime m)
  let c := { c with
    live := clear c.live, pre := clear c.pre, shadow := { c.shadow with regs := clear c.shadow.regs }
    pipe := c.pipe.map fun (w : PipeWrite) => { w with taint := w.taint &&& ~~~m }
    prods := c.prods.map fun (p : Producer) => { p with taint := p.taint &&& ~~~m }
    crw := Tbl.mapV (fun w => (w.1, w.2 &&& ~~~m)) c.crw }
  (js.foldl (fun c j => c.setTag j { c.tag j with st := .free, hold := false }) c).count 0x09 1

/-- A boundary of a continuation clears every mask, CT, hold and tag. At `DONE` the L1 loses the lines older than the
held tags, elsewhere those older than every named or held Bound tag (R121). -/
def Core.taintBoundary (c : Core) (done : Bool) : Core :=
  let held := tagMask (c.tagsIn fun t => t.hold)
  let m := if done then held else held ||| c.live.named ||| c.shadow.regs.named
  let c := c.dropL1Before (c.boundTime m)
  let clear : Regs → Regs := Regs.mapTaint fun _ => 0
  { c with
    live := clear c.live, pre := clear c.pre, shadow := { c.shadow with regs := clear c.shadow.regs }
    tags := Tbl.mapV (fun t => { t with st := .free, hold := false }) c.tags
    acqWaits := 0 }

/-! ## Matrix state and regions at a checkpoint (R176, R179, R245) -/

def Core.opSlot (c : Core) (n : Nat) : OpSlot := Tbl.getD c.slots n {}

def Core.setSlot (c : Core) (n : Nat) (x : OpSlot) : Core := { c with slots := Tbl.set c.slots n x }

/-- A queued MMA reads slot n (R176: "in-flight"). -/
def Core.mmaReads (c : Core) (n : Nat) : Bool :=
  c.mxq.any fun e => match e.op with
    | .mma _ oa ob _ _ _ _ => decide (oa = n ∨ ob = n)
    | _ => false

/-- Perform the release of slot n where it is requested, a release point has passed, no MMA in flight reads it and it
is not Filling (R176). -/
def Core.tryRelease (c : Core) (n : Nat) : Core :=
  let x := c.opSlot n
  if x.relpend && x.relPoint && !c.mmaReads n && !decide (x.st = .filling) then c.setSlot n {} else c

/-- Every requested release may be performed from here on (R176: a checkpoint, `DONE`, `YIELD` or suspension). -/
def Core.releasePoint (c : Core) : Core :=
  (List.range 16).foldl (fun c n =>
    let x := c.opSlot n
    if x.relpend then (c.setSlot n { x with relPoint := true, relCk := true }).tryRelease n else c) c

/-- Free the granules of the region whose first granule is g (R223, R245). -/
def Core.freeRegion (c : Core) (g : Nat) : Core :=
  { c with grans := c.grans.filter fun p => match p.2 with
      | .task _ first _ => !decide (first = g)
      | _ => true }

/-- Perform the recorded `RFREE` requests (R245). -/
def Core.performFrees (c : Core) : Core := { c.freeing.foldl Core.freeRegion c with freeing := [] }

/-- An MMA of the matrix queue has not passed its checks: a group that needs a checkpoint waits (R188, R440). -/
def Core.mmaUnchecked (c : Core) : Bool := c.mxq.any fun e => !e.checked

/-- Take a checkpoint of registers r at address a: copy the shadow set, release the withheld entries, perform the
pending releases (R440, R441). A tag that only the replaced shadow set named is freed (R121). -/
def Core.checkpoint (c : Core) (r : Regs) (a : Nat) : Core :=
  let c := c.releasePoint.performFrees
  Core.freeTags { c with
    shadow := { regs := r, ready := (List.range 16).filter (fun n => decide ((c.opSlot n).st = .ready)), addr := a }
    wb := c.wb.map fun e => { e with released := true }
    prods := c.prods.map fun p => { p with preCk := true }
    loads := c.loads.map fun l => { l with preCk := true }
    pipe := c.pipe.map fun w => { w with preCk := true }
    fills := c.fills.map fun f => { f with preCk := true }
    mxq := c.mxq.map fun e => { e with preCk := true }
    draining := c.draining.map fun d => { d with preCk := true }
    grans := Tbl.mapV (fun g => match g with
      | .task id first _ => .task id first true
      | g => g) c.grans }

/-- The checkpoint before the group in progress, counted by the event `ev` (R440, R430). -/
def State.ckBefore (s : State) (ev : Nat) : State :=
  s.upd fun c => { (c.checkpoint c.pre c.gpc).count ev 1 with ckDone := true }

/-- The checkpoint a slot needs before its group: the group takes it once (R220, R440); a slot executed alone takes it itself, not
while an MMA of the queue is unchecked. -/
def State.needCk (s : State) : Eff State :=
  if s.core.ckDone then .ok s
  else if s.core.inGroup then .error .checkpoint
  else if s.core.mmaUnchecked then .error stall else .ok (s.ckBefore 0x06)

/-- A checkpoint after the group (R220, R438): of the live registers, at the next group. -/
def State.ckHere (s : State) (ev : Nat) : State := s.upd fun c => { (c.checkpoint c.live c.pc).count ev 1 with ckHere := true }

/-- The group takes a further checkpoint as it completes (R220). -/
def State.ckEnd (s : State) : State :=
  if s.core.inGroup then s.upd fun c => { c with ckAfter := true } else s.ckHere 0x06

/-! ## Withheld entries (R442, R443) -/

/-- Bytes, posts and commands of the withholding buffer that no checkpoint has released. -/
def Core.unreleased (c : Core) : Bool := c.wb.any fun e => !e.released

/-- Leave the tracker of a staging register (R389). -/
def Trackers.leave (t : Trackers) (k : Nat) : Trackers :=
  let x := Tbl.getD t.ck k {}
  { t with ck := Tbl.set t.ck k { x with out := x.out - 1 } }

/-- Entries of the 64 a withheld effect occupies (R442): a vector store one for each aligned 64-byte unit. -/
def WKind.size : WKind → Nat
  | .store pieces _ _ _ => max 1 pieces.length
  | _ => 1

def Core.wbUsed (c : Core) : Nat := (c.wb.map fun e => e.k.size).foldl (· + ·) 0

/-- Translation space of a unit: its task's context, its plan routine's context, or 4 and 5 for control cores (R283). -/
def State.tsid (s : State) (u : Nat) : Nat :=
  if isControl u then 4 + (u % 128 - 72)
  else if isPlan u then (s.coreAt u).planCtx
  else match (s.coreAt u).task with
    | some t => t.r.ctx
    | none => 0

/-- Enter withheld effects. Without room the group takes a forced checkpoint and waits (R443). -/
def State.withhold (s : State) (ks : List WKind) (waits : Taint) (minFill : Nat) : Eff State :=
  if 64 < s.core.wbUsed + (ks.map WKind.size).foldl (· + ·) 0 then .error (.wait .plain false true)
  else .ok (s.upd fun c => ks.foldl (fun c k =>
    { c with wb := c.wb ++ [{ serial := c.nextSerial, k := k, tsid := s.tsid s.cur, waits := waits, minFill := minFill }], nextSerial := c.nextSerial + 1 }) c)

/-- Discard the entries made since the checkpoint; copy commands leave their trackers, a `SLUICE` its (R389, R444). -/
def Core.discardWithheld (c : Core) : Core :=
  c.wb.foldr (fun e c =>
    if e.released then c
    else match e.k with
      | .copy x => if x.tracked then { c with trk := c.trk.leave x.ck } else c
      | .sluice m was => { c with trk := { c.trk with cl := Tbl.set c.trk.cl m.cl was } }
      | _ => c) { c with wb := c.wb.filter fun e => e.released }

/-! ## Rollback (R444, R177, R179, R244) -/

/-- R445: the trap cannot be recovered in place. -/
def Core.unrecoverable (c : Core) : Bool := c.shadow.tileHit || c.shadow.slotHit

/-- Tile rows in one queue row, by the output format (R189). -/
def drainPack (mfmt : Nat) : Nat := if mfmt < 2 then 2 else if mfmt < 5 then 4 else 1

/-- The place of a fill in the queue. -/
def MxOp.isFill : MxOp → Bool
  | .fill _ => true
  | _ => false

/-- The rows that queued drains promised are not to come (R177). -/
def unpromise (promised : Tbl Nat) (gone : List MxEnt) : Tbl Nat :=
  gone.foldl (fun p e => match e.op with
    | .drain _ rq mfmt _ _ _ _ => Tbl.set p rq (Tbl.getD p rq 0 - 128 / drainPack mfmt)
    | _ => p) promised

/-- Return to the last checkpoint. Fills go on (R179). -/
def Core.restoreShadow (c : Core) : Core :=
  let c := c.discardWithheld
  let lost := c.draining.filter fun d => !d.preCk
  let kept (e : MxEnt) : Bool := e.preCk || e.op.isFill
  let promised := unpromise c.promised (c.mxq.filter fun e => !kept e)
  let promised := lost.foldl (fun p d => Tbl.set p d.rq (Tbl.getD p d.rq 0 - d.rows.length)) promised
  { c with
    live := c.shadow.regs
    pre := c.shadow.regs
    shadow := { c.shadow with tileHit := false, slotHit := false }
    prods := c.prods.filter fun p => p.preCk
    pipe := c.pipe.filter fun w => w.preCk
    loads := c.loads.map fun (l : Load) => if l.preCk then l else { l with cancelled := true }
    mxq := c.mxq.filter kept
    draining := c.draining.filter fun d => d.preCk
    promised := promised
    slots := Tbl.mapV (fun x => { x with relpend := x.relCk }) c.slots
    grans := c.grans.filter fun p => match p.2 with
      | .task _ _ ck => ck
      | _ => true
    freeing := [] }

/-- A rollback (R444), an event of the counters. -/
def Core.rollback (c : Core) : Core := c.restoreShadow.count 0x08 1

/-! ## Tasks that end (R446, R447, R452) -/

/-- The unit stands at no wait: an arrival at a weir is withdrawn (R427). -/
def Core.noWait (c : Core) : Core :=
  { c with holding := false, held := .plain, after := [], crw := [], waitCk := false, timedOut := false, deadline := none, barArrived := none,
           barDone := false, push := .none, shoot := .none, want := none, denied := [], waited := none }

/-- The task of a unit ends: it waits for its commands, and `finishEnd` then clears its state. `kind`: 0 `DONE`,
1 its point restarts, 2 no point is reported. -/
def Core.beginEnd (c : Core) (kind : Nat) (dest : Run) : Core :=
  { c.noWait with run := .ending, endKind := kind, endTo := dest, tlevel := 0, stopReq := 0 }

/-- What is left of the results on their way as a task ends: the flags they set in their cycle (R60). -/
def Core.flagProds (c : Core) : List Producer := (c.prods.filter fun p => decide (p.fp ≠ 0)).map fun p => { p with dest := .s 0, taint := 0, fromRq := none }
def Core.flagWrites (c : Core) : List PipeWrite := (c.pipe.filter fun w => decide (w.fp ≠ 0)).map fun w => { w with dest := none, taint := 0 }

/-- Abort: withheld entries are discarded (R446 step 1); a released effect stays. -/
def Core.abort (c : Core) (kind : Nat) (dest : Run) : Core :=
  { (c.discardWithheld.beginEnd kind dest) with
    loads := c.loads.map fun l => { l with cancelled := true }, prods := c.flagProds, pipe := c.flagWrites
    mxq := c.mxq.filter fun e => e.started || e.preCk || e.op.isFill
    promised := unpromise c.promised (c.mxq.filter fun e => !(e.started || e.preCk)) }

/-- Free what a task owns: regions return to Free, slots are released (R176, R245). -/
def Core.freeTask (c : Core) (id : Nat) : Core :=
  let c := { c with
    grans := c.grans.filter (fun p => match p.2 with
      | .task i _ _ => !decide (i = id)
      | _ => true)
    freeing := [] }
  (List.range 16).foldl (fun c n =>
    let x := c.opSlot n
    if x.owner = some id then (c.setSlot n { x with relpend := true, relCk := true, relPoint := true }).tryRelease n else c) c

/-- Extents of a sweep (R314). -/
def SweepDesc.extent (d : SweepDesc) (i : Nat) : Nat := bits d.ext (16 * i + 15) (16 * i)

/-- Linear index of a point (R313): C0 runs fastest. -/
def SweepDesc.linear (d : SweepDesc) (coord : DWord) : Nat :=
  bits coord 15 0 + d.extent 0 * (bits coord 31 16 + d.extent 1 * (bits coord 47 32 + d.extent 2 * bits coord 63 48))

/-- Set the state of a point (R319). -/
def State.setPoint (s : State) (d sw l st : Nat) : State :=
  s.updDie d fun x => match Tbl.get? x.sweeps sw with
    | none => x
    | some w => { x with sweeps := Tbl.set x.sweeps sw { w with win := Tbl.set w.win l st } }

/-- The point of a record becomes Restart (R324). -/
def State.restartPoint (s : State) (d : Nat) (r : Record) : State :=
  match Tbl.get? (s.dieAt d).sweeps r.sweep with
  | none => s
  | some w => s.setPoint d r.sweep (w.desc.linear r.coord) 3

/-- The bound of the pre-emption of a running task has passed (R449). -/
def State.boundPassed (s : State) (u : Nat) : Bool :=
  let c := s.coreAt u
  match c.task with
  | some t => match Tbl.get? (s.dieAt (dieOf u)).sweeps t.r.sweep with
    | some w => decide (c.stopReq ≠ 0 ∧ (s.ctxAt (dieOf u) t.r.ctx).pre = .pausing ∧ w.desc.rdepth ≠ 0 ∧ c.stopSince + 256 * w.desc.rdepth ≤ s.now)
    | none => false
  | none => false

/-- R446: does a task of the class survive? Causes: 0 a trap, 1 a collective abort, 2 pre-emption, 3 its core. -/
def restarts (rclass why : Nat) : Bool := decide (rclass = 1) || (decide (rclass = 2) && decide (why = 2))

/-! ## The stop of a context (R336) -/

/-- Free the Operator regions of a context on every core of a die; of one block where `blk` is given (R223). -/
def State.freeOperGrans (s : State) (d ctx : Nat) (blk : Option Nat) : State :=
  { s with cores := s.cores.map fun (p : Nat × Core) =>
      if p.1 / 128 = d then
        (p.1, { p.2 with grans := p.2.grans.filter fun g => match g.2 with
            | .oper c b => !(decide (c = ctx) && (match blk with
                | none => true
                | some x => decide (b = x)))
            | _ => true })
      else p }

/-- What the task must do at its next group, the stop of its context before an abort, and that before a pre-emption (R460). -/
def Core.request (c : Core) (k : Nat) : Core := if c.stopReq = 2 ∨ (c.stopReq = 3 ∧ k = 1) then c else { c with stopReq := k }

/-- Abort the tasks of a context on one unit without restart: running, suspended, or a plan routine. A task inside a
handler is aborted at the handler's next group (R460). -/
def Core.stopCtx (c : Core) (ctx : Nat) : Core :=
  let c := if c.planRun && decide (c.planCtx = ctx) then { c with planRun := false, run := .idle, holding := false } else c
  let c := { c with resume := c.resume.map fun (p : Nat × ResumePos) =>
      if p.2.r.ctx = ctx then (p.1, { p.2 with ready := false, ending := some false }) else p }
  let c := (c.saved.filter fun q => decide (q.2.2.ctx = ctx)).foldl (fun (c : Core) q => { c with saved := Tbl.del c.saved q.1, leaving := q.1 :: c.leaving }) c
  match c.task with
  | none => c
  | some t =>
    if t.r.ctx = ctx && decide (c.run = .running) then
      if c.tlevel = 0 then c.abort 2 .idle else c.request 2
    else if t.r.ctx = ctx && decide (c.run = .ending) then { c with endKind := 2 }
    else c

/-- A member of the task in an instance that has not finished with it. -/
def State.inCollective (s : State) (u id : Nat) : Bool :=
  s.insts.any fun i => i.members.any fun m => decide (m.u = u) && decide (m.task = id) && !m.done

/-- A copy command of the task that has not completed. -/
def State.inCopy (s : State) (u id : Nat) : Bool :=
  ((s.dieAt (u / 128)).copyq.any fun c => decide (c.u = u ∧ c.task = id)) || s.units.any fun x => decide (x.copy.u = u ∧ x.copy.task = id) && !x.copy.stopped

/-- The regions and slots of aborted tasks that have no record any more are free once their commands have completed. -/
def State.reapLeaving (s : State) (u : Nat) : State :=
  (s.coreAt u).leaving.foldl (fun s id =>
    if s.inCollective u id || s.inCopy u id then s
    else s.updAt u fun c => { c.freeTask id with leaving := c.leaving.filter fun n => !decide (n = id) }) s

/-- Aborted tasks of the resume list whose commands have completed leave it; a restartable point is fired again (R446). -/
def State.reapResume (s : State) (u : Nat) : State :=
  let s := s.reapLeaving u
  (s.coreAt u).resume.foldl (fun s p => match p.2.ending with
    | some again =>
      if s.inCollective u p.2.id || s.inCopy u p.2.id then s
      else
        let s := s.updAt u fun c => { c.freeTask p.2.id with resume := Tbl.del c.resume p.1 }
        if again then s.restartPoint (dieOf u) p.2.r else s
    | none => s) s

/-- The context's queued records, sweeps and blocks go. -/
def State.dropCtxWork (s : State) (d ctx : Nat) : State :=
  let s := { s with cores := s.cores.map fun (p : Nat × Core) => if p.1 / 128 = d then (p.1, p.2.stopCtx ctx) else p }
  let s := s.updDie d fun x => { x with
    sweeps := x.sweeps.filter fun p => !decide (p.2.ctx = ctx)
    roleq := Tbl.mapV (fun l => l.filter fun r => !decide (r.ctx = ctx)) x.roleq
    planq := x.planq.filter fun p => !decide (p.1 = ctx) }
  let s := (s.updCtx d ctx fun c => { c with blocks := [], spillHead := [], spillLen := [], pre := .none, stopping := false, image := [], remap := [], want := none, back := 0 }).freeOperGrans d ctx none
  (s.cores.filter fun p => decide (p.1 / 128 = d) && ((p.2.resume.any fun q => q.2.ending.isSome) || !p.2.leaving.isEmpty)).foldl (fun s p => s.reapResume p.1) s

/-- Highest STEP of a partition, TAG and line completed at every member; 0xFFFFFFFF for none (R411). -/
def State.agreedStep (s : State) (line part tag : Nat) : Nat := Tbl.getD s.agreed ((line * 256 + part) * 64 + tag) 0xFFFFFFFF

/-- STATE of an instance that ends with a cause (R411). -/
def abortState (cause : Nat) : Nat := if cause = 1 ∨ cause = 2 ∨ cause = 7 then 3 else 2

/-- The engines remember an ended instance of its partition and TAG (R406). -/
def State.remember (s : State) (i : Inst) (state cause agreed : Nat) : State :=
  let e : Ended := { part := i.part, tag := i.group / 1024, line := i.line, step := i.step, group := i.group, state := state, cause := cause, agreed := agreed, arrived := i.arrived }
  { s with ended := e :: s.ended.filter fun x => !decide (x.part = e.part ∧ x.tag = e.tag ∧ x.line = e.line) }

/-- Abort every instance that has not committed and satisfies p: it has ended, and tokens are on their way to its
members (R411). -/
def State.abortInsts (s : State) (p : Inst → Bool) (cause : Nat) (exempt : Option (Nat × Nat)) : State :=
  (s.insts.filter fun i => p i && !i.committed && i.abort.isNone).foldl (fun s i =>
    let ag := s.agreedStep i.line i.part (i.group / 1024)
    let t := s.remember i (abortState cause) cause ag
    { t with insts := t.insts.map fun (x : Inst) =>
        if x.id = i.id then { x with abort := some cause, agreed := ag, exempt := exempt } else x }) s

/-- A context stops on a graph fault: the record of R335, FAULT, STATE Faulted, and `IRQ_PEND` bit 1 where FAULT was 0
(R334 to R336). -/
def State.graphFault (s : State) (d ctx code addr opid handle info : Nat) : State :=
  let was := (s.ctxAt d ctx).fault
  let s := s.dropCtxWork d ctx
  let s := s.abortInsts (fun i => i.members.any fun m => decide (m.u / 128 = d ∧ m.tsid = ctx) && !m.done) 0x05 none
  let s := s.updCtx d ctx fun c => { c with
    st := .faulted, fault := true, handles := Tbl.mapV (fun h => { h with resident := 0 }) c.handles
    recA := BitVec.ofNat 64 (code * 2 ^ 56 + addr % 2 ^ 56)
    recB := BitVec.ofNat 64 (opid % 1024 * 2 ^ 48 + handle % 4096 * 2 ^ 32 + info % 65536) }
  if was then s else s.irqDie d 1

/-- Operator id of an entry of a block of a context; 0 where there is none. -/
def State.entryOpid (s : State) (d ctx blk ent : Nat) : Nat :=
  match (s.ctxAt d ctx).blocks.find? fun b => decide (b.serial = blk) with
  | none => 0
  | some b => match b.entries[ent]? with
    | none => 0
    | some e => e.opid

/-- Operator id of the entry whose sweep fired a record (R335, R435). -/
def State.recordOpid (s : State) (d : Nat) (r : Record) : Nat :=
  match Tbl.get? (s.dieAt d).sweeps r.sweep with
  | none => 0
  | some w => s.entryOpid d w.ctx w.blk w.ent

/-- The handle that a trapping access of the running task concerns: one of its operator's (R435). -/
def State.taskHandle (s : State) (u cause : Nat) (info : DWord) : Option Nat :=
  match (s.coreAt u).task, accessBytes cause info with
  | some t, some r => match Tbl.get? (s.dieAt (dieOf u)).sweeps t.r.sweep with
    | some w => s.handleOf (dieOf u) w.ctx w.blk w.ent r
    | none => none
  | _, _ => none

/-- Operator id of the running task. -/
def State.taskOpid (s : State) (u : Nat) : Nat :=
  match (s.coreAt u).task with
  | none => 0
  | some t => s.recordOpid (dieOf u) t.r

/-! ## The trap record (R435) -/

/-- Write the trap record (R435); `level` is the level at which the trap is taken (R209, R436). -/
def Core.record (c : Core) (cause : Nat) (info : DWord) (ckpt opid : Nat) (handle : Option Nat) (done level : Nat) : Core :=
  { c with
    trecPc := BitVec.ofNat 64 c.gpc
    trecCause := BitVec.ofNat 64 (cause + level * 2 ^ 32 + done * 2 ^ 48)
    trecOp := BitVec.ofNat 64 (opid % 1024 * 2 ^ 48 + match handle with
      | some h => h % 4096 * 2 ^ 32 + 1
      | none => 0)
    trecTile := match c.task with
      | some t => t.r.coord
      | none => 0
    trecInfo := info
    trecCkpt := BitVec.ofNat 64 ckpt }

/-! ## Abandonment and double fault (R437, R447) -/

/-- End a task by its restart class for cause `why` (R446; 4: no trap record tells why), or for a pre-emption whose bound has passed too (R330): its point
restarts, or its context stops with graph fault 0x09 and the given ADDR and INFO. -/
def State.endByClass (s : State) (u why addr info : Nat) (dest : Run) : State :=
  match (s.coreAt u).task with
  | none => s.updAt u fun c => { c with run := dest, tlevel := 0 }
  | some t =>
    if restarts t.r.rclass why || (s.boundPassed u && restarts t.r.rclass 2) then s.updAt u fun c => c.abort 1 dest
    else
      let op := s.taskOpid u
      let h := if (why = 0 ∨ (s.coreAt u).halted = true) ∧ (s.coreAt u).trecOp.getLsbD 0 then bits (s.coreAt u).trecOp 43 32 else 0
      (s.updAt u fun c => c.abort 2 dest).graphFault (dieOf u) t.r.ctx 0x09 addr op h info

/-- R447. -/
def State.abandon (s : State) (u cause : Nat) (inPlace byHandler : Bool) : State :=
  let pc := (s.coreAt u).trecPc.toNat
  let s := s.updAt u fun c => { c with tlevel := 0 }
  (s.endByClass u 0 pc (cause % 256 + inPlace.toNat * 256 + byHandler.toNat * 512) .idle).irqDie (dieOf u) 2

/-- Abort the task at a resume position by its class for cause `why` (R411, R446); INFO if its context stops. -/
def State.abortPos (s : State) (u k why info : Nat) : State :=
  match Tbl.get? (s.coreAt u).resume k with
  | none => s
  | some p =>
    if p.ending.isSome then s
    else if restarts p.r.rclass why then
      (s.updAt u fun c => { c with resume := Tbl.set c.resume k { p with ready := false, ending := some true } }).reapResume u
    else s.graphFault (dieOf u) p.r.ctx 0x09 p.r.rpc (s.recordOpid (dieOf u) p.r) 0 info

/-- The records on a resume list of a core that goes offline or stops, by their class (R45, R437, R446). -/
def State.abortResume (s : State) (u info : Nat) : State :=
  (s.coreAt u).resume.foldl (fun s p => s.abortPos u p.1 3 info) s

/-- R437. -/
def State.doubleFault (s : State) (u cause : Nat) (info : DWord) : State :=
  let c := s.coreAt u
  let was := if c.tlevel = 0 then 0 else bits c.trecCause 15 0
  let op := s.taskOpid u
  let h := s.taskHandle u cause info
  let cyc := s.cycle48 (dieOf u)
  let s := s.updAt u fun c => { (c.record 0x1F (BitVec.ofNat 64 (was + cause * 65536)) c.shadow.addr op h 0 c.tlevel).traceTrap cyc c.tlevel 0x1F c.shadow.addr 0 with halted := true }
  let d := dieOf u
  let s := if isControl u then s.irq (d * 128 + (if u % 128 = 72 then 73 else 72)) 2 else s.irqDie d 2
  if isControl u then s.updAt u fun c => { c.noWait with run := .stopped }
  else (s.endByClass u 3 c.gpc 0x1F .stopped).abortResume u 0x1F

/-! ## Taking a trap (R435 to R438) -/

/-- Emulation class (R434). -/
def causeEmulation (cause : Nat) : Bool := decide (cause = 0x02)

/-- Call class (R434). -/
def causeCall (cause : Nat) : Bool := decide (0x18 ≤ cause ∧ cause ≤ 0x1A)

/-- The trap-record registers, to be saved with a return state (R438). -/
def Core.records (c : Core) : List DWord := [c.trecPc, c.trecCause, c.trecOp, c.trecTile, c.trecInfo, c.trecCkpt]

/-- Enter the handler at `vec`: save the return state of the level, raise the level, interlocked mode, no latches, and
the handler's first group takes a checkpoint (R438). -/
def Core.enter (c : Core) (rs : RetState) (vec : Nat) : Core :=
  { c.noWait with
    ret0 := if c.tlevel = 0 then rs else c.ret0
    ret1 := if c.tlevel = 0 then c.ret1 else rs
    tlevel := c.tlevel + 1
    live := { c.live with exposed := false, latch := [] }
    pc := vec, ckNext := true }

/-- The vector a trap at the core's level is taken at, if a handler takes it (R436). -/
def Core.vector (c : Core) (cause : Nat) : Option Nat :=
  if c.tlevel = 0 then (if c.tvec1 = 0 then none else some c.tvec1)
  else if c.tlevel = 1 ∧ cause = 0x08 then (if c.tvec2 = 0 then none else some c.tvec2)
  else none

/-- A trap of a plan routine stops its context (R379). A cause of 0x100 and above is a fault of a plan operation itself:
the graph fault's code in [7:0], its INFO from bit 16 up, and `info` its ADDR. -/
def State.planTrap (s : State) (u cause : Nat) (info : DWord) : State :=
  let c := s.coreAt u
  let d := dieOf u
  let op := s.entryOpid d c.planCtx c.planBlk c.planEnt
  let h := (s.handleOf d c.planCtx c.planBlk c.planEnt (info.toNat, info.toNat + 1)).getD 0
  if 0x100 ≤ cause then s.graphFault d c.planCtx (cause % 256) info.toNat op (if cause % 256 = 0x0A then h else 0) (cause / 65536)
  else if cause = 0x0A ∨ cause = 0x0B then s.graphFault d c.planCtx 0x0A info.toNat op h 0
  else s.graphFault d c.planCtx 0x09 c.gpc op 0 cause

/-- Trap entry with a handler: the part of R438 by class, the record, the return state, the handler's address. -/
def State.enterHandler (s : State) (u cause : Nat) (info : DWord) (done vec : Nat) : State :=
  let op := s.taskOpid u
  let h := s.taskHandle u cause info
  let cyc := s.cycle48 (dieOf u)
  s.updAt u fun c =>
    let rs : RetState := { latch := c.live.latch, exposed := c.live.exposed, recs := if c.tlevel = 0 then [] else c.records }
    let enter (c : Core) (rs : RetState) (ckpt : Nat) : Core :=
      ((c.record cause info ckpt op h done (c.tlevel + 1)).enter { rs with ckpt := ckpt } vec).traceTrap cyc (c.tlevel + 1) cause ckpt vec
    if causeEmulation cause then enter ((c.checkpoint c.live c.npc).count 0x06 1) rs c.npc
    else if causeCall cause then enter ((c.checkpoint c.live c.npc).count 0x06 1) rs c.npc
    else
      let c := c.rollback
      enter c { rs with latch := c.live.latch, exposed := c.live.exposed } c.shadow.addr

/-- Take a trap at a unit: R445 and R447 first, then the levels of R436. -/
def State.trapAt (s : State) (u cause : Nat) (info : DWord) (done : Nat) : State :=
  let c := s.coreAt u
  if isPlan u then s.planTrap u cause info
  else
    let fault := !causeEmulation cause && !causeCall cause
    if c.tlevel = 0 && isCompute u && ((fault && c.unrecoverable) || decide (c.tvec1 = 0)) then
      let cyc := s.cycle48 (dieOf u)
      let s := s.updAt u fun c => (c.record cause info c.shadow.addr (s.taskOpid u) (s.taskHandle u cause info) done 0).traceTrap cyc 0 cause c.shadow.addr 0
      s.abandon u cause (fault && c.unrecoverable) false
    else match c.vector cause with
      | none => s.doubleFault u cause info
      | some vec => s.enterHandler u cause info done vec

/-- Take a trap at the unit in progress. -/
def State.takeTrap (s : State) (cause : Nat) (info : DWord) (done : Nat) : State := s.trapAt s.cur cause info done

/-- `TRET` at level 1 or 2 (R457): the return state of the level below, its latches, mode and, from level 2, the trap
records; fetch resumes at `TREC_CKPT`, where the checkpoint of the restored state is taken, in a cycle of its own (R481): it is that
of the group there too (R440; log 92). -/
def State.trapReturn (s : State) : State :=
  let cyc := s.cycle48 (dieOf s.cur)
  s.upd fun c =>
    let rs := if c.tlevel = 2 then c.ret1 else c.ret0
    let c := { c with
      tlevel := c.tlevel - 1
      live := { c.live with latch := rs.latch, exposed := rs.exposed }
      pc := rs.ckpt }
    let c := if c.tlevel = 1 then match rs.recs with
      | [a, b, x, d, e, f] => { c with trecPc := a, trecCause := b, trecOp := x, trecTile := d, trecInfo := e, trecCkpt := f }
      | _ => c
      else c
    { (((c.checkpoint c.live rs.ckpt).count 0x06 1).traceTarget cyc rs.ckpt) with
      waitCk := true, ckHere := true, notBefore := max c.notBefore (s.now + 2) }

end Sys2Proof.Machine
end

