-- ==== Sys2Proof/Machine/Access.lean ====
section
/-! DEFINITION. Access to memory: translation (R279 to R294), global loads and stores on their way (R115, R116, R218, R219, R255), and the scratchpad (R222 to R226). -/

namespace Sys2Proof.Machine

/-! ## Physical memory (R23, R25, R215, R470) -/

/-- A die that an access from die d reaches: its package is in the domain, and its partition is that of d (R25, R469). -/
def State.dieReach (s : State) (d home : Nat) : Bool :=
  s.packages.contains (home / 32) && decide ((s.dieAt home).partition = (s.dieAt d).partition)

/-- A home that an access from die d reaches: an offset of the stack, a stack that is online. -/
def State.homeOk (s : State) (d pa : Nat) : Bool :=
  s.dieReach d (pa / 2 ^ 37) && decide (pa % 2 ^ 37 < 0xC00000000) && !s.offlineStacks.contains (pa / 2 ^ 37)

/-- The 128-byte line of an address is poisoned (R470). -/
def State.poisoned (s : State) (pa : Nat) : Bool := s.poison.contains (pa / 128)

def State.readMem (s : State) (pa n : Nat) : List Byte := Memory.readN s.mem pa n

def State.writeMem (s : State) (pa : Nat) (bs : List Byte) : State := { s with mem := Memory.writeN s.mem pa bs }

/-! ## Walks (R279 to R282, R287) -/

/-- Why a translation fails: a REASON of R293, or an error of the walk's own read (R287). -/
inductive XlErr where
  | reason (n : Nat)
  | fabric
  | memory
  deriving DecidableEq, Repr

/-- Bytes of the page of a size code (R286). -/
def pageBytes : Nat → Nat
  | 0 => 2 ^ 12
  | 1 => 2 ^ 16
  | 2 => 2 ^ 21
  | _ => 2 ^ 30

/-- The leaf of an entry e at a level, of the page that holds va (R281, R282). -/
def leafEntry (tsid va level : Nat) (e : DWord) : Except XlErr TlbEnt :=
  let size := match level with
    | 0 => if e.getLsbD 6 then 1 else 0
    | 1 => 2
    | _ => 3
  let pa := bits e 51 12 * 4096
  if 3 ≤ level ∨ (level ≠ 0 ∧ e.getLsbD 6) ∨ (level ≠ 0 ∧ pa % pageBytes size ≠ 0) then .error (.reason 4)
  else .ok { tsid := tsid, vpage := va / pageBytes size, size := size, pa := pa / pageBytes size * pageBytes size,
             r := e.getLsbD 2, w := e.getLsbD 3, x := e.getLsbD 4, dev := e.getLsbD 5 }

/-- Read the tables from a level down (R281). -/
def State.walkFrom (s : State) (d tsid va : Nat) : Nat → Nat → Except XlErr TlbEnt
  | level, table =>
    let at' := table + 8 * (va / 2 ^ (12 + 9 * level) % 512)
    if !s.homeOk d at' then .error .fabric
    else if s.poisoned at' then .error .memory
    else
      let e := leWord (s.readMem at' 8)
      if !e.getLsbD 0 then .error (.reason 1)
      else if bits e 63 52 ≠ 0 ∨ bits e 11 7 ≠ 0 then .error (.reason 4)
      else if e.getLsbD 1 then leafEntry tsid va level e
      else match level with
        | 0 => .error (.reason 4)
        | l + 1 => if bits e 6 2 ≠ 0 then .error (.reason 4) else State.walkFrom s d tsid va l (bits e 51 12 * 4096)

/-- Root table of a translation space of a die (R283). -/
def State.rootOf (s : State) (d tsid : Nat) : Nat :=
  if tsid < 4 then (s.ctxAt d tsid).desc.root else (s.coreAt (d * 128 + 72 + (tsid - 4))).ptBase

/-- A whole walk of the page of va (R279). -/
def State.walkNow (s : State) (d tsid va : Nat) : Except XlErr TlbEnt := s.walkFrom d tsid va 4 (s.rootOf d tsid)

/-- The walker holds 64 walks: the first 64 have started, in order of arrival, each from the root of that moment (R283, R287). -/
def State.startWalks (s : State) (d : Nat) : State :=
  s.updDie d fun x => { x with walks := ((List.range x.walks.length).zip x.walks).map fun p =>
    if p.1 < 64 ∧ p.2.root = none then { p.2 with root := some (s.rootOf d p.2.tsid) } else p.2 }

/-- A walk for units of a die, or for an engine of it, arrives at the walker, or its requesters join the one that is there (R287). -/
def State.walkFor (s : State) (d tsid va : Nat) (us : List Nat) : State :=
  State.startWalks (s.updDie d fun x =>
    if x.walks.any fun w => decide (w.tsid = tsid ∧ w.va / 4096 = va / 4096) then
      { x with walks := x.walks.map fun w =>
          if w.tsid = tsid ∧ w.va / 4096 = va / 4096 then { w with us := w.us ++ us.filter fun u => !w.us.contains u } else w }
    else { x with walks := x.walks ++ [{ id := x.nextWalk, tsid := tsid, va := va, us := us }], nextWalk := x.nextWalk + 1 }) d

/-- The table of the entry a walk reads next; none before it has started. -/
def Walk.at (w : Walk) : Option Nat := w.root.map fun r => if w.level = 4 then r else w.table

/-- A walk reads one entry on its way down: what it finds there at this moment names the next table (R281, R287). Where the entry ends
the walk, its completion reads it. -/
def State.stepWalk (s : State) (d n : Nat) : State :=
  s.updDie d fun x => { x with walks := x.walks.map fun w => match w.level, w.at with
    | l + 1, some table =>
      let at' := table + 8 * (w.va / 2 ^ (12 + 9 * w.level) % 512)
      let e := leWord (s.readMem at' 8)
      if w.id = n && s.homeOk d at' && !s.poisoned at' && e.getLsbD 0 && !e.getLsbD 1 && decide (bits e 63 52 = 0 ∧ bits e 11 2 = 0) then
        { w with level := l, table := bits e 51 12 * 4096 }
      else w
    | _, _ => w }

/-! ## TLBs (R286) -/

def TlbEnt.covers (e : TlbEnt) (tsid va : Nat) : Bool := decide (e.tsid = tsid ∧ e.vpage = va / pageBytes e.size)

def TlbEnt.phys (e : TlbEnt) (va : Nat) : Nat := e.pa + va % pageBytes e.size

/-- Permission for a KIND of R293: 0 read, 1 write, 2 both, 3 fetch (R284, R285). -/
def TlbEnt.allows (e : TlbEnt) (kind : Nat) : Bool :=
  match kind with
  | 0 => e.r
  | 1 => e.w
  | 2 => e.r && e.w
  | _ => e.x && !e.dev

/-- REASON of a denied access (R293). -/
def TlbEnt.denies (e : TlbEnt) (kind : Nat) : Nat := if kind = 3 ∧ e.dev then 3 else 2

/-- Put an entry into a TLB of n entries, replacing that of its page. -/
def tlbPut (n : Nat) (l : List TlbEnt) (e : TlbEnt) : List TlbEnt :=
  (e :: l.filter fun x => !decide (x.tsid = e.tsid ∧ x.size = e.size ∧ x.vpage = e.vpage)).take n

/-- A translation that a die uses: the page and the frame of the page's next shootdown (R290, R291). -/
def Die.knows (x : Die) (e : TlbEnt) : Die := if x.known.contains e then x else { x with known := e :: x.known }

/-- A walk that ended at a leaf fills the L2 TLB (R286). -/
def State.l2Fill (s : State) (d : Nat) (e : TlbEnt) : State :=
  s.updDie d fun x => Die.knows { x with l2tlb := tlbPut 16384 x.l2tlb e } e

/-- `TREC_INFO` of a translation fault (R293). -/
def xlInfo (va reason kind : Nat) : DWord := BitVec.ofNat 64 (va / 4096 * 4096 + reason * 512 + kind * 64 + va / 64 % 64)

/-- The trap of a failed translation (R287, R293); in a plan routine, whose ADDR is the address itself, the fault of R335. -/
def xlTrap (plan : Bool) (va kind : Nat) : XlErr → Stop
  | .reason n => if plan then .trap (0x10A + (xlInfo va n kind).toNat % 65536 * 65536) (BitVec.ofNat 64 va) else .trap 0x08 (xlInfo va n kind)
  | .fabric => .trap 0x0A (BitVec.ofNat 64 va)
  | .memory => .trap 0x0B (BitVec.ofNat 64 va)

/-- What a walk told this core about the page (R286 "unrecorded outcomes"): REASON, or 2 for the leaf it found. -/
def Core.deniedFor (c : Core) (tsid va : Nat) : Option Nat :=
  (c.denied.find? fun x => decide (x.1 = tsid ∧ x.2.1 = va / 4096)).map fun x => x.2.2

def denialErr (n : Nat) : XlErr := if n = 0x100 then .fabric else if n = 0x101 then .memory else .reason n

def errDenial : XlErr → Nat
  | .reason n => n
  | .fabric => 0x100
  | .memory => 0x101

/-- Translate an access of a core: L1 TLB, L2 TLB, else a walk; a denial is raised only after a fresh walk, whose own error
stands before it (R286, R287). Where the entry that a walk found has been replaced meanwhile, another walk finds it. -/
def State.translate (s : State) (u va kind : Nat) : Eff TlbEnt :=
  let t := s.tsid u
  let c := s.coreAt u
  let trap := xlTrap (isPlan u) va kind
  if 2 ^ 56 ≤ va then .error (trap (.reason 0))
  else match (c.tlb ++ (s.dieAt (dieOf u)).l2tlb).find? fun e => e.covers t va with
    | some e =>
      if e.allows kind then .ok e
      else match c.deniedFor t va with
        | some n => .error (trap (if n = 2 then .reason (e.denies kind) else denialErr n))
        | none => .error (.walk t va)
    | none => match c.deniedFor t va with
      | some n => .error (if n = 2 then .walk t va else trap (denialErr n))
      | none => .error (.walk t va)

/-- An entry used from the L2 TLB fills the L1 TLB (R286). -/
def State.tlbFill (s : State) (u : Nat) (e : TlbEnt) : State :=
  s.updAt u fun c => if c.tlb.contains e then c else { c with tlb := tlbPut 192 c.tlb e }

/-- Translation for an engine of a die: the L2 TLB, else its own walk (R286). -/
def State.engineXl (s : State) (d tsid va kind : Nat) : Except XlErr TlbEnt :=
  if 2 ^ 56 ≤ va then .error (.reason 0)
  else match (s.dieAt d).l2tlb.find? fun e => e.covers tsid va && e.allows kind with
    | some e => .ok e
    | none => match s.walkNow d tsid va with
      | .error e => .error e
      | .ok e => if e.allows kind then .ok e else .error (.reason (e.denies kind))

/-- The walk of an engine's access has filled the L2 TLB (R286). -/
def State.engineFill (s : State) (d tsid va : Nat) : State :=
  if (s.dieAt d).l2tlb.any fun e => e.covers tsid va then s
  else match s.walkNow d tsid va with
    | .ok e => s.l2Fill d e
    | .error _ => s

/-- Physical address of an engine's access: no device page, a home that answers, no poisoned line (R234, R391). -/
def State.enginePa (s : State) (d tsid va kind : Nat) : Except XlErr Nat :=
  match s.engineXl d tsid va kind with
  | .error e => .error e
  | .ok e =>
    let pa := e.phys va
    if e.dev then .error (.reason 3) else if !s.homeOk d pa then .error .fabric
    else if s.poisoned pa then .error .memory else .ok pa

/-- Bytes an engine reads, line by line through the translation; `f` bounds the lines. -/
def State.engineLines (s : State) (d tsid : Nat) : Nat → Nat → Nat → Except (XlErr × Nat) (List Byte)
  | 0, _, _ => .ok []
  | f + 1, va, n =>
    if n = 0 then .ok []
    else
      let k := min n (128 - va % 128)
      match s.enginePa d tsid va 0 with
      | .error e => .error (e, va)
      | .ok pa => match State.engineLines s d tsid f (va + k) (n - k) with
        | .error e => .error e
        | .ok t => .ok (s.readMem pa k ++ t)

/-- Bytes an engine reads, or the error and the first address that has it. -/
def State.engineRead (s : State) (d tsid va n : Nat) : Except (XlErr × Nat) (List Byte) := s.engineLines d tsid (n / 128 + 2) va n

/-- The walks of an engine's read have filled the L2 TLB, page by page; `f` bounds the pages (R286). -/
def State.readFill (s : State) (d tsid : Nat) : Nat → Nat → Nat → State
  | 0, _, _ => s
  | f + 1, va, n =>
    if n = 0 then s
    else
      let k := min n (4096 - va % 4096)
      match s.enginePa d tsid va 0 with
      | .error _ => s
      | .ok _ => State.readFill (s.engineFill d tsid va) d tsid f (va + k) (n - k)

/-- Line by line, the bytes of an engine's write at their homes. Lines of L1s are not updated by it (R217). -/
def State.engineStore (s : State) (d tsid : Nat) : Nat → Nat → List Byte → Except (XlErr × Nat) State
  | 0, _, _ => .ok s
  | f + 1, va, bs =>
    if bs.isEmpty then .ok s
    else
      let k := 128 - va % 128
      match s.enginePa d tsid va 1 with
      | .error e => .error (e, va)
      | .ok pa => State.engineStore ((s.engineFill d tsid va).writeMem pa (bs.take k)) d tsid f (va + k) (bs.drop k)

/-- The state after an engine's write, or the error and the first address that has it. -/
def State.engineWrite (s : State) (d tsid va : Nat) (bs : List Byte) : Except (XlErr × Nat) State :=
  s.engineStore d tsid (bs.length / 128 + 2) va bs

/-! ## Global accesses of a core (R116, R214, R233, R255) -/

/-- Effective address: base + (index << SH) + DISP × size, 64 bits (R233). -/
def effAddr (base idx : DWord) (sh : BitVec 3) (disp : BitVec 16) (size : Nat) : Nat :=
  (base + idx <<< sh.toNat + BitVec.ofInt 64 (disp.toInt * size)).toNat

/-- The checks of `gaddr` (R233): R214, then alignment to min(size, 64). -/
def gaddr (plan : Bool) (a size kind : Nat) : Eff Nat :=
  if 2 ^ 56 ≤ a then .error (xlTrap plan a kind (.reason 0))
  else if a % min size 64 ≠ 0 then .error (.trap 0x09 (BitVec.ofNat 64 a)) else .ok a

/-- The L1 data cache holds the line of an address with an uncorrectable error (R470). -/
def Core.l1Bad (c : Core) (pa : Nat) : Bool := c.l1.any fun l => l.bad && decide (l.pa = pa / 128 * 128)

/-- Translate one piece: a page of memory, with the fabric and memory errors of R25, R215 and R470; `dev` allows a
device page (R234). -/
def State.piece (s : State) (off va len kind : Nat) (dev : Bool) : Eff (Piece × TlbEnt) :=
  match s.translate s.cur va kind with
  | .error e => .error e
  | .ok e =>
    let pa := e.phys va
    if e.dev then (if dev then .ok (⟨off, va, pa, len⟩, e) else .error (xlTrap (isPlan s.cur) va kind (.reason 3)))
    else if !s.homeOk (dieOf s.cur) pa then .error (.trap 0x0A (BitVec.ofNat 64 va))
    else if s.poisoned pa || (decide (kind ≠ 1) && s.core.l1Bad pa) then .error (.trap 0x0B (BitVec.ofNat 64 va))
    else .ok (⟨off, va, pa, len⟩, e)

/-- Translate the pieces of an access in order; the first that fails gives the trap. Used entries fill the L1 TLB. -/
def State.pieces (s : State) (kind : Nat) : List (Nat × Nat × Nat) → Eff (List Piece × State)
  | [] => .ok ([], s)
  | (off, va, len) :: t => match s.piece off va len kind false with
    | .error e => .error e
    | .ok (p, e) => match State.pieces (s.tlbFill s.cur e) kind t with
      | .error e => .error e
      | .ok (ps, s) => .ok (p :: ps, s)

/-- Two pieces share a byte. -/
def Piece.meets (p q : Piece) : Bool := decide (p.pa < q.pa + q.len ∧ q.pa < p.pa + p.len)

def piecesMeet (ps qs : List Piece) : Bool := ps.any fun p => qs.any fun q => p.meets q

/-- Tags of loads in flight that overlap the pieces (R255). -/
def Core.overlapping (c : Core) (ps : List Piece) : Taint :=
  c.loads.foldl (fun m l => if piecesMeet l.pieces ps then m ||| tagBit l.tag else m) 0

/-- Withheld bytes that a load takes from the buffer: by offset, the newest entry first (R219). -/
def Core.forward (c : Core) (ps : List Piece) : Tbl Byte :=
  c.wb.foldl (fun f e => match e.k with
    | .store qs data _ _ =>
      ps.foldl (fun f p => qs.foldl (fun f q =>
        data.foldl (fun f b =>
          if q.off ≤ b.1 ∧ b.1 < q.off + q.len then
            let pa := q.pa + (b.1 - q.off)
            if p.pa ≤ pa ∧ pa < p.pa + p.len then Tbl.set f (p.off + (pa - p.pa)) b.2 else f
          else f) f) f) f
    | _ => f) []

/-- The access taint of R116 without the address part: `t` is that part; CT is added. -/
def accessTaint (s : State) (t : Taint) : Taint := t ||| s.pre.ct

/-- A load takes the lowest-numbered Free tag; with none Free it collapses, or waits while every tag is Pending
(R115, R119). -/
def Core.takeTag (c : Core) : Option (Nat × Core) :=
  let c := c.freeTags
  match c.tagsIn fun t => decide (t.st = .free) with
  | j :: _ => some (j, c.setTag j { c.tag j with st := .pending, gen := (c.tag j).gen + 1 })
  | [] => match c.tagsIn fun t => decide (t.st = .bound) with
    | [] => none
    | _ =>
      let c := c.collapse
      match c.tagsIn fun t => decide (t.st = .free) with
      | j :: _ => some (j, c.setTag j { c.tag j with st := .pending, gen := (c.tag j).gen + 1 })
      | [] => none

/-- What a load names besides its pieces. -/
structure LoadArgs where
  dest : RegName
  size : Nat
  sext : Bool := false
  taint : Taint := 0
  /-- Taint that stays with the destination (R115: PEN = 1). -/
  keep : Taint := 0
  acq : Bool := false
  /-- SCOPE code of an acquire (R262). -/
  scope : Nat := 0
  fixed : Option Nat := none
  /-- Bytes that keep an old value: the inactive ones of a predicated vector load (R143). -/
  inactive : Tbl Byte := []
  /-- Least latency on an L1 hit, and where it is performed beyond the L1 (R477). -/
  least : Nat := 4
  far : Nat := 30
  deriving Repr

/-- Least latency of what a die's core performs at a home (R477). -/
def homeLatency (d home : Nat) : Nat := if home = d then 120 else if home / 32 = d / 32 then 180 else 600

/-- Least latency of an access that a scope performs at the die L2, in `near` cycles, or at the home of its bytes (R218, R477). -/
def scopeLatency (d scope near : Nat) (ps : List Piece) : Nat :=
  if scope ≤ 2 then near else ps.foldl (fun n p => max n (homeLatency d (p.pa / 2 ^ 37))) near

/-- A global load issues: it takes a tag, its destination is empty with the tag's taint and the kept taint that a collapse
of its own leaves (R119), and what it may not pass is noted (R110, R115, R116, R255, R262). -/
def State.globalLoad (s : State) (ps : List Piece) (a : LoadArgs) : Eff State :=
  match s.core.takeTag with
  | none => .error (.wait .tag false false)
  | some (j, c) =>
    let m := accessTaint s a.taint
    let waits := (m &&& c.pendingMask &&& ~~~tagBit j) ||| c.overlapping ps ||| c.acqWaits
    let t := tagBit j ||| (a.keep &&& tagMask (c.tagsIn fun t => decide (t.st ≠ .free)))
    let l : Load := { tag := j, dest := a.dest, size := a.size, sext := a.sext, pieces := ps, fwd := a.inactive ++ c.forward ps,
                      fixed := a.fixed, waits := waits, minFill := max (c.boundTime m) c.l1Floor,
                      sent := s.now, least := a.least
                      far := if a.acq ∧ 0 < a.scope ∧ a.fixed = none then scopeLatency (dieOf s.cur) a.scope a.far ps else a.far
                      beyond := a.acq && decide (0 < a.scope), acq := a.acq, acqWide := a.acq && decide (0 < a.scope) }
    .ok (s.setCoreAt s.cur { c with
      live := c.live.put a.dest (s.pre.valOf a.dest) false t
      loads := c.loads ++ [l]
      acqWaits := if a.acq then c.acqWaits ||| tagBit j else c.acqWaits })

/-- A store of the core updates its own L1 lines that hold the bytes, and drops those too old for it (R116, R216). -/
def Core.l1Store (c : Core) (pa minFill : Nat) (bs : List Byte) : Core :=
  let one (l : L1Line) : L1Line :=
    { l with bytes := ((List.range l.bytes.length).zip l.bytes).map fun p =>
        let a := l.pa + p.1
        if pa ≤ a ∧ a < pa + bs.length then bs.getD (a - pa) 0 else p.2 }
  let hit (l : L1Line) : Bool := decide (l.pa < pa + bs.length ∧ pa < l.pa + 128)
  { c with l1 := (c.l1.filter fun l => !hit l || decide (minFill ≤ l.fill)).map fun l => if hit l then one l else l }

/-- Write bytes of the unit in progress at a physical address, performed now. -/
def State.storeNow (s : State) (pa minFill : Nat) (bs : List Byte) : State :=
  (s.writeMem pa bs).upd fun c => c.l1Store pa minFill bs

/-- A global store issues: it enters the buffer (R219, R442). A release is performed after every earlier load (R261). -/
def State.globalStore (s : State) (ps : List Piece) (data : Tbl Byte) (taint : Taint) (release wide : Bool) : Eff State :=
  let c := s.core
  let m := accessTaint s taint
  let waits := (m &&& c.pendingMask) ||| c.overlapping ps ||| c.acqWaits ||| (if release then c.pendingMask else 0)
  s.withhold [.store ps data release wide] waits (c.boundTime m)

/-- An access that is performed at issue (an atomic, a scatter, a device register) waits until its access taint has
bound, earlier overlapping accesses are performed, and for a release until everything earlier is (R116, R255, R261). -/
def State.settled (s : State) (ps : List Piece) (taint : Taint) (release : Bool) : Eff Unit :=
  let c := s.core
  let m := accessTaint s taint
  let tags := (m &&& c.pendingMask) ||| c.overlapping ps ||| c.acqWaits ||| (if release then c.pendingMask else 0)
  let mine := c.wb.filter fun e => match e.k with
    | .store qs _ _ _ => release || piecesMeet ps qs
    | _ => false
  if mine.any fun e => !e.released then .error (.wait .plain true false)
  else need (decide (tags = 0) && mine.isEmpty) stall

/-! ## The scratchpad (R222 to R226) -/

def spadBytes : Nat := 0x180000

/-- Byte of the scratchpad; an invalid word reads 0 (R225, R226). -/
def Core.spadByte (c : Core) (a : Nat) : Byte := ((Tbl.getD c.spad (a / 4) 0) >>> (8 * (a % 4))).setWidth 8

/-- Write one byte: the word becomes valid, the other bytes of an invalid word zero (R225). -/
def Core.spadPut (c : Core) (a : Nat) (b : Byte) : Core :=
  let w := Tbl.getD c.spad (a / 4) 0
  let sh := 8 * (a % 4)
  { c with
    spad := Tbl.set c.spad (a / 4) ((w &&& ~~~(0xFF#32 <<< sh)) ||| (b.setWidth 32 <<< sh))
    spadBad := c.spadBad.filter fun x => !decide (x = a / 8) }

/-- The lowest of these bytes that stand in a scratchpad word with an uncorrectable error (R470). -/
def Core.spadError (c : Core) (as : List Nat) : Option Nat :=
  match as.filter fun a => c.spadBad.contains (a / 8) with
  | [] => none
  | a :: t => some (t.foldl min a)

def Core.spadRead (c : Core) (a n : Nat) : List Byte := (List.range n).map fun i => c.spadByte (a + i)

def Core.spadWrite (c : Core) (a : Nat) (bs : List Byte) : Core :=
  ((List.range bs.length).zip bs).foldl (fun c p => c.spadPut (a + p.1) p.2) c

/-- The oldest n pending writes are performed at their banks (R268). -/
def Core.bank (c : Core) (n : Nat) : Core :=
  { (c.spq.take n).foldl (fun c w => w.foldl (fun c b => c.spadPut b.1 b.2) c) c with spq := c.spq.drop n }

/-- Pending writes by number, with the earlier ones to bytes of theirs. -/
def bankedWith (q : List (Tbl Byte)) (l : List Nat) : List Nat :=
  (List.range q.length).reverse.foldl (fun js j =>
    if l.contains j || js.any (fun i => (q.getD j []).any fun b => (Tbl.get? (q.getD i []) b.1).isSome) then j :: js else js) []

/-- Pending writes are performed at their banks, in order where they share a byte (R268). -/
def Core.bankThese (c : Core) (l : List Nat) : Core :=
  let js := bankedWith c.spq l
  let ws := (List.range c.spq.length).zip c.spq
  { (ws.filter fun w => js.contains w.1).foldl (fun c w => w.2.foldl (fun c b => c.spadPut b.1 b.2) c) c with
    spq := (ws.filter fun w => !js.contains w.1).map fun w => w.2 }

/-- Every scratchpad write of the core's stores is performed: what its own load/store path always reads. -/
def Core.banked (c : Core) : Core := c.bank c.spq.length

/-- Format and width of AFMT (R202); none is i32. -/
def afmtOf : Nat → Option Fmt
  | 0 => some .f32
  | 1 => some .bf16
  | 2 => some .f16
  | _ => none

def afmtBytes (f : Nat) : Nat := if f = 1 ∨ f = 2 then 2 else 4

/-- One element accumulated (R393): RNE, overflow to infinity; i32 wraps. -/
def accumulate (f old x : Nat) : Nat :=
  match afmtOf f with
  | some m => (RedOp.fpRound .add m false old x).1
  | none => (old + x) % 2 ^ 32

/-- Bytes of a unit after accumulation onto the bytes in place. -/
def accBytes (f : Nat) (old new : List Byte) : List Byte :=
  let n := afmtBytes f
  (List.range (new.length / n)).flatMap fun i =>
    toBytes n (accumulate f (leNat ((old.drop (n * i)).take n)) (leNat ((new.drop (n * i)).take n)))

/-- A unit that has landed is written or accumulated (R393). -/
def Core.land (c : Core) (x : Unit64) : Core :=
  match x.copy.acc with
  | some f => c.spadWrite x.addr (accBytes f (c.spadRead x.addr x.bytes.length) x.bytes)
  | none => c.spadWrite x.addr x.bytes

/-- Landed units whose writing other cores have not seen yet are written, in order, where p holds. -/
def State.writeLate (s : State) (p : Unit64 → Bool) : State :=
  (s.late.filter p).foldl (fun (s : State) x => s.updAt x.u fun c => c.land x) { s with late := s.late.filter fun x => !p x }

/-- What a unit has written is there before what follows its release (R261, R263, R269): its landed units, its own stores. -/
def State.settle (s : State) (u : Nat) : State := (s.writeLate fun x => decide (x.copy.u = u)).updAt u Core.banked

/-- How many pending writes a unit of another path's access reads as performed: a free value (R268; log 1). -/
def Core.sees (c : Core) (free : Nat) : Nat :=
  if c.spq.isEmpty then 0 else (Config.freeWord free).toNat % (c.spq.length + 1)

/-- The scratchpad as such a unit reads it: each byte old or new. -/
def Core.seen (c : Core) (free : Nat) : Core := c.bank (c.sees free)

/-- After a read by units, each a number and its bytes: a write that one of them has read as new is performed at its bank, so that no
later read misses it (R268). -/
def Core.haveRead (c : Core) (free : Nat) (us : List (Nat × List Nat)) : Core :=
  if c.spq.isEmpty then c
  else c.bankThese ((List.range c.spq.length).filter fun j =>
    us.any fun u => decide (j < c.sees (free + u.1)) && u.2.any fun a => (Tbl.get? (c.spq.getD j []) a).isSome)

/-- Scratchpad banks that n bytes from an address lie in (R222). -/
def banksOf (a n : Nat) : List Nat := (List.range (if n = 0 then 0 else (a + n - 1) / 64 - a / 64 + 1)).map fun i => (a / 64 + i) % 24

/-- An engine uses banks in the present cycle (R480). -/
def Core.engineUses (c : Core) (l : List Nat) : Core := { c with engineBanks := l.filter (fun b => !c.engineBanks.contains b) ++ c.engineBanks }

/-- A scratchpad store of the core: its bytes wait for their banks (R268). -/
def Core.spadStore (c : Core) (bs : Tbl Byte) : Core := { c with spq := c.spq ++ [bs] }

/-- Addresses of the invalid words among bytes, ascending, each once (R226). -/
def Core.invalidWords (c : Core) (as : List Nat) : List Nat :=
  ((as.map fun a => a / 4).eraseDups.filter fun w => (Tbl.get? c.spad w).isNone).map fun w => 4 * w

/-- Log uninitialised reads in warning mode: COUNT saturates, FIRST takes the lowest address while WARN is 0 (R206). -/
def Core.logUninit (c : Core) (ws : List Nat) : Core :=
  match ws with
  | [] => c
  | w :: t =>
    let first := if c.spv.getLsbD 1 then bits c.spv 52 32 else t.foldl min w
    let count := min 0xFFFF (bits c.spv 31 16 + ws.length)
    { c with spv := BitVec.ofNat 64 (first * 2 ^ 32 + count * 2 ^ 16 + 2 + bits c.spv 0 0) }

/-- Clear the valid bits of n granules from granule g (R225). -/
def Core.clearGrans (c : Core) (g n : Nat) : Core :=
  { c with spad := c.spad.filter fun p => !decide (g * 1024 ≤ p.1 ∧ p.1 < (g + n) * 1024) }

/-- Lowest run of n Free granules (R223). -/
def Core.findGrans (c : Core) (n : Nat) : Option Nat :=
  (List.range (385 - n)).find? fun g => (List.range n).all fun i => (Tbl.get? c.grans (g + i)).isNone

/-- Put n granules from g into a state, their valid bits cleared. -/
def Core.takeGrans (c : Core) (g n : Nat) (st : Gran) : Core :=
  let c := c.banked.clearGrans g n
  { c with grans := (List.range n).foldl (fun t i => Tbl.set t (g + i) st) c.grans }

/-- The running task may reach a granule: its own region, an Operator region of the block whose sweep fired it, or a
Landing granule of its context (R224). -/
def State.granReach (s : State) (g : Nat) : Bool :=
  match s.core.task, Tbl.get? s.core.grans g with
  | some t, some (.task id _ _) => decide (id = t.id)
  | some t, some (.oper ctx blk) => decide (ctx = t.r.ctx) && match Tbl.get? (s.dieAt (dieOf s.cur)).sweeps t.r.sweep with
    | some w => decide (w.blk = blk)
    | none => false
  | some t, some (.landing ctx _) => decide (ctx = t.r.ctx)
  | _, _ => false

/-- `spaddr` (R233): alignment, then R224 for every byte. -/
def State.spaddr (s : State) (a size : Nat) : Eff Nat :=
  if a % min size 64 ≠ 0 then .error (.trap 0x09 (BitVec.ofNat 64 a))
  else if a + size ≤ spadBytes &&
      (List.range (size / 64 + 2)).all (fun i => s.granReach (min (a + i * 64) (a + size - 1) / 4096)) then .ok a
  else .error (.trap 0x0C (BitVec.ofNat 64 a))

/-- The bytes an instruction reads hold no uncorrectable error (R470). -/
def Core.eccCheck (c : Core) (as : List Nat) : Eff Unit :=
  match c.spadError as with
  | some a => .error (.trap 0x0B (BitVec.ofNat 64 a))
  | none => .ok ()

/-- The uninitialised-read rule for the bytes an instruction reads (R226): the trap, or the read logged. Then their errors. -/
def State.spadCheck (s : State) (as : List Nat) : Eff State :=
  let c := s.core.banked
  match c.invalidWords as with
  | [] => (c.eccCheck as).map fun _ => s
  | w :: t =>
    if s.core.spv.getLsbD 0 then (c.eccCheck as).map fun _ => s.upd fun c => c.logUninit (w :: t)
    else .error (.trap 0x0D (BitVec.ofNat 64 (t.foldl min w)))

end Sys2Proof.Machine
end

