-- ==== Sys2Proof/Machine/Tasks.lean ====
section
/-! DEFINITION. Tasks of a compute core: continuation records (R295), save frames (R300, R301), suspension, resumption (R303), ready waits (R302), the end of a task (R452) and the choice of a record (R39, R325). -/

namespace Sys2Proof.Machine

/-! ## Records as dwords (R295) -/

def Record.dwords (r : Record) : List DWord :=
  [ BitVec.ofNat 64 (r.st * 2 ^ 62 + r.ctx * 2 ^ 60 + r.rclass * 2 ^ 58 + r.role * 2 ^ 56 + r.code),
    BitVec.ofNat 64 (r.sweep * 2 ^ 56 + r.frame),
    BitVec.ofNat 64 r.join,
    r.coord,
    BitVec.ofNat 64 r.enq,
    BitVec.ofNat 64 (r.saveix * 2 ^ 56 + r.rpc),
    BitVec.ofNat 64 (r.wkind * 2 ^ 61 + r.wix * 2 ^ 53 + r.wtgt * 2 ^ 32),
    BitVec.ofNat 64 (r.timedOut.toNat * 2 ^ 49 + r.dlv.toNat * 2 ^ 48 + r.dline) ]

/-- Read a record; none where a reserved field is not zero or a code is reserved. -/
def Record.ofDwords : List DWord → Option Record
  | [d0, d1, d2, d3, d4, d5, d6, d7] =>
    let bad := bits d0 59 58 = 3 ∨ bits d1 63 60 ≠ 0 ∨ bits d2 63 56 ≠ 0 ∨ bits d4 63 48 ≠ 0 ∨ bits d5 63 60 ≠ 0 ∨
      6 ≤ bits d6 63 61 ∨ bits d6 52 48 ≠ 0 ∨ bits d6 31 0 ≠ 0 ∨ bits d7 63 50 ≠ 0
    if bad then none
    else some
      { st := bits d0 63 62, ctx := bits d0 61 60, rclass := bits d0 59 58, role := bits d0 57 56, code := bits d0 55 0,
        sweep := bits d1 59 56, frame := bits d1 55 0, join := bits d2 55 0, coord := d3, enq := bits d4 47 0,
        saveix := bits d5 59 56, rpc := bits d5 55 0, wkind := bits d6 63 61, wix := bits d6 60 53, wtgt := bits d6 47 32,
        timedOut := d7.getLsbD 49, dlv := d7.getLsbD 48, dline := bits d7 47 0 }
  | _ => none

def Record.bytes (r : Record) : List Byte := r.dwords.flatMap fun d => toBytes 8 d.toNat

/-- Dwords of a byte run. -/
def dwordsOf : Nat → List Byte → List DWord
  | 0, _ => []
  | n + 1, bs => leWord (bs.take 8) :: dwordsOf n (bs.drop 8)

/-! ## Save frames (R301) -/

/-- Address of the save frame of resume position k of core p. -/
def frameAddr (base p k : Nat) : Nat := base + (16 * p + k) * 0x9000

def Regs.latchBytes (r : Regs) : List Byte :=
  (List.range 8).flatMap fun i =>
    let l := Tbl.getD r.latch i {}
    toBytes 8 l.word.toNat ++ toBytes 4 l.l0.toNat ++ toBytes 4 l.l1.toNat

def Regs.latchValid (r : Regs) : Nat := r.latch.foldl (fun m p => m + 2 ^ p.1) 0

/-- The frame below the trackers, between 0x940 and 0x1000, and above: the three runs that suspension writes. -/
def Regs.frameRuns (r : Regs) : List (Nat × List Byte) :=
  [ (0x0000,
      ((List.range 64).flatMap fun n => toBytes 8 (r.sReg n).val.toNat) ++
      ((List.range 8).flatMap fun n => toBytes 8 (r.bReg n).val.toNat) ++
      toBytes 8 r.fp.toNat ++
      toBytes 8 (r.exposed.toNat + r.latchValid * 256) ++
      List.replicate 48 0 ++
      r.latchBytes ++
      ((List.range 8).flatMap fun n => toBytes 64 (r.pReg n).val.toNat) ++
      ((List.range 64).flatMap fun n => toBytes 8 (Tbl.getD r.sd n {}).val.toNat) ++
      ((List.range 32).flatMap fun n => toBytes 8 (Tbl.getD r.ck n {}).val.toNat) ++
      ((List.range 16).flatMap fun n => toBytes 8 (Tbl.getD r.cl n {}).val.toNat)),
    (0x0940, List.replicate 1728 0),
    (0x1000, (List.range 64).flatMap fun n => toBytes 512 (r.vReg n).val.toNat) ]

/-- Nat at an offset of a frame. -/
def frameNat (bs : List Byte) (off n : Nat) : Nat := leNat ((bs.drop off).take n)

/-- Registers of a saved frame: full, no taint (R303, R121). -/
def Regs.ofFrame (lo vs : List Byte) (r : Regs) : Regs :=
  let word (off n : Nat) : TWord := { val := BitVec.ofNat 64 (frameNat lo (off + 8 * n) 8) }
  let valid := frameNat lo 0x249 1
  { r with
    s := (List.range 64).map fun n => (n, { val := BitVec.ofNat 64 (frameNat lo (8 * n) 8) })
    b := (List.range 8).map fun n => (n, word 0x200 n)
    fp := BitVec.ofNat 5 (frameNat lo 0x240 1)
    exposed := decide (frameNat lo 0x248 1 % 2 = 1)
    latch := ((List.range 8).filter fun i => decide (valid / 2 ^ i % 2 = 1)).map fun i =>
      (i, { word := BitVec.ofNat 64 (frameNat lo (0x280 + 16 * i) 8), l0 := BitVec.ofNat 32 (frameNat lo (0x288 + 16 * i) 4),
            l1 := BitVec.ofNat 32 (frameNat lo (0x28C + 16 * i) 4) })
    p := (List.range 8).map fun n => (n, { val := BitVec.ofNat 512 (frameNat lo (0x300 + 64 * n) 64) })
    sd := (List.range 64).map fun n => (n, word 0x500 n)
    ck := (List.range 32).map fun n => (n, word 0x700 n)
    cl := (List.range 16).map fun n => (n, word 0x800 n)
    v := (List.range 64).map fun n => (n, { val := BitVec.ofNat 4096 (frameNat vs (512 * n) 512) })
    ct := 0 }

/-- Write runs of bytes at an address through the translation of a context; the first byte that fails stops them. -/
def State.writeRuns (s : State) (d tsid base : Nat) : List (Nat × List Byte) → Except (XlErr × Nat) State
  | [] => .ok s
  | (o, bs) :: t => match s.engineWrite d tsid (base + o) bs with
    | .error e => .error e
    | .ok s => State.writeRuns s d tsid base t

/-! ## Matrix state that is held (R178) -/

/-- Rows present, rows popped since the checkpoint, and rows promised (R177). -/
def Core.occupancy (c : Core) (r : Regs) (q : Nat) : Nat :=
  Tbl.getD r.rqTail q 0 - Tbl.getD c.shadow.regs.rqHead q 0 + Tbl.getD c.promised q 0

/-- R178. -/
def Core.matrixHeld (c : Core) : Bool :=
  decide (c.live.live ≠ 0) || (List.range 4).any (fun q => decide (c.occupancy c.live q ≠ 0)) || !c.draining.isEmpty ||
    c.mxq.any fun e => match e.op with
      | .aclr _ => false
      | .claim => false
      | .fill _ => false
      | .rda _ _ _ _ _ _ => false
      | .wra _ _ _ _ _ => false
      | _ => true

/-- The core can write the task's state: every register full, no producer and no tag pending (R113, R121, R300). -/
def Core.still (c : Core) : Bool :=
  c.live.allFull && c.prods.isEmpty && c.pipe.isEmpty && decide (c.pendingMask = 0)

/-! ## Suspension (R300) -/

/-- The task leaves its core. -/
def Core.clearTask (c : Core) (dest : Run) : Core :=
  { c.banked.noWait with task := none, run := dest, trk := {}, tlevel := 0, stopReq := 0 }

/-- A failed save frame: the fault 0x1C, and the task is abandoned (R301, R434, R447). -/
def State.frameFault (s : State) (u a : Nat) : State :=
  let op := s.taskOpid u
  let cyc := s.cycle48 (dieOf u)
  (s.updAt u fun c => (c.record 0x1C (BitVec.ofNat 64 a) c.shadow.addr op none 0 0).traceTrap cyc 0 0x1C c.shadow.addr 0).abandon u 0x1C false false

/-- Suspend the task of a unit after its checkpoint: the frame from the shadow set, the record on the lowest free
position, taint cleared, releases performed (R300, R121, R176, R245). `st`, `ready`: 0b10 and 0b01 with WKIND 0 are
ready at once. -/
def State.suspend (s : State) (u st kind ix tgt rpc : Nat) (ready : Bool) : State :=
  let d := dieOf u
  let c := s.coreAt u
  match c.task, Tbl.free c.resume 16 with
  | some t, some k =>
    let base := frameAddr (s.ctxAt d t.r.ctx).desc.savebase (u % 128) k
    match s.writeRuns d t.r.ctx base c.shadow.regs.frameRuns with
    | .error e => s.frameFault u e.2
    | .ok s =>
      let cyc := s.cycle48 d
      let r : Record := { t.r with
        st := st, enq := cyc, saveix := k, rpc := rpc, wkind := kind, wix := ix, wtgt := tgt, timedOut := false,
        dlv := c.deadline.isSome, dline := c.deadline.getD 0 }
      (s.settle u).updAt u fun c =>
        let c := ((c.traceLeave cyc 3).count 0x0F 1).releasePoint.performFrees.taintBoundary false
        { c.clearTask .idle with
          resume := Tbl.set c.resume k { r := r, id := t.id, ready := ready, trk := c.trk, since := (c.waited.map fun w => w.2.2).getD 0 } }
  | _, _ => s

/-- May the task suspend here (R178, R299, R425)? Only a compute core at level 0 with quiet matrix state and a free
position suspends; otherwise the wait stalls in place. -/
def Core.maySuspend (c : Core) : Bool :=
  isCompute c.id && c.task.isSome && decide (c.tlevel = 0) && !c.matrixHeld && (Tbl.free c.resume 16).isSome

/-- A field of the running task's record; 0 between tasks (R207). -/
def Core.ofTask (c : Core) (f : Record → Nat) : Nat :=
  match c.task with
  | some t => f t.r
  | none => 0

/-! ## Waiting records become ready (R302) -/

def Core.lcAt (c : Core) (m : Nat) : Landing := Tbl.getD c.lc m {}

def Core.flag (r : Regs) (k : Nat) : Nat := Tbl.getD r.flag k 0

/-- The channel of a context whose receiver or sender this is. -/
def State.chan (s : State) (d ctx ch : Nat) : Option ChanEnt := Tbl.get? (s.ctxAt d ctx).chans ch

/-- Endpoints and ring size of an entry (R398). -/
def ChanEnt.sender (x : ChanEnt) : Nat := (bits x.e0 63 54 * 32 + bits x.e0 53 49) * 128 + bits x.e0 48 42
def ChanEnt.receiver (x : ChanEnt) : Nat := (bits x.e0 41 32 * 32 + bits x.e0 31 27) * 128 + bits x.e0 26 20
def ChanEnt.depth (x : ChanEnt) : Nat := bits x.e0 19 13

/-- Entries the channel holds (R304). -/
def ChanEnt.count (x : ChanEnt) : Nat := (x.pushIx + 65536 - x.popIx) % 65536

/-- Context of die d that holds under ch the entry e of a channel: `ctx` itself, else another of the partition (R398). -/
def State.chanCtx (s : State) (d ctx ch : Nat) (e : ChanEnt) : Option Nat :=
  (ctx :: List.range 4).find? fun c => match s.chan d c ch with
    | some x => decide (x.e0 = e.e0 ∧ x.e1 = e.e1)
    | none => false

/-- The channel as its receiver holds it. -/
def State.chanAtReceiver (s : State) (e : ChanEnt) (ctx ch : Nat) : Option ChanEnt :=
  (s.chanCtx (dieOf e.receiver) ctx ch e).bind fun c => s.chan (dieOf e.receiver) c ch

/-- The condition of a waiting record on its core (R302); a channel that either side has unloaded ends a wait on it (R310, R416). -/
def State.waitMet (s : State) (u : Nat) (r : Record) : Bool :=
  let c := s.coreAt u
  match r.wkind with
  | 0 => true
  | 1 => decide (r.wtgt ≤ Core.flag c.live r.wix)
  | 2 => (c.lcAt r.wix).posted
  | 3 => match s.chan (dieOf u) r.ctx r.wix with
    | some e => match s.chanAtReceiver e r.ctx r.wix with
      | some x => decide (x.count < x.depth)
      | none => true
    | none => true
  | 4 => match s.chan (dieOf u) r.ctx r.wix with
    | some x => decide (0 < x.count)
    | none => true
  | 5 => decide ((c.opSlot r.wix).st = .free)
  | _ => false

/-- A waiting record whose DLINE has passed becomes ready with TO (R302). -/
def ResumePos.expire (p : ResumePos) (cyc : Nat) : ResumePos := { p with ready := true, r := { p.r with timedOut := true, enq := cyc } }

/-- Its DLINE passed n cycles ago or more. -/
def ResumePos.late (p : ResumePos) (cyc n : Nat) : Bool :=
  p.r.dlv && !p.ready && p.ending.isNone && decide (n ≤ (cyc + 2 ^ 48 - p.r.dline) % 2 ^ 48 ∧ (cyc + 2 ^ 48 - p.r.dline) % 2 ^ 48 < 2 ^ 47)

/-- Make the waiting records of a unit whose condition holds ready, with ENQ renewed (R296, R302). -/
def State.wake (s : State) (u : Nat) : State :=
  let cyc := s.cycle48 (dieOf u)
  s.updAt u fun c => { c with resume := c.resume.map fun p =>
    if !p.2.ready && p.2.ending.isNone && s.waitMet u p.2.r then (p.1, { p.2 with ready := true, r := { p.2.r with enq := cyc } }) else p }

/-! ## The end of a task (R446, R452) -/

/-- Every command the task issued has completed, its withheld and released effects are performed (R321, R446), and the flags of its
results are set (R60). -/
def State.commandsDone (s : State) (u : Nat) : Bool :=
  let c := s.coreAt u
  let id := match c.task with
    | some t => t.id
    | none => 0
  c.trk.ck.all (fun p => decide (p.2.out = 0)) && c.wb.isEmpty && decide (c.pendingMask = 0) && c.flagProds.isEmpty && c.flagWrites.isEmpty &&
    (List.range 4).all (fun q => decide (Tbl.getD c.promised q 0 = 0)) && c.draining.isEmpty && c.mxq.isEmpty &&
    !s.inCopy u id && !s.inCollective u id

/-- The clearing steps of `DONE` (R452) for an ending task whose commands have completed, and the report of its point:
finishing for `DONE`, Restart for a restartable abort. -/
def State.finishEnd (s : State) (u : Nat) : State :=
  let c := s.coreAt u
  if !s.commandsDone u then s
  else
    let d := dieOf u
    let s := (s.settle u).updAt u fun c =>
      let c := c.taintBoundary (decide (c.endKind = 0))
      let c := { c with
        live := { c.live with live := 0, rqHead := c.live.rqTail }
        pre := { c.pre with live := 0, rqHead := c.pre.rqTail }
        rows := [], tiles := c.tiles }
      let c := { c with shadow := { c.shadow with regs := c.live, tileHit := false, slotHit := false } }
      let c := match c.task with
        | some t => c.freeTask t.id
        | none => c
      { c.clearTask c.endTo with prods := [], pipe := [], loads := [] }
    let s := match c.task with
      | none => s
      | some t =>
        if c.endKind = 1 then s.restartPoint d t.r
        else if c.endKind = 0 then s.updDie d fun x => match Tbl.get? x.sweeps t.r.sweep with
          | none => x
          | some w => { x with sweeps := Tbl.set x.sweeps t.r.sweep { w with finishing := w.finishing ++ [w.desc.linear t.r.coord] } }
        else s
    s.wake u

/-! ## The choice of a record (R39, R298, R325) -/

/-- A candidate: where it lies and its record. -/
structure Cand where
  /-- Resume position, or none for a role queue with the role and index below. -/
  pos : Option Nat
  ix : Nat
  r : Record
  deriving Repr

/-- Age of a record on a die (R296). -/
def State.age (s : State) (d : Nat) (r : Record) : Nat := (s.cycle48 d + 2 ^ 48 - r.enq) % 2 ^ 48

def State.promoted (s : State) (d : Nat) (r : Record) : Bool := decide ((s.ctxAt d r.ctx).desc.agelim < s.age d r)

/-- a is taken before b (R39, R325): promoted records oldest first, the others by role, source and age; records equal in
source and age by resume position or arrival in their queue, else by sweep and context. -/
def State.before (s : State) (d : Nat) (a b : Cand) : Bool :=
  let key (x : Cand) : List Nat :=
    let src := if x.pos.isSome then 0 else 1
    let old := 2 ^ 48 - s.age d x.r
    if s.promoted d x.r then [0, old, src] else [1, x.r.role, src, old]
  let tie (x : Cand) : List Nat :=
    match x.pos with
    | some k => [k]
    | none => if a.r.role = b.r.role then [x.ix] else [x.r.sweep, x.r.ctx]
  decide (key a < key b) || (decide (key a = key b) && decide (tie a < tie b))

/-- May a record of the context be taken now? Its context runs and no pre-emption is in progress (R327, R450). -/
def State.ctxRuns (s : State) (d ctx : Nat) : Bool :=
  decide ((s.ctxAt d ctx).st = .running) && decide ((s.ctxAt d ctx).pre = .none)

/-- The record of a list that is taken first. -/
def State.firstOf (s : State) (d : Nat) (l : List Cand) : Option Cand :=
  l.foldl (fun best x => match best with
    | none => some x
    | some b => if s.before d x b then some x else some b) none

/-- Candidates of an idle core: the first ready record of its resume list and that of each of its die's role queues. -/
def State.candidates (s : State) (u : Nat) : List Cand :=
  let d := dieOf u
  let rs := ((s.coreAt u).resume.filter fun p => p.2.ready && s.ctxRuns d p.2.r.ctx).map fun p => { pos := some p.1, ix := 0, r := p.2.r : Cand }
  (s.firstOf d rs).toList ++ (s.dieAt d).roleq.filterMap fun q =>
    s.firstOf d ((((List.range q.2.length).zip q.2).filter fun p => s.ctxRuns d p.2.ctx).map fun p => { pos := none, ix := p.1, r := p.2 : Cand })

def State.chooseRecord (s : State) (u : Nat) : Option Cand := s.firstOf (dieOf u) (s.candidates u)

/-- Register values of a task that restores nothing: undefined (R108), drawn from the free values of Config (log 1);
everything else as R108, R196, R201, R455 state. FP_FLAGS and flags stay. -/
def Regs.fresh (r : Regs) (n : Nat) : Regs :=
  { r with
    s := (List.range 63).map fun i => (i + 1, { val := Config.freeWord (n + i) })
    v := (List.range 64).map fun i => (i, { val := Config.freeVReg (n + 63 + i) })
    p := (List.range 8).map fun i => (i, { val := (Config.freeVReg (n + 127 + i)).setWidth 512 })
    b := [], ct := 0, exposed := false, latch := [], sd := [], ck := [], cl := [] }

/-- The task a record starts or resumes runs on its core; the first group is a checkpoint group (R440). -/
def Core.startTask (c : Core) (r : Record) (id cycle what pc : Nat) (regs : Regs) (trk : Trackers) : Core :=
  let c := { c.noWait with
    task := some { r := r, id := id }, run := .running, live := regs, pre := regs, shadow := { regs := regs, addr := pc }
    pc := pc, tlevel := 0, ckNext := true, trk := trk, prods := [], pipe := [], stopReq := 0, after := [], crw := [], dynB := [], bWrote := [], redirected := false }
  (c.traceTask cycle what r).count 0x0E 1

/-- Start a fresh or restarted record (R108, R303, R322): older L1 lines are absent for the task. -/
def State.startRecord (s : State) (u : Nat) (r : Record) : State :=
  let cyc := s.cycle48 (dieOf u)
  let s := { s with seq := s.seq + 1 }
  let s := s.updAt u fun c =>
    let id := c.nextTask
    let c := { c with l1 := [], l1Floor := s.seq, nextTask := id + 1 }
    c.startTask r id cyc 0 r.code (c.live.fresh s.free) {}
  { s with free := s.free + 135 }

/-- Resume the record of a position from its save frame (R303). -/
def State.resumeRecord (s : State) (u k : Nat) (p : ResumePos) : State :=
  let d := dieOf u
  let base := frameAddr (s.ctxAt d p.r.ctx).desc.savebase (u % 128) k
  let cyc := s.cycle48 d
  match s.engineRead d p.r.ctx base 0x880, s.engineRead d p.r.ctx (base + 0x1000) 0x8000 with
  | .ok lo, .ok vs =>
    s.updAt u fun c =>
      let c := { c with resume := Tbl.del c.resume k }
      let c := c.startTask p.r p.id cyc 1 p.r.rpc (c.live.ofFrame lo vs) p.trk
      let dl := if p.r.dlv then some p.r.dline else none
      { c with
        timedOut := p.r.timedOut, deadline := dl, waited := if p.r.wkind = 0 then none else some (p.r.wkind, p.r.wix, p.since), holding := decide (p.r.wkind ≠ 0)
        held := if p.r.wkind = 0 then .plain else .timed p.r.wkind p.r.wix p.r.wtgt dl }
  | .error e, _ =>
    (s.updAt u fun c => { c with resume := Tbl.del c.resume k, task := some { r := p.r, id := p.id }, gpc := p.r.rpc }).frameFault u e.2
  | _, .error e =>
    (s.updAt u fun c => { c with resume := Tbl.del c.resume k, task := some { r := p.r, id := p.id }, gpc := p.r.rpc }).frameFault u e.2

/-- Put a record into its role queue, 4,096 deep on chip (R37), else into the spill ring of its context (R297).
The answer is none where the ring is full. -/
def State.enqueue (s : State) (d : Nat) (r : Record) : Option State :=
  let x := s.dieAt d
  let onChip := (Tbl.getD x.roleq r.role []).length
  let ctx := s.ctxAt d r.ctx
  let n := Tbl.getD ctx.spillLen r.role 0
  if n = 0 ∧ onChip < 4096 then
    some (s.updDie d fun x => { x with roleq := Tbl.set x.roleq r.role (Tbl.getD x.roleq r.role [] ++ [r]) })
  else
    let cap := 2 ^ (ctx.desc.cap.getD r.role 0)
    if cap ≤ n then none
    else
      let ix := (Tbl.getD ctx.spillHead r.role 0 + n) % cap
      match s.engineWrite d r.ctx (ctx.desc.ring.getD r.role 0 + 64 * ix) r.bytes with
      | .error e => some (s.graphFault d r.ctx 0x0A e.2 (s.recordOpid d r) 0 (match e.1 with
          | .reason k => (xlInfo e.2 k 1).toNat % 65536
          | _ => 0))
      | .ok s => some (s.updCtx d r.ctx fun c => { c with spillLen := Tbl.set c.spillLen r.role (n + 1) })

/-- A record that a spill ring gives back: its address, and the record or why it is none (R295, R335). -/
inductive Spilled where
  | good (r : Record)
  | failed (e : XlErr × Nat)
  | bad (a : Nat)

/-- The oldest record of a context's spill ring. -/
def State.spillHead (s : State) (d cx role : Nat) : Spilled :=
  let ctx := s.ctxAt d cx
  let a := ctx.desc.ring.getD role 0 + 64 * Tbl.getD ctx.spillHead role 0
  match s.engineRead d cx a 64 with
  | .error e => .failed e
  | .ok bs => match Record.ofDwords (dwordsOf 8 bs) with
    | none => .bad a
    | some r => .good r

/-- The oldest record of the spill rings of a role, with its context; one that cannot be read or is none comes first. -/
def State.oldestSpilled (s : State) (d role : Nat) : Option (Nat × Spilled) :=
  let rings := ((s.dieAt d).ctxs.filter fun p => decide (0 < Tbl.getD p.2.spillLen role 0 ∧ p.2.st = .running ∧ p.2.pre = .none)).map fun p =>
    (p.1, s.spillHead d p.1 role)
  let age (x : Spilled) : Nat :=
    match x with
    | .good r => s.age d r
    | _ => 2 ^ 48
  rings.foldl (fun best p => match best with
    | none => some p
    | some b => if age b.2 < age p.2 then some p else some b) none

/-- Spilled records of a role return to the on-chip part in the order in which they became ready, while entries are free
(R297). A bad record stops its context with graph fault 0x05 (R295). -/
def State.refill (s : State) (d role : Nat) : Nat → State
  | 0 => s
  | fuel + 1 =>
    if 4096 ≤ (Tbl.getD (s.dieAt d).roleq role []).length then s
    else match s.oldestSpilled d role with
      | none => s
      | some (cx, .failed e) => s.graphFault d cx 0x0A e.2 0 0 (match e.1 with
          | .reason k => (xlInfo e.2 k 0).toNat % 65536
          | _ => 0)
      | some (cx, .bad a) => s.graphFault d cx 0x05 a 0 0 role
      | some (cx, .good r) =>
        let s := s.updCtx d cx fun c => { c with
          spillHead := Tbl.set c.spillHead role ((Tbl.getD c.spillHead role 0 + 1) % 2 ^ (c.desc.cap.getD role 0))
          spillLen := Tbl.set c.spillLen role (Tbl.getD c.spillLen role 0 - 1) }
        State.refill (s.updDie d fun x => { x with roleq := Tbl.set x.roleq role (Tbl.getD x.roleq role [] ++ [r]) }) d role fuel

/-- The role queues of a die as a take or a firing finds them: what has room has returned from the spill rings. -/
def State.refillDie (s : State) (d : Nat) : State := (List.range 4).foldl (fun s role => s.refill d role 4096) s

/-- An idle, online compute core takes its next record (R39, R326). -/
def State.takeRecord (s : State) (u : Nat) : State :=
  match s.chooseRecord u with
  | none => s
  | some x => match x.pos with
    | some k => match Tbl.get? (s.coreAt u).resume k with
      | some p => s.resumeRecord u k p
      | none => s
    | none =>
      let d := dieOf u
      let s := s.updDie d fun y => { y with roleq := Tbl.set y.roleq x.r.role ((Tbl.getD y.roleq x.r.role []).eraseIdx x.ix) }
      if x.r.st = 0 ∨ x.r.st = 3 then s.startRecord u x.r
      else s.graphFault d x.r.ctx 0x05 0 (s.recordOpid d x.r) 0 x.r.role

end Sys2Proof.Machine
end

