-- ==== Sys2Proof/Machine/Classes.lean ====
section
/-! DEFINITION. What decoding checks of an instruction beside its fields (R77 checks 3 to 5, R204, R233, R374, R439). -/

namespace Sys2Proof.Machine

/-- Valid only on compute cores (R81, R84, R88, R90, R92, R93). -/
def computeOnly : Instr → Bool
  | .cmpp _ | .cmppi _ | .sel _ | .vadd _ | .vsub _ | .vmul _ | .vmulh _ | .vfma _ | .vfms _ | .vfnma _
  | .vabs _ | .vneg _ | .vmin _ | .vmax _ | .vshl _ | .vshr _ | .vsar _ | .vclamp _ | .vdot4 _ | .vcmp _
  | .vsel _ | .vand _ | .vor _ | .vxor _ | .vnot _ | .vmov _ | .pand _ | .por _ | .pxor _ | .pnot _ | .pmov _
  | .pcnt _ | .pset _ | .viota _ | .vcvt _ | .vwiden _ | .vwiden4 _ | .vnarrow _ | .vnarrow4 _ | .vbpack _
  | .vbunpk _ | .vrsum _ | .vrmin _ | .vrmax _ | .vperm _ | .vrot _ | .vzip _ | .vunzip _ | .vbcst _
  | .vbcsti _ _ | .vmovs _ | .vins _ | .vexp2 _ | .vlog2 _ | .vrcp _ | .vrsq _ | .vtanh _ | .vsigm _
  | .vrda _ | .vwra _ | .vpopq _ | .oclaim _ | .orelease _ | .ofill _ | .ostat _ | .ozero _ | .mma _
  | .drain _ | .aclr _ | .aload _ | .amov _ | .msync _ | .mstat _ | .vld _ | .vst _ | .vgath _ | .vscat _
  | .spld _ | .spst _ | .vspld _ | .vspst _ | .ralloc _ | .rfree _ | .stlook _ | .stfill _ | .stevict _
  | .sdset _ | .cpyr _ | .csend _ | .cqsend _ | .chopen _ | .chclose _ | .dtload _ | .lset _ _ _ | .lwait _ _
  | .qpush _ _ _ _ | .qpop _ _ _ | .suspend => true
  | .add _ | .sub _ | .mul _ | .mulh _ | .div _ | .rem _ | .addi _ | .rsbi _ | .muli _ | .min _ | .max _
  | .and _ | .or _ | .xor _ | .andn _ | .orn _ | .andi _ | .ori _ | .xori _ | .shl _ | .shr _ | .sar _
  | .rol _ | .ror _ | .shli _ | .shri _ | .sari _ | .rori _ | .popc _ | .clz _ | .cmp _ | .cmpi _ | .cmov _
  | .lea _ | .bfx _ | .bfxs _ | .bfxi _ | .bfxsi _ | .bfi _ | .bfii _ | .movi _ _ | .movl _ _ | .mfcr _
  | .mtcr _ | .tclr _ | .tget _ | .tspill _ | .tfill _ | .ld _ | .ldx _ | .st _ | .pref _ | .acqr _
  | .l2pin _ | .l2unpin _ | .atadd _ | .atmin _ | .atmax _ | .atxch _ | .atcas _ | .cpy _ | .cpys _
  | .cfill _ | .sluice _ | .slstat _ | .slabort _ | .cwait _ | .cstat _ | .fpost _ _ _ | .fset _ _ _
  | .fwait _ _ _ _ | .fget _ _ | .bar _ _ | .fence _ | .xfence _ _ | .pbr _ _ | .pbrl _ _ | .pbrs _ _ _
  | .br _ _ _ | .call _ _ _ _ | .ret _ _ _ | .loop _ _ _ | .trap _ | .bkpt _ | .sysc _ | .cwb _ | .iinv _
  | .tlbinv _ | .tlbwr _ | .tlbprobe _ | .pmfcr _ | .pmtcr _ | .ctxswSave _ | .ctxswRestore _ | .ctxswStop _
  | .dbell _ _ | .block _ _ | .op _ | .egbLoop _ | .endloop _ | .egbBr _ | .brc _ | .egbCall _ | .egbRet _
  | .gend _ | .capbeg _ | .capend _ | .replay _ | .hset _ | .hadd _ | .hmul _ | .hdiv _ | .hmin _ | .hmax _
  | .hld _ | .hdef _ | .hfree _ | .hreshape _ | .hshard _ | .halias _ | .chload _ | .chloadOff _ | .param _
  | .egbStep _ | .waith _ | .signal _ | .csload _ | .pattr _ | .pshape _ | .phref _ | .phdesc _ | .psetext _
  | .plout _ | .presid _ | .psweep _ | .prestore _ | .pregion _ | .pswait _ | .tclrC | .modeEx | .modeIl
  | .done | .yield | .tret | .fbar | .tlbinva | .waiti | .fillComplete | .matrixStart | .drainRowDelivery
  | .loadBind | .producerWriteback | .storePerform | .copyPerform | .landingUnitArrival | .flagPostArrival
  | .qpushArrival | .contributionArrival | .memberCompletion | .abortTokenArrival | .waitLimitExpiry
  | .deadlineExpiry | .shootdownComplete | .pageWalkComplete | .trapEntry | .recordTake | .agePromotion
  | .pointFire | .pointComplete | .preemptBoundExpiry | .contextSave | .operatorIssue | .operatorComplete
  | .blockCommit | .glaunchWrite | .gpatchWrite | .gstatFaultClear | .cctlOffline | .cctlOnline
  | .cctlRestart | .dsvcDrain | .dsvcReenable | .spvWarnClear | .traceEnable | .traceDisable | .erxtailWrite
  | .etxtailWrite | .ringEnable | .ringStop | .estatClr | .frameReceive | .frameTransmit | .registerWrite
  | .hostBar2Access | .powerOnReset | .dieReset | .attestationRequest | .firmwareUpdate | .laneRetrain
  | .rowSparing | .flitRetry | .linkRetryLimit | .thermalTrip | .stackSparesExhausted | .tileWriteComplete
  | .emptyBundle | .illegalWord => false

/-- Privileged opcodes of the branch slot (R458). -/
def privilegedOp : Instr → Bool
  | .tlbinv _ | .tlbwr _ | .tlbprobe _ | .pmfcr _ | .pmtcr _ | .ctxswSave _ | .ctxswRestore _ | .ctxswStop _
  | .dbell _ _ | .tret | .tlbinva | .waiti => true
  | .add _ | .sub _ | .mul _ | .mulh _ | .div _ | .rem _ | .addi _ | .rsbi _ | .muli _ | .min _ | .max _
  | .and _ | .or _ | .xor _ | .andn _ | .orn _ | .andi _ | .ori _ | .xori _ | .shl _ | .shr _ | .sar _
  | .rol _ | .ror _ | .shli _ | .shri _ | .sari _ | .rori _ | .popc _ | .clz _ | .cmp _ | .cmpi _ | .cmpp _
  | .cmppi _ | .sel _ | .cmov _ | .lea _ | .bfx _ | .bfxs _ | .bfxi _ | .bfxsi _ | .bfi _ | .bfii _
  | .movi _ _ | .movl _ _ | .mfcr _ | .mtcr _ | .tclr _ | .tget _ | .tspill _ | .tfill _ | .vadd _ | .vsub _
  | .vmul _ | .vmulh _ | .vfma _ | .vfms _ | .vfnma _ | .vabs _ | .vneg _ | .vmin _ | .vmax _ | .vshl _
  | .vshr _ | .vsar _ | .vclamp _ | .vdot4 _ | .vcmp _ | .vsel _ | .vand _ | .vor _ | .vxor _ | .vnot _
  | .vmov _ | .pand _ | .por _ | .pxor _ | .pnot _ | .pmov _ | .pcnt _ | .pset _ | .viota _ | .vcvt _
  | .vwiden _ | .vwiden4 _ | .vnarrow _ | .vnarrow4 _ | .vbpack _ | .vbunpk _ | .vrsum _ | .vrmin _
  | .vrmax _ | .vperm _ | .vrot _ | .vzip _ | .vunzip _ | .vbcst _ | .vbcsti _ _ | .vmovs _ | .vins _
  | .vexp2 _ | .vlog2 _ | .vrcp _ | .vrsq _ | .vtanh _ | .vsigm _ | .vrda _ | .vwra _ | .vpopq _ | .oclaim _
  | .orelease _ | .ofill _ | .ostat _ | .ozero _ | .mma _ | .drain _ | .aclr _ | .aload _ | .amov _
  | .msync _ | .mstat _ | .ld _ | .ldx _ | .st _ | .vld _ | .vst _ | .vgath _ | .vscat _ | .pref _ | .acqr _
  | .l2pin _ | .l2unpin _ | .spld _ | .spst _ | .vspld _ | .vspst _ | .ralloc _ | .rfree _ | .stlook _
  | .stfill _ | .stevict _ | .sdset _ | .atadd _ | .atmin _ | .atmax _ | .atxch _ | .atcas _ | .cpy _
  | .cpyr _ | .cpys _ | .cfill _ | .csend _ | .cqsend _ | .chopen _ | .chclose _ | .sluice _ | .slstat _
  | .slabort _ | .dtload _ | .cwait _ | .cstat _ | .fpost _ _ _ | .fset _ _ _ | .fwait _ _ _ _ | .fget _ _
  | .lset _ _ _ | .lwait _ _ | .qpush _ _ _ _ | .qpop _ _ _ | .bar _ _ | .fence _ | .xfence _ _ | .pbr _ _
  | .pbrl _ _ | .pbrs _ _ _ | .br _ _ _ | .call _ _ _ _ | .ret _ _ _ | .loop _ _ _ | .trap _ | .bkpt _
  | .sysc _ | .cwb _ | .iinv _ | .block _ _ | .op _ | .egbLoop _ | .endloop _ | .egbBr _ | .brc _
  | .egbCall _ | .egbRet _ | .gend _ | .capbeg _ | .capend _ | .replay _ | .hset _ | .hadd _ | .hmul _
  | .hdiv _ | .hmin _ | .hmax _ | .hld _ | .hdef _ | .hfree _ | .hreshape _ | .hshard _ | .halias _
  | .chload _ | .chloadOff _ | .param _ | .egbStep _ | .waith _ | .signal _ | .csload _ | .pattr _
  | .pshape _ | .phref _ | .phdesc _ | .psetext _ | .plout _ | .presid _ | .psweep _ | .prestore _
  | .pregion _ | .pswait _ | .tclrC | .suspend | .modeEx | .modeIl | .done | .yield | .fbar | .fillComplete
  | .matrixStart | .drainRowDelivery | .loadBind | .producerWriteback | .storePerform | .copyPerform
  | .landingUnitArrival | .flagPostArrival | .qpushArrival | .contributionArrival | .memberCompletion
  | .abortTokenArrival | .waitLimitExpiry | .deadlineExpiry | .shootdownComplete | .pageWalkComplete
  | .trapEntry | .recordTake | .agePromotion | .pointFire | .pointComplete | .preemptBoundExpiry
  | .contextSave | .operatorIssue | .operatorComplete | .blockCommit | .glaunchWrite | .gpatchWrite
  | .gstatFaultClear | .cctlOffline | .cctlOnline | .cctlRestart | .dsvcDrain | .dsvcReenable | .spvWarnClear
  | .traceEnable | .traceDisable | .erxtailWrite | .etxtailWrite | .ringEnable | .ringStop | .estatClr
  | .frameReceive | .frameTransmit | .registerWrite | .hostBar2Access | .powerOnReset | .dieReset
  | .attestationRequest | .firmwareUpdate | .laneRetrain | .rowSparing | .flitRetry | .linkRetryLimit
  | .thermalTrip | .stackSparesExhausted | .tileWriteComplete | .emptyBundle | .illegalWord => false

/-- Instructions that cannot issue in exposed mode (R233, R475, R477 "variable"). -/
def variableLatency : Instr → Bool
  | .ld _ | .ldx _ | .vld _ | .vgath _ | .atadd _ | .atmin _ | .atmax _ | .atxch _ | .atcas _ | .tlbprobe _ => true
  | .add _ | .sub _ | .mul _ | .mulh _ | .div _ | .rem _ | .addi _ | .rsbi _ | .muli _ | .min _ | .max _
  | .and _ | .or _ | .xor _ | .andn _ | .orn _ | .andi _ | .ori _ | .xori _ | .shl _ | .shr _ | .sar _
  | .rol _ | .ror _ | .shli _ | .shri _ | .sari _ | .rori _ | .popc _ | .clz _ | .cmp _ | .cmpi _ | .cmpp _
  | .cmppi _ | .sel _ | .cmov _ | .lea _ | .bfx _ | .bfxs _ | .bfxi _ | .bfxsi _ | .bfi _ | .bfii _
  | .movi _ _ | .movl _ _ | .mfcr _ | .mtcr _ | .tclr _ | .tget _ | .tspill _ | .tfill _ | .vadd _ | .vsub _
  | .vmul _ | .vmulh _ | .vfma _ | .vfms _ | .vfnma _ | .vabs _ | .vneg _ | .vmin _ | .vmax _ | .vshl _
  | .vshr _ | .vsar _ | .vclamp _ | .vdot4 _ | .vcmp _ | .vsel _ | .vand _ | .vor _ | .vxor _ | .vnot _
  | .vmov _ | .pand _ | .por _ | .pxor _ | .pnot _ | .pmov _ | .pcnt _ | .pset _ | .viota _ | .vcvt _
  | .vwiden _ | .vwiden4 _ | .vnarrow _ | .vnarrow4 _ | .vbpack _ | .vbunpk _ | .vrsum _ | .vrmin _
  | .vrmax _ | .vperm _ | .vrot _ | .vzip _ | .vunzip _ | .vbcst _ | .vbcsti _ _ | .vmovs _ | .vins _
  | .vexp2 _ | .vlog2 _ | .vrcp _ | .vrsq _ | .vtanh _ | .vsigm _ | .vrda _ | .vwra _ | .vpopq _ | .oclaim _
  | .orelease _ | .ofill _ | .ostat _ | .ozero _ | .mma _ | .drain _ | .aclr _ | .aload _ | .amov _
  | .msync _ | .mstat _ | .st _ | .vst _ | .vscat _ | .pref _ | .acqr _ | .l2pin _ | .l2unpin _ | .spld _
  | .spst _ | .vspld _ | .vspst _ | .ralloc _ | .rfree _ | .stlook _ | .stfill _ | .stevict _ | .sdset _
  | .cpy _ | .cpyr _ | .cpys _ | .cfill _ | .csend _ | .cqsend _ | .chopen _ | .chclose _ | .sluice _
  | .slstat _ | .slabort _ | .dtload _ | .cwait _ | .cstat _ | .fpost _ _ _ | .fset _ _ _ | .fwait _ _ _ _
  | .fget _ _ | .lset _ _ _ | .lwait _ _ | .qpush _ _ _ _ | .qpop _ _ _ | .bar _ _ | .fence _ | .xfence _ _
  | .pbr _ _ | .pbrl _ _ | .pbrs _ _ _ | .br _ _ _ | .call _ _ _ _ | .ret _ _ _ | .loop _ _ _ | .trap _
  | .bkpt _ | .sysc _ | .cwb _ | .iinv _ | .tlbinv _ | .tlbwr _ | .pmfcr _ | .pmtcr _ | .ctxswSave _
  | .ctxswRestore _ | .ctxswStop _ | .dbell _ _ | .block _ _ | .op _ | .egbLoop _ | .endloop _ | .egbBr _
  | .brc _ | .egbCall _ | .egbRet _ | .gend _ | .capbeg _ | .capend _ | .replay _ | .hset _ | .hadd _
  | .hmul _ | .hdiv _ | .hmin _ | .hmax _ | .hld _ | .hdef _ | .hfree _ | .hreshape _ | .hshard _ | .halias _
  | .chload _ | .chloadOff _ | .param _ | .egbStep _ | .waith _ | .signal _ | .csload _ | .pattr _
  | .pshape _ | .phref _ | .phdesc _ | .psetext _ | .plout _ | .presid _ | .psweep _ | .prestore _
  | .pregion _ | .pswait _ | .tclrC | .suspend | .modeEx | .modeIl | .done | .yield | .tret | .fbar
  | .tlbinva | .waiti | .fillComplete | .matrixStart | .drainRowDelivery | .loadBind | .producerWriteback
  | .storePerform | .copyPerform | .landingUnitArrival | .flagPostArrival | .qpushArrival
  | .contributionArrival | .memberCompletion | .abortTokenArrival | .waitLimitExpiry | .deadlineExpiry
  | .shootdownComplete | .pageWalkComplete | .trapEntry | .recordTake | .agePromotion | .pointFire
  | .pointComplete | .preemptBoundExpiry | .contextSave | .operatorIssue | .operatorComplete | .blockCommit
  | .glaunchWrite | .gpatchWrite | .gstatFaultClear | .cctlOffline | .cctlOnline | .cctlRestart | .dsvcDrain
  | .dsvcReenable | .spvWarnClear | .traceEnable | .traceDisable | .erxtailWrite | .etxtailWrite
  | .ringEnable | .ringStop | .estatClr | .frameReceive | .frameTransmit | .registerWrite | .hostBar2Access
  | .powerOnReset | .dieReset | .attestationRequest | .firmwareUpdate | .laneRetrain | .rowSparing
  | .flitRetry | .linkRetryLimit | .thermalTrip | .stackSparesExhausted | .tileWriteComplete | .emptyBundle
  | .illegalWord => false

/-- Illegal at trap levels 1 and 2 (R439). -/
def changesMatrix : Instr → Bool
  | .vwra _ | .vpopq _ | .oclaim _ | .orelease _ | .ofill _ | .ozero _ | .mma _ | .drain _ | .aclr _
  | .aload _ | .amov _ | .msync _ | .cqsend _ => true
  | .add _ | .sub _ | .mul _ | .mulh _ | .div _ | .rem _ | .addi _ | .rsbi _ | .muli _ | .min _ | .max _
  | .and _ | .or _ | .xor _ | .andn _ | .orn _ | .andi _ | .ori _ | .xori _ | .shl _ | .shr _ | .sar _
  | .rol _ | .ror _ | .shli _ | .shri _ | .sari _ | .rori _ | .popc _ | .clz _ | .cmp _ | .cmpi _ | .cmpp _
  | .cmppi _ | .sel _ | .cmov _ | .lea _ | .bfx _ | .bfxs _ | .bfxi _ | .bfxsi _ | .bfi _ | .bfii _
  | .movi _ _ | .movl _ _ | .mfcr _ | .mtcr _ | .tclr _ | .tget _ | .tspill _ | .tfill _ | .vadd _ | .vsub _
  | .vmul _ | .vmulh _ | .vfma _ | .vfms _ | .vfnma _ | .vabs _ | .vneg _ | .vmin _ | .vmax _ | .vshl _
  | .vshr _ | .vsar _ | .vclamp _ | .vdot4 _ | .vcmp _ | .vsel _ | .vand _ | .vor _ | .vxor _ | .vnot _
  | .vmov _ | .pand _ | .por _ | .pxor _ | .pnot _ | .pmov _ | .pcnt _ | .pset _ | .viota _ | .vcvt _
  | .vwiden _ | .vwiden4 _ | .vnarrow _ | .vnarrow4 _ | .vbpack _ | .vbunpk _ | .vrsum _ | .vrmin _
  | .vrmax _ | .vperm _ | .vrot _ | .vzip _ | .vunzip _ | .vbcst _ | .vbcsti _ _ | .vmovs _ | .vins _
  | .vexp2 _ | .vlog2 _ | .vrcp _ | .vrsq _ | .vtanh _ | .vsigm _ | .vrda _ | .ostat _ | .mstat _ | .ld _
  | .ldx _ | .st _ | .vld _ | .vst _ | .vgath _ | .vscat _ | .pref _ | .acqr _ | .l2pin _ | .l2unpin _
  | .spld _ | .spst _ | .vspld _ | .vspst _ | .ralloc _ | .rfree _ | .stlook _ | .stfill _ | .stevict _
  | .sdset _ | .atadd _ | .atmin _ | .atmax _ | .atxch _ | .atcas _ | .cpy _ | .cpyr _ | .cpys _ | .cfill _
  | .csend _ | .chopen _ | .chclose _ | .sluice _ | .slstat _ | .slabort _ | .dtload _ | .cwait _ | .cstat _
  | .fpost _ _ _ | .fset _ _ _ | .fwait _ _ _ _ | .fget _ _ | .lset _ _ _ | .lwait _ _ | .qpush _ _ _ _
  | .qpop _ _ _ | .bar _ _ | .fence _ | .xfence _ _ | .pbr _ _ | .pbrl _ _ | .pbrs _ _ _ | .br _ _ _
  | .call _ _ _ _ | .ret _ _ _ | .loop _ _ _ | .trap _ | .bkpt _ | .sysc _ | .cwb _ | .iinv _ | .tlbinv _
  | .tlbwr _ | .tlbprobe _ | .pmfcr _ | .pmtcr _ | .ctxswSave _ | .ctxswRestore _ | .ctxswStop _ | .dbell _ _
  | .block _ _ | .op _ | .egbLoop _ | .endloop _ | .egbBr _ | .brc _ | .egbCall _ | .egbRet _ | .gend _
  | .capbeg _ | .capend _ | .replay _ | .hset _ | .hadd _ | .hmul _ | .hdiv _ | .hmin _ | .hmax _ | .hld _
  | .hdef _ | .hfree _ | .hreshape _ | .hshard _ | .halias _ | .chload _ | .chloadOff _ | .param _
  | .egbStep _ | .waith _ | .signal _ | .csload _ | .pattr _ | .pshape _ | .phref _ | .phdesc _ | .psetext _
  | .plout _ | .presid _ | .psweep _ | .prestore _ | .pregion _ | .pswait _ | .tclrC | .suspend | .modeEx
  | .modeIl | .done | .yield | .tret | .fbar | .tlbinva | .waiti | .fillComplete | .matrixStart
  | .drainRowDelivery | .loadBind | .producerWriteback | .storePerform | .copyPerform | .landingUnitArrival
  | .flagPostArrival | .qpushArrival | .contributionArrival | .memberCompletion | .abortTokenArrival
  | .waitLimitExpiry | .deadlineExpiry | .shootdownComplete | .pageWalkComplete | .trapEntry | .recordTake
  | .agePromotion | .pointFire | .pointComplete | .preemptBoundExpiry | .contextSave | .operatorIssue
  | .operatorComplete | .blockCommit | .glaunchWrite | .gpatchWrite | .gstatFaultClear | .cctlOffline
  | .cctlOnline | .cctlRestart | .dsvcDrain | .dsvcReenable | .spvWarnClear | .traceEnable | .traceDisable
  | .erxtailWrite | .etxtailWrite | .ringEnable | .ringStop | .estatClr | .frameReceive | .frameTransmit
  | .registerWrite | .hostBar2Access | .powerOnReset | .dieReset | .attestationRequest | .firmwareUpdate
  | .laneRetrain | .rowSparing | .flitRetry | .linkRetryLimit | .thermalTrip | .stackSparesExhausted
  | .tileWriteComplete | .emptyBundle | .illegalWord => false

/-- Groups with these are checkpoint groups whether or not CK is set (R220, R259, R307, R426, R458). -/
def takesCheckpoint : Instr → Bool
  | .vscat _ | .atadd _ | .atmin _ | .atmax _ | .atxch _ | .atcas _ | .lset _ _ _ | .qpush _ _ _ _
  | .qpop _ _ _ | .waiti | .bar _ _ => true
  | .add _ | .sub _ | .mul _ | .mulh _ | .div _ | .rem _ | .addi _ | .rsbi _ | .muli _ | .min _ | .max _
  | .and _ | .or _ | .xor _ | .andn _ | .orn _ | .andi _ | .ori _ | .xori _ | .shl _ | .shr _ | .sar _
  | .rol _ | .ror _ | .shli _ | .shri _ | .sari _ | .rori _ | .popc _ | .clz _ | .cmp _ | .cmpi _ | .cmpp _
  | .cmppi _ | .sel _ | .cmov _ | .lea _ | .bfx _ | .bfxs _ | .bfxi _ | .bfxsi _ | .bfi _ | .bfii _
  | .movi _ _ | .movl _ _ | .mfcr _ | .mtcr _ | .tclr _ | .tget _ | .tspill _ | .tfill _ | .vadd _ | .vsub _
  | .vmul _ | .vmulh _ | .vfma _ | .vfms _ | .vfnma _ | .vabs _ | .vneg _ | .vmin _ | .vmax _ | .vshl _
  | .vshr _ | .vsar _ | .vclamp _ | .vdot4 _ | .vcmp _ | .vsel _ | .vand _ | .vor _ | .vxor _ | .vnot _
  | .vmov _ | .pand _ | .por _ | .pxor _ | .pnot _ | .pmov _ | .pcnt _ | .pset _ | .viota _ | .vcvt _
  | .vwiden _ | .vwiden4 _ | .vnarrow _ | .vnarrow4 _ | .vbpack _ | .vbunpk _ | .vrsum _ | .vrmin _
  | .vrmax _ | .vperm _ | .vrot _ | .vzip _ | .vunzip _ | .vbcst _ | .vbcsti _ _ | .vmovs _ | .vins _
  | .vexp2 _ | .vlog2 _ | .vrcp _ | .vrsq _ | .vtanh _ | .vsigm _ | .vrda _ | .vwra _ | .vpopq _ | .oclaim _
  | .orelease _ | .ofill _ | .ostat _ | .ozero _ | .mma _ | .drain _ | .aclr _ | .aload _ | .amov _
  | .msync _ | .mstat _ | .ld _ | .ldx _ | .st _ | .vld _ | .vst _ | .vgath _ | .pref _ | .acqr _ | .l2pin _
  | .l2unpin _ | .spld _ | .spst _ | .vspld _ | .vspst _ | .ralloc _ | .rfree _ | .stlook _ | .stfill _
  | .stevict _ | .sdset _ | .cpy _ | .cpyr _ | .cpys _ | .cfill _ | .csend _ | .cqsend _ | .chopen _
  | .chclose _ | .sluice _ | .slstat _ | .slabort _ | .dtload _ | .cwait _ | .cstat _ | .fpost _ _ _
  | .fset _ _ _ | .fwait _ _ _ _ | .fget _ _ | .lwait _ _ | .fence _ | .xfence _ _ | .pbr _ _
  | .pbrl _ _ | .pbrs _ _ _ | .br _ _ _ | .call _ _ _ _ | .ret _ _ _ | .loop _ _ _ | .trap _ | .bkpt _
  | .sysc _ | .cwb _ | .iinv _ | .tlbinv _ | .tlbwr _ | .tlbprobe _ | .pmfcr _ | .pmtcr _ | .ctxswSave _
  | .ctxswRestore _ | .ctxswStop _ | .dbell _ _ | .block _ _ | .op _ | .egbLoop _ | .endloop _ | .egbBr _
  | .brc _ | .egbCall _ | .egbRet _ | .gend _ | .capbeg _ | .capend _ | .replay _ | .hset _ | .hadd _
  | .hmul _ | .hdiv _ | .hmin _ | .hmax _ | .hld _ | .hdef _ | .hfree _ | .hreshape _ | .hshard _ | .halias _
  | .chload _ | .chloadOff _ | .param _ | .egbStep _ | .waith _ | .signal _ | .csload _ | .pattr _
  | .pshape _ | .phref _ | .phdesc _ | .psetext _ | .plout _ | .presid _ | .psweep _ | .prestore _
  | .pregion _ | .pswait _ | .tclrC | .suspend | .modeEx | .modeIl | .done | .yield | .tret | .fbar
  | .tlbinva | .fillComplete | .matrixStart | .drainRowDelivery | .loadBind | .producerWriteback
  | .storePerform | .copyPerform | .landingUnitArrival | .flagPostArrival | .qpushArrival
  | .contributionArrival | .memberCompletion | .abortTokenArrival | .waitLimitExpiry | .deadlineExpiry
  | .shootdownComplete | .pageWalkComplete | .trapEntry | .recordTake | .agePromotion | .pointFire
  | .pointComplete | .preemptBoundExpiry | .contextSave | .operatorIssue | .operatorComplete | .blockCommit
  | .glaunchWrite | .gpatchWrite | .gstatFaultClear | .cctlOffline | .cctlOnline | .cctlRestart | .dsvcDrain
  | .dsvcReenable | .spvWarnClear | .traceEnable | .traceDisable | .erxtailWrite | .etxtailWrite
  | .ringEnable | .ringStop | .estatClr | .frameReceive | .frameTransmit | .registerWrite | .hostBar2Access
  | .powerOnReset | .dieReset | .attestationRequest | .firmwareUpdate | .laneRetrain | .rowSparing
  | .flitRetry | .linkRetryLimit | .thermalTrip | .stackSparesExhausted | .tileWriteComplete | .emptyBundle
  | .illegalWord => false

/-- Operations of the divider (R477). -/
def usesDivider : Instr → Bool
  | .div _ | .rem _ => true
  | .add _ | .sub _ | .mul _ | .mulh _ | .addi _ | .rsbi _ | .muli _ | .min _ | .max _ | .and _ | .or _
  | .xor _ | .andn _ | .orn _ | .andi _ | .ori _ | .xori _ | .shl _ | .shr _ | .sar _ | .rol _ | .ror _
  | .shli _ | .shri _ | .sari _ | .rori _ | .popc _ | .clz _ | .cmp _ | .cmpi _ | .cmpp _ | .cmppi _ | .sel _
  | .cmov _ | .lea _ | .bfx _ | .bfxs _ | .bfxi _ | .bfxsi _ | .bfi _ | .bfii _ | .movi _ _ | .movl _ _
  | .mfcr _ | .mtcr _ | .tclr _ | .tget _ | .tspill _ | .tfill _ | .vadd _ | .vsub _ | .vmul _ | .vmulh _
  | .vfma _ | .vfms _ | .vfnma _ | .vabs _ | .vneg _ | .vmin _ | .vmax _ | .vshl _ | .vshr _ | .vsar _
  | .vclamp _ | .vdot4 _ | .vcmp _ | .vsel _ | .vand _ | .vor _ | .vxor _ | .vnot _ | .vmov _ | .pand _
  | .por _ | .pxor _ | .pnot _ | .pmov _ | .pcnt _ | .pset _ | .viota _ | .vcvt _ | .vwiden _ | .vwiden4 _
  | .vnarrow _ | .vnarrow4 _ | .vbpack _ | .vbunpk _ | .vrsum _ | .vrmin _ | .vrmax _ | .vperm _ | .vrot _
  | .vzip _ | .vunzip _ | .vbcst _ | .vbcsti _ _ | .vmovs _ | .vins _ | .vexp2 _ | .vlog2 _ | .vrcp _
  | .vrsq _ | .vtanh _ | .vsigm _ | .vrda _ | .vwra _ | .vpopq _ | .oclaim _ | .orelease _ | .ofill _
  | .ostat _ | .ozero _ | .mma _ | .drain _ | .aclr _ | .aload _ | .amov _ | .msync _ | .mstat _ | .ld _
  | .ldx _ | .st _ | .vld _ | .vst _ | .vgath _ | .vscat _ | .pref _ | .acqr _ | .l2pin _ | .l2unpin _
  | .spld _ | .spst _ | .vspld _ | .vspst _ | .ralloc _ | .rfree _ | .stlook _ | .stfill _ | .stevict _
  | .sdset _ | .atadd _ | .atmin _ | .atmax _ | .atxch _ | .atcas _ | .cpy _ | .cpyr _ | .cpys _ | .cfill _
  | .csend _ | .cqsend _ | .chopen _ | .chclose _ | .sluice _ | .slstat _ | .slabort _ | .dtload _ | .cwait _
  | .cstat _ | .fpost _ _ _ | .fset _ _ _ | .fwait _ _ _ _ | .fget _ _ | .lset _ _ _ | .lwait _ _
  | .qpush _ _ _ _ | .qpop _ _ _ | .bar _ _ | .fence _ | .xfence _ _ | .pbr _ _ | .pbrl _ _ | .pbrs _ _ _
  | .br _ _ _ | .call _ _ _ _ | .ret _ _ _ | .loop _ _ _ | .trap _ | .bkpt _ | .sysc _ | .cwb _ | .iinv _
  | .tlbinv _ | .tlbwr _ | .tlbprobe _ | .pmfcr _ | .pmtcr _ | .ctxswSave _ | .ctxswRestore _ | .ctxswStop _
  | .dbell _ _ | .block _ _ | .op _ | .egbLoop _ | .endloop _ | .egbBr _ | .brc _ | .egbCall _ | .egbRet _
  | .gend _ | .capbeg _ | .capend _ | .replay _ | .hset _ | .hadd _ | .hmul _ | .hdiv _ | .hmin _ | .hmax _
  | .hld _ | .hdef _ | .hfree _ | .hreshape _ | .hshard _ | .halias _ | .chload _ | .chloadOff _ | .param _
  | .egbStep _ | .waith _ | .signal _ | .csload _ | .pattr _ | .pshape _ | .phref _ | .phdesc _ | .psetext _
  | .plout _ | .presid _ | .psweep _ | .prestore _ | .pregion _ | .pswait _ | .tclrC | .suspend | .modeEx
  | .modeIl | .done | .yield | .tret | .fbar | .tlbinva | .waiti | .fillComplete | .matrixStart
  | .drainRowDelivery | .loadBind | .producerWriteback | .storePerform | .copyPerform | .landingUnitArrival
  | .flagPostArrival | .qpushArrival | .contributionArrival | .memberCompletion | .abortTokenArrival
  | .waitLimitExpiry | .deadlineExpiry | .shootdownComplete | .pageWalkComplete | .trapEntry | .recordTake
  | .agePromotion | .pointFire | .pointComplete | .preemptBoundExpiry | .contextSave | .operatorIssue
  | .operatorComplete | .blockCommit | .glaunchWrite | .gpatchWrite | .gstatFaultClear | .cctlOffline
  | .cctlOnline | .cctlRestart | .dsvcDrain | .dsvcReenable | .spvWarnClear | .traceEnable | .traceDisable
  | .erxtailWrite | .etxtailWrite | .ringEnable | .ringStop | .estatClr | .frameReceive | .frameTransmit
  | .registerWrite | .hostBar2Access | .powerOnReset | .dieReset | .attestationRequest | .firmwareUpdate
  | .laneRetrain | .rowSparing | .flitRetry | .linkRetryLimit | .thermalTrip | .stackSparesExhausted
  | .tileWriteComplete | .emptyBundle | .illegalWord => false

/-- Unassigned in a plan routine (R374). -/
def planUnassigned : Instr → Bool
  | .cmpp _ | .cmppi _ | .sel _ | .tclr _ | .tget _ | .tspill _ | .tfill _ | .trap _ | .bkpt _ | .sysc _
  | .cwb _ | .iinv _ | .tlbinv _ | .tlbwr _ | .tlbprobe _ | .pmfcr _ | .pmtcr _ | .ctxswSave _
  | .ctxswRestore _ | .ctxswStop _ | .dbell _ _ | .tclrC | .modeEx | .modeIl | .yield | .tret | .fbar
  | .tlbinva | .waiti => true
  | .add _ | .sub _ | .mul _ | .mulh _ | .div _ | .rem _ | .addi _ | .rsbi _ | .muli _ | .min _ | .max _
  | .and _ | .or _ | .xor _ | .andn _ | .orn _ | .andi _ | .ori _ | .xori _ | .shl _ | .shr _ | .sar _
  | .rol _ | .ror _ | .shli _ | .shri _ | .sari _ | .rori _ | .popc _ | .clz _ | .cmp _ | .cmpi _ | .cmov _
  | .lea _ | .bfx _ | .bfxs _ | .bfxi _ | .bfxsi _ | .bfi _ | .bfii _ | .movi _ _ | .movl _ _ | .mfcr _
  | .mtcr _ | .vadd _ | .vsub _ | .vmul _ | .vmulh _ | .vfma _ | .vfms _ | .vfnma _ | .vabs _ | .vneg _
  | .vmin _ | .vmax _ | .vshl _ | .vshr _ | .vsar _ | .vclamp _ | .vdot4 _ | .vcmp _ | .vsel _ | .vand _
  | .vor _ | .vxor _ | .vnot _ | .vmov _ | .pand _ | .por _ | .pxor _ | .pnot _ | .pmov _ | .pcnt _ | .pset _
  | .viota _ | .vcvt _ | .vwiden _ | .vwiden4 _ | .vnarrow _ | .vnarrow4 _ | .vbpack _ | .vbunpk _ | .vrsum _
  | .vrmin _ | .vrmax _ | .vperm _ | .vrot _ | .vzip _ | .vunzip _ | .vbcst _ | .vbcsti _ _ | .vmovs _
  | .vins _ | .vexp2 _ | .vlog2 _ | .vrcp _ | .vrsq _ | .vtanh _ | .vsigm _ | .vrda _ | .vwra _ | .vpopq _
  | .oclaim _ | .orelease _ | .ofill _ | .ostat _ | .ozero _ | .mma _ | .drain _ | .aclr _ | .aload _
  | .amov _ | .msync _ | .mstat _ | .ld _ | .ldx _ | .st _ | .vld _ | .vst _ | .vgath _ | .vscat _ | .pref _
  | .acqr _ | .l2pin _ | .l2unpin _ | .spld _ | .spst _ | .vspld _ | .vspst _ | .ralloc _ | .rfree _
  | .stlook _ | .stfill _ | .stevict _ | .sdset _ | .atadd _ | .atmin _ | .atmax _ | .atxch _ | .atcas _
  | .cpy _ | .cpyr _ | .cpys _ | .cfill _ | .csend _ | .cqsend _ | .chopen _ | .chclose _ | .sluice _
  | .slstat _ | .slabort _ | .dtload _ | .cwait _ | .cstat _ | .fpost _ _ _ | .fset _ _ _ | .fwait _ _ _ _
  | .fget _ _ | .lset _ _ _ | .lwait _ _ | .qpush _ _ _ _ | .qpop _ _ _ | .bar _ _ | .fence _ | .xfence _ _
  | .pbr _ _ | .pbrl _ _ | .pbrs _ _ _ | .br _ _ _ | .call _ _ _ _ | .ret _ _ _ | .loop _ _ _ | .block _ _
  | .op _ | .egbLoop _ | .endloop _ | .egbBr _ | .brc _ | .egbCall _ | .egbRet _ | .gend _ | .capbeg _
  | .capend _ | .replay _ | .hset _ | .hadd _ | .hmul _ | .hdiv _ | .hmin _ | .hmax _ | .hld _ | .hdef _
  | .hfree _ | .hreshape _ | .hshard _ | .halias _ | .chload _ | .chloadOff _ | .param _ | .egbStep _
  | .waith _ | .signal _ | .csload _ | .pattr _ | .pshape _ | .phref _ | .phdesc _ | .psetext _ | .plout _
  | .presid _ | .psweep _ | .prestore _ | .pregion _ | .pswait _ | .suspend | .done | .fillComplete
  | .matrixStart | .drainRowDelivery | .loadBind | .producerWriteback | .storePerform | .copyPerform
  | .landingUnitArrival | .flagPostArrival | .qpushArrival | .contributionArrival | .memberCompletion
  | .abortTokenArrival | .waitLimitExpiry | .deadlineExpiry | .shootdownComplete | .pageWalkComplete
  | .trapEntry | .recordTake | .agePromotion | .pointFire | .pointComplete | .preemptBoundExpiry
  | .contextSave | .operatorIssue | .operatorComplete | .blockCommit | .glaunchWrite | .gpatchWrite
  | .gstatFaultClear | .cctlOffline | .cctlOnline | .cctlRestart | .dsvcDrain | .dsvcReenable | .spvWarnClear
  | .traceEnable | .traceDisable | .erxtailWrite | .etxtailWrite | .ringEnable | .ringStop | .estatClr
  | .frameReceive | .frameTransmit | .registerWrite | .hostBar2Access | .powerOnReset | .dieReset
  | .attestationRequest | .firmwareUpdate | .laneRetrain | .rowSparing | .flitRetry | .linkRetryLimit
  | .thermalTrip | .stackSparesExhausted | .tileWriteComplete | .emptyBundle | .illegalWord => false

/-- Where an instruction is illegal beside its fields: a rule of the kind and level of the core. -/
inductive Site where
  | anywhere
  /-- `DONE`: not on a control core (R456). -/
  | noControl
  /-- `YIELD`: not with held matrix state, in a handler or on a control core (R456). -/
  | yields
  /-- `SUSPEND`: not with held matrix state (R427). -/
  | suspends
  /-- `CTXSW`, `WAITI`: not on a compute core (R458). -/
  | noCompute
  /-- `TRET`: not at level 0 of a control core (R457). -/
  | returns
  /-- `BAR` at quad scope: not on a control core (R427). -/
  | quadBar
  deriving DecidableEq, Repr

/-- The rule of an instruction. -/
def siteOf : Instr → Site
  | .done => .noControl
  | .yield => .yields
  | .suspend => .suspends
  | .ctxswSave _ | .ctxswRestore _ | .ctxswStop _ | .waiti => .noCompute
  | .tret => .returns
  | .bar sc _ => if sc = 1 then .quadBar else .anywhere
  | .add _ | .sub _ | .mul _ | .mulh _ | .div _ | .rem _ | .addi _ | .rsbi _ | .muli _ | .min _ | .max _
  | .and _ | .or _ | .xor _ | .andn _ | .orn _ | .andi _ | .ori _ | .xori _ | .shl _ | .shr _ | .sar _
  | .rol _ | .ror _ | .shli _ | .shri _ | .sari _ | .rori _ | .popc _ | .clz _ | .cmp _ | .cmpi _ | .cmpp _
  | .cmppi _ | .sel _ | .cmov _ | .lea _ | .bfx _ | .bfxs _ | .bfxi _ | .bfxsi _ | .bfi _ | .bfii _
  | .movi _ _ | .movl _ _ | .mfcr _ | .mtcr _ | .tclr _ | .tget _ | .tspill _ | .tfill _ | .vadd _ | .vsub _
  | .vmul _ | .vmulh _ | .vfma _ | .vfms _ | .vfnma _ | .vabs _ | .vneg _ | .vmin _ | .vmax _ | .vshl _
  | .vshr _ | .vsar _ | .vclamp _ | .vdot4 _ | .vcmp _ | .vsel _ | .vand _ | .vor _ | .vxor _ | .vnot _
  | .vmov _ | .pand _ | .por _ | .pxor _ | .pnot _ | .pmov _ | .pcnt _ | .pset _ | .viota _ | .vcvt _
  | .vwiden _ | .vwiden4 _ | .vnarrow _ | .vnarrow4 _ | .vbpack _ | .vbunpk _ | .vrsum _ | .vrmin _
  | .vrmax _ | .vperm _ | .vrot _ | .vzip _ | .vunzip _ | .vbcst _ | .vbcsti _ _ | .vmovs _ | .vins _
  | .vexp2 _ | .vlog2 _ | .vrcp _ | .vrsq _ | .vtanh _ | .vsigm _ | .vrda _ | .vwra _ | .vpopq _ | .oclaim _
  | .orelease _ | .ofill _ | .ostat _ | .ozero _ | .mma _ | .drain _ | .aclr _ | .aload _ | .amov _
  | .msync _ | .mstat _ | .ld _ | .ldx _ | .st _ | .vld _ | .vst _ | .vgath _ | .vscat _ | .pref _ | .acqr _
  | .l2pin _ | .l2unpin _ | .spld _ | .spst _ | .vspld _ | .vspst _ | .ralloc _ | .rfree _ | .stlook _
  | .stfill _ | .stevict _ | .sdset _ | .atadd _ | .atmin _ | .atmax _ | .atxch _ | .atcas _ | .cpy _
  | .cpyr _ | .cpys _ | .cfill _ | .csend _ | .cqsend _ | .chopen _ | .chclose _ | .sluice _ | .slstat _
  | .slabort _ | .dtload _ | .cwait _ | .cstat _ | .fpost _ _ _ | .fset _ _ _ | .fwait _ _ _ _ | .fget _ _
  | .lset _ _ _ | .lwait _ _ | .qpush _ _ _ _ | .qpop _ _ _ | .fence _ | .xfence _ _ | .pbr _ _ | .pbrl _ _
  | .pbrs _ _ _ | .br _ _ _ | .call _ _ _ _ | .ret _ _ _ | .loop _ _ _ | .trap _ | .bkpt _ | .sysc _ | .cwb _
  | .iinv _ | .tlbinv _ | .tlbwr _ | .tlbprobe _ | .pmfcr _ | .pmtcr _ | .dbell _ _ | .block _ _ | .op _
  | .egbLoop _ | .endloop _ | .egbBr _ | .brc _ | .egbCall _ | .egbRet _ | .gend _ | .capbeg _ | .capend _
  | .replay _ | .hset _ | .hadd _ | .hmul _ | .hdiv _ | .hmin _ | .hmax _ | .hld _ | .hdef _ | .hfree _
  | .hreshape _ | .hshard _ | .halias _ | .chload _ | .chloadOff _ | .param _ | .egbStep _ | .waith _
  | .signal _ | .csload _ | .pattr _ | .pshape _ | .phref _ | .phdesc _ | .psetext _ | .plout _ | .presid _
  | .psweep _ | .prestore _ | .pregion _ | .pswait _ | .tclrC | .modeEx | .modeIl | .fbar | .tlbinva
  | .fillComplete | .matrixStart | .drainRowDelivery | .loadBind | .producerWriteback | .storePerform
  | .copyPerform | .landingUnitArrival | .flagPostArrival | .qpushArrival | .contributionArrival
  | .memberCompletion | .abortTokenArrival | .waitLimitExpiry | .deadlineExpiry | .shootdownComplete
  | .pageWalkComplete | .trapEntry | .recordTake | .agePromotion | .pointFire | .pointComplete
  | .preemptBoundExpiry | .contextSave | .operatorIssue | .operatorComplete | .blockCommit | .glaunchWrite
  | .gpatchWrite | .gstatFaultClear | .cctlOffline | .cctlOnline | .cctlRestart | .dsvcDrain | .dsvcReenable
  | .spvWarnClear | .traceEnable | .traceDisable | .erxtailWrite | .etxtailWrite | .ringEnable | .ringStop
  | .estatClr | .frameReceive | .frameTransmit | .registerWrite | .hostBar2Access | .powerOnReset | .dieReset
  | .attestationRequest | .firmwareUpdate | .laneRetrain | .rowSparing | .flitRetry | .linkRetryLimit
  | .thermalTrip | .stackSparesExhausted | .tileWriteComplete | .emptyBundle | .illegalWord => .anywhere

/-- The control register a move names (R136, R458). -/
def movedCrn : Instr → Option Nat
  | .mfcr f | .mtcr f | .pmfcr f | .pmtcr f => some f.crn.toNat
  | .add _ | .sub _ | .mul _ | .mulh _ | .div _ | .rem _ | .addi _ | .rsbi _ | .muli _ | .min _ | .max _
  | .and _ | .or _ | .xor _ | .andn _ | .orn _ | .andi _ | .ori _ | .xori _ | .shl _ | .shr _ | .sar _
  | .rol _ | .ror _ | .shli _ | .shri _ | .sari _ | .rori _ | .popc _ | .clz _ | .cmp _ | .cmpi _ | .cmpp _
  | .cmppi _ | .sel _ | .cmov _ | .lea _ | .bfx _ | .bfxs _ | .bfxi _ | .bfxsi _ | .bfi _ | .bfii _
  | .movi _ _ | .movl _ _ | .tclr _ | .tget _ | .tspill _ | .tfill _ | .vadd _ | .vsub _ | .vmul _ | .vmulh _
  | .vfma _ | .vfms _ | .vfnma _ | .vabs _ | .vneg _ | .vmin _ | .vmax _ | .vshl _ | .vshr _ | .vsar _
  | .vclamp _ | .vdot4 _ | .vcmp _ | .vsel _ | .vand _ | .vor _ | .vxor _ | .vnot _ | .vmov _ | .pand _
  | .por _ | .pxor _ | .pnot _ | .pmov _ | .pcnt _ | .pset _ | .viota _ | .vcvt _ | .vwiden _ | .vwiden4 _
  | .vnarrow _ | .vnarrow4 _ | .vbpack _ | .vbunpk _ | .vrsum _ | .vrmin _ | .vrmax _ | .vperm _ | .vrot _
  | .vzip _ | .vunzip _ | .vbcst _ | .vbcsti _ _ | .vmovs _ | .vins _ | .vexp2 _ | .vlog2 _ | .vrcp _
  | .vrsq _ | .vtanh _ | .vsigm _ | .vrda _ | .vwra _ | .vpopq _ | .oclaim _ | .orelease _ | .ofill _
  | .ostat _ | .ozero _ | .mma _ | .drain _ | .aclr _ | .aload _ | .amov _ | .msync _ | .mstat _ | .ld _
  | .ldx _ | .st _ | .vld _ | .vst _ | .vgath _ | .vscat _ | .pref _ | .acqr _ | .l2pin _ | .l2unpin _
  | .spld _ | .spst _ | .vspld _ | .vspst _ | .ralloc _ | .rfree _ | .stlook _ | .stfill _ | .stevict _
  | .sdset _ | .atadd _ | .atmin _ | .atmax _ | .atxch _ | .atcas _ | .cpy _ | .cpyr _ | .cpys _ | .cfill _
  | .csend _ | .cqsend _ | .chopen _ | .chclose _ | .sluice _ | .slstat _ | .slabort _ | .dtload _ | .cwait _
  | .cstat _ | .fpost _ _ _ | .fset _ _ _ | .fwait _ _ _ _ | .fget _ _ | .lset _ _ _ | .lwait _ _
  | .qpush _ _ _ _ | .qpop _ _ _ | .bar _ _ | .fence _ | .xfence _ _ | .pbr _ _ | .pbrl _ _ | .pbrs _ _ _
  | .br _ _ _ | .call _ _ _ _ | .ret _ _ _ | .loop _ _ _ | .trap _ | .bkpt _ | .sysc _ | .cwb _ | .iinv _
  | .tlbinv _ | .tlbwr _ | .tlbprobe _ | .ctxswSave _ | .ctxswRestore _ | .ctxswStop _ | .dbell _ _
  | .block _ _ | .op _ | .egbLoop _ | .endloop _ | .egbBr _ | .brc _ | .egbCall _ | .egbRet _ | .gend _
  | .capbeg _ | .capend _ | .replay _ | .hset _ | .hadd _ | .hmul _ | .hdiv _ | .hmin _ | .hmax _ | .hld _
  | .hdef _ | .hfree _ | .hreshape _ | .hshard _ | .halias _ | .chload _ | .chloadOff _ | .param _
  | .egbStep _ | .waith _ | .signal _ | .csload _ | .pattr _ | .pshape _ | .phref _ | .phdesc _ | .psetext _
  | .plout _ | .presid _ | .psweep _ | .prestore _ | .pregion _ | .pswait _ | .tclrC | .suspend | .modeEx
  | .modeIl | .done | .yield | .tret | .fbar | .tlbinva | .waiti | .fillComplete | .matrixStart
  | .drainRowDelivery | .loadBind | .producerWriteback | .storePerform | .copyPerform | .landingUnitArrival
  | .flagPostArrival | .qpushArrival | .contributionArrival | .memberCompletion | .abortTokenArrival
  | .waitLimitExpiry | .deadlineExpiry | .shootdownComplete | .pageWalkComplete | .trapEntry | .recordTake
  | .agePromotion | .pointFire | .pointComplete | .preemptBoundExpiry | .contextSave | .operatorIssue
  | .operatorComplete | .blockCommit | .glaunchWrite | .gpatchWrite | .gstatFaultClear | .cctlOffline
  | .cctlOnline | .cctlRestart | .dsvcDrain | .dsvcReenable | .spvWarnClear | .traceEnable | .traceDisable
  | .erxtailWrite | .etxtailWrite | .ringEnable | .ringStop | .estatClr | .frameReceive | .frameTransmit
  | .registerWrite | .hostBar2Access | .powerOnReset | .dieReset | .attestationRequest | .firmwareUpdate
  | .laneRetrain | .rowSparing | .flitRetry | .linkRetryLimit | .thermalTrip | .stackSparesExhausted
  | .tileWriteComplete | .emptyBundle | .illegalWord => none

/-- The predicate condition of a branch (R94). -/
def branchPred : Instr → Bool
  | .br _ c _ | .call _ c _ _ | .ret _ c _ => condIsPred c
  | .add _ | .sub _ | .mul _ | .mulh _ | .div _ | .rem _ | .addi _ | .rsbi _ | .muli _ | .min _ | .max _
  | .and _ | .or _ | .xor _ | .andn _ | .orn _ | .andi _ | .ori _ | .xori _ | .shl _ | .shr _ | .sar _
  | .rol _ | .ror _ | .shli _ | .shri _ | .sari _ | .rori _ | .popc _ | .clz _ | .cmp _ | .cmpi _ | .cmpp _
  | .cmppi _ | .sel _ | .cmov _ | .lea _ | .bfx _ | .bfxs _ | .bfxi _ | .bfxsi _ | .bfi _ | .bfii _
  | .movi _ _ | .movl _ _ | .mfcr _ | .mtcr _ | .tclr _ | .tget _ | .tspill _ | .tfill _ | .vadd _ | .vsub _
  | .vmul _ | .vmulh _ | .vfma _ | .vfms _ | .vfnma _ | .vabs _ | .vneg _ | .vmin _ | .vmax _ | .vshl _
  | .vshr _ | .vsar _ | .vclamp _ | .vdot4 _ | .vcmp _ | .vsel _ | .vand _ | .vor _ | .vxor _ | .vnot _
  | .vmov _ | .pand _ | .por _ | .pxor _ | .pnot _ | .pmov _ | .pcnt _ | .pset _ | .viota _ | .vcvt _
  | .vwiden _ | .vwiden4 _ | .vnarrow _ | .vnarrow4 _ | .vbpack _ | .vbunpk _ | .vrsum _ | .vrmin _
  | .vrmax _ | .vperm _ | .vrot _ | .vzip _ | .vunzip _ | .vbcst _ | .vbcsti _ _ | .vmovs _ | .vins _
  | .vexp2 _ | .vlog2 _ | .vrcp _ | .vrsq _ | .vtanh _ | .vsigm _ | .vrda _ | .vwra _ | .vpopq _ | .oclaim _
  | .orelease _ | .ofill _ | .ostat _ | .ozero _ | .mma _ | .drain _ | .aclr _ | .aload _ | .amov _
  | .msync _ | .mstat _ | .ld _ | .ldx _ | .st _ | .vld _ | .vst _ | .vgath _ | .vscat _ | .pref _ | .acqr _
  | .l2pin _ | .l2unpin _ | .spld _ | .spst _ | .vspld _ | .vspst _ | .ralloc _ | .rfree _ | .stlook _
  | .stfill _ | .stevict _ | .sdset _ | .atadd _ | .atmin _ | .atmax _ | .atxch _ | .atcas _ | .cpy _
  | .cpyr _ | .cpys _ | .cfill _ | .csend _ | .cqsend _ | .chopen _ | .chclose _ | .sluice _ | .slstat _
  | .slabort _ | .dtload _ | .cwait _ | .cstat _ | .fpost _ _ _ | .fset _ _ _ | .fwait _ _ _ _ | .fget _ _
  | .lset _ _ _ | .lwait _ _ | .qpush _ _ _ _ | .qpop _ _ _ | .bar _ _ | .fence _ | .xfence _ _ | .pbr _ _
  | .pbrl _ _ | .pbrs _ _ _ | .loop _ _ _ | .trap _ | .bkpt _ | .sysc _ | .cwb _ | .iinv _ | .tlbinv _
  | .tlbwr _ | .tlbprobe _ | .pmfcr _ | .pmtcr _ | .ctxswSave _ | .ctxswRestore _ | .ctxswStop _ | .dbell _ _
  | .block _ _ | .op _ | .egbLoop _ | .endloop _ | .egbBr _ | .brc _ | .egbCall _ | .egbRet _ | .gend _
  | .capbeg _ | .capend _ | .replay _ | .hset _ | .hadd _ | .hmul _ | .hdiv _ | .hmin _ | .hmax _ | .hld _
  | .hdef _ | .hfree _ | .hreshape _ | .hshard _ | .halias _ | .chload _ | .chloadOff _ | .param _
  | .egbStep _ | .waith _ | .signal _ | .csload _ | .pattr _ | .pshape _ | .phref _ | .phdesc _ | .psetext _
  | .plout _ | .presid _ | .psweep _ | .prestore _ | .pregion _ | .pswait _ | .tclrC | .suspend | .modeEx
  | .modeIl | .done | .yield | .tret | .fbar | .tlbinva | .waiti | .fillComplete | .matrixStart
  | .drainRowDelivery | .loadBind | .producerWriteback | .storePerform | .copyPerform | .landingUnitArrival
  | .flagPostArrival | .qpushArrival | .contributionArrival | .memberCompletion | .abortTokenArrival
  | .waitLimitExpiry | .deadlineExpiry | .shootdownComplete | .pageWalkComplete | .trapEntry | .recordTake
  | .agePromotion | .pointFire | .pointComplete | .preemptBoundExpiry | .contextSave | .operatorIssue
  | .operatorComplete | .blockCommit | .glaunchWrite | .gpatchWrite | .gstatFaultClear | .cctlOffline
  | .cctlOnline | .cctlRestart | .dsvcDrain | .dsvcReenable | .spvWarnClear | .traceEnable | .traceDisable
  | .erxtailWrite | .etxtailWrite | .ringEnable | .ringStop | .estatClr | .frameReceive | .frameTransmit
  | .registerWrite | .hostBar2Access | .powerOnReset | .dieReset | .attestationRequest | .firmwareUpdate
  | .laneRetrain | .rowSparing | .flitRetry | .linkRetryLimit | .thermalTrip | .stackSparesExhausted
  | .tileWriteComplete | .emptyBundle | .illegalWord => false

/-- DEC of a word of the `cp` slot (R92, log 73). -/
def copyDec : Instr → Bool
  | .cpy f => f.dec
  | .cpyr f => f.dec
  | .cpys f => f.dec
  | .cfill f => f.dec
  | .csend f => f.dec
  | .cqsend f => f.dec
  | .chopen f => f.dec
  | .chclose f => f.dec
  | .sluice f => f.dec
  | .slstat f => f.dec
  | .slabort f => f.dec
  | .dtload f => f.dec
  | .cwait f => f.dec
  | .cstat f => f.dec
  | .add _ | .sub _ | .mul _ | .mulh _ | .div _ | .rem _ | .addi _ | .rsbi _ | .muli _ | .min _ | .max _
  | .and _ | .or _ | .xor _ | .andn _ | .orn _ | .andi _ | .ori _ | .xori _ | .shl _ | .shr _ | .sar _
  | .rol _ | .ror _ | .shli _ | .shri _ | .sari _ | .rori _ | .popc _ | .clz _ | .cmp _ | .cmpi _ | .cmpp _
  | .cmppi _ | .sel _ | .cmov _ | .lea _ | .bfx _ | .bfxs _ | .bfxi _ | .bfxsi _ | .bfi _ | .bfii _
  | .movi _ _ | .movl _ _ | .mfcr _ | .mtcr _ | .tclr _ | .tget _ | .tspill _ | .tfill _ | .vadd _ | .vsub _
  | .vmul _ | .vmulh _ | .vfma _ | .vfms _ | .vfnma _ | .vabs _ | .vneg _ | .vmin _ | .vmax _ | .vshl _
  | .vshr _ | .vsar _ | .vclamp _ | .vdot4 _ | .vcmp _ | .vsel _ | .vand _ | .vor _ | .vxor _ | .vnot _
  | .vmov _ | .pand _ | .por _ | .pxor _ | .pnot _ | .pmov _ | .pcnt _ | .pset _ | .viota _ | .vcvt _
  | .vwiden _ | .vwiden4 _ | .vnarrow _ | .vnarrow4 _ | .vbpack _ | .vbunpk _ | .vrsum _ | .vrmin _
  | .vrmax _ | .vperm _ | .vrot _ | .vzip _ | .vunzip _ | .vbcst _ | .vbcsti _ _ | .vmovs _ | .vins _
  | .vexp2 _ | .vlog2 _ | .vrcp _ | .vrsq _ | .vtanh _ | .vsigm _ | .vrda _ | .vwra _ | .vpopq _ | .oclaim _
  | .orelease _ | .ofill _ | .ostat _ | .ozero _ | .mma _ | .drain _ | .aclr _ | .aload _ | .amov _
  | .msync _ | .mstat _ | .ld _ | .ldx _ | .st _ | .vld _ | .vst _ | .vgath _ | .vscat _ | .pref _ | .acqr _
  | .l2pin _ | .l2unpin _ | .spld _ | .spst _ | .vspld _ | .vspst _ | .ralloc _ | .rfree _ | .stlook _
  | .stfill _ | .stevict _ | .sdset _ | .atadd _ | .atmin _ | .atmax _ | .atxch _ | .atcas _
 
  | .fpost _ _ _ | .fset _ _ _ | .fwait _ _ _ _ | .fget _ _ | .lset _ _ _
  | .lwait _ _ | .qpush _ _ _ _ | .qpop _ _ _ | .bar _ _ | .fence _ | .xfence _ _ | .pbr _ _ | .pbrl _ _
  | .pbrs _ _ _ | .br _ _ _ | .call _ _ _ _ | .ret _ _ _ | .loop _ _ _ | .trap _ | .bkpt _ | .sysc _ | .cwb _
  | .iinv _ | .tlbinv _ | .tlbwr _ | .tlbprobe _ | .pmfcr _ | .pmtcr _ | .ctxswSave _ | .ctxswRestore _
  | .ctxswStop _ | .dbell _ _ | .block _ _ | .op _ | .egbLoop _ | .endloop _ | .egbBr _ | .brc _ | .egbCall _
  | .egbRet _ | .gend _ | .capbeg _ | .capend _ | .replay _ | .hset _ | .hadd _ | .hmul _ | .hdiv _ | .hmin _
  | .hmax _ | .hld _ | .hdef _ | .hfree _ | .hreshape _ | .hshard _ | .halias _ | .chload _ | .chloadOff _
  | .param _ | .egbStep _ | .waith _ | .signal _ | .csload _ | .pattr _ | .pshape _ | .phref _ | .phdesc _
  | .psetext _ | .plout _ | .presid _ | .psweep _ | .prestore _ | .pregion _ | .pswait _ | .tclrC | .suspend
  | .modeEx | .modeIl | .done | .yield | .tret | .fbar | .tlbinva | .waiti | .fillComplete | .matrixStart
  | .drainRowDelivery | .loadBind | .producerWriteback | .storePerform | .copyPerform | .landingUnitArrival
  | .flagPostArrival | .qpushArrival | .contributionArrival | .memberCompletion | .abortTokenArrival
  | .waitLimitExpiry | .deadlineExpiry | .shootdownComplete | .pageWalkComplete | .trapEntry | .recordTake
  | .agePromotion | .pointFire | .pointComplete | .preemptBoundExpiry | .contextSave | .operatorIssue
  | .operatorComplete | .blockCommit | .glaunchWrite | .gpatchWrite | .gstatFaultClear | .cctlOffline
  | .cctlOnline | .cctlRestart | .dsvcDrain | .dsvcReenable | .spvWarnClear | .traceEnable | .traceDisable
  | .erxtailWrite | .etxtailWrite | .ringEnable | .ringStop | .estatClr | .frameReceive | .frameTransmit
  | .registerWrite | .hostBar2Access | .powerOnReset | .dieReset | .attestationRequest | .firmwareUpdate
  | .laneRetrain | .rowSparing | .flitRetry | .linkRetryLimit | .thermalTrip | .stackSparesExhausted
  | .tileWriteComplete | .emptyBundle | .illegalWord => false

end Sys2Proof.Machine
end

