-- ==== Sys2Proof/Machine/Network.lean ====
section
/-! DEFINITION. What cores do to one another: flags and posts (R418 to R420, R424), landing counters (R421, R426), acquires (R262, R269, R270), weirs (R30, R422, R427). -/

namespace Sys2Proof.Machine

/-! ## Which units a post reaches (R30, R45, R420) -/

/-- A core that is online, on a die that is online (R45). -/
def State.online (s : State) (u : Nat) : Bool :=
  (isCompute u || isControl u) && !(s.dieAt (dieOf u)).offline && (match (s.coreAt u).run with
    | .offline => false
    | .ending => decide ((s.coreAt u).endTo ≠ .offline)
    | _ => true)

/-- Unit named by a value in the layout of `CORE_ID` (R424); a core number that no die has gives no unit. -/
def unitOfId (v : DWord) : Nat :=
  let d := bits v 31 22 * 32 + bits v 21 17
  let n := bits v 16 12 * 4 + bits v 11 10
  if v.getLsbD 63 then d * 128 + 72 + bits v 11 10 else d * 128 + (if n < 72 then n else 127)

/-- A post from unit u reaches unit t: it exists and is online, in u's partition and in the domain (R420). -/
def State.postReaches (s : State) (u t : Nat) : Bool :=
  unitExists t && s.online t && s.dieReach (dieOf u) (dieOf t)

/-! ## Flags (R418 to R420) -/

/-- +1, saturating. -/
def Regs.bumpFlag (r : Regs) (k : Nat) : Regs := { r with flag := Tbl.set r.flag k (min 0xFFFF (Core.flag r k + 1)) }

def Regs.setFlag (r : Regs) (k v : Nat) : Regs := { r with flag := Tbl.set r.flag k v }

/-- The count of flag k stands at its end: a post is a flag-saturation event (R420, R430). -/
def Core.countSaturation (c : Core) (k : Nat) : Core := if Core.flag c.live k = 0xFFFF then c.count 0x16 1 else c

/-- A post from another agent reaches flag k of unit t: the live and the shadow value (R419). Waiting records may become
ready (R302). -/
def State.flagArrives (s : State) (t k : Nat) : State :=
  (s.updAt t fun c =>
    let c := c.countSaturation k
    { c with live := c.live.bumpFlag k, shadow := { c.shadow with regs := c.shadow.regs.bumpFlag k } }).wake t

/-- A post of unit u to flag k of unit t: performed where it reaches, else discarded and counted (R420). -/
def State.post (s : State) (u t k : Nat) : State :=
  if s.postReaches u t then s.flagArrives t k else s.countAt u 0x15 1

/-- The core's own post or `FSET` changes the live value only (R419). -/
def State.ownFlag (s : State) (f : Regs → Regs) : State := (s.live f).wake s.cur

/-! ## Landing counters (R421, R426) -/

/-- COUNT has reached TARGET: POSTED, and the flag where FE is set. -/
def State.landingPosts (s : State) (u m : Nat) : State :=
  let x := (s.coreAt u).lcAt m
  if x.count = x.target ∧ !x.posted then
    let s := s.updAt u fun c => { c with lc := Tbl.set c.lc m { x with posted := true } }
    if x.fe then s.flagArrives u x.fl else s.wake u
  else s

/-- A 64-byte unit that counts has landed. -/
def State.landed (s : State) (u m : Nat) : State :=
  (s.updAt u fun c =>
    let x := c.lcAt m
    { c with lc := Tbl.set c.lc m { x with count := min 0xFFFFF (x.count + 1) } }).landingPosts u m

/-- Arm counter m (R426); the landing slot of a channel's counter becomes free (R400). -/
def State.armLanding (s : State) (u m : Nat) (v : DWord) : State :=
  let x := (s.coreAt u).lcAt m
  let s := match x.slot with
    | some (ctx, ch, k) => s.updCtx (dieOf u) ctx fun y => match Tbl.get? y.chans ch with
      | some e => { y with chans := Tbl.set y.chans ch { e with full := e.full.filter fun n => !decide (n = k) } }
      | none => y
    | none => s
  let y : Landing := { x with count := 0, target := bits v 19 0, fl := bits v 28 24, fe := v.getLsbD 29, posted := false }
  (s.updAt u fun c => { c with lc := Tbl.set c.lc m y }).landingPosts u m

/-! ## Acquires (R262, R269, R270) -/

/-- Later loads of a unit return no value from an L1 line filled before now. -/
def State.acquire (s : State) (u : Nat) : State :=
  State.updAt { s with seq := s.seq + 1 } u fun c => { c with l1Floor := s.seq + 1 }

/-! ## Weirs (R422) -/

/-- Units of a scope code's instance around unit u, in u's partition, compute or control as u is (R30, R260). -/
def State.scopeUnits (s : State) (u scope : Nat) : List Nat :=
  let d := dieOf u
  let part := (s.dieAt d).partition
  let ofDies (ds : List Nat) : List Nat :=
    (ds.filter fun x => decide ((s.dieAt x).partition = part)).flatMap fun x => if isControl u then controlUnits x else computeUnits x
  match scope with
  | 0 => [u]
  | 1 => if isControl u then [u] else (List.range 4).map fun k => u / 4 * 4 + k
  | 2 => ofDies [d]
  | 3 => ofDies ((List.range 32).map fun k => d / 32 * 32 + k)
  | _ => ofDies (s.packages.flatMap fun p => (List.range 32).map fun k => p * 32 + k)

/-- The online members of a weir instance (R422). -/
def State.weirMembers (s : State) (u scope : Nat) : List Nat := (s.scopeUnits u scope).filter s.online

/-- Context that identifies the instance of a compute core; control cores have none. -/
def Core.weirCtx (c : Core) : Option Nat := c.task.map fun t => t.r.ctx

/-- Unit v stands arrived at the instance of unit u. -/
def State.arrivedWith (s : State) (u scope v : Nat) : Bool :=
  let c := s.coreAt v
  decide (c.barArrived = some scope) && decide (c.weirCtx = (s.coreAt u).weirCtx)

/-- ARRIVED. -/
def State.weirArrived (s : State) (u scope : Nat) : Nat := ((s.weirMembers u scope).filter (s.arrivedWith u scope)).length

/-- The round completes at every member once all have arrived, and ARRIVED returns to 0. -/
def State.weirCheck (s : State) (u scope : Nat) : State :=
  let ms := s.weirMembers u scope
  if ms.all (s.arrivedWith u scope) then s.updAll ms fun c => { c with barArrived := none, barDone := true } else s

/-- A core has left the count: rounds that waited for it complete (R422). -/
def State.weirsRecheck (s : State) : State :=
  s.cores.foldl (fun s p => match (s.coreAt p.1).barArrived with
    | some sc => s.weirCheck p.1 sc
    | none => s) s

/-- A core that waits at its `BAR` arrives once, when its earlier stores and loads are performed: the arrival is a release
(R270, R427). -/
def State.barArrive (s : State) (u scope : Nat) : State :=
  let c := s.coreAt u
  let settled := decide (scope = 0) || (decide (c.pendingMask = 0) && c.wb.all fun e => match e.k with
    | .store _ _ _ _ => false
    | _ => true)
  if settled && !c.mmaUnchecked && c.barArrived.isNone && !c.barDone then
    ((s.settle u).updAt u fun c => { c with barArrived := some scope }).weirCheck u scope
  else s

end Sys2Proof.Machine
end

