-- ==== Sys2Proof/Machine/Exec.lean ====
section
/-! DEFINITION. How a slot executes: the decode checks of R77, the meaning's body, and what becomes of its group where the slot stops it (R41, R286, R300, R435). -/

namespace Sys2Proof.Machine

/-! ## Decode checks (R77) -/

/-- Opcode of a slot word (R71). -/
def opcodeOf (i : Instr) : Nat :=
  match encode i with
  | some (.slot _ w _ _) => (w.extractLsb' 24 8).toNat
  | _ => 0

/-- Control registers of a kind of core (R204): compute is true. -/
def crnDefined (compute : Bool) (n : Nat) : Bool :=
  decide (n = 0x000 ∨ n = 0x010 ∨ n = 0x011 ∨ (0x018 ≤ n ∧ n < 0x021) ∨ n = 0x030 ∨ (0x080 ≤ n ∧ n < 0x0B0) ∨
    (0x0C0 ≤ n ∧ n < 0x0D2) ∨ (0x100 ≤ n ∧ n < 0x106) ∨ (0x110 ≤ n ∧ n < 0x114)) ||
  (if compute then decide ((0x002 ≤ n ∧ n < 0x009) ∨ n = 0x021 ∨ (0x040 ≤ n ∧ n < 0x080))
   else decide (0x200 ≤ n ∧ n < 0x204))

/-- Registers marked privileged (R204). -/
def crnPrivileged (n : Nat) : Bool := decide ((0x100 ≤ n ∧ n < 0x106) ∨ (0x110 ≤ n ∧ n < 0x114))

/-- The rule of the site holds. `YIELD` and `SUSPEND` find the matrix state as the earlier slots of the group leave it (R178; log 93). -/
def siteOk (s : State) : Site → Bool
  | .anywhere => true
  | .noControl => !isControl s.cur
  | .yields => isCompute s.cur && decide (s.core.tlevel = 0) && !s.core.matrixHeld
  | .suspends => !s.core.matrixHeld
  | .noCompute => !isCompute s.cur
  | .returns => !(isControl s.cur && decide (s.core.tlevel = 0))
  | .quadBar => !isControl s.cur

/-- Check 5 of R77 beside the fields: the kind of core, the pipeline mode, the trap level. -/
def operandsOk (i : Instr) (s : State) : Bool :=
  i.wf && siteOk s (siteOf i) && !(s.pre.exposed && variableLatency i) &&
  !(isCompute s.cur && decide (0 < s.core.tlevel) && changesMatrix i) &&
  !(isControl s.cur && branchPred i) &&
  (match movedCrn i with
   | some n => crnDefined (isCompute s.cur) n
   | none => true)

/-- Check 4 of R77: privileged at level 0 of a compute core. -/
def needsPrivilege (i : Instr) : Bool :=
  privilegedOp i || (match movedCrn i with
    | some n => crnPrivileged n
    | none => false)

def crnInfo (i : Instr) : Nat :=
  match movedCrn i with
  | some n => n * 65536
  | none => 0

/-- Checks of a plan routine (R374). -/
def planOk (i : Instr) (s : State) : Eff Unit := do
  need (!planUnassigned i) (.trap 0x02 (BitVec.ofNat 64 (s.core.slot + opcodeOf i * 256)))
  need (i.wf && (movedCrn i).isNone && !branchPred i) (illegalOperand s)

/-- The slot checks 3 to 5 of R77 in their order. -/
def guard (i : Instr) (s : State) : Eff Unit :=
  if isPlan s.cur then planOk i s
  else do
    need (!(isControl s.cur && (computeOnly i || copyDec i)))
      (.trap 0x02 (BitVec.ofNat 64 (s.core.slot + opcodeOf i * 256 + (computeOnly i).toNat * 65536)))
    need (!(isCompute s.cur && decide (s.core.tlevel = 0) && needsPrivilege i))
      (.trap 0x04 (BitVec.ofNat 64 (s.core.slot + crnInfo i)))
    need (operandsOk i s) (illegalOperand s)

/-! ## A group that stops -/

/-- The group waits: it issues again at its own address. -/
def State.hold (s : State) (h : Hold) : State :=
  s.upd fun c =>
    let c := if h = .tag ∧ ¬(c.holding = true ∧ c.held = .tag) then c.count 0x0A 1 else c
    { c with holding := true, held := h, pc := c.gpc }

/-- The implicit checkpoint of a wait, or the forced one of a group without room, taken once for a waiting group, whether or not
anything is withheld (R259, R443). While an MMA is unchecked there is none yet (R440). -/
def State.waitCheckpoint (s : State) (ev : Nat) : State :=
  if s.core.waitCk || s.core.mmaUnchecked then s
  else s.upd fun c => { (if c.ckDone then c else (c.checkpoint c.live c.gpc).count ev 1) with waitCk := true }

/-- A walk for this unit arrives at the walker, or the unit joins the one that is there (R287). -/
def State.startWalk (s : State) (tsid va : Nat) : State := s.walkFor (dieOf s.cur) tsid va [s.cur]

/-- A wait begins where its check first fails: its limit counts from there (R303, R432). -/
def Core.beginWait (c : Core) (kind ix cyc : Nat) (limit : Option Nat) : Core :=
  { c with
    deadline := if c.deadline.isSome then c.deadline else limit.map fun n => (cyc + n) % 2 ^ 48
    waited := if c.waited.isSome then c.waited else some (kind, ix, cyc) }

/-- A wait that would suspend (R300, R425): the checkpoint of R259, then suspension where R178 and R299 allow it. -/
def State.suspendAt (s : State) (kind ix tgt : Nat) (limit : Option Nat) : State :=
  let cyc := s.cycle48 (dieOf s.cur)
  let s := s.upd fun c => c.beginWait kind ix cyc limit
  let s := (s.waitCheckpoint 0x06).hold (.timed kind ix tgt s.core.deadline)
  let c := s.core
  if c.waitCk && c.maySuspend && c.still then s.suspend s.cur 1 kind ix tgt c.gpc false else s

/-- The entry of a `QPUSH` leaves for its receiver, once, after the group's checkpoint (R305, R307). -/
def State.sendPush (s : State) (ch : Nat) (v : DWord) : State :=
  let s := ((s.waitCheckpoint 0x06).hold s.core.held).settle s.cur
  let own := s.core.ofTask fun r => r.ctx
  match s.chan (dieOf s.cur) own ch with
  | some e =>
    if s.core.waitCk then
      State.upd { s with pushes := s.pushes ++ [{ id := s.nextNet, src := s.cur, dst := e.receiver, ctx := own, ch := ch, val := v, e0 := e.e0, e1 := e.e1, sentAt := s.now }], nextNet := s.nextNet + 1 }
        fun c => { c with push := .flying s.nextNet }
    else s
  | none => s

/-- A plan routine's request for a sweep-table entry takes its number and keeps the sweep as read (R36, R314). -/
def State.askSweep (s : State) (w : Sweep) : State :=
  if s.core.want.isSome then s
  else
    let n := (s.dieAt (dieOf s.cur)).nextAsk
    (s.updDie (dieOf s.cur) fun x => { x with nextAsk := n + 1 }).upd fun c => { c with want := some (n, w) }

/-- What becomes of the group, on the state from before it. -/
def State.stopGroup (s : State) (e : Stop) : State :=
  match e with
  | .trap cause info =>
    if causeEmulation cause && s.core.mmaUnchecked then s.hold .plain
    else
      let cyc := s.cycle48 (dieOf s.cur)
      (s.upd fun c => { c.endWait cyc with denied := [] }).takeTrap cause info 0
  | .wait h ck force => (if force then s.waitCheckpoint 0x07 else if ck then s.waitCheckpoint 0x06 else s).hold h
  | .checkpoint => s.hold .plain
  | .copyFault k info =>
    let cyc := s.cycle48 (dieOf s.cur)
    (s.upd fun c =>
      let c := c.endWait cyc
      let x := Tbl.getD c.trk.ck k {}
      { c with trk := { c.trk with ck := Tbl.set c.trk.ck k { x with err := false, code := 0, addr := 0 } }, denied := [] }).takeTrap 0x12 info 0
  | .walk tsid va => (s.startWalk tsid va).hold .plain
  | .suspend kind ix tgt limit => s.suspendAt kind ix tgt limit
  | .push ch v => s.sendPush ch v
  | .sweep w => (s.askSweep w).hold (.parked true)

/-- The group lacks room in the withholding buffer and takes a forced checkpoint (R443). -/
def Stop.forces : Stop → Bool
  | .wait _ _ force => force
  | _ => false

/-- A stop that takes effect only where no later slot of the group stops it: a push (R307). -/
def Stop.deferred : Stop → Bool
  | .push _ _ => true
  | _ => false

/-- The slot's effect, or the stop of its group, which the unit remembers as `sig`. -/
def settle (s : State) : Eff State → State
  | .ok t => t
  | .error e => (if s.core.inGroup && e.deferred then s else s.stopGroup e).updAt s.cur fun c => { c with sig := some e }

/-- A unit that issues bundles. -/
def State.issues (s : State) : Bool := unitExists s.cur && (isCompute s.cur || isControl s.cur || isPlan s.cur)

/-- Execute one slot of a core or a plan routine: R77, then the body. -/
def run (i : Instr) (s : State) (body : State → Eff State) : Host.Outcome State Fault Refusal :=
  if s.issues then .next (settle s (do guard i s; body s)) else .fault (.noSuchUnit s.cur)

/-! ## What follows a group (R76, R438, R452, R457) -/

/-- The plan routine of a unit ends: its entry notes it and the unit is free (R377). -/
def State.planEnd (s : State) (u : Nat) : State :=
  let c := s.coreAt u
  let s := s.updAt u fun c => { c with planRun := false, run := .idle, holding := false }
  s.updCtx (dieOf u) c.planCtx fun x => { x with blocks := x.blocks.map fun b =>
    if b.serial = c.planBlk then { b with entries := ((List.range b.entries.length).zip b.entries).map fun p =>
      if p.1 = c.planEnt then { p.2 with planDone := true } else p.2 } else b }

/-! ## What a group waits for before it completes -/

/-- Accesses of the unit on a path (R253) that are not performed: withheld and unreleased ones, and the others. -/
def State.pathBusy (s : State) (u path : Nat) : Bool × Bool :=
  let c := s.coreAt u
  let kinds (p : WKind → Bool) : Bool × Bool := (c.wb.any fun e => !e.released && p e.k, c.wb.any fun e => e.released && p e.k)
  let copies (p : Copy → Bool) : Bool :=
    ((s.dieAt (dieOf u)).copyq.any fun (x : Copy) => decide (x.u = u) && p x) || s.units.any fun (x : Unit64) => decide (x.copy.u = u) && !x.copy.stopped && p x.copy
  match path with
  | 0 =>
    let k := kinds fun k => match k with
      | .store _ _ _ _ => true
      | _ => false
    (k.1, k.2 || decide (c.pendingMask ≠ 0))
  | 1 =>
    let k := kinds fun k => match k with
      | .copy x => x.dec.isNone
      | _ => false
    (k.1, k.2 || copies fun x => x.dec.isNone)
  | 2 => (false, c.fills.any fun (f : Fill) => f.dec.isNone)
  | 3 =>
    let k := kinds fun k => match k with
      | .sluice _ _ => true
      | .slabort _ _ _ => true
      | _ => false
    (k.1, k.2 || s.insts.any fun (i : Inst) => i.members.any fun (m : Member) => decide (m.u = u) && m.inserted.isNone && !m.done)
  | _ => (false, (c.fills.any fun (f : Fill) => f.dec.isSome) || copies fun x => x.dec.isSome)

/-- A global store of the unit that is withheld, and one that is released and not performed. -/
def Core.storesLeft (c : Core) : Bool × Bool :=
  let st (e : WEntry) : Bool := match e.k with
    | .store _ _ _ _ => true
    | _ => false
  (c.wb.any fun e => st e && !e.released, c.wb.any fun e => st e && e.released)

/-- What stands in the way of a member of `after`: an access that is withheld, so that an implicit checkpoint comes
first (R259), and anything else. -/
def State.afterWait (s : State) (a : After) : Bool × Bool :=
  let c := s.core
  match a with
  | .fence => (c.unreleased, !c.wb.isEmpty || decide (c.pendingMask ≠ 0))
  | .xfence pa pb =>
    let x := s.pathBusy s.cur pa
    let y := s.pathBusy s.cur pb
    (x.1 || y.1, x.2 || y.2)
  | .stores => c.storesLeft
  | .shoot _ _ => (c.storesLeft.1, c.storesLeft.2 || decide (c.pendingMask ≠ 0) || !decide (c.shoot = .none ∨ c.shoot = .applied))
  | .mode _ => (false, !c.live.allFull || (!c.live.exposed && c.pipe.any fun w => decide (s.now + (!c.inGroup).toNat < w.due)))
  | .bar sc _ => (c.unreleased && !c.mmaUnchecked, !c.barDone || (decide (sc ≠ 0) && c.mmaUnchecked))
  | .late _ _ _ => (false, true)
  | .ck => (false, c.mmaUnchecked)
  | .call _ _ => (false, c.mmaUnchecked)
  | .done => (false, !isPlan s.cur && decide (c.tlevel = 0) &&
      (decide (c.pendingMask ≠ 0) || c.mmaUnchecked || (List.range 4).any fun q => decide (Tbl.getD c.promised q 0 ≠ 0)))
  | .yield => (false, false)
  | .suspend => (false, false)
  | .tret => (false, c.mmaUnchecked)

/-- `DONE` (R452, R456): the end of a task; an abandonment by a handler, or the end of a plan routine. -/
def State.doneTask (s : State) : State :=
  let u := s.cur
  if isPlan u then s.planEnd u
  else if 0 < s.core.tlevel then s.abandon u (bits s.core.trecCause 15 0) false true
  else
    let cyc := s.cycle48 (dieOf u)
    (s.ckHere 0x06).upd fun c => (c.traceLeave cyc 2).beginEnd 0 .idle

/-- A task that yields or suspends leaves its core once it is still (R300, R456). -/
def State.leaveTask (s : State) (st : Nat) : State :=
  let s := if s.core.waitCk || s.core.mmaUnchecked then s else (s.ckHere 0x06).upd fun c => { c with waitCk := true }
  if s.core.waitCk && s.core.still then (s.upd fun c => { c with after := [] }).suspend s.cur st 0 0 0 s.core.shadow.addr true
  else s.upd fun c => { c with holding := true, held := .plain, after := [if st = 2 then .yield else .suspend] }

/-- Mask of the other slots of the group, which complete beside a call-class trap (R435). -/
def Core.othersDone (c : Core) : Nat := c.present - 128 * (c.present / 128 % 2)

/-- Shootdowns go to every die of the partition (R289). -/
def State.startShoot (s : State) (tsid va : Nat) : State :=
  let dies := s.packages.flatMap fun p => (List.range 32).map fun k => p * 32 + k
  let part := (s.dieAt (dieOf s.cur)).partition
  let mine := dies.filter fun d => decide ((s.dieAt d).partition = part)
  State.upd { s with shoots := s.shoots ++ [{ id := s.nextNet, u := s.cur, tsid := tsid, va := va, dies := mine }], nextNet := s.nextNet + 1 }
    fun c => { c with shoot := .flying s.nextNet }

/-- Slots of the group are still to execute. -/
def hasLate (l : List After) : Bool := l.any fun a => match a with
  | .late _ _ _ => true
  | _ => false

/-- The rest of a group waits, after the implicit checkpoint where its own accesses are withheld (R259); slots that then execute are
in a further one (log 79). -/
def State.stay (s : State) (l : List After) (ck : Bool) : State :=
  let now := ck && !s.core.mmaUnchecked
  (if now then s.ckHere 0x06 else s).upd fun c =>
    { c with holding := true, held := .plain, after := if now && hasLate l && !l.contains .ck then l ++ [.ck] else l }

/-- `BAR` waits in place, behind the accesses of its own group: what they withheld is released under the checkpoint before the group,
and the core arrives at the weir (R427; log 80). -/
def State.weirWait (s : State) (scope : Nat) (limit : Option Nat) (l : List After) : State :=
  let cyc := s.cycle48 (dieOf s.cur)
  let s := s.upd fun c =>
    let c := c.beginWait 8 scope cyc limit
    { c with
      wb := if c.mmaUnchecked then c.wb else c.wb.map fun e => { e with released := true }
      holding := true, held := .timed 8 scope 0 c.deadline, after := l }
  s.barArrive s.cur scope

/-- A wait of `after` is over: its own effect. With the core's stores its scratchpad stores are performed, and a later
load uses no older L1 line (R266, R267). -/
def State.passed (s : State) (a : After) : State :=
  match a with
  | .fence => (s.settle s.cur).acquire s.cur
  | .xfence pa pb => if pa = 0 ∨ pb = 0 then (s.settle s.cur).acquire s.cur else s
  | .mode ex => s.live fun r => { r with exposed := ex }
  | .shoot _ _ => s.upd fun c => { c with shoot := .none }
  | .bar sc _ =>
    let cyc := s.cycle48 (dieOf s.cur)
    let t := s.upd fun c => { c.endWait cyc with barDone := false, barArrived := none, deadline := none, held := .plain }
    if sc = 0 then t else t.acquire s.cur
  | .ck => (s.ckHere 0x06).upd fun c => { c with notBefore := max c.notBefore (s.now + 2) }
  | _ => s

/-- What control instructions do once their group has completed. -/
def State.finish (s : State) : List After → State
  | [] => s.upd fun c => { c with after := [], holding := false }
  | a :: t =>
    let w := s.afterWait a
    if w.1 || w.2 then (match a with
      | .bar sc lim =>
        let r := s.weirWait sc lim (a :: t)
        if r.core.barDone then (r.passed a).finish t else r
      | _ => s.stay (a :: t) w.1)
    else match a with
      | .call cause info => (s.upd fun c => { c with after := [] }).takeTrap cause info s.core.othersDone
      | .done => (s.upd fun c => { c with after := [] }).doneTask
      | .tret => (s.upd fun c => { c with after := [] }).trapReturn
      | .yield => s.leaveTask 2
      | .suspend => s.leaveTask 1
      | .shoot tsid va => if s.core.shoot = .applied then (s.passed a).finish t else (s.startShoot tsid va).stay (a :: t) false
      | .fence => (s.passed a).finish t
      | .xfence _ _ => (s.passed a).finish t
      | .stores => (s.passed a).finish t
      | .mode _ => (s.passed a).finish t
      | .bar _ _ => (s.passed a).finish t
      | .ck => (s.passed a).finish t
      | .late _ _ _ => s.stay (a :: t) false

/-- Where a member of `after` stands: what waits for the group's accesses, in slot order, then the checkpoint after the group, then
what leaves the group's code, a suspension last. -/
def After.rank : After → Nat
  | .fence => 0
  | .xfence _ _ => 0
  | .stores => 0
  | .shoot _ _ => 0
  | .bar _ _ => 0
  | .late _ _ _ => 0
  | .ck => 1
  | .mode _ => 2
  | .call _ _ => 3
  | .done => 3
  | .yield => 3
  | .tret => 3
  | .suspend => 4

/-- A fence or a `BAR` whose wait the later accesses of the group come behind. -/
def After.fences : After → Bool
  | .fence => true
  | .xfence _ _ => true
  | .bar _ _ => true
  | _ => false

/-- Put a member in its place. -/
def After.into (a : After) (l : List After) : List After :=
  (l.filter fun x => decide (x.rank ≤ a.rank)) ++ a :: l.filter fun x => decide (a.rank < x.rank)

/-- Inside a group the effect waits for the other slots (R76), a departure for the others' effects; a slot executed alone
has it at once. -/
def State.leave (s : State) (a : After) : State :=
  if s.core.inGroup then s.upd fun c => { c with after := a.into c.after } else s.finish [a]

/-- What stood before the group lets a slot that waits for it go on (R266, R267, R277, R289, R455). -/
def State.clear (s : State) (a : After) : Eff Unit := do
  let w := s.prior.afterWait a
  need (!w.1) (.wait .plain true false)
  need (!w.2) stall

/-- A slot that holds its group until the accesses before it are performed; those of the group's own earlier slots are
waited for as the group completes. -/
def State.holdFor (s : State) (a : After) : Eff State := do
  s.clear a
  let w := s.afterWait a
  .ok (if w.1 || w.2 then s.leave a else s.passed a)

/-! ## Events -/

/-- A hardware event happens where it is enabled; elsewhere nothing changes. -/
@[inline] def happen (s : State) (enabled : Bool) (t : State) : Host.Outcome State Fault Refusal := .next (if enabled then t else s)

/-- An event at a unit: the unit must exist. -/
@[inline] def atUnit (s : State) (u : Nat) (enabled : Bool) (t : State) : Host.Outcome State Fault Refusal :=
  if unitExists u then happen s enabled t else .fault (.noSuchUnit u)

end Sys2Proof.Machine
end

