-- ==== Sys2Proof/Machine/ControlRegs.lean ====
section
/-! DEFINITION. Control registers: what a read returns and what a write does, register by register (R5, R60, R123, R136, R197 to R211, R429, R431). -/

namespace Sys2Proof.Machine

/-- `CORE_ID` of a unit (R205); PKG reads 0 until the fabric configuration is written. -/
def State.coreId (s : State) (u : Nat) : Nat :=
  let d := dieOf u
  let die := d % 32
  let pkg := if s.fabric.contains (d / 32) then d / 32 else 0
  let n := u % 128
  if isControl u then
    2 ^ 63 + (2 * die + (n - 72)) * 2 ^ 32 + pkg * 2 ^ 22 + die * 2 ^ 17 + (n - 72) * 2 ^ 10
  else (72 * die + n) * 2 ^ 32 + pkg * 2 ^ 22 + die * 2 ^ 17 + n / 4 * 2 ^ 12 + n % 4 * 2 ^ 10

/-- `TAG_STAT` (R123). -/
def Core.tagStat (c : Core) (ct : Taint) : Nat :=
  (tagMask (c.tagsIn fun t => t.hold)).toNat * 2 ^ 48 + (tagMask (c.tagsIn fun t => decide (t.st = .bound))).toNat * 2 ^ 32 +
    c.pendingMask.toNat * 2 ^ 16 + ct.toNat

/-- `TAG_GEN` (R123). -/
def Core.tagGen (c : Core) : Nat := packElems 3 ((List.range 16).map fun j => (c.tag j).gen.toNat)

/-- `TRACE_STAT` (R431). -/
def Core.traceStat (c : Core) : Nat := c.traceStopped.toNat * 2 ^ 15 + c.traceWrapped.toNat * 2 ^ 14 + c.traceW % 2 ^ 14

def TWord.pair (w : TWord) : DWord × Taint := (w.val, w.taint)

/-- Taint of stream register n: the union of its four word masks (R196). -/
def Regs.streamTaint (r : Regs) (n : Nat) : Taint :=
  (List.range 4).foldl (fun t k => t ||| (Tbl.getD r.sd (4 * n + k) {}).taint) 0

/-- Value and taint of a control register as a read returns them: as before the group (R76, R117, R136, R204). -/
def State.readCr (s : State) (n : Nat) : DWord × Taint :=
  let s := State.updAt s.prior s.cur fun c => { c with pre := s.pre }
  let c := s.core
  let d := dieOf s.cur
  let nat (x : Nat) : DWord × Taint := (BitVec.ofNat 64 x, 0)
  let word (x : DWord) : DWord × Taint := (x, 0)
  if 0x018 ≤ n ∧ n < 0x020 then (c.pre.bReg (n - 0x018)).pair
  else if 0x040 ≤ n ∧ n < 0x080 then ((Tbl.getD c.pre.sd (n - 0x040) {}).val, c.pre.streamTaint ((n - 0x040) / 4))
  else if 0x080 ≤ n ∧ n < 0x0A0 then (Tbl.getD c.pre.ck (n - 0x080) {}).pair
  else if 0x0A0 ≤ n ∧ n < 0x0B0 then (Tbl.getD c.pre.cl (n - 0x0A0) {}).pair
  else if 0x0C0 ≤ n ∧ n < 0x0C8 then word (Tbl.getD c.pmc (n - 0x0C0) 0)
  else if 0x0C8 ≤ n ∧ n < 0x0D0 then word (Tbl.getD c.pmsel (n - 0x0C8) 0)
  else match n with
    | 0x000 => nat (s.coreId s.cur)
    | 0x002 => nat c.pre.fp.toNat
    | 0x003 => word c.spv
    | 0x004 => nat (c.ofTask fun r => (s.ctxAt d r.ctx).desc.agelim)
    | 0x005 => nat (c.ofTask fun r => r.ctx * 256 + r.rclass * 64 + r.role * 16 + r.sweep)
    | 0x006 => nat (c.ofTask fun r => r.coord.toNat)
    | 0x007 => nat (c.ofTask fun r => r.frame)
    | 0x008 => nat (c.ofTask fun r => r.join)
    | 0x010 => nat (c.tagStat c.pre.ct)
    | 0x011 => nat c.tagGen
    | 0x020 => nat (s.cycle d)
    | 0x021 => nat (c.ofTask fun r => (s.ctxAt d r.ctx).step.toNat)
    | 0x030 => nat c.pinLost.toNat
    | 0x0D0 => nat c.traceCtl.toNat
    | 0x0D1 => nat c.traceStat
    | 0x100 => word c.trecPc
    | 0x101 => word c.trecCause
    | 0x102 => word c.trecOp
    | 0x103 => word c.trecTile
    | 0x104 => word c.trecInfo
    | 0x105 => word c.trecCkpt
    | 0x110 => nat c.tlevel
    | 0x111 => nat c.tvec1
    | 0x112 => nat c.tvec2
    | 0x113 => word c.tscratch
    | 0x200 => nat c.ptBase
    | 0x201 => nat (s.dieAt d).partition
    | 0x202 => nat c.irqPend.toNat
    | 0x203 => nat c.irqMask.toNat
    | _ => nat 0

/-- Low two bits zero, as branch targets and vectors hold them (R114, R210). -/
def align4 (v : DWord) : DWord := v &&& ~~~3#64

/-- `SPV_MODE` after a write: MODE as written; a 1 at WARN clears WARN, COUNT and FIRST (R206). -/
def spvWrite (old v : DWord) : DWord :=
  let old := if v.getLsbD 1 then 0 else old
  setBits old 0 0 (bits v 0 0)

/-- `PMSEL` after a write: EN and EVENT as written, OVF cleared by a 1, reserved bits zero (R429). -/
def pmselWrite (old v : DWord) : DWord :=
  BitVec.ofNat 64 (bits v 63 63 * 2 ^ 63 + (if v.getLsbD 62 then 0 else bits old 62 62) * 2 ^ 62 + bits v 7 0)

/-- A write of counter n comes before the events of its cycle, an OVF of theirs included (R429). -/
def Core.setPmc (c : Core) (n : Nat) (v : DWord) : Core :=
  { c with
    pmc := Tbl.set c.pmc n v, pmcNow := Tbl.del c.pmcNow n, ovfNow := c.ovfNow.filter fun k => !decide (k = n)
    pmsel := if c.ovfNow.contains n then Tbl.set c.pmsel n (setBits (Tbl.getD c.pmsel n 0) 62 62 0) else c.pmsel }

/-- Write a control register under its access codes: read-only fields keep their value (R5, R136). -/
def State.writeCr (s : State) (n : Nat) (v : DWord) (t : Taint) : State :=
  let cyc := s.cycle48 (dieOf s.cur)
  if 0x018 ≤ n ∧ n < 0x020 then
    s.upd fun c => { c with live := c.live.setB (n - 0x018) ⟨align4 v, t⟩, dynB := (n - 0x018) :: c.dynB, bWrote := Tbl.set c.bWrote (n - 0x018) s.now }
  else if 0x080 ≤ n ∧ n < 0x0A0 then s.live fun r => { r with ck := Tbl.set r.ck (n - 0x080) ⟨v, t⟩ }
  else if 0x0A0 ≤ n ∧ n < 0x0B0 then s.live fun r => { r with cl := Tbl.set r.cl (n - 0x0A0) ⟨v, t⟩ }
  else if 0x0C0 ≤ n ∧ n < 0x0C8 then
    s.upd fun c => (c.setPmc (n - 0x0C0) v).addPmc (n - 0x0C0) (Tbl.getD c.pmcNow (n - 0x0C0) 0)
  else if 0x0C8 ≤ n ∧ n < 0x0D0 then
    s.upd fun c => { c with pmsel := Tbl.set c.pmsel (n - 0x0C8) (pmselWrite (Tbl.getD c.pmsel (n - 0x0C8) 0) v) }
  else match n with
    | 0x002 => s.live fun r => { r with fp := r.fp &&& ~~~(v.setWidth 5) }
    | 0x003 => s.upd fun c => { c with spv := spvWrite c.spv v }
    | 0x030 => s.upd fun c => { c with pinLost := c.pinLost && !v.getLsbD 0, pinWrote := c.pinWrote || v.getLsbD 0 }
    | 0x0D0 => s.upd fun c => c.setTraceCtl cyc (v.setWidth 3)
    | 0x111 => s.upd fun c => { c with tvec1 := (align4 v).toNat }
    | 0x112 => s.upd fun c => { c with tvec2 := (align4 v).toNat }
    | 0x113 => s.upd fun c => { c with tscratch := v }
    | 0x200 => s.upd fun c => { c with ptBase := bits v 51 12 * 4096 }
    | 0x201 => s.updDie (dieOf s.cur) fun x => { x with partition := bits v 7 0 }
    | 0x202 => s.upd fun c => { c with irqPend := c.irqPend &&& ~~~(v.setWidth 6) }
    | 0x203 => s.upd fun c => { c with irqMask := v.setWidth 6 }
    | _ => s

/-- A vector-slot instruction issued before the group still has a result to write (R60). -/
def Core.vectorBusy (c : Core) : Bool := (c.prods.any fun p => p.vx) || c.pipe.any fun w => w.vx

/-- `MFCR` and `PMFCR` (R136, R458): the register's value and taint into a scalar register, latency 2. In interlocked mode a
read of `FP_FLAGS` waits for the results of the vector slot (R60). -/
def moveFromCr (s : State) (r : BitVec 6) (n : Nat) : Eff State := do
  need (!(decide (n = 0x002) && !s.pre.exposed && s.prior.core.vectorBusy)) stall
  dstS s r
  .ok (s.writeS r (s.readCr n).1 (s.readCr n).2 2)

/-- The control-register writes of the group in progress take effect (R136). -/
def State.writeCrs (s : State) : State :=
  s.core.crw.foldl (fun s (w : Nat × DWord × Taint) => s.writeCr w.1 w.2.1 w.2.2) (s.upd fun c => { c with crw := [] })

/-- `MTCR` and `PMTCR` (R136, R458): for every later group, not for its own. -/
def moveToCr (s : State) (r : BitVec 6) (e : Bool) (n : Nat) : Eff State := do
  let v ← srcS s r e
  .ok (if s.core.inGroup then s.upd fun c => { c with crw := Tbl.set c.crw n (v, taintS s r) } else s.writeCr n v (taintS s r))

end Sys2Proof.Machine
end

