-- ==== Sys2Proof/Machine/Group.lean ====
section
/-! DEFINITION. Bundles and issue groups as bytes (R69 to R75): reading headers, slot words, literals and repeats. -/

namespace Sys2Proof.Machine

/-- A slot of a group: its number, the word and literals it executes. -/
structure SlotWord where
  slot : Nat
  word : BitVec 64
  l0 : BitVec 32 := 0
  l1 : BitVec 32 := 0
  deriving DecidableEq, Repr

/-- A bundle as read (R69, R71): `words` are the explicit slots. -/
structure Bundle where
  ck : Bool
  st : Bool
  inc : Int
  p : Nat
  d : Nat
  words : List SlotWord
  len : Nat
  deriving DecidableEq, Repr

/-- Why no group can be read: more bytes are needed, or the illegal-bundle trap. -/
inductive ReadErr where
  | more
  | illegal
  deriving DecidableEq, Repr

/-- Slot class of a slot number (R70); a plan routine's `ms` has its own map (R374). -/
def slotClass (plan : Bool) : Nat → Slot
  | 0 => .sa
  | 1 => .sa
  | 2 => .vx
  | 3 => .mx
  | 4 => if plan then .pms else .ms
  | 5 => .cp
  | 6 => .sy
  | _ => .br

/-- Bit i of a mask. -/
def maskBit (m i : Nat) : Bool := decide (m / 2 ^ i % 2 = 1)

/-- The explicit slot words of the slots listed, then their literals from `lits` on (R71). -/
def readWords (plan : Bool) : List Nat → List Byte → Option (List SlotWord × List Byte)
  | [], bs => some ([], bs)
  | i :: t, bs =>
    let n := (slotClass plan i).bytes
    if bs.length < n then none
    else match readWords plan t (bs.drop n) with
      | none => none
      | some (ws, rest) => some (⟨i, BitVec.ofNat 64 (leNat (bs.take n)), 0, 0⟩ :: ws, rest)

/-- Give each slot word its literals, in slot order (R71, R74). -/
def readLits (plan : Bool) : List SlotWord → List Byte → Option (List SlotWord × List Byte)
  | [], bs => some ([], bs)
  | w :: t, bs =>
    let n := (slotClass plan w.slot).lits (w.word.extractLsb' 24 8).toNat
    if bs.length < 4 * n then none
    else
      let l (k : Nat) : BitVec 32 := if k < n then BitVec.ofNat 32 (leNat ((bs.drop (4 * k)).take 4)) else 0
      match readLits plan t (bs.drop (4 * n)) with
      | none => none
      | some (ws, rest) => some ({ w with l0 := l 0, l1 := l 1 } :: ws, rest)

/-- Read one bundle from the front of bytes (R69, R71). -/
def readBundle (plan : Bool) (bs : List Byte) : Except ReadErr Bundle :=
  if bs.length < 4 then .error .more
  else
    let h : Nat := leNat (bs.take 4)
    let p := h % 256
    let d := h / 256 % 256
    let inc : Nat := h / 2 ^ 16 % 16
    if h / 2 ^ 28 ≠ 0xA ∨ h / 2 ^ 22 % 64 ≠ 0 then .error .illegal
    else
      let explicit := (List.range 8).filter fun i => maskBit p i && !maskBit d i
      match readWords plan explicit (bs.drop 4) with
      | none => .error .more
      | some (ws, r) => match readLits plan ws r with
        | none => .error .more
        | some (ws, r) => .ok
          { ck := maskBit h 21, st := maskBit h 20, inc := sintN 4 inc, p := p, d := d,
            words := ws, len := bs.length - r.length }

/-- Read a group: a bundle with ST = 1, or a pair whose masks share no bit (R75). -/
def readGroup (plan : Bool) (bs : List Byte) : Except ReadErr (List Bundle) :=
  match readBundle plan bs with
  | .error e => .error e
  | .ok b =>
    if b.st then .ok [b]
    else match readBundle plan (bs.drop b.len) with
      | .error e => .error e
      | .ok b' => if b'.st && b.p &&& b'.p == 0 then .ok [b, b'] else .error .illegal

/-- Bytes of a group. -/
def groupLen (g : List Bundle) : Nat := (g.map fun b => b.len).foldl (· + ·) 0

/-- An `ms` opcode with a DISP field (R73, R90). -/
def hasDisp (op : Nat) : Bool := decide ((1 ≤ op ∧ op ≤ 8) ∨ (0x10 ≤ op ∧ op ≤ 0x13))

/-- A `cp` opcode with an OFF field (R73, R92). -/
def hasOff (op : Nat) : Bool := decide ((1 ≤ op ∧ op ≤ 4) ∨ op = 8)

/-- A repeated word with INC added to its address field; none outside the field's range (R73). -/
def repeated (plan : Bool) (slot : Nat) (inc : Int) (w : BitVec 64) : Option (BitVec 64) :=
  let op := (w.extractLsb' 24 8).toNat
  if slot = 4 ∧ hasDisp op ∧ !(plan && decide (4 ≤ op)) then
    let v := (w.extractLsb' 48 16).toInt + inc
    if -32768 ≤ v ∧ v ≤ 32767 then some (BitVec.ofInt 16 v ++ w.extractLsb' 0 48) else none
  else if slot = 5 ∧ hasOff op then
    let v := ((w.extractLsb' 52 12).toNat : Int) + inc
    if 0 ≤ v ∧ v ≤ 4095 then some (BitVec.ofInt 12 v ++ w.extractLsb' 0 52) else none
  else some w

/-- The slots of one bundle with its repeats taken from the latches (R72, R73). -/
def bundleSlots (plan : Bool) (latch : Tbl Latch) (b : Bundle) : Option (List SlotWord) :=
  if b.d &&& b.p != b.d then none
  else
    let one (i : Nat) : Option SlotWord :=
      if maskBit b.d i then
        match Tbl.get? latch i with
        | none => none
        | some l => (repeated plan i b.inc l.word).map fun w => ⟨i, w, l.l0, l.l1⟩
      else b.words.find? fun w => decide (w.slot = i)
    ((List.range 8).filter fun i => maskBit b.p i).mapM one

/-- The slots of a group in program order; illegal-bundle where a repeat fails or a slot is absent on the kind of unit
(R70, R72, R374). -/
def groupSlots (s : State) (g : List Bundle) : Option (List SlotWord) :=
  let plan := isPlan s.cur
  let p : Nat := (g.map fun b => b.p).foldl (· ||| ·) 0
  if (isControl s.cur && p &&& 0x0C != 0) || (plan && p &&& 0x6C != 0) then none
  else (g.mapM (bundleSlots plan s.core.live.latch)).map List.flatten

/-- What a slot's word decodes to on this unit. -/
def decodeWord (plan : Bool) (w : SlotWord) : Dec := decodeSlot (slotClass plan w.slot) w.word w.l0 w.l1

/-! ## Destinations (R76) -/

/-- A destination of a slot: a scalar, vector or predicate register, a branch-target register, or one that a
control-register move writes: two moves to one register follow R136. -/
inductive Dst where
  | reg (r : RegName)
  | b (n : Nat)
  | bm (n : Nat)
  deriving DecidableEq, Repr

/-- n vector registers from v on (R76: widened pairs, quads and repeats). -/
def vRun (v n : Nat) : List Dst := (List.range n).map fun k => .reg (.v (v + k))

/-- The register a control-register move names in the branch-target file. -/
def moveDest (crn : Nat) : List Dst := if 0x018 ≤ crn ∧ crn < 0x020 then [.bm (crn - 0x018)] else []

/-- The registers an instruction names as destinations, with the taint target of `TCLR` (R76). An `MTCR` to a
branch-target register writes it as `PBRS` does (R114). -/
def destsOf : Instr → List Dst
  | .add f | .sub f | .mul f | .mulh f | .div f | .rem f | .addi f | .rsbi f | .muli f | .min f | .max f
  | .and f | .or f | .xor f | .andn f | .orn f | .andi f | .ori f | .xori f | .shl f | .shr f | .sar f | .rol f
  | .ror f | .shli f | .shri f | .sari f | .rori f | .popc f | .clz f | .cmp f | .cmpi f | .sel f | .cmov f
  | .lea f | .bfx f | .bfxs f | .bfxi f | .bfxsi f | .bfi f | .bfii f | .tget f | .tspill f | .tfill f => [.reg (.s f.d.toNat)]
  | .movi d _ | .movl d _ | .tclr d => [.reg (.s d.toNat)]
  | .mfcr f | .pmfcr f => [.reg (.s f.r.toNat)]
  | .cmpp f | .cmppi f => [.reg (.p f.p.toNat)]
  | .vadd f | .vsub f | .vmul f | .vmulh f | .vfma f | .vfms f | .vfnma f | .vabs f | .vneg f | .vmin f
  | .vmax f | .vshl f | .vshr f | .vsar f | .vclamp f | .vdot4 f | .vsel f | .vand f | .vor f | .vxor f
  | .vnot f | .vmov f | .viota f | .vcvt f | .vnarrow f | .vnarrow4 f | .vbunpk f | .vperm f | .vrot f
  | .vbcst f | .vins f | .vexp2 f | .vlog2 f | .vrcp f | .vrsq f | .vtanh f | .vsigm f | .vrda f | .vpopq f => vRun f.vd.toNat (f.rpt.toNat + 1)
  | .vbcsti f _ => vRun f.vd.toNat 1
  | .vwiden f | .vzip f | .vunzip f => vRun f.vd.toNat (2 * (f.rpt.toNat + 1))
  | .vwiden4 f => vRun f.vd.toNat (4 * (f.rpt.toNat + 1))
  | .vbpack f => vRun f.vd.toNat (f.rpt.toNat + 1) ++ vRun f.vc.toNat (f.rpt.toNat + 1)
  | .pcnt f | .vrsum f | .vrmin f | .vrmax f | .vmovs f => [.reg (.s f.vd.toNat)]
  | .vcmp f | .pand f | .por f | .pxor f | .pnot f | .pmov f | .pset f => [.reg (.p (f.vd.toNat % 8))]
  | .ostat f | .mstat f => [.reg (.s f.sr.toNat)]
  | .ld f | .ldx f | .spld f | .ralloc f | .stlook f | .atadd f | .atmin f | .atmax f | .atxch f | .atcas f
  | .pattr f | .pshape f | .phref f | .phdesc f | .psweep f | .prestore f | .pregion f => [.reg (.s f.dr.toNat)]
  | .vld f | .vgath f | .vspld f => [.reg (.v f.dr.toNat)]
  | .slstat f | .cstat f => [.reg (.s f.sr.toNat)]
  | .mtcr f | .pmtcr f => moveDest f.crn.toNat
  | .fget _ r => [.reg (.s r.toNat)]
  | .qpop _ r _ => [.reg (.s r.toNat)]
  | .pbr bt _ | .pbrl bt _ | .pbrs bt _ _ => [.b bt.toNat]
  | .call _ _ lt _ => [.b lt.toNat]
  | .loop _ r _ => [.reg (.s r.toNat)]
  | .tlbprobe f | .ctxswSave f | .ctxswRestore f | .ctxswStop f => [.reg (.s f.a.toNat)]
  | .vwra _ | .oclaim _ | .orelease _ | .ofill _ | .ozero _ | .mma _ | .drain _ | .aclr _ | .aload _
  | .amov _ | .msync _ | .st _ | .vst _ | .vscat _ | .pref _ | .acqr _ | .l2pin _ | .l2unpin _ | .spst _
  | .vspst _ | .rfree _ | .stfill _ | .stevict _ | .sdset _ | .cpy _ | .cpyr _ | .cpys _ | .cfill _
  | .csend _ | .cqsend _ | .chopen _ | .chclose _ | .sluice _ | .slabort _ | .dtload _ | .cwait _
  | .fpost _ _ _ | .fset _ _ _ | .fwait _ _ _ _ | .lset _ _ _ | .lwait _ _ | .qpush _ _ _ _ | .bar _ _
  | .fence _ | .xfence _ _ | .br _ _ _ | .ret _ _ _ | .trap _ | .bkpt _ | .sysc _ | .cwb _ | .iinv _
  | .tlbinv _ | .tlbwr _ | .dbell _ _ | .block _ _ | .op _ | .egbLoop _ | .endloop _ | .egbBr _ | .brc _
  | .egbCall _ | .egbRet _ | .gend _ | .capbeg _ | .capend _ | .replay _ | .hset _ | .hadd _ | .hmul _
  | .hdiv _ | .hmin _ | .hmax _ | .hld _ | .hdef _ | .hfree _ | .hreshape _ | .hshard _ | .halias _
  | .chload _ | .chloadOff _ | .param _ | .egbStep _ | .waith _ | .signal _ | .csload _ | .psetext _
  | .plout _ | .presid _ | .pswait _ | .tclrC | .suspend | .modeEx | .modeIl | .done | .yield | .tret | .fbar
  | .tlbinva | .waiti | .fillComplete | .matrixStart | .drainRowDelivery | .loadBind | .producerWriteback
  | .storePerform | .copyPerform | .landingUnitArrival | .flagPostArrival | .qpushArrival
  | .contributionArrival | .memberCompletion | .abortTokenArrival | .waitLimitExpiry | .deadlineExpiry
  | .shootdownComplete | .pageWalkComplete | .trapEntry | .recordTake | .agePromotion | .pointFire
  | .pointComplete | .preemptBoundExpiry | .contextSave | .operatorIssue | .operatorComplete | .blockCommit
  | .glaunchWrite | .gpatchWrite | .gstatFaultClear | .cctlOffline | .cctlOnline | .cctlRestart | .dsvcDrain
  | .dsvcReenable | .spvWarnClear | .traceEnable | .traceDisable | .erxtailWrite | .etxtailWrite
  | .ringEnable | .ringStop | .estatClr | .frameReceive | .frameTransmit | .registerWrite | .hostBar2Access
  | .powerOnReset | .dieReset | .attestationRequest | .firmwareUpdate | .laneRetrain | .rowSparing
  | .flitRetry | .linkRetryLimit | .thermalTrip | .stackSparesExhausted | .tileWriteComplete | .emptyBundle
  | .illegalWord => []

/-- Two slots name one register. -/
def Dst.clash (x y : Dst) : Bool :=
  match x, y with
  | .reg p, .reg q => decide (p = q)
  | .b m, .b n => decide (m = n)
  | .b m, .bm n => decide (m = n)
  | .bm m, .b n => decide (m = n)
  | .bm _, .bm _ => false
  | .reg _, .b _ => false
  | .reg _, .bm _ => false
  | .b _, .reg _ => false
  | .bm _, .reg _ => false

/-- No register is named twice by different slots; `s0` does not count (R76). -/
def distinctDests (l : List (List Dst)) : Bool :=
  match l with
  | [] => true
  | x :: t => x.all (fun d => decide (d = .reg (.s 0)) || !t.any fun y => y.any d.clash) && distinctDests t

/-- The instruction of a decoded word, assigned or with a bad operand. -/
def decAny : Dec → Option Instr
  | .ok i => some i
  | .badOperand i => some i
  | .unassigned => none

/-- Check 1 of R77 on the decoded slots: no duplicate destination. -/
def destsClear (ds : List Dec) : Bool := distinctDests (ds.filterMap fun d => (decAny d).map destsOf)

/-- Checks 2 to 5 of R77 for one slot. -/
def slotCheck (s : State) (w : SlotWord) (d : Dec) : Eff Unit :=
  let s := s.upd fun c => { c with slot := w.slot }
  match d with
  | .unassigned => .error (.trap 0x02 (BitVec.ofNat 64 (w.slot + (w.word.extractLsb' 24 8).toNat * 256)))
  | .ok i => guard i s
  | .badOperand i => do
    guard i s
    .error (illegalOperand s)

/-- The slots of a group in program order. -/
def groupCheck (s : State) : List (SlotWord × Dec) → Eff Unit
  | [] => .ok ()
  | (w, d) :: t => do
    slotCheck s w d
    groupCheck s t

end Sys2Proof.Machine
end

