-- ==== Sys2Proof/Machine/Fetch.lean ====
section
/-! DEFINITION. Fetching a group (R75, R277, R278, R294, R370, R476), and the beginning and end of its issue (R76, R440, R474). -/

namespace Sys2Proof.Machine

/-! ## Instruction bytes -/

/-- The fetch block of an address as memory holds it: a fetch needs X and no device page (R284, R285). -/
def State.fetchMem (s : State) (e : TlbEnt) (va : Nat) : Except XlErr L1Line :=
  let a := va / 64 * 64
  let pa := e.phys a
  if !s.homeOk (dieOf s.cur) pa then .error .fabric
  else if s.poisoned pa then .error .memory
  else .ok { tsid := s.tsid s.cur, va := a, pa := pa, fill := s.seq, bytes := s.readMem pa 64 }

/-- A fetched block enters the L1 instruction cache of 64 KiB and the fetch buffer of 512 bytes (R20, R476). -/
def Core.fillFetch (c : Core) (l : L1Line) : Core := { c with l1i := (l :: c.l1i).take 1024, ifetch := (l :: c.ifetch).take 8 }

/-- The block of an address in a list. -/
def blockIn (t va : Nat) (ls : List L1Line) : Option L1Line := ls.find? fun l => decide (l.tsid = t ∧ l.va = va / 64 * 64)

/-- The fetch block of instruction bytes at an address: from the fetch buffer, the L1 instruction cache, else from
memory, which fills both (R277, R278, R476). -/
def State.fetchBlock (s : State) (va : Nat) : Eff (List Byte × State) :=
  let u := s.cur
  let c := s.core
  let t := s.tsid u
  match blockIn t va c.ifetch with
  | some l => .ok (l.bytes, s)
  | none => match blockIn t va c.l1i with
    | some l => if l.bad then .error (xlTrap false va 3 .memory) else .ok (l.bytes, s.upd fun c => { c with ifetch := (l :: c.ifetch).take 8 })
    | none => match s.translate u va 3 with
      | .error e => .error e
      | .ok e => match s.fetchMem e va with
        | .error x => .error (xlTrap false va 3 x)
        | .ok l => .ok (l.bytes, (s.tlbFill u e).updAt u fun c => c.fillFetch l)

/-- A core fetches a block of its next group (n = 0), or ahead of it, sequentially, block n of the 512 bytes after it. A page that the core's TLBs do not hold takes
a walk; where that does not translate for fetch the prefetch stops in silence (R294). -/
def State.prefetchBlock (s : State) (u n : Nat) : State :=
  let s := { s with cur := u }
  let c := s.core
  let t := s.tsid u
  let va := (c.pc / 64 + n) * 64
  if isPlan u || decide (c.run ≠ .running) || 8 < n || 2 ^ 56 ≤ va || (blockIn t va c.ifetch).isSome then s
  else match blockIn t va c.l1i with
    | some l => if l.bad then s else s.upd fun c => { c with ifetch := (l :: c.ifetch).take 8 }
    | none =>
      let d := dieOf u
      let ans := match (c.tlb ++ (s.dieAt d).l2tlb).find? fun e => e.covers t va with
        | some e => some (e, s)
        | none => match s.walkNow d t va with
          | .ok e => some (e, s.l2Fill d e)
          | .error _ => none
      match ans with
      | none => s
      | some (e, s') => if e.allows 3 then match s'.fetchMem e va with
          | .ok l => (s'.tlbFill u e).updAt u fun c => c.fillFetch l
          | .error _ => s
        else s

/-- Byte of the control store at an address, for a block's bank and the resident area (R370), whose contents the firmware of
the running image sets and the manual does not give (log 11). -/
def State.storeByte (s : State) (d ctx : Nat) (bank : Bool) (a : Nat) : Byte :=
  if 0x40000 ≤ a then Config.residentByte (Tbl.getD s.image (d / 32) []) a
  else Memory.read (if bank then (s.ctxAt d ctx).bank1 else (s.ctxAt d ctx).bank0).code a

/-- Bank an entry of a block is bound to (R370). -/
def State.bankOf (s : State) (d ctx blk : Nat) : Bool :=
  match (s.ctxAt d ctx).blocks.find? fun b => decide (b.serial = blk) with
  | some b => decide (b.bank = 1)
  | none => false

/-- Bytes of a plan routine's group; a fetch at 0x8_0000 or above is an illegal-bundle trap (R370). -/
def State.planBytes (s : State) : List Byte :=
  let c := s.core
  let bank := s.bankOf (dieOf s.cur) c.planCtx c.planBlk
  ((List.range 84).filter fun i => decide (c.pc + i < 0x80000)).map fun i => s.storeByte (dieOf s.cur) c.planCtx bank (c.pc + i)

def illegalBundle : Stop := .trap 0x01 0

/-- Read a group from the bytes of a block and, where it needs them, of the blocks after it. The words of a second bundle are
fetched before its header is held to be illegal (log 70). -/
def State.readBlocks (s : State) (bs : List Byte) (next : Nat) : Nat → Eff (List Bundle × State)
  | 0 => .error illegalBundle
  | n + 1 => match readGroup false bs with
    | .ok g => .ok (g, s)
    | .error .illegal => .error illegalBundle
    | .error .more => match s.fetchBlock next with
      | .error e => .error e
      | .ok (l, s) => State.readBlocks s (bs ++ l) (next + 64) n

/-- The group at the unit's address. -/
def State.fetchGroup (s : State) : Eff (List Bundle × State) :=
  if isPlan s.cur then
    match readGroup true s.planBytes with
    | .ok g => .ok (g, s)
    | .error _ => .error illegalBundle
  else
    let a := s.core.pc
    match s.fetchBlock a with
    | .error e => .error e
    | .ok (l, s) => State.readBlocks s (l.drop (a % 64)) (a / 64 * 64 + 64) 4

/-! ## The issue of a group -/

/-- Before a group: its address, results whose cycle has come, freed tags, sources as they stand (R76, R121, R475). -/
def State.beginGroup (s : State) : State :=
  s.upd fun c =>
    let c := c.arrive s.now
    { c with gpc := c.pc, bpc := c.pc, npc := c.pc, pre := c.live, sig := none, inGroup := true, ckDone := false,
             ckHere := false, ckAfter := false, after := [], crw := [], slot := 0 }

/-- The group and its slots are known: addresses and the slots present. -/
def State.placeGroup (s : State) (g : List Bundle) : State :=
  s.upd fun c =>
    let n := c.gpc + groupLen g
    { c with npc := n, pc := n, present := (g.map fun b => b.p).foldl (· ||| ·) 0 }

/-- Address of the bundle that holds a slot (R94). -/
def bundleAddr (gpc : Nat) (g : List Bundle) (slot : Nat) : Nat :=
  match g with
  | [b, _] => if maskBit b.p slot then gpc else gpc + b.len
  | _ => gpc

/-- A cycle passes at a unit: its cycle counters (R430), the results that are now written (R475); its scratchpad banks are free (R480). -/
def Core.nextCycle (c : Core) (now : Nat) : Core :=
  let c := if c.pmsel.isEmpty then c
    else
      let on (b : Bool) : Nat := if b then 1 else 0
      { (((c.count 0x01 1).count 0x04 (on (c.holding && decide (c.held = Hold.regs)))).count 0x17
          (on (c.holding && decide (c.held = Hold.trace)))).count 0x0D (on (decide (now ≤ c.arrayFree))) with pmcNow := [] }
  let c := { c with engineBanks := [], coreBanks := [], ovfNow := [], pinWrote := false, allocNow := false }
  if c.pipe.isEmpty then c else c.arrive now

/-- The first group after a redirection waits a cycle more where it crosses a 128-byte line (R476, R482). -/
def State.lineBubble (s : State) : Bool := s.core.redirected && decide (s.core.gpc / 128 ≠ (s.core.npc - 1) / 128)

/-- The group has issued nothing yet and issues a cycle later. -/
def State.later (s : State) : State :=
  s.upd fun c => { c with inGroup := false, redirected := false, pc := c.gpc, notBefore := max c.notBefore (s.now + 1) }

/-- A slot performs something once, between two checkpoints of its group (R220, R307, R426). -/
def once (i : Instr) : Bool := takesCheckpoint i && match i with
  | .waiti => false
  | .bar _ _ => false
  | _ => true

/-- The divider and the vector unit hold a group within their occupancy (R477, R478, R480). -/
def State.unitBusy (s : State) (is : List Instr) : Bool :=
  !isPlan s.cur && ((is.any usesDivider && decide (s.now < s.core.divFree)) ||
    (maskBit s.core.present 2 && decide (s.now < s.core.vxFree)))

/-- What a group performs once may follow only what can trap no more, so a group that takes a checkpoint as it completes waits for the
fills its own `MMA` names (R188, R220, R440; log 93). -/
def State.mmaFirst (s : State) (is : List Instr) : Bool :=
  is.any fun i => match i with
    | .mma f => decide ((s.core.opSlot f.oa.toNat).st = .filling ∨ (s.core.opSlot f.ob.toNat).st = .filling)
    | _ => false

/-- Decode a group and make the checks of R77; the slots to execute. -/
def State.decodeGroup (s : State) (g : List Bundle) : Eff (List (SlotWord × Instr)) :=
  match groupSlots s g with
  | none => .error illegalBundle
  | some ws =>
    let ds := ws.map fun w => (w, decodeWord (isPlan s.cur) w)
    if !destsClear (ds.map fun p => p.2) then .error illegalBundle
    else match groupCheck s ds with
      | .error e => .error e
      | .ok _ => .ok (ds.filterMap fun p => (decAny p.2).map fun i => (p.1, i))

/-! ## Pre-emption (R327, R448) -/

/-- Pre-emption stops a task at a checkpoint of level 0 with quiet matrix state, as at `YIELD`; an arrival at a weir is
withdrawn (R427). -/
def State.preemptAt (s : State) : Option State :=
  let c := s.core
  if c.stopReq = 1 && decide (c.tlevel = 0) && !c.barDone && (decide (c.push = .none ∨ c.push = .full)) && !c.matrixHeld && (Tbl.free c.resume 16).isSome then
    if c.still then some ((s.upd fun c => { c with inGroup := false }).suspend s.cur 2 0 0 0 c.gpc true)
    else some ((s.hold .plain).upd fun c => { c with inGroup := false, waitCk := true, barArrived := none, push := .none })
  else none

/-- Before a group: its checkpoint, or that of a wait at its address (R443). -/
def State.preemptNow (s : State) : Option State :=
  if s.core.ckDone || (s.core.waitCk && s.core.holding) then s.preemptAt else none

/-- Between groups: the checkpoint that the last group left behind (R220, R259, R327, R457). -/
def State.preemptBetween (s : State) : Option State :=
  if s.core.ckHere then State.preemptAt (s.upd fun c => { c with gpc := c.pc }) else none

/-- A task that waits at a `BAR` is pre-empted there: its arrival is withdrawn, and its state is that of the checkpoint before the
group (R427). -/
def State.withdrawBar (s : State) : Option State :=
  match s.core.after with
  | .bar _ _ :: _ =>
    let t := s.upd fun c => { c.restoreShadow.noWait with pc := c.gpc, ckHere := true }
    if s.core.stopReq = 1 && !s.core.barDone && !t.core.mmaUnchecked then t.preemptBetween else none
  | _ => none

/-- A group that stopped: nothing of it but its stop remains. -/
def State.endStopped (base : State) (e : Stop) : State :=
  (base.stopGroup e).updAt base.cur fun c =>
    { c with inGroup := false, sig := some e, waitCk := c.holding && (c.waitCk || base.core.ckDone) }

/-- The repeat latches after a group (R72). -/
def latchSlots (l : Tbl Latch) (ws : List SlotWord) : Tbl Latch :=
  ws.foldl (fun l w => Tbl.set l w.slot { word := w.word, l0 := w.l0, l1 := w.l1 }) l

/-- A group that completed: its control-register writes, latches, counters, the checkpoint after it (R220), and what its
control slots left. -/
def State.endGroup (t : State) (g : List Bundle) (ws : List SlotWord) : State :=
  let cyc := t.cycle48 (dieOf t.cur)
  let rest := if t.core.ckAfter then After.ck.into t.core.after else t.core.after
  let t := State.upd { t.writeCrs with groupCore := {}, groupDie := {} } fun c =>
    let c := (((c.count 0x02 1).count 0x03 g.length).endWait cyc)
    { c with
      live := { c.live with latch := latchSlots c.live.latch ws }
      inGroup := false, denied := [] }.noWait
  t.finish rest

/-! ## A task that must stop (R446, R448, R460) -/

/-- A task whose context stopped, or that a collective abort reached, ends at its next group, also where a `DONE` or a wait of the last
one has not ended (R446, R460). ADDR is the group about to issue, or the `DONE` it has passed. -/
def State.stopRequested (s : State) (u : Nat) : Option State :=
  let c := s.coreAt u
  if c.stopReq = 2 then some (s.updAt u fun c => { (c.abort 2 .idle) with stopReq := 0 })
  else if c.stopReq = 3 then
    let at' := if c.after.contains .done || c.after.any After.fences then c.gpc else c.pc
    some ((s.updAt u fun c => { c with tlevel := 0 }).endByClass u 1 at' (1024 + c.stopInfo * 2048) .idle)
  else none

/-! ## The words of a graph program (R97, R332) -/

/-- The EGB word at a context's address with its trailing words (R98, R101). -/
def State.egbWord (s : State) (d ctx : Nat) : Except (XlErr × Nat) (BitVec 64 × List (BitVec 64)) :=
  let a := (s.ctxAt d ctx).pc
  match s.engineRead d ctx a 8 with
  | .error e => .error e
  | .ok bs =>
    let w := leWord bs
    let n := egbTrail w
    match s.engineRead d ctx (a + 8) (8 * n) with
    | .error e => .error e
    | .ok ts => .ok (w, dwordsOf n ts)

/-- The address is that of the word a context is to accept, and no word of a program stands there (R98, R101). -/
def State.noWord (s : State) (d ctx a : Nat) : Bool :=
  decide ((s.ctxAt d ctx).pc = a) && (decide (a % 8 ≠ 0) || match s.egbWord d ctx with
    | .ok (w, ts) => (decodeEgb w ts).isNone
    | .error _ => false)

/-- The unused reference places of an OP word's handle words are zero (R99). -/
def wordRefsClear (w : BitVec 64) (ts : List (BitVec 64)) : Bool :=
  decide (w.extractLsb' 56 8 ≠ 2) || unusedRefsClear (w.extractLsb' 41 5).toNat ts

end Sys2Proof.Machine
end

