-- ==== Sys2Proof/Machine/Codec.lean ====
section
/-! DEFINITION. The decompression engine: table images, code assignment, coded streams (R230 to R232). -/

namespace Sys2Proof.Machine

/-- Assign codes to COUNT[1..16] in canonical order (R231): (symbol, code, length). -/
def assignCodes : List Nat → Nat → Nat → List Nat → CodeTable
  | [], _, _, _ => []
  | n :: rest, len, code, syms =>
    (((List.range n).zip (syms.take n)).map fun p => (p.2, code + p.1, len)) ++
      assignCodes rest (len + 1) ((code + n) * 2) (syms.drop n)

/-- The code of a 272-byte table image; none where it is rejected (R230). -/
def tableOf (img : List Byte) : Option CodeTable :=
  let counts := (img.take 16).map fun b => b.toNat
  let total : Nat := counts.foldl (· + ·) 0
  let kraft : Nat := ((List.range 16).zip counts).foldl (fun a p => a + p.2 * 2 ^ (15 - p.1)) 0
  if total = 0 ∨ 256 < total ∨ 2 ^ 16 < kraft then none
  else some (assignCodes counts 1 0 ((img.drop 16).map fun b => b.toNat))

/-- How a codeword ends: its symbol; no codeword of 16 bits or fewer; or the coded bits run out. -/
inductive CodeEnd where
  | sym (x : Nat)
  | noCode
  | short
  deriving DecidableEq, Repr

/-- Read one codeword from bit `pos`, most significant bit first, and the position after what was read. `get` is the byte at
an offset of the coded bits. -/
def codeword (t : CodeTable) (get : Nat → Option Byte) : Nat → Nat → Nat → Nat → CodeEnd × Nat
  | 0, pos, _, _ => (.noCode, pos)
  | fuel + 1, pos, len, code =>
    match get (pos / 8) with
    | none => (.short, pos)
    | some b =>
      let code := 2 * code + (b.getLsbD (7 - pos % 8)).toNat
      match t.find? fun p => decide (p.2.1 = code ∧ p.2.2 = len + 1) with
      | some p => (.sym p.1, pos + 1)
      | none => codeword t get fuel (pos + 1) (len + 1) code

/-- n codewords from bit `pos`: their bytes, the position after them, and how the last one read ended. -/
def codewords (t : CodeTable) (get : Nat → Option Byte) : Nat → Nat → List Byte × Nat × CodeEnd
  | 0, pos => ([], pos, .sym 0)
  | n + 1, pos =>
    match codeword t get 16 pos 0 0 with
    | (.sym x, pos) =>
      let r := codewords t get n pos
      (BitVec.ofNat 8 x :: r.1, r.2)
    | (e, pos) => ([], pos, e)

/-- What the engine makes of a coded stream (R232): the bytes decoded, the coded bytes read, whether it decodes, and if it
does not, whether the bytes ran out. -/
structure Decoded where
  bytes : List Byte := []
  read : Nat := 0
  ok : Bool := false
  short : Bool := false
  deriving DecidableEq, Repr

/-- Decode a coded stream (R232). -/
def decodeStream (t : CodeTable) (get : Nat → Option Byte) : Decoded :=
  match (List.range 8).mapM get with
  | none => { read := ((List.range 8).takeWhile fun i => (get i).isSome).length, short := true }
  | some h =>
    let n := leNat h
    if n = 0 ∨ 16777215 < n then { read := 8 }
    else
      let r := codewords t (fun i => get (8 + i)) n 0
      { bytes := r.1, read := 8 + (r.2.1 + 7) / 8, ok := decide (r.1.length = n), short := decide (r.2.2 = .short) }

end Sys2Proof.Machine
end

