-- ==== Sys2Proof/Machine/Operands.lean ====
section
/-! DEFINITION. Operand forms of the vector slot: element types (R79, R139), sources and broadcast (R146), predication (R140, R143), repetition (R144, R478). -/

namespace Sys2Proof.Machine

/-! ## Element types -/

/-- The floating-point format a TYPE code names (R79). -/
def fmtOf (t : Nat) : Fmt :=
  match t with
  | 8 => .e4m3 | 9 => .e5m2 | 10 => .bf16 | 11 => .f16 | _ => .f32

/-- The integer types with an even code are signed (R79). -/
def typeSigned (t : Nat) : Bool := decide (t % 2 = 0)

/-- An integer element's value. -/
def intOf (t x : Nat) : Int := if typeSigned t then sintN (typeW t) x else (x : Int)

/-- The ends of an integer type's range. -/
def intLo (t : Nat) : Int := if typeSigned t then -(2 ^ (typeW t - 1) : Nat) else 0
def intHi (t : Nat) : Int := if typeSigned t then (2 ^ (typeW t - 1) : Nat) - 1 else (2 ^ typeW t : Nat) - 1

/-- An exact integer wrapped to the type, or saturated to its range (R56, R147). -/
def intTo (t : Nat) (sat : Bool) (v : Int) : Nat :=
  let v := if !sat then v else if v < intLo t then intLo t else if intHi t < v then intHi t else v
  (v % (2 ^ typeW t : Nat)).toNat

/-- RM, SAT and the pipeline mode that a vector word rounds under (R54, R55, R59). -/
def roundCtl (s : State) (f : VWord) : RoundCtl := { rm := Rm.ofCode f.rm.toNat, sat := f.sat, flush := s.pre.exposed }

/-! ## Repetitions (R144, R478) -/

/-- What a repetition reads: the state before the group, and the registers earlier repetitions wrote. -/
structure Rep where
  s : State
  k : Nat := 0
  prior : Tbl (VReg × Taint) := []

/-- What a repetition writes, the vector registers it read, and the conditions it raises. -/
structure RepOut where
  outs : List (Nat × VReg)
  taint : Taint
  reads : List Nat
  fl : Fl := 0

/-- A vector source of a repetition, with its taint (`read_v`, R146). -/
def Rep.vec (r : Rep) (m : Nat) (e : Bool) : Eff (VReg × Taint) :=
  match Tbl.get? r.prior m with
  | some x => .ok x
  | none => (srcV r.s m e).map fun v => (v, (r.s.pre.vReg m).taint)

/-- A scalar's low w bits in every element of a register (`opb` with BS = 1, R146). -/
def splat (w : Nat) (x : Nat) : VReg := vecOf w (List.replicate (4096 / w) (x % 2 ^ w))

/-- A source: no operand, or a register with its taint. -/
structure Src where
  val : VReg := 0
  taint : Taint := 0
  reads : List Nat := []

def Rep.src (r : Rep) (use : Bool) (m : Nat) (e : Bool) : Eff Src :=
  if use then (r.vec m e).map fun x => { val := x.1, taint := x.2, reads := [m] } else .ok {}

/-- Source b: VB, or the broadcast scalar (R146). -/
def Rep.srcB (r : Rep) (use : Bool) (f : VWord) (w : Nat) : Eff Src :=
  if use && f.bs then (srcS r.s f.vb f.eb).map fun x => { val := splat w x.toNat, taint := taintS r.s f.vb }
  else r.src use (f.vb.toNat + r.k) f.eb

/-- The governing predicate: its bits, every bit set where PEN = 0, and its taint (R143). -/
def predOf (s : State) (pen : Bool) (pg : BitVec 3) : Eff (PReg × Taint) :=
  if pen then (srcP s pg.toNat).map fun p => (p, (s.pre.pReg pg.toNat).taint) else .ok (BitVec.allOnes 512, 0)

/-- Element i of width w is active under p (R140). -/
def activeIn (p : PReg) (w i : Nat) : Bool := p.getLsbD (w * i / 8)

/-- The elements of a destination: those active are computed, the others keep their old value (R143). -/
def blend (p : PReg) (w : Nat) (old : VReg) (fn : Nat → Nat × Fl) : VReg × Fl :=
  let rs := (List.range (4096 / w)).map fun i => if activeIn p w i then fn i else (elem w old i, 0)
  (vecOf w (rs.map Prod.fst), rs.foldl (fun a r => a ||| r.2) 0)

/-- Run every repetition in order; each sees what the earlier ones wrote. Answers their results with whether one reads
what an earlier one wrote. -/
def runReps (s : State) (one : Rep → Eff RepOut) : Nat → Nat → Tbl (VReg × Taint) → Eff (List (Nat × RepOut) × Bool)
  | 0, _, _ => .ok ([], false)
  | n + 1, k, prior =>
    match one { s := s, k := k, prior := prior } with
    | .error e => .error e
    | .ok o =>
      match runReps s one n (k + 1) (o.outs.foldl (fun t w => Tbl.set t w.1 (w.2, o.taint)) prior) with
      | .error e => .error e
      | .ok (rest, dep) => .ok ((k, o) :: rest, dep || o.reads.any fun m => (Tbl.get? prior m).isSome)

/-- The results of a repetition, each with latency L; its conditions are set with the first (R60). -/
def writeRep (L : Nat) (s : State) (o : RepOut) : State :=
  (o.outs.foldl (fun (a : State × Fl) w => (a.1.result (.v w.1) w.2.toNat o.taint L a.2 true, 0)) (s, o.fl)).1

/-- A vector instruction with repetitions: latency L and occupancy (R144, R477, R478). -/
def repeats (s : State) (f : VWord) (L occ : Nat) (one : Rep → Eff RepOut) : Eff State := do
  let (rs, dep) ← runReps s one (f.rpt.toNat + 1) 0 []
  (rs.flatMap fun r => r.2.outs).forM fun w => destOk s (.v w.1)
  let p := if dep then L else 1
  .ok ((rs.foldl (fun t r => writeRep (r.1 * p + L) t r.2) s).upd fun c =>
    { c with vxFree := s.now + f.rpt.toNat * p + occ })

/-- Which sources an elementwise instruction reads. -/
structure Use where
  a : Bool := false
  b : Bool := false
  c : Bool := false
  deriving DecidableEq, Repr

/-- The template of R146: one destination of n(TYPE) elements; `fn` answers element i from the whole sources. `extra` is
taint beside that of the named vector sources. -/
def elementwise (s : State) (f : VWord) (u : Use) (extra : Taint) (L occ : Nat) (fn : VReg → VReg → VReg → Nat → Nat × Fl) : Eff State :=
  repeats s f L occ fun r => do
    let w := typeW f.typ.toNat
    let a ← r.src u.a (f.va.toNat + r.k) f.ea
    let b ← r.srcB u.b f w
    let c ← r.src u.c (f.vc.toNat + r.k) f.ec
    let p ← predOf s f.pen f.pg
    let old ← r.src f.pen (f.vd.toNat + r.k) false
    let d := blend p.1 w old.val (fn a.val b.val c.val)
    .ok { outs := [(f.vd.toNat + r.k, d.1)]
          taint := a.taint ||| b.taint ||| c.taint ||| p.2 ||| old.taint ||| extra
          reads := a.reads ++ b.reads ++ c.reads ++ old.reads, fl := d.2 }

end Sys2Proof.Machine
end

