-- ==== Sys2Proof/Machine/Tiles.lean ====
section
/-! DEFINITION. The matrix engine's operations: tile lines (R165, R172), fills (R184, R185, R198), products (R187, R188), drains (R189), and the matrix queue (R173, R479). -/

namespace Sys2Proof.Machine

/-! ## Tiles (R172) -/

/-- Row r of a tile; every element of a tile that is not LIVE reads 0. -/
def Core.tileRow (c : Core) (t r : Nat) : VReg := if c.live.live.getLsbD t then Tbl.getD c.tiles (128 * t + r) 0 else 0

def Core.acc (c : Core) (t i j : Nat) : Nat := elem 32 (c.tileRow t i) j

/-- The element a line's index i names: direction, index x (R165). -/
def lineCell (dir x i : Nat) : Nat × Nat :=
  match dir with
  | 0 => (x, i)
  | 1 => (i, x)
  | 2 => (i, (i + x) % 128)
  | _ => (i, (x + 128 - i) % 128)

def Core.line (c : Core) (t dir x : Nat) : VReg :=
  vecOf 32 ((List.range 128).map fun i => c.acc t (lineCell dir x i).1 (lineCell dir x i).2)

/-- LIVE of a tile becomes `b`. A write to a tile that was LIVE at the checkpoint cannot be undone (R179); one issued before
the checkpoint belongs to it, as the results of R113 do. -/
def Core.setLive (c : Core) (t : Nat) (b pre : Bool) : Core :=
  let put (l : BitVec 4) : BitVec 4 := (l &&& ~~~(1#4 <<< t)) ||| (if b then 1#4 <<< t else 0)
  { c with
    live := { c.live with live := put c.live.live }
    shadow := if pre then { c.shadow with regs := { c.shadow.regs with live := put c.shadow.regs.live } }
      else { c.shadow with tileHit := c.shadow.tileHit || c.shadow.regs.live.getLsbD t } }

/-- Replace the rows of a tile, which becomes LIVE. -/
def Core.putTile (c : Core) (t : Nat) (row : Nat → VReg) (pre : Bool) : Core :=
  ({ c with tiles := (List.range 128).foldl (fun m i => Tbl.set m (128 * t + i) (row i)) c.tiles }).setLive t true pre

/-- Write the active elements of a line (R167). -/
def Core.putLine (c : Core) (t dir x : Nat) (act : PReg) (v : VReg) (pre : Bool) : Core :=
  let hit (r j : Nat) : Option Nat := (List.range 128).find? fun i => activeIn act 32 i && decide (lineCell dir x i = (r, j))
  c.putTile t (fun r => vecOf 32 ((List.range 128).map fun j => match hit r j with
    | some i => elem 32 v i
    | none => c.acc t r j)) pre

/-! ## The queue (R173, R479) -/

/-- Tiles an instruction names. -/
def MxOp.tiles : MxOp → List Nat
  | .mma a _ _ _ _ _ _ => [a]
  | .drain a _ _ _ _ _ _ => [a]
  | .aclr a => [a]
  | .aload a _ => [a]
  | .amov a b => [a, b]
  | .claim => []
  | .fill _ => []
  | .rda a _ _ _ _ _ => [a]
  | .wra a _ _ _ _ => [a]

/-- The tile an instruction writes. -/
def MxOp.writes : MxOp → List Nat
  | .mma a _ _ _ _ _ _ => [a]
  | .drain _ _ _ _ _ _ _ => []
  | .aclr a => [a]
  | .aload a _ => [a]
  | .amov a _ => [a]
  | .claim => []
  | .fill _ => []
  | .rda _ _ _ _ _ _ => []
  | .wra a _ _ _ _ => [a]

/-- A line move of the vector slot: it takes no place in the queue of 4. -/
def MxOp.isLine : MxOp → Bool
  | .rda _ _ _ _ _ _ => true
  | .wra _ _ _ _ _ => true
  | _ => false

def MxOp.usesArray : MxOp → Bool
  | .mma _ _ _ _ _ _ _ => true
  | .aload _ _ => true
  | .amov _ _ => true
  | _ => false

/-- Slots an `MMA` names. -/
def MxOp.slots : MxOp → List Nat
  | .mma _ a b _ _ _ _ => [a, b]
  | _ => []

/-- The producer's value is known: a register of exposed mode is written at its cycle, another by its write-back, not before it. -/
def Core.deliver (c : Core) (now id val : Nat) : Core :=
  match c.prods.find? fun (p : Producer) => decide (p.id = id) with
  | none => c
  | some p =>
    if p.exposed then
      { c with
        prods := c.prods.filter fun (q : Producer) => !decide (q.id = id)
        pipe := c.pipe ++ [{ due := max p.minDue (now + p.lag), sent := p.sent, dest := some p.dest, val := val, taint := p.taint, vx := p.vx, preCk := p.preCk }] }
    else { c with prods := c.prods.map fun (q : Producer) =>
      if q.id = id then { q with val := val, waiting := false, minDue := max q.minDue (now + q.lag) } else q }

/-- Perform a line move (R166, R167). -/
def Core.moveLine (c : Core) (now : Nat) (e : MxEnt) : Core :=
  match e.op with
  | .rda t dir x act prod old =>
    let v := c.line t dir x
    c.deliver now prod (blend act 32 old fun i => (elem 32 v i, 0)).1.toNat
  | .wra t dir x act v => c.putLine t dir x act v e.preCk
  | _ => c

/-- Perform the line moves whose turn at their tile has come (R168): no earlier entry of the queue names the tile. -/
def settleLines (now : Nat) : List MxEnt → List Nat → List MxEnt → Core → Core
  | done, _, [], c => { c with mxq := done }
  | done, busy, e :: t, c =>
    if e.op.isLine && !e.op.tiles.any busy.contains then settleLines now done busy t (c.moveLine now e)
    else settleLines now (done ++ [e]) (e.op.tiles ++ busy) t c

def Core.settleTiles (c : Core) (now : Nat) : Core := settleLines now [] [] c.mxq c

/-- Entries of the queue that have not started (R479). -/
def Core.mxWaiting (c : Core) : Nat := (c.mxq.filter fun (e : MxEnt) => !e.started && !e.op.isLine).length

/-- Enter the queue. -/
def State.enqueueMx (s : State) (op : MxOp) (checked : Bool) (fills : List Nat) : State :=
  let now := s.now
  s.upd fun c => Core.settleTiles
    { c with
      mxq := c.mxq ++ [{ id := c.nextId, op := op, pc := c.gpc, checked := checked, fills := fills }]
      nextId := c.nextId + 1 } now

/-! ## Shape records and fills (R184, R185, R197, R198) -/

structure Shape where
  sfmt : Nat
  rows : Nat
  cols : Nat
  vrows : Nat
  vcols : Nat
  rstr : Int
  cstr : Int
  sstr : Nat
  srstr : Nat
  soff : Int
  deriving DecidableEq, Repr

def shapeOf (w0 w1 w2 : DWord) : Shape :=
  { sfmt := bits w0 59 56, rows := bits w0 55 48, cols := bits w0 47 40, vrows := bits w0 39 32, vcols := bits w0 31 24
    rstr := sintN 32 (bits w1 31 0), cstr := sintN 32 (bits w1 63 32)
    sstr := bits w2 63 48, srstr := bits w2 47 32, soff := sintN 32 (bits w2 31 0) }

def isBfp (f : Nat) : Bool := decide (9 ≤ f ∧ f ≤ 15)

/-- Mantissa bits of a BFP code (R87). -/
def bfpM (f : Nat) : Nat := f - 7

/-- Bytes of an element of a byte format (R197). -/
def srcBytes (f : Nat) : Nat := if f < 2 then 2 else if f < 5 then 1 else 4

/-- The floating-point format of a matrix format code (R87). -/
def mfmtOf (f : Nat) : Fmt :=
  match f with
  | 0 => .f16 | 1 => .bf16 | 2 => .e4m3 | 3 => .e5m2 | _ => .f32

/-- Pairs of source and fill format (R185). -/
def fillPair (s m : Nat) : Bool :=
  if m = 8 then decide (s ≤ 4) || isBfp s
  else if m ≤ 3 then decide (s ≤ 3 ∨ s = 5)
  else if m = 4 then decide (s = 4)
  else isBfp m && (decide (s ≤ 3 ∨ s = 5) || decide (s = m))

/-- The checks of a record's fields (R198). -/
def shapeOk (w0 w1 w2 w3 : DWord) (mfmt : Nat) : Bool :=
  let x := shapeOf w0 w1 w2
  decide (bits w0 63 60 = 0 ∧ bits w0 23 22 = 0 ∧ bits w0 21 0 = 0 ∧ w3 = 0) &&
  (decide (x.sfmt ≤ 5) || isBfp x.sfmt) && decide (1 ≤ x.rows ∧ x.rows ≤ 128 ∧ 1 ≤ x.cols ∧ x.cols ≤ 128) &&
  (!isBfp x.sfmt || decide (x.cstr = 0)) && fillPair x.sfmt mfmt

/-- Positions that are no padding. -/
def Shape.positions (x : Shape) : List (Nat × Nat) :=
  (List.range (min x.rows x.vrows)).flatMap fun r => (List.range (min x.cols x.vcols)).map fun k => (r, k)

/-- Blocks of a row with a position that is no padding. -/
def Shape.blocks (x : Shape) : Nat := (min x.cols x.vcols + 15) / 16

/-- Address of a byte-format element. -/
def Shape.at (x : Shape) (b : Int) (r k : Nat) : Int := b + r * x.rstr + k * x.cstr

/-- First and last byte of a BFP mantissa. -/
def Shape.mant (x : Shape) (b : Int) (r k : Nat) : Int × Int :=
  let m := bfpM x.sfmt
  let base := b + r * x.rstr + (2 * m * (k / 16) : Nat)
  (base + (m * (k % 16) / 8 : Nat), base + ((m * (k % 16) + m - 1) / 8 : Nat))

/-- Address of a block's exponent byte. -/
def Shape.exp (x : Shape) (b : Int) (r g : Nat) : Int := b + x.soff + (r * x.srstr + g * x.sstr : Nat)

/-- Every byte the record addresses. -/
def Shape.addrs (x : Shape) (b : Int) : List Int :=
  if isBfp x.sfmt then
    (x.positions.flatMap fun p => let q := x.mant b p.1 p.2; [q.1, q.2]) ++
      (List.range (min x.rows x.vrows)).flatMap fun r => (List.range x.blocks).map fun g => x.exp b r g
  else x.positions.flatMap fun p => (List.range (srcBytes x.sfmt)).map fun (i : Nat) => x.at b p.1 p.2 + (i : Int)

/-- Every element is aligned to its size. -/
def Shape.aligned (x : Shape) (b : Int) : Bool :=
  isBfp x.sfmt || x.positions.all fun p => decide (x.at b p.1 p.2 % (srcBytes x.sfmt : Nat) = 0)

/-- The bit pattern at a position; padding is +0. `read` gives a byte as the unit of that number reads it (R184). -/
def Shape.elem (x : Shape) (b : Int) (read : Nat → Int → Nat) (r k : Nat) : Nat :=
  let rd := read (r * 128 + k)
  if x.vrows ≤ r ∨ x.vcols ≤ k then 0
  else if isBfp x.sfmt then
    let m := bfpM x.sfmt
    let q := x.mant b r k
    (rd q.1 + (if q.2 = q.1 then 0 else 256 * rd q.2)) / 2 ^ (m * (k % 16) % 8) % 2 ^ m
  else (List.range (srcBytes x.sfmt)).foldl (fun (a : Nat) (i : Nat) => a + rd (x.at b r k + (i : Int)) * 256 ^ i) 0

/-- Exponent of block g of row r; a block of padding has 0. -/
def Shape.blockExp (x : Shape) (b : Int) (read : Nat → Int → Nat) (r g : Nat) : Nat :=
  if x.vrows ≤ r ∨ x.vcols ≤ 16 * g then 0 else read (16384 + r * 8 + g) (x.exp b r g)

/-- The units a fill reads, by number, and the bytes of each: elements and exponents (R184, R254). -/
def Shape.units (x : Shape) (b : Int) : List (Nat × List Int) :=
  if isBfp x.sfmt then
    (x.positions.map fun p => (p.1 * 128 + p.2, let q := x.mant b p.1 p.2; [q.1, q.2])) ++
      (List.range (min x.rows x.vrows)).flatMap fun r => (List.range x.blocks).map fun g => (16384 + r * 8 + g, [x.exp b r g])
  else x.positions.map fun p => (p.1 * 128 + p.2, (List.range (srcBytes x.sfmt)).map fun (i : Nat) => x.at b p.1 p.2 + (i : Int))

/-- One row converted to the fill format: elements, exponents, conditions (R185). -/
def fillRow (s m : Nat) (row exps : List Nat) : List Nat × List Nat × Fl :=
  let rd (e : Nat) : Fv := (mfmtOf s).read false e
  if m ≤ 3 then (row.map fun e => ((mfmtOf m).round { sat := true } (rd e)).1, [], 0)
  else if isBfp m ∧ s ≠ m then
    let bs := (chunks 16 row.length (row.map rd)).map fun b => bfpQuantise b (bfpM m) .rne
    (bs.flatMap fun b => b.2.1, bs.map fun b => b.1, bs.foldl (fun z b => z ||| b.2.2) 0)
  else (row, exps, 0)

/-- What a fill leaves in its slot, and its conditions. -/
def fillSlot (x : OpSlot) (sh : Shape) (mfmt : Nat) (b : Int) (rd : Nat → Int → Nat) : OpSlot × Fl :=
  let rows := (List.range sh.rows).map fun r =>
    fillRow sh.sfmt mfmt ((List.range sh.cols).map fun k => sh.elem b rd r k)
      (if isBfp sh.sfmt then (List.range ((sh.cols + 15) / 16)).map fun g => sh.blockExp b rd r g else [])
  ({ x with
      st := .ready, zero := false, fmt := if mfmt = 8 then sh.sfmt else mfmt, rows := sh.rows, k := sh.cols, fcause := 0
      el := rows.flatMap fun r => r.1, exps := rows.flatMap fun r => r.2.1 },
    rows.foldl (fun z r => z ||| r.2.2) 0)

/-- A fill's slot ends Faulted (R184). -/
def Core.fillFault (c : Core) (n cause : Nat) : Core := c.setSlot n { c.opSlot n with st := .faulted, fcause := cause }

/-- A fill that reads the scratchpad ends (R184, R226). -/
def Core.fillWith (c : Core) (f : Fill) (b : Int) (rd : Nat → Int → Nat) : Core :=
  let r := fillSlot (c.opSlot f.slot) (shapeOf f.w0 f.w1 f.w2) f.mfmt b rd
  let c := c.setSlot f.slot r.1
  { c with
    live := { c.live with fp := c.live.fp ||| r.2 }
    shadow := if f.preCk then { c.shadow with regs := { c.shadow.regs with fp := c.shadow.regs.fp ||| r.2 } } else c.shadow }

/-- The units of a fill: elements and exponents of a record, or the bytes of a coded stream (R184, R254). -/
def Fill.unit (f : Fill) (i : Nat) : List Nat :=
  if f.dec.isSome then (if f.base + i < spadBytes then [f.base + i] else [])
  else (((shapeOf f.w0 f.w1 f.w2).units f.base).filter fun u => decide (u.1 = i)).flatMap fun u => u.2.map Int.toNat

/-- A byte as unit i of a fill reads it, and whether its word is valid: as read before, else old or new now (R268). -/
def Core.fillByte (c : Core) (f : Fill) (free i a : Nat) : Byte × Bool :=
  match (Tbl.getD f.got i []).find? fun x => decide (x.1 = a) with
  | some x => x.2
  | none =>
    let v := c.seen (free + i)
    (v.spadByte a, (Tbl.get? v.spad (a / 4)).isSome)

/-- A fill reads one of its units before the others. -/
def Core.fillReads (c : Core) (f : Fill) (i free : Nat) : Core :=
  let us := f.unit i
  let bs := us.map fun a => (a, c.fillByte f free 0 a)
  if (Tbl.get? f.got i).isSome then c
  else Core.haveRead (Core.engineUses { c with fills := c.fills.map fun (x : Fill) => if x.slot = f.slot then { x with got := Tbl.set x.got i bs } else x }
    (us.flatMap fun a => banksOf a 1)) free [(0, us)]

/-- Invalid words among the bytes of a fill's units; each word once (R206, R226). -/
def Core.invalidSeen (c : Core) (f : Fill) (free : Nat) (us : List (Nat × List Nat)) : List Nat :=
  if c.spq.isEmpty && f.got.isEmpty then c.invalidWords (us.flatMap fun u => u.2)
  else (us.flatMap fun u => (u.2.filter fun a => !(c.fillByte f free u.1 a).2).map fun a => 4 * (a / 4)).eraseDups

/-- What the units of a fill read when it ends has been read (R268), and used its banks in this cycle (R480). -/
def Core.fillRead (c : Core) (f : Fill) (free : Nat) (us : List (Nat × List Nat)) : Core :=
  let l := us.filter fun u => (Tbl.get? f.got u.1).isNone
  (c.haveRead free l).engineUses ((l.flatMap fun u => u.2.map fun a => a / 64 % 24).eraseDups)

/-- End the fill (R184): uninitialised reads first, then decoding and its offsets. Every element, and every byte of a coded
stream, reads the scratchpad on its own; an uninitialised read is reported before an uncorrectable error, and a warning-mode fill that
ends with such an error logs what it read uninitialised (log 37). -/
def Core.endFill (c : Core) (f : Fill) (free : Nat) : Core :=
  let sh := shapeOf f.w0 f.w1 f.w2
  match f.dec with
  | none =>
    let us := (sh.units f.base).map fun u => (u.1, u.2.map Int.toNat)
    let bad := c.invalidSeen f free us
    let c' := (if f.warn then c.logUninit bad else c).fillRead f free us
    if !bad.isEmpty && !f.warn then c'.fillFault f.slot 0x01
    else if (c.spadError (us.flatMap fun u => u.2)).isSome then c'.fillFault f.slot 0x04
    else c'.fillWith f f.base fun i a => (c.fillByte f free i a.toNat).1.toNat
  | some dt => match Tbl.get? c.codes dt with
    | none => c.fillFault f.slot 0x03
    | some t =>
      let get (i : Nat) : Option Byte := if f.base + i < spadBytes then some (c.fillByte f free i (f.base + i)).1 else none
      let r := decodeStream t get
      let us := (List.range r.read).map fun i => (i, [f.base + i])
      let bad := c.invalidSeen f free us
      let c' := (if f.warn then c.logUninit bad else c).fillRead f free us
      if !bad.isEmpty && !f.warn then c'.fillFault f.slot 0x01
      else if (c.spadError (us.flatMap fun u => u.2)).isSome then c'.fillFault f.slot 0x04
      else if !r.ok || (sh.addrs 0).any (fun a => decide (a < 0) || decide ((r.bytes.length : Int) ≤ a)) then c'.fillFault f.slot 0x02
      else c'.fillWith f 0 fun _ a => (r.bytes.getD a.toNat 0).toNat

/-! ## Products (R187, R188) -/

/-- Classes of R187's table: 0 floating point, 1 BFP, 2 INT8, 3 zero. -/
def OpSlot.kind (x : OpSlot) : Nat := if x.zero then 3 else if isBfp x.fmt then 1 else if x.fmt = 4 then 2 else 0

/-- The pair is accepted and the K agree (R187). -/
def pairOk (a b : OpSlot) : Bool :=
  let p := a.kind
  let q := b.kind
  (decide (p = 2 ∨ q = 2) → (p ≠ 0 ∧ p ≠ 1 ∧ q ≠ 0 ∧ q ≠ 1)) && (a.zero || b.zero || decide (a.k = b.k))

def commonK (a b : OpSlot) : Nat := if a.zero && b.zero then 128 else if a.zero then b.k else a.k

/-- Number of bit planes of a format as B (R61). -/
def planes (f : Nat) : Nat :=
  if isBfp f then bfpM f else match f with
    | 4 => 8 | 3 => 3 | 2 => 4 | 1 => 8 | _ => 11

/-- Cycles the array is busy (R479). -/
def busyCycles (a b : OpSlot) : Nat :=
  (if !b.zero then planes b.fmt else if a.zero then 1 else planes a.fmt) * commonK a b

/-- Element (row, k) of a slot as a value; `fmt` is the other operand's format for a zero slot (R175, R188). -/
def OpSlot.value (x : OpSlot) (fmt : Nat) (neg flush : Bool) (row k : Nat) : Fv :=
  let f := if x.zero then fmt else x.fmt
  if isBfp f then
    let v := if x.zero then .fin false 0 0
      else bfpRead (bfpM f) (x.el.getD (row * x.k + k) 0) (x.exps.getD (row * ((x.k + 15) / 16) + k / 16) 0)
    if neg && !v.isZero then v.neg else v
  else
    let v := (mfmtOf f).read flush (if x.zero then 0 else x.el.getD (row * x.k + k) 0)
    if neg then v.neg else v

/-- The same of an INT8 slot. -/
def OpSlot.int (x : OpSlot) (neg : Bool) (row k : Nat) : Int :=
  let v := if x.zero then 0 else sintN 8 (x.el.getD (row * x.k + k) 0)
  if neg then -v else v

/-- The products' effect on a tile row i (R188). -/
def mmaRow (a b : OpSlot) (na nb ad flush : Bool) (old : VReg) (i : Nat) : VReg :=
  let n := commonK a b
  let int := decide (a.kind = 2 ∨ b.kind = 2)
  let g := if a.kind = 1 ∨ b.kind = 1 then 16 else 8
  let one (j : Nat) : Nat :=
    if int then (mmaElementInt (BitVec.ofNat 32 (elem 32 old j)) ad ((List.range n).map fun k => (a.int na i k, b.int nb j k))).toNat
    else mmaElement (elem 32 old j) ad flush g
      ((List.range n).map fun k => (a.value b.fmt na flush i k, b.value a.fmt nb flush j k))
  vecOf 32 ((List.range 128).map fun j => if j < b.rows then one j else elem 32 old j)

/-! ## Draining (R189) -/

/-- One element converted: the pattern and the conditions it sets. -/
def drainElem (mfmt : Nat) (rz sat flush : Bool) (scale : Int) (x : Nat) : Nat × Fl :=
  let rm : Rm := if rz then .rtz else .rne
  if mfmt = 6 ∨ mfmt = 4 then
    let w := if mfmt = 6 then 32 else 8
    let v := sintN 32 x
    let n := (roundMag rm (decide (v < 0)) v.natAbs scale).1
    let y : Int := if v < 0 then -(n : Int) else n
    let hi : Int := (2 ^ (w - 1) : Nat) - 1
    let lo : Int := -(2 ^ (w - 1) : Nat)
    let y := if !sat then y else if hi < y then hi else if y < lo then lo else y
    ((y % (2 ^ w : Nat)).toNat, 0)
  else
    let v := match Fmt.f32.read flush x with
      | .fin s m e => .fin s m (e + scale)
      | v => v
    (mfmtOf mfmt).round { rm := rm, sat := sat, flush := flush } v

/-- The queue rows of a drain, each with the conditions of its elements. -/
def Core.drainRows (c : Core) (t mfmt : Nat) (rz sat flush : Bool) (scale : Int) : List (VReg × BitVec 5) :=
  let p := drainPack mfmt
  (List.range (128 / p)).map fun q =>
    let es := (List.range (128 * p)).map fun e => drainElem mfmt rz sat flush scale (c.acc t (p * q + e / 128) (e % 128))
    (vecOf (32 / p) (es.map Prod.fst), es.foldl (fun z e => z ||| e.2) 0)

/-! ## Starting and ending (R479) -/

/-- The checks of an `MMA` in the queue (R188): the trap's cause and information. -/
def Core.mmaCheck (c : Core) (task : Option Nat) (a b : Nat) : Option (Nat × Option Nat) :=
  let one (n : Nat) : Option (Nat × Option Nat) :=
    let x := c.opSlot n
    if x.st = .faulted then some (0x11, some (n + x.fcause * 256))
    else if (x.st ≠ .ready ∧ x.st ≠ .filling) ∨ x.owner ≠ task ∨ task = none then some (0x03, none) else none
  match one a with
  | some e => some e
  | none => match one b with
    | some e => some e
    | none =>
      if (c.opSlot a).st = .ready ∧ (c.opSlot b).st = .ready ∧ !pairOk (c.opSlot a) (c.opSlot b) then some (0x03, none) else none

/-- The resources of an instruction are free (R479): the array, the fill unit, or for a drain its tile, which the last earlier writer
has written; an `MMA` has passed its checks. -/
def Core.mayStart (c : Core) (now : Nat) (earlier : List MxEnt) (e : MxEnt) : Bool :=
  match e.op with
  | .drain t _ _ _ _ _ _ => !earlier.any fun x => x.op.writes.contains t
  | .fill n => match c.fills with
    | f :: _ => decide (f.slot = n) && f.due.isNone && !(f.afterDt && (match f.dec with
        | some dt => c.dtBusy.contains dt
        | none => false))
    | [] => true
  | _ => e.checked && (!e.op.usesArray || decide (c.arrayFree ≤ now))

/-- The oldest entry that is not started, where its resources are free: instructions start in order (R479). -/
def Core.startable (c : Core) (now : Nat) : List MxEnt → List MxEnt → Option MxEnt
  | _, [] => none
  | earlier, e :: t =>
    if e.started || e.op.isLine then c.startable now (earlier ++ [e]) t
    else if c.mayStart now earlier e then some e else none

/-- Bits of an element of a matrix format code (R87). -/
def mfmtBits (f : Nat) : Nat := if isBfp f then bfpM f else if f < 2 then 16 else if f < 5 then 8 else 32

/-- Cycles of a fill from its start to Ready (R479): B / 256 rounded up, B being the bytes of its elements in the fill format, those of
BFP by their mantissa bits (log 94), and 12; for a coded stream of n bytes n / 32 rounded up and 20 where that is more. -/
def Fill.cycles (f : Fill) (outlen : Nat) : Nat :=
  let x := shapeOf f.w0 f.w1 f.w2
  let m := if f.mfmt = 8 then x.sfmt else f.mfmt
  let plain := (x.rows * x.cols * mfmtBits m + 2047) / 2048 + 12
  if f.dec.isSome then max plain ((outlen + 31) / 32 + 20) else plain

/-- An instruction of the queue starts; what it occupies is busy, and what it completes is due (R479). -/
def Core.startMx (c : Core) (now : Nat) (e : MxEnt) : Core :=
  let gone (c : Core) : Core := { c with mxq := c.mxq.filter fun (x : MxEnt) => !decide (x.id = e.id) }
  let begun (c : Core) (due : Nat) : Core :=
    { c with mxq := c.mxq.map fun (x : MxEnt) => if x.id = e.id then { x with started := true, due := due } else x }
  let array (n late : Nat) : Core := { begun c (now + n + late) with arrayFree := now + n }
  match e.op with
  | .claim => gone c
  | .fill _ => match c.fills with
    | f :: l => { gone c with fills := { f with due := some (now + f.cycles (if f.dec.isSome then leNat (c.spadRead f.base 4) else 0)) } :: l }
    | [] => gone c
  | .aclr _ => begun c (now + 1)
  | .drain t rq mfmt rz sat scale ex =>
    let c := gone c
    Core.settleTiles { c with
      draining := c.draining ++ [{ id := e.id, due := now + 6, acc := t, rq := rq, rows := c.drainRows t mfmt rz sat ex scale, preCk := e.preCk }] } now
  | .mma _ a b _ _ _ _ => array (busyCycles (c.opSlot a) (c.opSlot b)) 8
  | .aload _ _ => array 128 0
  | .amov _ _ => array 64 0
  | _ => c

/-- The started instruction that writes its tile now: its cycle has come, and no earlier entry names a tile of it (R168, R479). -/
def duePart (now : Nat) : List MxEnt → List MxEnt → Option MxEnt
  | _, [] => none
  | earlier, e :: t =>
    if e.started && decide (e.due ≤ now) && !e.op.tiles.any (fun k => earlier.any fun x => x.op.tiles.contains k) then some e
    else duePart now (earlier ++ [e]) t

/-- The tile write of an instruction that has run (R188, R190). -/
def Core.writeTile (c : Core) (e : MxEnt) : Core :=
  match e.op with
  | .aclr t => c.setLive t false e.preCk
  | .mma t a b na nb ad ex =>
    let x := c.opSlot a
    let y := c.opSlot b
    c.putTile t (fun i => if i < x.rows then mmaRow x y na nb ad ex (c.tileRow t i) i else c.tileRow t i) e.preCk
  | .aload t v => c.putTile t (fun _ => v) e.preCk
  | .amov t u =>
    if t = u then c
    else if c.live.live.getLsbD u then c.putTile t (c.tileRow u) e.preCk else c.setLive t false e.preCk
  | _ => c

/-- Its end: the tile is written, the entry leaves, line moves and releases that waited for it happen (R176). -/
def Core.endMx (c : Core) (now : Nat) (e : MxEnt) : Core :=
  let c := c.writeTile e
  let c := { c with mxq := c.mxq.filter fun (x : MxEnt) => !decide (x.id = e.id) }
  (List.range 16).foldl Core.tryRelease (c.settleTiles now)

/-- An `MMA` in flight still has to read slot n's present contents. -/
def Core.mmaHolds (c : Core) (n : Nat) : Bool := c.mxq.any fun (e : MxEnt) => e.op.slots.contains n && !e.fills.contains n

/-- One row reaches its queue, the next a cycle later; a `VPOPQ` that waits takes it (R169, R177, R479). -/
def Core.deliverRow (c : Core) (now : Nat) (d : Draining) : Core :=
  match d.rows with
  | [] => { c with draining := c.draining.filter fun (x : Draining) => !decide (x.id = d.id) }
  | (row, fl) :: rest =>
    let q := d.rq
    let tail := Tbl.getD c.live.rqTail q 0
    let c := { c with
      draining := if rest.isEmpty then c.draining.filter fun (x : Draining) => !decide (x.id = d.id)
        else c.draining.map fun (x : Draining) => if x.id = d.id then { x with rows := rest, due := now + 1 } else x
      promised := Tbl.set c.promised q (Tbl.getD c.promised q 0 - 1)
      rows := Tbl.set c.rows (q * 2 ^ 32 + tail) row
      rowsBad := c.rowsBad.filter fun x => !decide (x = q * 2 ^ 32 + tail)
      live := { c.live with rqTail := Tbl.set c.live.rqTail q (tail + 1), fp := c.live.fp ||| fl }
      shadow := if d.preCk then { c.shadow with regs := { c.shadow.regs with fp := c.shadow.regs.fp ||| fl } } else c.shadow }
    match c.prods.find? fun (p : Producer) => p.waiting && decide (p.fromRq = some q) with
    | none => c
    | some p => ({ c with live := { c.live with rqHead := Tbl.set c.live.rqHead q (Tbl.getD c.live.rqHead q 0 + 1) } }).deliver now p.id row.toNat

end Sys2Proof.Machine
end

