-- ==== Sys2Proof/Machine/Matrix.lean ====
section
/-! DEFINITION. The matrix-slot instructions (R180 to R192), the vector-slot instructions on tiles and queues (R165 to R169), and the steps of the matrix engine (R176, R189, R479). -/

namespace Sys2Proof.Machine

/-! ## Operations -/

/-- The running task, as owner of slots. -/
def State.taskId (s : State) : Option Nat := s.core.task.map fun t => t.id

/-- The task holds slot n (R176). -/
def State.holds (s : State) (n : Nat) : Bool := decide ((s.core.opSlot n).owner = s.taskId) && s.taskId.isSome

/-- A group with an `mx` slot waits while 4 queued instructions have not started (R479). -/
def State.mxRoom (s : State) : Eff Unit := need (decide (s.core.mxWaiting < 4)) stall

/-- `OCLAIM` (R176, R182). -/
def oclaim (s : State) (n : Nat) : Eff State := do
  s.mxRoom
  let x := s.core.opSlot n
  match s.taskId with
  | none => .error (illegalOperand s)
  | some id =>
    if x.st = .free then .ok ((s.upd fun c => c.setSlot n { st := .claimed, owner := some id }).enqueueMx .claim true [])
    else if x.owner = some id then
      .ok ((s.upd fun c => c.setSlot n { x with relpend := false, relCk := false, relPoint := false }).enqueueMx .claim true [])
    else .error (.suspend 5 n 0 none)

/-- `ORELEASE` (R176, R182): a release already pending stays as it is. -/
def orelease (s : State) (n : Nat) : Eff State := do
  s.mxRoom
  let x := s.core.opSlot n
  .ok ((if s.holds n then s.upd fun c => c.setSlot n { x with relpend := true, relPoint := x.relpend && x.relPoint, relCk := x.relpend && x.relCk } else s).enqueueMx
    .claim true [])

/-- A slot that a fill or `OZERO` may change (R176, R184): Filling waits, and an `MMA` whose checks are due goes first. -/
def State.slotFree (s : State) (n : Nat) : Eff Unit := do
  let x := s.core.opSlot n
  need (decide (x.st ≠ .filling)) stall
  need (!s.core.mxq.any fun (e : MxEnt) => !e.checked && e.op.slots.contains n && !e.fills.contains n) stall
  need (s.holds n && !x.relpend) (illegalOperand s)

/-- A slot that was Ready at the checkpoint changes (R179). -/
def Core.hitSlot (c : Core) (n : Nat) : Core :=
  if c.shadow.ready.contains n then { c with shadow := { c.shadow with slotHit := true } } else c

/-- `OFILL` (R184, R198, R200). -/
def ofill (s : State) (f : MWord) : Eff State := do
  let b ← srcS s f.sr f.ea
  s.mxRoom
  let n := f.oa.toNat
  s.slotFree n
  let w (i : Nat) : DWord := (Tbl.getD s.pre.sd (4 * f.sd.toNat + i) {}).val
  let sh := shapeOf (w 0) (w 1) (w 2)
  let base : Int := if f.dec then 0 else (b.toNat : Int)
  need (!(f.dec && s.prior.core.dtBusy.contains f.dt.toNat)) stall
  need (shapeOk (w 0) (w 1) (w 2) (w 3) f.mfmt.toNat && sh.aligned base) (illegalOperand s)
  need (if f.dec then decide (b.toNat < spadBytes)
    else (sh.addrs base).all fun a => decide (0 ≤ a) && decide (a < (spadBytes : Nat))) (illegalOperand s)
  .ok ((s.upd fun c =>
    let c := c.hitSlot n
    { c.setSlot n { c.opSlot n with st := .filling, fcause := 0 } with
      fills := c.fills ++ [{ slot := n, w0 := w 0, w1 := w 1, w2 := w 2, base := b.toNat, mfmt := f.mfmt.toNat
                             dec := if f.dec then some f.dt.toNat else none, warn := c.spv.getLsbD 0, exposed := s.pre.exposed
                             afterDt := f.dec && c.dtBusy.contains f.dt.toNat }] }).enqueueMx (.fill n) true [])

/-- `OZERO` (R175, R186); an `MMA` in flight reads the slot's contents first. -/
def ozero (s : State) (n : Nat) : Eff State := do
  s.mxRoom
  s.slotFree n
  need (!s.core.mmaHolds n) stall
  .ok ((s.upd fun c =>
    let c := c.hitSlot n
    c.setSlot n { c.opSlot n with st := .ready, zero := true, fmt := 0, rows := 128, k := 128, fcause := 0, el := [], exps := [] }).enqueueMx
      .claim true [])

/-- Words that `OSTAT` and `MSTAT` return (R183, R192). -/
def slotWord (s : State) (n : Nat) : DWord :=
  let x := s.core.opSlot n
  let st := match x.st with
    | .free => 0 | .claimed => 1 | .filling => 2 | .ready => 3 | .faulted => 4
  BitVec.ofNat 64 (st + x.relpend.toNat * 8 + (s.holds n).toNat * 16 + (s.core.mmaReads n).toNat * 32 +
    (if x.zero then 7 else x.fmt) * 2 ^ 28 + x.rows * 2 ^ 32 + x.k * 2 ^ 40 + x.fcause * 2 ^ 48)

def engineWord (s : State) : DWord :=
  let c := s.core
  let busy (k : Nat) : Bool := c.mxq.any (fun e => e.op.tiles.contains k) || c.draining.any fun d => decide (d.acc = k)
  let mask (n : Nat) (f : Nat → Bool) : Nat := packElems 1 ((List.range n).map fun i => (f i).toNat)
  BitVec.ofNat 64 (mask 4 busy + mask 16 (fun i => decide ((c.opSlot i).st = .filling)) * 2 ^ 4 +
    packElems 9 ((List.range 4).map fun q => c.occupancy c.live q) * 2 ^ 20 + c.live.live.toNat * 2 ^ 56 +
    ((List.range 16).any fun i => s.holds i && decide ((c.opSlot i).st = .faulted)).toNat * 2 ^ 60)

/-- A status word with latency 2: its destination is empty until it is written (R180, R477). -/
def status (s : State) (d : BitVec 6) (v : DWord) : Eff State := do
  s.mxRoom
  destOk s (.s d.toNat)
  .ok (s.produce (.s d.toNat) v.toNat 0 2 0)

/-- `MMA` at issue (R188). -/
def mma (s : State) (f : MWord) : Eff State := do
  s.mxRoom
  let a := f.oa.toNat
  let b := f.ob.toNat
  match s.core.mmaCheck s.taskId a b with
  | some (cause, info) => .error (match info with
    | some i => .trap cause (BitVec.ofNat 64 i)
    | none => illegalOperand s)
  | none =>
    let fills := [a, b].filter fun n => decide ((s.core.opSlot n).st = .filling)
    .ok ((s.enqueueMx (.mma f.acc.toNat a b f.na f.nb f.ad s.pre.exposed) fills.isEmpty fills).upd fun c => c.count 0x0C 1)

/-- The record of a result-queue fault (R309): overflow is kind 0, underflow kind 1. The group has done nothing when the
trap is taken. -/
def queueFault (s : State) (kind q rows : Nat) : Stop :=
  let present := Tbl.getD s.pre.rqTail q 0 - Tbl.getD s.pre.rqHead q 0
  .trap 0x10 (BitVec.ofNat 64 (kind * 2 ^ 60 + q * 2 ^ 48 + rows * 2 ^ 32 + present * 2 ^ 16 + Tbl.getD s.prior.core.promised q 0))

/-- `DRAIN` at issue (R189). -/
def drain (s : State) (f : MWord) : Eff State := do
  s.mxRoom
  let q := f.rq.toNat
  let rows := 128 / drainPack f.mfmt.toNat
  need (decide (s.core.occupancy s.core.live q + rows ≤ 256)) (queueFault s 0 q rows)
  .ok ((s.upd fun c => { c with promised := Tbl.set c.promised q (Tbl.getD c.promised q 0 + rows) }).enqueueMx
    (.drain f.acc.toNat q f.mfmt.toNat f.rz f.sat f.scale.toInt s.pre.exposed) true [])

/-- `ACLR`, `ALOAD`, `AMOV` enter the queue (R190). -/
def tileOp (s : State) (op : MxOp) : Eff State := do
  s.mxRoom
  .ok (s.enqueueMx op true [])

/-- `MSYNC` (R191): fills, tile writes and drains before it have ended. -/
def msync (s : State) : Eff State := do
  s.mxRoom
  need (s.core.fills.isEmpty && s.core.draining.isEmpty && s.core.mxq.all fun e => e.op.isLine || decide (e.op = .claim)) stall
  .ok s

/-- `VRDA` (R166, R168): a producer whose value is the line once its turn at the tile has come. -/
def vrda (s : State) (f : VWord) : Eff State := do
  let d := f.vd.toNat
  let p ← predOf s f.pen f.pg
  let old ← (Rep.src { s := s } f.pen d false)
  destOk s (.v d)
  let ex := s.pre.exposed
  let op (id : Nat) : MxOp := .rda (f.va.toNat % 4) (f.va.toNat / 4) f.imm.toNat p.1 id old.val
  let s' := s.upd fun c => { c with
    live := if ex then c.live else c.live.put (.v d) (s.pre.valOf (.v d)) false (p.2 ||| old.taint)
    prods := c.prods ++ [{ id := c.nextId, dest := .v d, val := 0, taint := p.2 ||| old.taint, waiting := true, vx := true
                           exposed := ex, sent := s.now, minDue := s.now + 6, lag := 4 }]
    nextId := c.nextId + 1 }
  .ok (s'.enqueueMx (op s.core.nextId) true [])

/-- `VWRA` (R167, R168). -/
def vwra (s : State) (f : VWord) : Eff State := do
  let b ← (Rep.src { s := s } true f.vb.toNat f.eb)
  let p ← predOf s f.pen f.pg
  .ok (s.enqueueMx (.wra (f.vd.toNat % 4) (f.vd.toNat / 4) f.imm.toNat p.1 b.val) true [])

/-- `VPOPQ` (R169): the oldest row, or the next to arrive, or the queue fault. -/
def vpopq (s : State) (f : VWord) : Eff State := do
  let d := f.vd.toNat
  let q := f.va.toNat
  destOk s (.v d)
  let c := s.core
  let head := Tbl.getD c.live.rqHead q 0
  let waiting := (c.prods.filter fun (p : Producer) => p.waiting && decide (p.fromRq = some q)).length
  if head < Tbl.getD c.live.rqTail q 0 then do
    need (!c.rowsBad.contains (q * 2 ^ 32 + head)) (.trap 0x0B 0)
    let row := Tbl.getD c.rows (q * 2 ^ 32 + head) 0
    .ok ((s.live fun r => { r with rqHead := Tbl.set r.rqHead q (head + 1) }).produce (.v d) row.toNat 0 2 0 true)
  else if waiting < Tbl.getD c.promised q 0 then
    let ex := s.pre.exposed
    .ok (s.upd fun c => { c with
      live := if ex then c.live else c.live.put (.v d) (s.pre.valOf (.v d)) false 0
      prods := c.prods ++ [{ id := c.nextId, dest := .v d, val := 0, waiting := true, vx := true, fromRq := some q, exposed := ex
                             sent := s.now, minDue := s.now + 2, lag := 2 }]
      nextId := c.nextId + 1 })
  else .error (queueFault s 1 q 0)

/-! ## Steps of the engine -/

/-- A fill ends: its slot, the `MMA` instructions that wait for it, a release it held up (R176, R188). -/
def fillEnds (s : State) (u : Nat) (f : Fill) : State :=
  (State.updAt { s with free := s.free + (if (s.coreAt u).spq.isEmpty then 0 else 2 ^ 25) } u fun c =>
    let c := c.endFill f s.free
    let c := { c with
      fills := c.fills.drop 1
      mxq := c.mxq.map fun (e : MxEnt) => { e with fills := e.fills.filter fun n => !decide (n = f.slot) } }
    c.tryRelease f.slot).wake u

/-- The oldest `MMA` whose fills have ended makes its checks (R188). -/
def mmaRecheck (s : State) (u : Nat) (e : MxEnt) : State :=
  let c := s.coreAt u
  match e.op with
  | .mma _ a b _ _ _ _ => match c.mmaCheck (c.task.map fun t => t.id) a b with
    | some (cause, info) =>
      (s.updAt u fun c => { c with gpc := e.pc, mxq := c.mxq.filter fun (x : MxEnt) => !decide (x.id = e.id) }).trapAt u cause
        (BitVec.ofNat 64 (info.getD 3)) 0
    | none => s.updAt u fun c => { c with mxq := c.mxq.map fun (x : MxEnt) => if x.id = e.id then { x with checked := true } else x }
  | _ => s

/-! ## Meanings -/

/-- OCLAIM (R182). -/
def execOclaim (f : MWord) (s : State) : Host.Outcome State Fault Refusal :=
  run (.oclaim f) s fun s => oclaim s f.oa.toNat

/-- ORELEASE (R182). -/
def execOrelease (f : MWord) (s : State) : Host.Outcome State Fault Refusal :=
  run (.orelease f) s fun s => orelease s f.oa.toNat

/-- OFILL (R184). -/
def execOfill (f : MWord) (s : State) : Host.Outcome State Fault Refusal :=
  run (.ofill f) s fun s => ofill s f

/-- OSTAT (R183). -/
def execOstat (f : MWord) (s : State) : Host.Outcome State Fault Refusal :=
  run (.ostat f) s fun s => status s f.sr (slotWord s.prior f.oa.toNat)

/-- OZERO (R186). -/
def execOzero (f : MWord) (s : State) : Host.Outcome State Fault Refusal :=
  run (.ozero f) s fun s => ozero s f.oa.toNat

/-- MMA (R187, R188). -/
def execMma (f : MWord) (s : State) : Host.Outcome State Fault Refusal :=
  run (.mma f) s fun s => mma s f

/-- DRAIN (R189). -/
def execDrain (f : MWord) (s : State) : Host.Outcome State Fault Refusal :=
  run (.drain f) s fun s => drain s f

/-- ACLR (R190). -/
def execAclr (f : MWord) (s : State) : Host.Outcome State Fault Refusal :=
  run (.aclr f) s fun s => tileOp s (.aclr f.acc.toNat)

/-- ALOAD (R190). -/
def execAload (f : MWord) (s : State) : Host.Outcome State Fault Refusal :=
  run (.aload f) s fun s => do
    let v ← srcV s f.sr.toNat f.ea
    tileOp s (.aload f.acc.toNat v)

/-- AMOV (R190). -/
def execAmov (f : MWord) (s : State) : Host.Outcome State Fault Refusal :=
  run (.amov f) s fun s => tileOp s (.amov f.acc.toNat f.acc2.toNat)

/-- MSYNC (R191). -/
def execMsync (f : MWord) (s : State) : Host.Outcome State Fault Refusal :=
  run (.msync f) s fun s => msync s

/-- MSTAT (R192). -/
def execMstat (f : MWord) (s : State) : Host.Outcome State Fault Refusal :=
  run (.mstat f) s fun s => status s f.sr (engineWord s.prior)

/-- VRDA (R166). -/
def execVrda (f : VWord) (s : State) : Host.Outcome State Fault Refusal :=
  run (.vrda f) s fun s => vrda s f

/-- VWRA (R167). -/
def execVwra (f : VWord) (s : State) : Host.Outcome State Fault Refusal :=
  run (.vwra f) s fun s => vwra s f

/-- VPOPQ (R169). -/
def execVpopq (f : VWord) (s : State) : Host.Outcome State Fault Refusal :=
  run (.vpopq f) s fun s => vpopq s f

/-- The oldest fill is over: its cycle has come, and no `MMA` still has to read the slot's old contents (R176, R479). -/
def Core.fillDue (c : Core) (now : Nat) (f : Fill) : Bool :=
  !c.mmaHolds f.slot && match f.due with
    | some n => decide (n ≤ now)
    | none => false

/-- FILL_COMPLETE (R176, R184, R479): the oldest fill of unit `u`, its slot being `k`, ends; with `m` it reads its unit `m` - 1 before
it ends (R268). -/
def execFillComplete (s : State) : Host.Outcome State Fault Refusal :=
  let c := s.coreAt s.ev.u
  match c.fills with
  | f :: _ => atUnit s s.ev.u (decide (f.slot = s.ev.k) && (if s.ev.m = 0 then c.fillDue s.now f else f.due.isSome))
      (if s.ev.m = 0 then fillEnds s s.ev.u f
       else State.updAt { s with free := s.free + 1 } s.ev.u fun c => c.fillReads f (s.ev.m - 1) s.free)
  | [] => atUnit s s.ev.u false s

/-- MATRIX_START (R479, R188): at unit `u` an `MMA` whose fills have ended is checked, else the next instruction of the
queue starts. -/
def execMatrixStart (s : State) : Host.Outcome State Fault Refusal :=
  let u := s.ev.u
  let c := s.coreAt u
  match c.mxq.find? fun (e : MxEnt) => !e.checked && e.fills.isEmpty with
  | some e => atUnit s u true (mmaRecheck s u e)
  | none => match c.startable s.now [] c.mxq with
    | some e => atUnit s u true (s.updAt u fun c => c.startMx s.now e)
    | none => atUnit s u false s

/-- TILE_WRITE_COMPLETE (R479): the started instruction `k` of unit `u` writes its tile, in its turn at it (R168). -/
def execTileWriteComplete (s : State) : Host.Outcome State Fault Refusal :=
  let u := s.ev.u
  match duePart s.now [] (s.coreAt u).mxq with
  | some e => atUnit s u (decide (e.id = s.ev.k)) ((s.updAt u fun c => c.endMx s.now e).wake u)
  | none => atUnit s u false s

/-- DRAIN_ROW_DELIVERY (R189, R177): drain `k` of unit `u`, the oldest to its queue, delivers a row. -/
def execDrainRowDelivery (s : State) : Host.Outcome State Fault Refusal :=
  let u := s.ev.u
  let c := s.coreAt u
  match c.draining.find? fun (d : Draining) => decide (d.id = s.ev.k) with
  | some d => atUnit s u (decide (d.due ≤ s.now) && decide ((c.draining.find? fun (x : Draining) => decide (x.rq = d.rq)).map Draining.id = some d.id))
      (s.updAt u fun c => c.deliverRow s.now d)
  | none => atUnit s u false s

end Sys2Proof.Machine
end

