-- ==== Sys2Proof/Machine/Cycle.lean ====
section
/-! DEFINITION. What a cycle brings (R302, R430, R475, R479), and the checkpoint a group takes, which costs one (R440, R481). -/

namespace Sys2Proof.Machine

/-! ## The matrix engine of a cycle (R479) -/

/-- What the matrix engine of a core does in the present cycle and has not done yet: a fill that ends, the checks of an `MMA` whose
slots are Ready, a start, a tile write, a row. -/
def State.engineAct (s : State) (u : Nat) : Option State :=
  let c := s.coreAt u
  match c.fills.head?.filter (c.fillDue s.now) with
  | some f => some (fillEnds s u f)
  | none => match c.mxq.find? fun (e : MxEnt) => !e.checked && e.fills.isEmpty with
    | some e => some (mmaRecheck s u e)
    | none => match duePart s.now [] c.mxq with
      | some e => some ((s.updAt u fun c => c.endMx s.now e).wake u)
      | none => match c.draining.find? fun (d : Draining) => decide (d.due ≤ s.now) with
        | some d => some (s.updAt u fun c => c.deliverRow s.now d)
        | none => (c.startable s.now [] c.mxq).map fun e => s.updAt u fun c => c.startMx s.now e

/-- All of it: each entry, fill and row acts at most four times in a cycle. -/
def State.engineActs (s : State) (u : Nat) : Nat → State
  | 0 => s
  | n + 1 => match s.engineAct u with
    | some t => State.engineActs t u n
    | none => s

/-- The matrix engine of a core does what is due (R479). -/
def State.engineDue (s : State) (u : Nat) : State :=
  let c := s.coreAt u
  s.engineActs u (4 * (c.mxq.length + c.fills.length + c.draining.length))

/-! ## Cycles -/

/-- The waiting records of a unit whose condition holds, or whose limit passed 64 cycles ago, become ready (R302). -/
def State.readyRecords (s : State) (u : Nat) : State :=
  let s := s.wake u
  let cyc := s.cycle48 (dieOf u)
  s.updAt u fun c => { c with resume := c.resume.map fun (x : Nat × ResumePos) => if x.2.late cyc 64 then (x.1, x.2.expire cyc) else x }

/-- A cycle passes: what is due in it at the matrix engines, `CYCLE` (R208), what each unit does with it, and the records that become
ready. -/
def State.oneCycle (s : State) : State :=
  let s := (s.cores.filter fun (p : Nat × Core) => !(p.2.mxq.isEmpty && p.2.fills.isEmpty && p.2.draining.isEmpty)).foldl
    (fun s p => s.engineDue p.1) s
  let s := { s with now := s.now + 1, cores := Tbl.mapV (fun (c : Core) => c.nextCycle (s.now + 1)) s.cores }
  (s.cores.filter fun (p : Nat × Core) => !p.2.resume.isEmpty).foldl (fun s p => s.readyRecords p.1) s

/-- Cycles pass one by one. -/
def State.advance (s : State) : Nat → State
  | 0 => s
  | n + 1 => State.advance s.oneCycle n

/-- The group in progress issues one cycle later than it would have (R481, R482): results due by then are read. -/
def State.nextCycle (s : State) : State :=
  let t := s.advance 1
  t.upd fun c => { c.arrive t.now with pre := (c.arrive t.now).live }

/-- The checkpoint a group requires before it issues: CK, the first group of a task or handler, the kind of its slots, or (`must`) a
device register that it accesses, which counts as implicit (R220, R275, R440), or as forced where it is a forced one too (R460);
taking it takes a cycle (R481). `none`: it waits for unchecked MMAs. -/
def State.groupCheckpoint (s : State) (g : List Bundle) (is : List Instr) (must forced : Bool) : Option State :=
  let c := s.core
  let ck := g.any fun b => b.ck
  let once := must || is.any once
  if !(ck || must || c.ckNext || is.any takesCheckpoint) then some s
  else if c.waitCk then some (s.upd fun c => { c with ckDone := true, ckNext := false })
  else if c.mmaUnchecked then none
  else some ((s.ckBefore (if forced then 0x07 else if ck && !once then 0x05 else 0x06)).upd fun c => { c with ckNext := false }).nextCycle

end Sys2Proof.Machine
end

