-- ==== Sys2Proof/Machine/Copies.lean ====
section
/-! DEFINITION. The copy engines: trackers (R389), the performing of a command unit by unit (R391 to R396), landing slots (R398 to R402). -/

namespace Sys2Proof.Machine

/-! ## Trackers (R389, R397) -/

/-- A command of a staging register completes; the first error since ERR was clear is recorded. -/
def Trackers.complete (t : Trackers) (k : Nat) (err : Option (Nat × Nat)) : Trackers :=
  let x := Tbl.getD t.ck k {}
  let x := { x with out := x.out - 1 }
  let x := match err with
    | some e => if x.err then x else { x with err := true, code := e.1, addr := e.2 }
    | none => x
  { t with ck := Tbl.set t.ck k x }

/-- A tracker in the layout of `CSTAT` (R397). -/
def CkTrack.word (x : CkTrack) : DWord := BitVec.ofNat 64 (x.code * 2 ^ 56 + x.out * 2 ^ 40 + x.err.toNat)

def CkTrack.ofWords (w a : DWord) : CkTrack :=
  { out := bits w 55 40, err := w.getLsbD 0, code := bits w 63 56, addr := bits a 55 0 }

/-- The collective tracker's frame words (R301). -/
def ClTrack.words (x : ClTrack) : List DWord :=
  [BitVec.ofNat 64 (x.group * 2 ^ 48 + x.step), BitVec.ofNat 64 (x.valid.toNat * 2 ^ 63 + x.buf)]

def ClTrack.ofWords (part : Nat) (w a : DWord) : ClTrack :=
  { valid := a.getLsbD 63, part := part, group := bits w 63 48, step := bits w 31 0, buf := bits a 55 0 }

/-- The tracker area of a save frame, from 0x0880 (R301). -/
def Trackers.bytes (t : Trackers) : List Byte :=
  ((List.range 8).flatMap fun n =>
    let x := Tbl.getD t.ck n {}
    toBytes 8 x.word.toNat ++ toBytes 8 x.addr) ++
  (List.range 4).flatMap fun n => (Tbl.getD t.cl n {}).words.flatMap fun w => toBytes 8 w.toNat

def Trackers.ofBytes (part : Nat) (bs : List Byte) : Trackers :=
  let w (i : Nat) : DWord := leWord ((bs.drop (8 * i)).take 8)
  { ck := (List.range 8).map fun n => (n, CkTrack.ofWords (w (2 * n)) (w (2 * n + 1)))
    cl := (List.range 4).map fun n => (n, ClTrack.ofWords part (w (16 + 2 * n)) (w (17 + 2 * n))) }

/-- Change the trackers of task `id` of a unit where they stand: the running set, a resume position, or a save frame,
where the change is written at the die L2 (R389). A control core has one set. -/
def State.updTrk (s : State) (u id : Nat) (f : Trackers → Trackers) : State :=
  let c := s.coreAt u
  if isControl u || decide ((c.task.map fun t => t.id) = some id) then s.updAt u fun c => { c with trk := f c.trk }
  else if c.resume.any fun p => decide (p.2.id = id) then
    s.updAt u fun c => { c with resume := c.resume.map fun (p : Nat × ResumePos) =>
      if p.2.id = id then (p.1, { p.2 with trk := f p.2.trk }) else p }
  else match Tbl.get? c.saved id with
    | none => s
    | some (a, r) =>
      let d := dieOf u
      match s.engineRead d r.ctx (a + 0x880) 0xC0 with
      | .error _ => s
      | .ok bs => match s.engineWrite d r.ctx (a + 0x880) (f (Trackers.ofBytes (s.dieAt d).partition bs)).bytes with
        | .error _ => s
        | .ok t => t

/-! ## Channels (R398, R399) -/

def ChanEnt.lcBase (x : ChanEnt) : Nat := bits x.e0 12 7
def ChanEnt.lgStart (x : ChanEnt) : Nat := bits x.e1 56 48

/-- Bytes of a tile, granules of a slot (R399). -/
def ChanEnt.tileBytes (x : ChanEnt) : Nat :=
  (bits x.e1 47 36 * bits x.e1 35 24 * bits x.e1 23 12 * typeW (bits x.e1 63 60) + 7) / 8

def ChanEnt.slotGrans (x : ChanEnt) : Nat := (x.tileBytes + 4095) / 4096

def ChanEnt.slotAddr (x : ChanEnt) (k : Nat) : Nat := 4096 * (x.lgStart + k * x.slotGrans)

/-- The landing slot's channel as its receiver holds it. -/
def State.slotEntry (s : State) (c : Copy) : Option ChanEnt :=
  match c.dst with
  | .slot _ ctx ch _ => match s.chan (dieOf c.u) ctx ch with
    | some e => s.chanAtReceiver e ctx ch
    | none => none
  | _ => none

/-- Sends that a side of the channel held back end with a fabric error (R416). -/
def State.failSends (s : State) (d ctx ch : Nat) (e : ChanEnt) : State :=
  let heldHere (c : Copy) : Bool := match c.dst with
    | .slot _ x k _ => decide (k = ch) && (decide (dieOf c.u = d ∧ x = ctx) ||
        (decide (dieOf e.receiver = d) && match s.chan (dieOf c.u) x k with
          | some y => decide (s.chanCtx d x k y = some ctx)
          | none => false))
    | _ => false
  let ended (c : Copy) : Copy := match c.dst with
    | .slot _ _ _ k => if heldHere c && c.fails.isNone && !c.wrote then { c with fails := some (0x05, e.slotAddr k) } else c
    | _ => c
  { s with dies := s.dies.map fun (p : Nat × Die) => (p.1, { p.2 with copyq := p.2.copyq.map ended }) }

/-- A channel is unloaded (R310, R365, R416): at the receiver's die its Landing granules return to Free and its counters are
no longer a channel's; sends held back end, records that wait on it become ready. -/
def State.unloadChan (s : State) (d ctx ch : Nat) : State :=
  match s.chan d ctx ch with
  | none => s
  | some e =>
    let s := (s.failSends d ctx ch e).updCtx d ctx fun y => { y with chans := Tbl.del y.chans ch }
    let s := if dieOf e.receiver = d then
        s.updAt e.receiver fun c => { c with
          grans := c.grans.filter fun p => !decide (p.2 = .landing ctx ch)
          lc := Tbl.mapV (fun (l : Landing) => match l.slot with
            | some (x, k, _) => if x = ctx ∧ k = ch then { l with slot := none } else l
            | none => l) c.lc }
      else s
    (s.wake e.receiver).wake e.sender

/-- Every channel of a context is unloaded (R358). -/
def State.unloadAll (s : State) (d ctx : Nat) : State :=
  (s.ctxAt d ctx).chans.foldl (fun s p => s.unloadChan d ctx p.1) s

/-- Fields and codes of an entry that R398 and R399 allow. -/
def ChanEnt.fieldsOk (x : ChanEnt) : Bool :=
  let n := bits x.e1 59 58
  decide (bits x.e0 6 0 = 0 ∧ bits x.e1 57 57 = 0 ∧ bits x.e1 11 0 = 0 ∧ n < 3 ∧ bits x.e1 63 60 ≤ 12) &&
  decide (1 ≤ x.depth ∧ x.depth ≤ 64 ∧ x.sender % 128 < 72 ∧ x.receiver % 128 < 72) &&
  decide (bits x.e1 47 36 ≠ 0 ∧ bits x.e1 35 24 ≠ 0 ∧ bits x.e1 23 12 ≠ 0) &&
  (decide (1 ≤ n) || decide (bits x.e1 35 24 = 1)) && (decide (2 ≤ n) || decide (bits x.e1 23 12 = 1)) &&
  decide (x.lcBase + x.depth ≤ 64 ∧ x.lgStart + x.depth * x.slotGrans ≤ 384)

/-- Counters or granules of two channels on one receiver overlap. -/
def ChanEnt.overlaps (x y : ChanEnt) : Bool :=
  decide (x.receiver = y.receiver) &&
  (decide (x.lcBase < y.lcBase + y.depth ∧ y.lcBase < x.lcBase + x.depth) ||
   decide (x.lgStart < y.lgStart + y.depth * y.slotGrans ∧ y.lgStart < x.lgStart + x.depth * x.slotGrans))

/-- The landing granules of an entry are Free at its receiver. -/
def State.landingFree (s : State) (x : ChanEnt) : Bool :=
  (List.range (x.depth * x.slotGrans)).all fun i => (Tbl.get? (s.coreAt x.receiver).grans (x.lgStart + i)).isNone

/-- Put an entry into the table of a context; at the receiver's die take its granules and arm its counters (R399). -/
def State.loadChan (s : State) (d ctx ch : Nat) (x : ChanEnt) : State :=
  let s := s.updCtx d ctx fun y => { y with chans := Tbl.set y.chans ch x }
  if dieOf x.receiver = d then
    s.updAt x.receiver fun c =>
      let c := c.takeGrans x.lgStart (x.depth * x.slotGrans) (.landing ctx ch)
      { c with lc := (List.range x.depth).foldl (fun t k =>
          let l : Landing := { target := (x.tileBytes + 63) / 64, slot := some (ctx, ch, k) }
          Tbl.set t (x.lcBase + k) l) c.lc }
  else s

/-! ## Performing a command (R391) -/

/-- ERRCODE of a failed access (R391). -/
def errCode : XlErr → Nat
  | .reason 0 => 1
  | .reason n => n
  | .fabric => 5
  | .memory => 6

/-- Addresses from which a command's source and destination run; a landing slot begins at a granule. -/
def Side.base : Side → Nat
  | .glob _ va => va
  | .spad _ a => a
  | .bytes _ => 0
  | .slot _ _ _ _ => 0

/-- Length of the piece of n bytes that begins at an address and ends at the next 64-byte boundary at the latest. -/
def pieceLen (a n : Nat) : Nat := min (64 - a % 64) n

/-- Length of the unit of R254 at an address of n bytes to be written: an aligned 64-byte unit, else a byte, or an element that is
accumulated (R393). -/
def Copy.unitLen (c : Copy) (a n : Nat) : Nat :=
  if a % 64 = 0 ∧ 64 ≤ n then 64 else min n (match c.acc with
    | some f => if f = 1 ∨ f = 2 then 2 else 4
    | none => 1)

/-- The coded stream of a decompressing copy (R232, R392): the bytes it gives, and the error that ends it. -/
def State.copyDecode (s : State) (c : Copy) (tsid va dt : Nat) : List Byte × Option (Nat × Nat) :=
  let d := dieOf c.u
  match Tbl.get? (s.coreAt c.u).codes dt with
  | none => ([], some (0x0A, va))
  | some t =>
    let get (i : Nat) : Option Byte := match s.enginePa d tsid (va + i) 0 with
      | .ok pa => some (Memory.read s.mem pa)
      | .error _ => none
    let r := decodeStream t get
    let outlen := (List.range 4).foldl (fun n i => n + ((get i).getD 0).toNat * 256 ^ i) 0
    if r.ok && decide (r.bytes.length = c.len) then (r.bytes, none)
    else
      let e := match s.enginePa d tsid (va + r.read) 0 with
        | .error e => if r.short then (errCode e, va + r.read) else (0x09, va)
        | .ok _ => (0x09, va)
      (if outlen = c.len then r.bytes else [], some e)

/-- The units of R254 in which a copy reads n bytes of a scratchpad: an aligned 64-byte unit, or bytes. -/
def readUnits (a n : Nat) : List (Nat × List Nat) :=
  if a % 64 = 0 ∧ n = 64 then [(0, (List.range 64).map fun i => a + i)] else (List.range n).map fun i => (i, [a + i])

/-- Bytes of one block of the source, and the invalid words that a warning-mode read logs (R226). -/
def State.copyRead (s : State) (c : Copy) (o n : Nat) : Except (Nat × Nat) (List Byte × List Nat) :=
  match c.src with
  | .glob tsid va => match s.engineRead (dieOf c.u) tsid (va + o) n with
    | .ok bs => .ok (bs, [])
    | .error e => .error (errCode e.1, e.2)
  | .spad u a =>
    let us := (readUnits (a + o) n).map fun r => ((s.coreAt u).seen (s.free + r.1), r.2)
    let bytes := us.flatMap fun r => r.2.map r.1.spadByte
    let bad := (us.flatMap fun r => r.1.invalidWords r.2).eraseDups
    match bad.head?, us.findSome? (fun r => r.1.spadError r.2) with
    | some w, e => if c.warn then (match e with
        | some k => .error (0x06, k)
        | none => .ok (bytes, bad)) else .error (0x08, w)
    | none, some k => .error (0x06, k)
    | none, none => .ok (bytes, [])
  | .bytes bs =>
    if c.badFrom.any fun b => decide (b < o + n) then .error (0x06, 0)
    else .ok ((List.range n).map fun i => bs.getD ((o + i) % bs.length) 0, [])
  | .slot _ _ _ _ => .ok ([], [])

/-- The granules of a remote range are Landing or Operator granules (R391 0x07). -/
def Core.remoteOk (c : Core) (a len : Nat) : Bool :=
  (List.range (len / 4096 + 2)).all fun i =>
    let g := min (a + 4096 * i) (a + len - 1) / 4096
    match Tbl.get? c.grans g with
    | some (.oper _ _) => true
    | some (.landing _ _) => true
    | _ => false

/-- ERRADDR of a send that fails: its landing slot, as the sender's table gives it (log 103). -/
def State.slotErrAddr (s : State) (c : Copy) : Nat :=
  match c.dst with
  | .slot _ ctx ch k => match s.chan (dieOf c.u) ctx ch with
    | some e => e.slotAddr k
    | none => 0
  | _ => 0

/-- The destination of a whole command: a remote range is checked in full before its first byte lands (R391, R393); a send
needs both sides of its channel. -/
def State.copyDst (s : State) (c : Copy) : Option (Nat × Nat) :=
  match c.dst with
  | .spad u a =>
    if !c.remote then none
    else if !s.postReaches c.u u then some (0x05, a)
    else if c.len = 0 || (s.coreAt u).remoteOk a c.len then none else some (0x07, a)
  | .slot u _ _ _ => if s.postReaches c.u u && (s.slotEntry c).isSome then none else some (0x05, s.slotErrAddr c)
  | _ => none

/-- One unit can be written: the address its page translates to now, which fills the L2 TLB (R286, R290). -/
def State.copyCan (s : State) (c : Copy) (o : Nat) : Except (Nat × Nat) (Nat × State) :=
  match c.dst with
  | .glob tsid va => match s.enginePa (dieOf c.u) tsid (va + o) 1 with
    | .ok pa => .ok (pa, s.engineFill (dieOf c.u) tsid (va + o))
    | .error e => .error (errCode e, va + o)
  | _ => .ok (0, s)

/-- Write one unit, or send it on its way to another scratchpad or a landing slot; what can be written no more is an error. -/
def State.copyWrite (s : State) (c : Copy) (o pa : Nat) (bs : List Byte) : Except (Nat × Nat) State :=
  let send (u a : Nat) (k : Option Nat) : State :=
    { s with units := s.units ++ [{ id := s.nextNet, copy := { c with buf := [], carry := [], src := .bytes [] }, u := u, addr := a + o, off := o, bytes := bs, counter := k }], nextNet := s.nextNet + 1 }
  match c.dst with
  | .glob _ va =>
    if !s.homeOk (dieOf c.u) pa then .error (0x05, va + o)
    else if s.poisoned pa then .error (0x06, va + o)
    else .ok (s.writeMem pa bs)
  | .spad u a => .ok (if c.remote then send u a c.lc else s.updAt u fun x => (x.engineUses (banksOf (a + o) bs.length)).spadWrite (a + o) bs)
  | .slot u _ _ k => match s.slotEntry c with
    | some e => .ok (send u (e.slotAddr k) (some (e.lcBase + k)))
    | none => .error (0x05, s.slotErrAddr c)
  | .bytes _ => .ok s

/-- The command has completed (R389, R269): the tracker, the flag, counters, tasks that waited for it. -/
def State.copyDone (s : State) (c : Copy) (err : Option (Nat × Nat)) : State :=
  let s := s.updDie (dieOf c.u) fun x => { x with copyq := x.copyq.filter fun y => !decide (y.id = c.id) }
  let s := if c.tracked then s.updTrk c.u c.task fun t => t.complete c.ck err else s
  let s := s.countAt c.u (0x11 + c.id % 4) 1
  let s := match c.flag, err with
    | some (t, k), none => (s.writeLate fun x => decide (x.copy.u = c.u)).post c.u t k
    | _, _ => s
  s.reapResume c.u

/-- Units of a command are still on their way. -/
def State.unitsOut (s : State) (c : Copy) : Bool :=
  s.units.any fun x => decide (x.copy.id = c.id) && decide (dieOf x.copy.u = dieOf c.u)

/-- Change the units on their way of a command. -/
def State.mapUnits (s : State) (c : Copy) (f : Copy → Copy) : State :=
  { s with units := s.units.map fun x =>
      if x.copy.id = c.id ∧ dieOf x.copy.u = dieOf c.u then { x with copy := f x.copy } else x }

/-- Read the next block of the source, which a 64-byte boundary ends (R254), and log its invalid words (R206). -/
def State.copyFeed (s : State) (c : Copy) : Except (Nat × Nat) (State × Copy) :=
  let n := pieceLen (c.src.base + c.rpos) (c.len - c.rpos)
  match s.copyRead c c.rpos n with
  | .error e => .error e
  | .ok (bs, ws) =>
    let t := match c.src with
      | .spad u a => State.updAt { s with free := s.free + n } u fun x => x.haveRead s.free (readUnits (a + c.rpos) n)
      | .glob tsid va => s.readFill (dieOf c.u) tsid 2 (va + c.rpos) n
      | _ => s
    let t := t.updAt c.u fun x => x.logUninit (ws.filter fun w => !decide (some w = c.lastBad))
    .ok (t, { c with rpos := c.rpos + n, carry := c.carry ++ bs, lastBad := match ws.getLast? with
      | some w => some w
      | none => c.lastBad })

/-- Cut what has been read into the units of the destination, up to the first that cannot be written. -/
def State.copyCut (s : State) : Nat → Copy → State × Copy × Option (Nat × Nat)
  | 0, c => (s, c, none)
  | f + 1, c =>
    let o := c.rpos - c.carry.length
    let n := c.unitLen (c.dst.base + o) (c.len - o)
    if n = 0 ∨ c.carry.length < n then (s, c, none)
    else match s.copyCan c o with
      | .error e => (s, c, some e)
      | .ok (pa, t) => State.copyCut t f { c with buf := (o, pa, c.carry.take n) :: c.buf, carry := c.carry.drop n }

/-- Read one block and cut it. -/
def State.copyTake (s : State) (c : Copy) : State × Copy × Option (Nat × Nat) :=
  if c.rpos = c.len then (s, c, c.fails)
  else match s.copyFeed c with
    | .error e => (s, c, some e)
    | .ok (s, c) => s.copyCut 130 c

/-- Read the rest of the source. -/
def State.copyTakes (s : State) (c : Copy) : Nat → State × Copy × Option (Nat × Nat)
  | 0 => (s, c, none)
  | f + 1 => match s.copyTake c with
    | (s, c, some e) => (s, c, some e)
    | (s, c, none) => if c.rpos = c.len then (s, c, c.fails) else State.copyTakes s c f

/-- Write units of a list, up to one that cannot be written. -/
def State.copyPuts (s : State) (c : Copy) : List (Nat × Nat × List Byte) → State × Option (Nat × Nat)
  | [] => (s, none)
  | (o, pa, bs) :: l => match s.copyWrite c o pa bs with
    | .error e => (s, some e)
    | .ok t => State.copyPuts t c l

/-- After an error any subset of the units read may be written (R391): which, is a free value (log 1). The command has
completed; its units on their way still land. -/
def State.copyStop (s : State) (c : Copy) (e : Nat × Nat) : State :=
  let kept := ((List.range c.buf.length).zip c.buf).filter fun p => (Config.freeWord (s.free + p.1)).getLsbD 0
  let t := (State.copyPuts { s with free := s.free + c.buf.length } c (kept.map fun p => p.2)).1
  (t.mapUnits c fun x => { x with stopped := true }).copyDone c (some e)

/-- The command with its progress stands in its die's queue; it completes once it is all written, with its last landing
where units are on their way. -/
def State.copyOn (s : State) (c : Copy) : State :=
  if c.rpos = c.len && c.buf.isEmpty && c.fails.isNone then
    if s.unitsOut c then s.updDie (dieOf c.u) fun x => { x with copyq := x.copyq.filter fun y => !decide (y.id = c.id) }
    else s.copyDone c none
  else s.updDie (dieOf c.u) fun x => { x with copyq := x.copyq.map fun y => if y.id = c.id then c else y }

/-- Begin a command: its destination, a coded stream, a send whose channel has gone. -/
def State.copyBegin (s : State) (c : Copy) : Copy :=
  let c := match c.dec, c.src with
    | some dt, .glob tsid va =>
      let r := s.copyDecode c tsid va dt
      match r.2 with
      | none => { c with src := .bytes r.1 }
      | some e =>
        let n := min c.len ((c.dst.base + r.1.length) / 64 * 64 - c.dst.base)
        { c with src := .bytes (r.1.take n), len := n, fails := some e }
    | _, _ => c
  if c.fails.isSome then c else { c with fails := s.copyDst c }

/-- A move of a command whose bytes go unit by unit (R272, R391 to R395, R401, R402): 0 the rest of it at once; 1 read the
next block; n + 2 write unit n of those read, so that its units interleave with those of other commands. -/
def State.copyRun (s : State) (c : Copy) (how : Nat) : State :=
  let c := if c.rpos = 0 then s.copyBegin c else c
  let refused := decide (c.rpos = 0) && c.dec.isNone && c.fails.isSome
  match how with
  | 0 =>
    match (if refused then (s, c, c.fails) else s.copyTakes c (c.len / 64 + 3)) with
    | (s, c, some e) => s.copyStop c e
    | (s, c, none) =>
      let c' := { c with buf := [], wrote := c.wrote || !c.buf.isEmpty }
      match s.copyPuts c' c.buf.reverse with
      | (t, some e) => t.copyStop c' e
      | (t, none) => t.copyOn c'
  | 1 =>
    match (if refused then (s, c, c.fails) else s.copyTake c) with
    | (s, c, some e) => s.copyStop c e
    | (s, c, none) => s.copyOn c
  | n + 2 => match c.buf[n]? with
    | some p =>
      let c := { c with buf := c.buf.eraseIdx n, wrote := true }
      match s.copyWrite c p.1 p.2.1 p.2.2 with
      | .ok t => t.copyOn c
      | .error e => s.copyStop { c with buf := c.buf.drop n } e
    | none => s

/-- Perform `DTLOAD` (R396). -/
def State.copyTable (s : State) (c : Copy) (tsid va dt : Nat) : State :=
  let s := (s.updAt c.u fun x => { x with dtBusy := x.dtBusy.filter fun n => !decide (n = dt) }).readFill (dieOf c.u) tsid 2 va 272
  let put (s : State) (t : Option CodeTable) : State := s.updAt c.u fun x =>
    { x with codes := match t with
        | some t => Tbl.set x.codes dt t
        | none => Tbl.del x.codes dt }
  match s.engineRead (dieOf c.u) tsid va 272 with
  | .error e => (put s none).copyDone c (some (errCode e.1, e.2))
  | .ok bs => match tableOf bs with
    | none => (put s none).copyDone c (some (0x0B, va))
    | some t => (put s (some t)).copyDone c none

/-- A fill or a copy command of unit u uses code-table slot dt; with an id, a command queued before that one. -/
def State.tableUsed (s : State) (u dt : Nat) (before : Option Nat) : Bool :=
  (s.coreAt u).fills.any (fun (x : Fill) => decide (x.dec = some dt) && !(x.afterDt && before.isSome)) ||
  (s.dieAt (dieOf u)).copyq.any fun (c : Copy) => decide (c.u = u ∧ c.dec = some dt) && match before with
    | some n => decide (c.id < n)
    | none => true

/-- A load of code-table slot dt by unit u was queued before command n and has not ended (R396, R416). -/
def State.tableComes (s : State) (u dt n : Nat) : Bool :=
  (s.dieAt (dieOf u)).copyq.any fun (c : Copy) => decide (c.u = u ∧ c.dtload = some dt ∧ c.id < n)

/-- The command's code table is the one it is to use (R194, R396, R416). -/
def State.tableTurn (s : State) (c : Copy) : Bool :=
  (match c.dtload with
    | some dt => !s.tableUsed c.u dt (some c.id)
    | none => true) && match c.dec with
    | some dt => !s.tableComes c.u dt c.id
    | none => true

/-- An earlier send to the same landing slot has not landed whole: the slot is not free for this one. -/
def State.slotTaken (s : State) (c : Copy) : Bool :=
  (s.dieAt (dieOf c.u)).copyq.any (fun (x : Copy) => decide (x.dst = c.dst ∧ x.id < c.id)) ||
  s.units.any fun (x : Unit64) => decide (x.copy.dst = c.dst ∧ dieOf x.copy.u = dieOf c.u ∧ x.copy.id ≠ c.id)

/-- May the command be performed now: its access taint has bound (R116); a landing slot is free and its receiver's side
loaded, before the first unit of a send (R401). -/
def State.copyReady (s : State) (c : Copy) : Bool :=
  decide (c.waits = 0) && s.tableTurn c && (c.fails.isSome || c.wrote || match c.dst with
    | .slot u ctx ch k => match s.chan (dieOf c.u) ctx ch with
      | none => true
      | some e => match s.chanAtReceiver e ctx ch with
        | some r => decide (r.receiver = u) && !r.full.contains k && !s.slotTaken c
        | none => !s.postReaches c.u u
    | _ => true)

/-- A move of a command. -/
def State.performCopy (s : State) (c : Copy) (how : Nat) : State :=
  match c.dtload, c.src with
  | some dt, .glob tsid va => s.copyTable c tsid va dt
  | _, _ => s.copyRun c how

/-! ## Landing (R393, R421) -/

/-- The first unit of a send fills its landing slot (R400). -/
def State.fillSlotOf (s : State) (c : Copy) : State :=
  match c.dst, s.slotEntry c with
  | .slot u ctx ch k, some e => match s.chanCtx (dieOf u) ctx ch e with
    | some x => s.updCtx (dieOf u) x fun y => { y with chans := Tbl.set y.chans ch { e with full := if e.full.contains k then e.full else k :: e.full } }
    | none => s
  | _, _ => s

/-- Bytes of the same 64-byte unit are still to land: a landing counter counts the unit with the last of them (R421). -/
def State.unitPart (s : State) (x : Unit64) : Bool :=
  let mine (c : Copy) : Bool := decide (c.id = x.copy.id ∧ dieOf c.u = dieOf x.copy.u)
  s.units.any (fun y => mine y.copy && decide (y.off / 64 = x.off / 64)) ||
  (s.dieAt (dieOf x.copy.u)).copyq.any fun (c : Copy) => mine c && c.buf.any fun b => decide (b.1 / 64 = x.off / 64)

/-- The word an accumulating unit would add to has an uncorrectable error: the command stops there, its later units go (R391, R470). -/
def State.landError (s : State) (x : Unit64) (a : Nat) : State :=
  let c := x.copy
  let same (y : Copy) : Bool := decide (y.id = c.id ∧ dieOf y.u = dieOf c.u)
  let s := { s with units := s.units.filter fun y => !(same y.copy && decide (x.off ≤ y.off)) }
  if c.stopped then s
  else match (s.dieAt (dieOf c.u)).copyq.find? same with
    | some c => s.copyStop { c with buf := c.buf.filter fun p => decide (p.1 < x.off) } (0x06, a)
    | none => (s.mapUnits c fun y => { y with stopped := true }).copyDone c (some (0x06, a))

/-- No post or counter of the unit's own tells another core that it has landed: it may be written later (R269). -/
def Unit64.unseen (x : Unit64) : Bool :=
  x.counter.isNone && x.copy.flag.isNone && decide (x.u ≠ x.copy.u) && match x.copy.dst with
  | .slot _ _ _ _ => false
  | _ => true

/-- A unit lands: written or accumulated, at once or, unseen, later; counted; the last one of its command completes it. -/
def State.landWhole (s : State) (x : Unit64) (later : Bool) : State :=
  let s := { s with units := s.units.filter fun y => !decide (y.id = x.id) }
  let s := if later && x.unseen then { s with late := s.late ++ [x] }
    else (s.writeLate fun y => decide (y.copy.u = x.copy.u)).updAt x.u fun c => (c.engineUses (banksOf x.addr x.bytes.length)).land x
  let s := if x.copy.begun then s
    else ((s.fillSlotOf x.copy).mapUnits x.copy fun c => { c with begun := true }).updDie (dieOf x.copy.u) fun d => { d with
      copyq := d.copyq.map fun (c : Copy) => if c.id = x.copy.id then { c with begun := true } else c }
  let s := match x.counter with
    | some m => if s.unitPart x then s else s.landed x.u m
    | none => s
  if x.copy.stopped || s.unitsOut x.copy || (s.dieAt (dieOf x.copy.u)).copyq.any (fun y => decide (y.id = x.copy.id)) then s else s.copyDone x.copy none

def State.landUnit (s : State) (x : Unit64) (later : Bool) : State :=
  match x.copy.acc, (s.coreAt x.u).spadError ((List.range x.bytes.length).map fun i => x.addr + i) with
  | some _, some a => s.landError x a
  | _, _ => s.landWhole x later

end Sys2Proof.Machine
end

