-- ==== Sys2Proof/Machine/Collectives.lean ====
section
/-! DEFINITION. The sluice engines: joining, combining, committing and distributing collectives, and their aborts (R405 to R411); units that go offline (R45, R463, R471). -/

namespace Sys2Proof.Machine

/-! ## A member's parameters (R203, R405) -/

def Member.buf (m : Member) : Nat := bits m.w0 55 0
def Member.count (m : Member) : Nat := bits m.w1 31 0
def Member.group (m : Member) : Nat := bits m.w2 47 32
def Member.nmem (m : Member) : Nat := m.group % 1024 + 1
def Member.step (m : Member) : Nat := bits m.w3 63 32
def Member.kind (m : Member) : Nat := bits m.w3 3 0
def Member.efmt (m : Member) : Nat := bits m.w3 7 4
def Member.rop (m : Member) : Nat := bits m.w3 9 8
def Member.wide (m : Member) : Bool := m.w3.getLsbD 10
def Member.det (m : Member) : Bool := m.w3.getLsbD 11
def Member.leafj (m : Member) : Nat := bits m.w2 31 26
def Member.leafc (m : Member) : Nat := bits m.w2 25 0
def Member.lo (m : Member) : Nat := m.leafc * 2 ^ m.leafj
def Member.hi (m : Member) : Nat := (m.leafc + 1) * 2 ^ m.leafj

/-- Bytes of an element of EFMT. -/
def Member.size (m : Member) : Nat :=
  match m.efmt with
  | 1 => 2 | 2 => 2 | 4 => 1 | _ => 4

/-- What the first member fixes (R406). -/
def Member.params (m : Member) : List Nat := [m.kind, m.rop, m.efmt, m.wide.toNat, m.det.toNat, m.count, m.nmem]

/-- Cases in which `SLUICE` is an illegal operand, with the reserved bits of its words (R391, R406). -/
def Member.illegal (m : Member) : Bool :=
  decide (bits m.w0 63 56 ≠ 0 ∨ bits m.w1 63 32 ≠ 0 ∨ bits m.w2 63 48 ≠ 0 ∨ bits m.w3 31 12 ≠ 0) ||
  decide (3 < m.kind ∨ m.rop = 3 ∨ 4 < m.efmt ∨ m.buf % 64 ≠ 0 ∨ m.group / 1024 = 63 ∨ m.count = 0) ||
  (m.wide && decide (m.efmt = 3)) || decide (m.efmt = 4 ∧ m.kind < 2) || decide (31 < m.leafj ∨ 2 ^ 32 < m.hi) ||
  decide ((m.kind = 1 ∨ m.kind = 2) ∧ m.count % m.nmem ≠ 0)

def Member.die (m : Member) : Nat := dieOf m.u

/-- Address of its completion record, 64 bytes below the buffer in 64-bit arithmetic (R405). -/
def Member.recVa (m : Member) : Nat := (m.buf + 2 ^ 64 - 64) % 2 ^ 64

/-- The member that a tracker of a unit's task names: its issuer, its staging register, GROUP, STEP and buffer (R389, R410). -/
def Member.isNamed (m : Member) (u task cl : Nat) (t : ClTrack) : Bool :=
  t.valid && m.inserted.isNone && decide (m.u = u ∧ m.task = task ∧ m.cl = cl ∧ m.group = t.group ∧ m.step = t.step ∧ m.buf = t.buf)

/-- Rank by LEAFC × 2^LEAFJ (R405). -/
def Inst.position (i : Inst) (m : Member) : Nat := (i.members.filter fun x => decide (x.lo < m.lo)).length

/-! ## The member's record (R409) and its completion -/

/-- A completion record. -/
def recordBytes (state cause step base len group agreed : Nat) (ovf nv : Bool) : List Byte :=
  toBytes 8 (state * 2 ^ 56 + nv.toNat * 2 ^ 41 + ovf.toNat * 2 ^ 40 + cause * 2 ^ 32 + step) ++ toBytes 8 base ++
    toBytes 8 len ++ toBytes 8 (group * 2 ^ 48 + agreed) ++ List.replicate 32 0

/-- The engine writes the record, then posts the flag. An inserted member has neither (R414). A record that cannot be
written is left. -/
def State.deliverRecord (s : State) (m : Member) (rec : List Byte) : State :=
  if m.inserted.isSome then s
  else
    let s := match s.engineWrite m.die m.tsid m.recVa rec with
      | .ok t => t
      | .error _ => s
    match m.flag with
    | some k => s.post m.u m.u k
    | none => s

/-- How a member ended, for the tracker that names it (R410). An inserted member has no tracker. -/
def State.noteEnd (s : State) (m : Member) (part state cause arrived : Nat) : State :=
  if m.inserted.isSome then s
  else
    let e : MemberEnd := { m := { m with contrib := none, put := false, bad := 0 }, part := part, state := state, cause := cause, arrived := arrived }
    { s with memberEnds := e :: s.memberEnds.filter fun x => !decide (x.m = e.m ∧ x.part = part) }

/-- An ended instance that a partition, TAG and STEP name (R406). -/
def State.endedInst (s : State) (line part tag step : Nat) : Option Ended :=
  s.ended.find? fun e => decide (e.part = part ∧ e.tag = tag ∧ e.line = line ∧ e.step = step)

/-! ## Joining (R406) -/

/-- Why a member fails the instance it joins, if it does. -/
def Inst.mismatch (i : Inst) (m : Member) : Option Nat :=
  match i.members with
  | [] => none
  | f :: _ =>
    if f.params ≠ m.params then some 1
    else if f.nmem ≤ i.members.length || i.members.any fun x => decide (x.lo < m.hi ∧ m.lo < x.hi) then some 2
    else none

/-- The instance of a partition, TAG, STEP and line that still collects. -/
def Inst.collects (i : Inst) (line part tag step : Nat) : Bool :=
  decide (i.part = part ∧ i.group / 1024 = tag ∧ i.step = step ∧ i.line = line) && !i.committed && i.abort.isNone

/-- A member is started: it meets an ended instance, or joins or starts a live one. -/
def State.joinMember (s : State) (m : Member) (line : Nat) : State :=
  let part := (s.dieAt m.die).partition
  let tag := m.group / 1024
  match s.endedInst line part tag m.step with
  | some e =>
    let r := if e.state = 1 then (3, 2) else (e.state, e.cause)
    (s.deliverRecord m (recordBytes r.1 r.2 e.step m.buf 0 e.group e.agreed false false)).noteEnd m part r.1 r.2 e.arrived
  | none => match s.insts.find? fun i => i.collects line part tag m.step with
    | some i =>
      let bad := i.mismatch m
      let s := { s with insts := s.insts.map fun (x : Inst) => if x.id = i.id then { x with members := x.members ++ [m] } else x }
      match bad with
      | some cause => s.abortInsts (fun x => decide (x.id = i.id)) cause none
      | none => s
    | none =>
      { s with
        insts := s.insts ++ [{ id := s.nextInst, part := part, group := m.group, step := m.step, line := line, members := [m] }]
        nextInst := s.nextInst + 1 }

/-! ## Contributions (R405, R407, R408) -/

/-- Home of an engine's address, whatever its permissions; a device page is no home (R405). -/
def State.engineHome (s : State) (d tsid va : Nat) : Except XlErr Nat :=
  if 2 ^ 56 ≤ va then .error (.reason 0)
  else
    let r : Except XlErr TlbEnt := match (s.dieAt d).l2tlb.find? fun e => e.covers tsid va with
      | some e => .ok e
      | none => s.walkNow d tsid va
    match r with
    | .error e => .error e
    | .ok e => if e.dev then .error (.reason 3) else if !s.homeOk d (e.phys va) then .error .fabric else .ok (e.phys va / 2 ^ 37)

/-- CAUSE of a failed access of an engine (R411); an offline stack gives 0x08. -/
def State.slCause (s : State) (d tsid va : Nat) : XlErr → Nat
  | .reason _ => 3
  | .memory => 4
  | .fabric =>
    let home := match s.walkNow d tsid va with
      | .ok e => e.phys va / 2 ^ 37
      | .error _ => 0
    if s.offlineStacks.contains home then 8 else 4

/-- First byte of a member: of its record, or of its elements where it is an inserted one (R405, R414). -/
def Member.start (m : Member) : Nat := if m.inserted.isSome then m.buf else m.recVa

/-- The first byte of a member in each page that it lies in. -/
def Member.pages (m : Member) : List Nat :=
  let last := m.buf + m.count * m.size - 1
  (List.range (last / 4096 - m.start / 4096 + 1)).map fun i => if i = 0 then m.start else (m.start / 4096 + i) * 4096

/-- The check of a member's buffer and record: mapped, in one stack (R405, R411). -/
def State.bufferCause (s : State) (m : Member) : Option Nat :=
  let a := m.start
  let pts := m.pages
  match pts.findSome? fun va => match s.engineHome m.die m.tsid va with
      | .error e => some (s.slCause m.die m.tsid va e)
      | .ok _ => none with
  | some c => some c
  | none =>
    let home (va : Nat) : Nat := match s.engineHome m.die m.tsid va with
      | .ok h => h
      | .error _ => 0
    if pts.all fun va => decide (home va = home a) then none else some 7

/-- A named buffer needs R and W (R284). -/
def State.bufferRights (s : State) (m : Member) : Option Nat :=
  m.pages.findSome? fun va =>
    match s.engineXl m.die m.tsid va 2 with
    | .error e => some (s.slCause m.die m.tsid va e)
    | .ok _ => none

/-- Elements of a byte run. -/
def elemsOf (n : Nat) : Nat → List Byte → List Nat
  | 0, _ => []
  | k + 1, bs => leNat (bs.take n) :: elemsOf n k (bs.drop n)

def elemBytes (n : Nat) (xs : List Nat) : List Byte := xs.flatMap (toBytes n)

/-- First element and number of elements that a member contributes (R407). -/
def Inst.part' (i : Inst) (m : Member) : Nat × Nat :=
  let p := i.position m
  let n := m.count / m.nmem
  match m.kind with
  | 2 => (p * n, n)
  | 3 => (0, if p = 0 then m.count else 0)
  | _ => (0, m.count)

/-- A member's contribution, read from its buffer. -/
def State.contribution (s : State) (i : Inst) (m : Member) : Except Nat (List Nat) :=
  match s.bufferCause m with
  | some c => .error c
  | none =>
    let r := i.part' m
    match s.bufferRights m with
    | some c => .error c
    | none => match s.engineRead m.die m.tsid (m.buf + r.1 * m.size) (r.2 * m.size) with
    | .error e => .error (s.slCause m.die m.tsid e.2 e.1)
    | .ok bs => .ok (elemsOf m.size r.2 bs)

/-! ## Combining (R66, R68, R408) -/

def ropOf : Nat → RedOp
  | 0 => .add
  | 1 => .min
  | _ => .max

/-- Format of EFMT; none for INT32 and BYTE. -/
def Member.fmt? (m : Member) : Option Fmt :=
  match m.efmt with
  | 0 => some .f32
  | 1 => some .bf16
  | 2 => some .f16
  | _ => none

/-- Wire format: FP32 where WIDE is set (R408). -/
def Member.wire (m : Member) : Option Fmt := if m.wide then some .f32 else m.fmt?

/-- A contribution in the wire format: widening is exact. -/
def Member.toWire (m : Member) (x : Nat) : Nat :=
  match m.fmt?, m.wire with
  | some f, some g => if f = g then x else (g.round {} (f.read false x)).1
  | _, _ => x

/-- The result rounded once to EFMT where WIDE is set. -/
def Member.ofWire (m : Member) (x : Nat) : Nat × Fl :=
  match m.fmt?, m.wire with
  | some f, some g => if f = g then (x, 0) else f.round {} (g.read false x)
  | _, _ => (x, 0)

/-- One node. -/
def Member.node (m : Member) (x y : Nat) : Nat × Fl :=
  match m.wire with
  | some f => (ropOf m.rop).fpRound f false x y
  | none =>
    let r := (ropOf m.rop).intRound false (BitVec.ofNat 32 x) (BitVec.ofNat 32 y)
    (r.1.toNat, r.2)

def Member.ident (m : Member) : Nat :=
  match m.wire with
  | some f => (ropOf m.rop).fpIdent f
  | none => ((ropOf m.rop).intIdent false).toNat

/-- The node of `level` and index `i` over members (first leaf, level, value): a subtree that no member owns holds the
identity, since combining identities is exact (R68, R408). -/
def leafNode (op : Nat → Nat → Nat × Fl) (ident : Nat) (ms : List (Nat × Nat × Nat)) : Nat → Nat → Nat × Fl
  | level, i =>
    let inside := ms.filter fun x => decide (i * 2 ^ level ≤ x.1 ∧ x.1 < (i + 1) * 2 ^ level)
    match inside with
    | [] => (ident, 0)
    | _ => match inside.find? fun x => decide (x.2.1 = level) with
      | some x => (x.2.2, 0)
      | none => match level with
        | 0 => (ident, 0)
        | l + 1 =>
          let a := leafNode op ident inside l (2 * i)
          let b := leafNode op ident inside l (2 * i + 1)
          let r := op a.1 b.1
          (r.1, a.2 ||| b.2 ||| r.2)

/-- Levels of the tree: the least L with every range in [0, 2^L). -/
def treeHeight (ms : List Member) : Nat := treeDepth (ms.foldl (fun n m => max n m.hi) 1)

/-- The deterministic result of element k (R408). -/
def detElement (ms : List Member) (f : Member) (k : Nat) : Nat × Fl :=
  leafNode f.node f.ident (ms.map fun m => (m.lo, m.leafj, f.toWire ((m.contrib.getD []).getD k 0))) (treeHeight ms) 0

/-- Combine one more contribution in arrival order, with the running result as left operand. -/
def arrive (f : Member) (sums xs : List Nat) : List Nat × Fl :=
  let r := (sums.zip xs).map fun p => f.node p.1 (f.toWire p.2)
  (r.map Prod.fst, r.foldl (fun z p => z ||| p.2) 0)

/-- The results of an instance with every contribution, and the conditions of its nodes and final rounding. -/
def Inst.outcome (i : Inst) (f : Member) : List Nat × Fl :=
  match f.kind with
  | 2 => ((List.range f.nmem).flatMap fun p => match i.members.find? fun m => decide (i.position m = p) with
      | some m => m.contrib.getD []
      | none => [], 0)
  | 3 => (match i.members.find? fun m => decide (i.position m = 0) with
      | some m => m.contrib.getD []
      | none => [], 0)
  | _ =>
    let raw : List (Nat × Fl) := if f.det then (List.range f.count).map (detElement i.members f) else i.sums.map fun x => (x, 0)
    let r := raw.map fun x => let y := f.ofWire x.1; (y.1, x.2 ||| y.2)
    (r.map Prod.fst, r.foldl (fun z p => z ||| p.2) 0)

/-- All contributions are combined: the root commits (R409). -/
def State.commitInst (s : State) (i : Inst) (f : Member) : State :=
  let r := i.outcome f
  let j := { i with committed := true, results := r.1, ovf := i.ovf || decide (r.2 &&& Fl.of ≠ 0), nv := i.nv || decide (r.2 &&& Fl.nv ≠ 0) }
  let s := { s with insts := s.insts.map fun (x : Inst) => if x.id = i.id then j else x }
  s.remember i 1 0 0xFFFFFFFF

/-- A contribution can be read: parts and the broadcast's source depend on the positions (R405, R407). -/
def Inst.canRead (i : Inst) (m : Member) : Bool :=
  !i.committed && i.abort.isNone && m.contrib.isNone && (decide (m.kind < 2) || decide (i.members.length = m.nmem))

/-- The contribution of member n of an instance reaches the root. -/
def State.contribute (s : State) (i : Inst) (n : Nat) : State :=
  match i.members[n]?, i.members with
  | some m, f :: _ =>
    if !i.canRead m then s
    else match s.contribution i m with
      | .error c => s.abortInsts (fun x => decide (x.id = i.id)) c none
      | .ok xs =>
        let r := if f.kind < 2 ∧ !f.det then (if i.arrived = 0 then (xs.map f.toWire, 0) else arrive f i.sums xs) else ([], 0)
        let j := { i with
          members := i.members.set n { m with contrib := some xs }, arrived := i.arrived + 1, sums := r.1
          ovf := i.ovf || decide (r.2 &&& Fl.of ≠ 0), nv := i.nv || decide (r.2 &&& Fl.nv ≠ 0) }
        let s := { s with insts := s.insts.map fun (x : Inst) => if x.id = i.id then j else x }
        if j.arrived = f.nmem then s.commitInst j f else s
  | _, _ => s

/-! ## Distribution and aborts (R409, R411) -/

/-- First element, elements and the record's range of what a member receives (R407). -/
def Inst.share (i : Inst) (m : Member) : Nat × List Nat × Nat :=
  let p := i.position m
  let n := m.count / m.nmem
  match m.kind with
  | 1 => (p * n, (i.results.drop (p * n)).take n, n)
  | 3 => if p = 0 then (0, [], 0) else (0, i.results, m.count)
  | _ => (0, i.results, m.count)

/-- A member is finished with; the instance goes with its last member, and a step that completed at every member is the
highest agreed one (R411). -/
def State.memberDone (s : State) (i : Inst) (n : Nat) (failed : Bool) : State :=
  let j := { i with
    members := ((List.range i.members.length).zip i.members).map fun (p : Nat × Member) => if p.1 = n then { p.2 with done := true } else p.2
    partly := i.partly || failed }
  if j.members.all fun m => m.done then
    let s := { s with insts := s.insts.filter fun (x : Inst) => !decide (x.id = i.id) }
    if j.committed && !j.partly then
      let k := (i.line * 256 + i.part) * 64 + i.group / 1024
      let old := s.agreedStep i.line i.part (i.group / 1024)
      { s with agreed := Tbl.set s.agreed k (if old = 0xFFFFFFFF then i.step else max old i.step) }
    else s
  else { s with insts := s.insts.map fun (x : Inst) => if x.id = i.id then j else x }

/-- Change one entry of a block. -/
def Block.updEntry (b : Block) (ent : Nat) (f : Entry → Entry) : Block :=
  { b with entries := ((List.range b.entries.length).zip b.entries).map fun (p : Nat × Entry) => if p.1 = ent then f p.2 else p.2 }

/-- Change one block of a context. -/
def Ctx.updBlock (x : Ctx) (blk : Nat) (f : Block → Block) : Ctx :=
  { x with blocks := x.blocks.map fun (b : Block) => if b.serial = blk then f b else b }

/-- Change one entry of a block of a context. -/
def Ctx.updEntry (x : Ctx) (blk ent : Nat) (f : Entry → Entry) : Ctx := x.updBlock blk fun b => b.updEntry ent f

def Ctx.block? (x : Ctx) (blk : Nat) : Option Block := x.blocks.find? fun b => decide (b.serial = blk)

def Ctx.entry? (x : Ctx) (blk ent : Nat) : Option Entry :=
  match x.block? blk with
  | some b => b.entries[ent]?
  | none => none

/-- A collective inserted for an entry has ended, or has failed and its context stops (R414). -/
def State.insertedDone (s : State) (m : Member) (id : Nat) (cause : Option Nat) : State :=
  match m.inserted with
  | none => s
  | some (blk, ent) =>
    let d := m.die
    match (s.ctxAt d m.tsid).entry? blk ent with
    | none => s
    | some e =>
      if !e.colls.contains id then s
      else match cause with
        | some c => s.graphFault d m.tsid 0x11 e.addr e.opid 0 c
        | none => s.updCtx d m.tsid fun x => x.updEntry blk ent fun e => { e with colls := e.colls.filter fun k => !decide (k = id) }

/-- Change member n of an instance. -/
def State.updMember (s : State) (i : Inst) (n : Nat) (f : Member → Member) : State :=
  { s with insts := s.insts.map fun (x : Inst) =>
      if x.id = i.id then { x with members := ((List.range x.members.length).zip x.members).map fun (p : Nat × Member) => if p.1 = n then f p.2 else p.2 }
      else x }

/-- The engine of member n of a committed instance writes the elements at the member's home (R409). -/
def State.putShare (s : State) (i : Inst) (n : Nat) (m : Member) : State :=
  let r := i.share m
  match s.engineWrite m.die m.tsid (m.buf + r.1 * m.size) (elemBytes m.size r.2.1) with
  | .ok t => t.updMember i n fun x => { x with put := true }
  | .error e => s.updMember i n fun x => { x with put := true, bad := if s.slCause m.die m.tsid e.2 e.1 = 3 then 3 else 4 }

/-- Member n takes its record and its flag. -/
def State.finishMember (s : State) (i : Inst) (n : Nat) (m : Member) : State :=
  let r := i.share m
  let failed := decide (m.bad ≠ 0)
  let rec' := if failed then recordBytes 3 m.bad i.step m.buf 0 i.group 0xFFFFFFFF i.ovf i.nv
    else recordBytes 1 0 i.step (m.buf + r.1 * m.size) (r.2.2 * m.size) i.group 0xFFFFFFFF i.ovf i.nv
  let s := (s.deliverRecord m rec').noteEnd m i.part (if failed then 3 else 1) m.bad i.arrived
  ((s.memberDone i n failed).insertedDone m i.id (if failed then some m.bad else none)).reapResume m.u

/-- Member n of a committed instance has a part of the distribution to take. -/
def Inst.mayTake (i : Inst) (n : Nat) : Bool :=
  i.committed && match i.members[n]? with
    | some m => !m.done && (!m.put || i.members.all fun x => x.put)
    | none => false

/-- The next part of the distribution to member n of a committed instance: its elements, then, once every member's elements are at
their homes, its record (R274, R409). -/
def State.distribute (s : State) (i : Inst) (n : Nat) : State :=
  match i.members[n]? with
  | none => s
  | some m =>
    if !i.committed || m.done then s
    else if !m.put then s.putShare i n m
    else if i.members.all fun x => x.put then s.finishMember i n m
    else s

/-- Abort a task that stands on a resume position or in a saved context (R411). -/
def State.abortElsewhere (s : State) (u id info : Nat) : State :=
  let c := s.coreAt u
  match c.resume.find? fun p => decide (p.2.id = id) with
  | some p => s.abortPos u p.1 1 info
  | none => match Tbl.get? c.saved id with
    | none => s
    | some (_, r) =>
      let s := s.updAt u fun c => { c with saved := Tbl.del c.saved id, leaving := id :: c.leaving }
      if restarts r.rclass 1 then s.updCtx (dieOf u) r.ctx fun x => { x with removed := x.removed ++ [(u % 128, r)] }
      else s.graphFault (dieOf u) r.ctx 0x09 r.rpc (s.recordOpid (dieOf u) r) 0 info

/-- Abort the task that issued a member, wherever it stands, by its restart class (R411, R446). -/
def State.abortMemberTask (s : State) (m : Member) (cause : Nat) : State :=
  let u := m.u
  let d := m.die
  let c := s.coreAt u
  let info := 1024 + cause * 2048
  if !isCompute u then s
  else match c.task with
    | some t =>
      if t.id = m.task then
        (if c.run = .running then s.updAt u fun c => { c.request 3 with stopInfo := cause }
         else if c.run = .ending ∧ c.endKind = 0 then
           (if restarts t.r.rclass 1 then s.updAt u fun c => { c with endKind := 1 }
            else (s.updAt u fun c => { c with endKind := 2 }).graphFault d t.r.ctx 0x09 c.gpc (s.taskOpid u) 0 info)
         else s)
      else s.abortElsewhere u m.task info
    | none => s.abortElsewhere u m.task info

/-- The abort token of an instance reaches member n: its record, its flag, its task. -/
def State.abortArrives (s : State) (i : Inst) (n : Nat) : State :=
  match i.members[n]?, i.abort with
  | some m, some cause =>
    if m.done then s
    else
      let s := s.deliverRecord m (recordBytes (abortState cause) cause i.step m.buf 0 i.group i.agreed false false)
      let s := s.noteEnd m i.part (abortState cause) cause i.arrived
      let s := if i.exempt = some (m.u, m.task) ∨ m.inserted.isSome then s else s.abortMemberTask m cause
      ((s.memberDone i n true).insertedDone m i.id (some cause)).reapResume m.u
  | _, _ => s

/-! ## Units that go offline (R45, R463, R471) -/

/-- Dies at which a link stands, by the model's number (log 10): of package l / 256, boundary n < 52, stack link of die n - 52,
port (n - 84) % 4 of base die (n - 84) / 4. -/
def linkDies (l : Nat) : List Nat :=
  let p := l / 256 * 32
  let n := l % 256
  if n < 28 then [p + n / 7 * 8 + n % 7, p + n / 7 * 8 + n % 7 + 1]
  else if n < 52 then [p + (n - 28), p + (n - 28) + 8]
  else if n < 84 then [p + (n - 52)]
  else [p + (n - 84) / 4]

/-- Dies that a unit belongs to. -/
def HwUnit.dies : HwUnit → List Nat
  | .core u => [dieOf u]
  | .die d => [d]
  | .stack d => [d]
  | .link l => linkDies l

/-- A replace request takes effect, or waits at a die of its unit whose row is being spared (R473). -/
def State.placeReplace (s : State) (x : HwUnit) : State :=
  match x.dies.find? fun d => (s.dieAt d).sparing.isSome with
  | some d => s.updDie d fun y => { y with replWait := y.replWait ++ [x] }
  | none => { s with replace := s.replace ++ [x] }

/-- A unit goes offline: REPLREQ of its dies and its replace request (R471). -/
def State.requestReplace (s : State) (x : HwUnit) : State :=
  (x.dies.foldl (fun (s : State) d => s.updDie d fun y => { y with replreq := true }) s).placeReplace x

/-- A core goes offline: its tasks by their class, its weirs, its collectives. -/
def State.takeOffline (s : State) (u : Nat) : State :=
  let c := s.coreAt u
  if c.run = .offline then s
  else
    let s := s.abortInsts (fun i => i.members.any fun m => decide (m.u = u) && !m.done) 0x08 none
    let s := if c.task.isSome && decide (c.run = .running) then s.endByClass u 3 c.pc 0 .offline
      else if c.run = .ending then s.updAt u fun c => { c with endTo := .offline }
      else s.updAt u fun c => { c with run := .offline, holding := false, barArrived := none }
    (s.abortResume u 0).weirsRecheck

/-- A die goes offline: its collectives first (R411), its cores, its sequencer, frontier unit and queues, and a replace
request (R471). -/
def State.dieOffline (s : State) (d : Nat) : State :=
  let s := (s.updDie d fun x => { x with offline := true }).requestReplace (.die d)
  let s := s.abortInsts (fun i => i.members.any fun m => decide (m.die = d) && !m.done) 0x08 none
  State.weirsRecheck ((s.cores.filter fun p => decide (p.1 / 128 = d) && (isCompute p.1 || isControl p.1)).foldl (fun s p => s.takeOffline p.1) s)

/-- Collectives whose member has a buffer or record in a stack that went offline (R411, R471); an inserted member has no record. -/
def State.stackAborts (s : State) (stack : Nat) : State :=
  let inIt (m : Member) : Bool :=
    !m.done && (m.pages.filter fun va => decide (va < 2 ^ 56)).any fun va => match s.walkNow m.die m.tsid va with
      | .ok e => !e.dev && decide (e.phys va / 2 ^ 37 = stack)
      | .error _ => false
  s.abortInsts (fun i => i.members.any inIt) 0x08 none

end Sys2Proof.Machine
end

