-- ==== Sys2Proof/Machine/Devices.lean ====
section
/-! DEFINITION. The device registers of a die (R462): what a read returns and what a write does, launches (R332, R333), core control (R463), the Ethernet port's registers (R467). -/

namespace Sys2Proof.Machine

/-! ## Launching a context (R332, R333) -/

/-- The fields of a descriptor's sixteen dwords. -/
def CtxDesc.ofWords (w : Nat → DWord) : CtxDesc :=
  { entry := bits (w 0) 55 0, root := bits (w 1) 51 12 * 4096, agelim := bits (w 2) 31 0, savebase := bits (w 3) 55 0
    cap := (List.range 4).map fun k => bits (w (4 + k)) 63 56, ring := (List.range 4).map fun k => bits (w (4 + k)) 55 0
    hsave := bits (w 8) 55 0, pbase := bits (w 9) 55 0, sigaddr := bits (w 10) 55 0, mesh := bits (w 11) 29 0, csave := bits (w 12) 55 0 }

/-- The checks of a launch (R333). -/
def CtxDesc.ok (d : CtxDesc) (w : Nat → DWord) (npkg : Nat) : Bool :=
  decide (bits (w 0) 63 56 = 1) && decide (bits (w 1) 63 52 = 0 ∧ bits (w 1) 11 0 = 0 ∧ bits (w 2) 63 32 = 0 ∧ bits (w 11) 63 30 = 0) &&
  [3, 8, 9, 10, 12].all (fun i => decide (bits (w i) 63 56 = 0)) && [13, 14, 15].all (fun i => decide (w i = 0)) &&
  decide (d.entry % 8 = 0 ∧ d.savebase % 4096 = 0 ∧ d.hsave % 4096 = 0 ∧ d.pbase % 4096 = 0 ∧ d.sigaddr % 64 = 0) &&
  (List.range 4).all (fun k => decide (6 ≤ d.cap.getD k 0 ∧ d.cap.getD k 0 ≤ 24 ∧ d.ring.getD k 0 % (64 * 2 ^ d.cap.getD k 0) = 0)) &&
  (List.range 3).all (fun k => decide (1 ≤ d.size k ∧ d.size k ≤ 768)) && decide (d.size 0 * d.size 1 * d.size 2 = npkg)

/-- A write of `GLAUNCH` (R333). A drained or offline die refuses (R45, R469). -/
def State.launch (s : State) (d : Nat) (v : DWord) : State :=
  let x := s.dieAt d
  let free := (List.range 4).find? fun c => decide ((s.ctxAt d c).st = .free)
  match free with
  | none => s.updDie d fun y => { y with refused := true }
  | some c =>
    if x.drain || x.offline then s.updDie d fun y => { y with refused := true }
    else
      let a := bits v 51 7 * 128
      if !s.homeOk d a ∨ s.poisoned a then s.graphFault d c 0x0A a 0 0 0
      else
        let bs := s.readMem a 128
        let w (i : Nat) : DWord := leWord ((bs.drop (8 * i)).take 8)
        let desc := CtxDesc.ofWords w
        if !desc.ok w (s.partPackages x.partition).length then s.graphFault d c 0x0F a 0 0 0
        else State.updCtx { s with ended := s.ended.filter fun e => !decide (e.part = x.partition ∧ e.line ≠ 0 ∧ (e.line - 1) / 4 % 128 = c + 4 * (d % 32)) } d c fun y => { y with
          st := .running, desc := desc, pc := desc.entry, patch := false, actgen := false, h := [], step := 0, loops := [], calls := []
          caps := [], handles := [], blocks := [], nextSerial := 1, bank0 := {}, bank1 := {}, curBank := false, pre := .none, stopping := false, saved := [], removed := [], spillHead := [], spillLen := [] }

/-! ## Status words (R334, R335, R463, R469) -/

/-- Byte of `GSTAT` for a context. -/
def Ctx.status (x : Ctx) : Nat :=
  let st := match x.st with
    | .free => 0 | .running => 1 | .faulted => 2 | .preempted => 3
  let busy := x.blocks.any fun b => decide (b.gen ≠ x.actgen.toNat)
  st + x.done.toNat * 4 + x.fault.toNat * 8 + x.actgen.toNat * 16 + x.patch.toNat * 32 + busy.toNat * 64

def State.gstat (s : State) (d : Nat) : DWord :=
  BitVec.ofNat 64 (packElems 8 ((List.range 4).map fun c => (s.ctxAt d c).status) + (s.dieAt d).refused.toNat * 2 ^ 32)

/-- A 1 written to FAULT makes a Faulted context Free, without channels (R334, R358). -/
def State.clearFault (s : State) (d c : Nat) : State :=
  let s := if (s.ctxAt d c).st = .faulted then s.unloadAll d c else s
  s.updCtx d c fun x => { x with fault := false, st := if x.st = .faulted then .free else x.st }

def State.gstatWrite (s : State) (d : Nat) (v : DWord) : State :=
  let s := (List.range 4).foldl (fun s c =>
    let s := if v.getLsbD (8 * c + 3) then s.clearFault d c else s
    if v.getLsbD (8 * c + 2) then s.updCtx d c fun x => { x with done := false } else s) s
  if v.getLsbD 32 then s.updDie d fun x => { x with refused := false } else s

/-- No context Running and no sweep active (R469). -/
def State.drained (s : State) (d : Nat) : Bool :=
  (List.range 4).all (fun c => decide ((s.ctxAt d c).st ≠ .running)) && (s.dieAt d).sweeps.all fun p => decide (p.2.st ≠ .active)

def State.dsvc (s : State) (d : Nat) : DWord :=
  let x := s.dieAt d
  BitVec.ofNat 64 (x.eclass * 2 ^ 32 + x.replreq.toNat * 8 + (s.drained d).toNat * 4 + x.drain.toNat * 2 + x.offline.toNat)

/-- Start vector of a control core in the image it runs: its own since it was updated, else its package's (R468, R473). -/
def State.startVector (s : State) (u : Nat) : Nat :=
  leNat (((Tbl.getD s.coreImage u (Tbl.getD s.image (u / 4096) [])).drop (64 + 8 * (2 * (dieOf u % 32) + (u % 128 - 72)))).take 8)

/-- A control core runs from its start vector; with none it stays in `WAITI` (R468). -/
def State.startControl (s : State) (u : Nat) : State :=
  let v := s.startVector u
  s.updAt u fun c => { c.noWait with
    run := if v = 0 then .idle else .running, pc := v, tlevel := 0, ckNext := true, live := { c.live with latch := [], exposed := false } }

/-- `DRAIN` written 0 after 1 ends the drain cycle: cores whose OFFLINE was cleared are online again (R463, R469). -/
def State.endDrain (s : State) (d : Nat) : State :=
  (s.cores.filter fun p => decide (p.1 / 128 = d) && p.2.onlinePending).foldl (fun s p =>
    let s := s.updAt p.1 fun c => { c with
        onlinePending := false, run := if c.run = .offline then (if c.halted then .stopped else .idle) else c.run
        endTo := if c.endTo = .offline then (if c.halted then .stopped else .idle) else c.endTo }
    if isControl p.1 && decide ((s.coreAt p.1).run = .idle) then s.startControl p.1 else s) s

def State.setDrain (s : State) (d : Nat) (b : Bool) : State :=
  let was := (s.dieAt d).drain
  let s := s.updDie d fun x => { x with drain := b }
  if was && !b then s.endDrain d else s

def State.dsvcWrite (s : State) (d : Nat) (v : DWord) : State :=
  let s := if v.getLsbD 3 then s.updDie d fun x => { x with replreq := false } else s
  s.setDrain d (v.getLsbD 1)

/-- RESTART (R463): STOPPED is cleared; a stopped core returns to level 0 with invalid latches; a control core runs from its start
vector. A core that is offline too stays so. -/
def State.restartCore (s : State) (u : Nat) : State :=
  let s := s.updAt u fun c => { c with halted := false, endTo := if c.endTo = .stopped then .idle else c.endTo }
  if (s.coreAt u).run ≠ .stopped then s
  else
    let s := s.updAt u fun c => { c with run := .idle, tlevel := 0, live := { c.live with latch := [] } }
    if isControl u then s.startControl u else s

/-- OFFLINE written 1, with its replace request (R471), or 0: online again after the next drain cycle (R463). -/
def State.setOffline (s : State) (u : Nat) (b : Bool) : State :=
  if b then
    let s := if s.online u then s.requestReplace (.core u) else s
    (s.takeOffline u).updAt u fun c => { c with onlinePending := false }
  else if (s.coreAt u).run = .offline ∨ ((s.coreAt u).run = .ending ∧ (s.coreAt u).endTo = .offline) then
    s.updAt u fun c => { c with onlinePending := true }
  else s

def State.cctlWrite (s : State) (u : Nat) (v : DWord) : State :=
  let s := if v.getLsbD 0 then s.restartCore u else s
  s.setOffline u (v.getLsbD 1)

/-- A read of `CCTL`: OFFLINE reads as it was written, though a core comes online only after a drain cycle (R5, R463). -/
def Core.cctl (c : Core) : DWord :=
  let off := decide (c.run = .offline ∨ (c.run = .ending ∧ c.endTo = .offline)) && !c.onlinePending
  BitVec.ofNat 64 c.halted.toNat <<< 2 ||| BitVec.ofNat 64 off.toNat <<< 1

/-! ## Frontier and handle windows (R328, R340) -/

/-- The frontier of a sweep in 40 dwords. -/
def Sweep.image (w : Sweep) : List DWord :=
  let at' (o : Nat) : Nat := Tbl.getD w.win (w.base + o) 0
  let top := (List.range 1024).foldl (fun t o => if at' o ≠ 0 then o + 1 else t) 0
  [BitVec.ofNat 64 (2 ^ 56 + w.desc.addr), BitVec.ofNat 64 w.base, BitVec.ofNat 64 (w.ctx * 2 ^ 20 + w.oldId % 16 * 2 ^ 16 + top), 0, 0, 0, 0, 0] ++
    (List.range 32).map fun i => BitVec.ofNat 64 (packElems 2 ((List.range 32).map fun j => at' (32 * i + j)))

/-- A handle-table entry in 16 dwords (R340). -/
def handleImage (h : Option Handle) : List DWord :=
  match h with
  | none => List.replicate 12 0 ++ [BitVec.ofNat 64 (3 * 2 ^ 61), 0, 0, 0]
  | some h => (List.range 12).map (fun i => h.words.getD i 0) ++
    [h.shard, BitVec.ofNat 64 (2 ^ 63 + h.isAlias.toNat * 2 ^ 62 + h.root * 2 ^ 50 + h.pr % 65536 * 2 ^ 16 + h.pw % 256), h.resident, 0]

/-! ## Ethernet port registers (R467) -/

/-- CFG after a write: EN with LOG2N outside 4 to 16 stays 0; LOG2N is ignored while EN is 1. -/
def ethCfg (old v : DWord) : DWord :=
  let n := if old.getLsbD 8 then bits old 4 0 else bits v 4 0
  let en := v.getLsbD 8 && decide (4 ≤ n ∧ n ≤ 16)
  BitVec.ofNat 64 (en.toNat * 256 + n)

def ethBase (old cfg v : DWord) : DWord := if cfg.getLsbD 8 then old else BitVec.ofNat 64 (bits v 55 0)

def EthPort.readReg (e : EthPort) (r : Nat) : Option DWord :=
  let nat (x : Nat) : Option DWord := some (BitVec.ofNat 64 x)
  match r with
  | 0 => some e.rxBase | 1 => some e.rxCfg | 2 => nat (e.rxHead % 2 ^ 32) | 3 => nat (e.rxTail % 2 ^ 32)
  | 4 => some e.txBase | 5 => some e.txCfg | 6 => nat (e.txHead % 2 ^ 32) | 7 => nat (e.txTail % 2 ^ 32)
  | 8 => nat (e.noDesc * 2 ^ 32 + e.tooBig * 2 ^ 16 + e.bad)
  | 9 => some e.emac
  | 10 => nat (e.faultV.toNat * 2 ^ 63 + e.faultA)
  | _ => none

def EthPort.writeReg (e : EthPort) (r : Nat) (v : DWord) : EthPort :=
  match r with
  | 0 => { e with rxBase := ethBase e.rxBase e.rxCfg v }
  | 1 => { e with rxCfg := ethCfg e.rxCfg v }
  | 3 => { e with rxTail := bits v 31 0 }
  | 4 => { e with txBase := ethBase e.txBase e.txCfg v }
  | 5 => { e with txCfg := ethCfg e.txCfg v }
  | 7 => { e with txTail := bits v 31 0 }
  | 8 => if v.getLsbD 63 then { e with noDesc := 0, tooBig := 0, bad := 0 } else e
  | 9 => { e with emac := BitVec.ofNat 64 (bits v 49 0) }
  | 10 => if v.getLsbD 63 then { e with faultV := false, faultA := 0 } else e
  | _ => e

/-! ## The register space (R462) -/

/-- A listed register of a die. -/
inductive DevReg where
  | glaunch | gpatch | gstat | gfrec (c : Nat) (b : Bool) | eth (r : Nat) | dsvc | hwin
  | frontier (id i : Nat) | handle (c h i : Nat) | trace (u a : Nat) | tvec1 (u : Nat) | tvec2 (u : Nat) | cctl (u : Nat)
  deriving DecidableEq, Repr

/-- Window of a core: trace buffer, vectors and control (R462). -/
def coreWindow (u o : Nat) : Option DevReg :=
  if o < 0x4000 then some (.trace u o)
  else match o with
    | 0x8000 => some (.tvec1 u)
    | 0x8008 => some (.tvec2 u)
    | 0x8010 => some (.cctl u)
    | _ => none

/-- The register at an offset that is a multiple of 8; none where the table lists none. -/
def devReg (d off : Nat) : Option DevReg :=
  if off = 0 then some .glaunch
  else if off = 8 then some .gpatch
  else if off = 0x10 then some .gstat
  else if 0x20 ≤ off ∧ off < 0x60 then some (.gfrec ((off - 0x20) / 16) (decide (off % 16 = 8)))
  else if 0xE000 ≤ off ∧ off < 0xE058 ∧ d % 4 = 0 then some (.eth ((off - 0xE000) / 8))
  else if off = 0xF000 then some .dsvc
  else if off = 0xF010 ∧ d % 32 = 0 then some .hwin
  else if 0x10000 ≤ off ∧ off < 0x12000 then
    (if off % 0x200 < 320 then some (.frontier ((off - 0x10000) / 0x200) (off % 0x200 / 8)) else none)
  else if 0x100000 ≤ off ∧ off < 0x300000 then
    let o := off - 0x100000
    some (.handle (o / 0x80000) (o % 0x80000 / 128) (o % 128 / 8))
  else if 0x400000 ≤ off ∧ off < 0x400000 + 72 * 0x10000 then coreWindow (d * 128 + (off - 0x400000) / 0x10000) (off % 0x10000)
  else if 0xC80000 ≤ off ∧ off < 0xC80000 + 2 * 0x10000 then coreWindow (d * 128 + 72 + (off - 0xC80000) / 0x10000) (off % 0x10000)
  else none

/-- Value of a register; a write-only register reads as zero (R5). -/
def State.readReg (s : State) (d : Nat) : DevReg → DWord
  | .glaunch => 0
  | .gpatch => 0
  | .gstat => s.gstat d
  | .gfrec c b => if b then (s.ctxAt d c).recB else (s.ctxAt d c).recA
  | .eth r => ((s.dieAt d).eth.readReg r).getD 0
  | .dsvc => s.dsvc d
  | .hwin => (s.dieAt d).hwin
  | .frontier id i => match Tbl.get? (s.dieAt d).sweeps id with
    | some w => w.image.getD i 0
    | none => 0
  | .handle c h i => (handleImage (Tbl.get? (s.ctxAt d c).handles h)).getD i 0
  | .trace u a => leWord (Memory.readN (s.coreAt u).traceBuf a 8)
  | .tvec1 u => BitVec.ofNat 64 (s.coreAt u).tvec1
  | .tvec2 u => BitVec.ofNat 64 (s.coreAt u).tvec2
  | .cctl u => (s.coreAt u).cctl

/-- What a write of a register does (R5: a read-only register keeps its value). -/
def State.writeReg (s : State) (d : Nat) (r : DevReg) (v : DWord) : State :=
  match r with
  | .glaunch => s.launch d v
  | .gpatch => s.updCtx d (bits v 1 0) fun x => { x with patch := true }
  | .gstat => s.gstatWrite d v
  | .eth k => s.updDie d fun x => { x with eth := x.eth.writeReg k v }
  | .dsvc => s.dsvcWrite d v
  | .hwin => s.updDie d fun x => { x with hwin := BitVec.ofNat 64 (bits v 51 36 * 2 ^ 36) }
  | .tvec1 u => s.updAt u fun c => { c with tvec1 := (align4 v).toNat }
  | .tvec2 u => s.updAt u fun c => { c with tvec2 := (align4 v).toNat }
  | .cctl u => s.cctlWrite u v
  | .gfrec _ _ => s
  | .frontier _ _ => s
  | .handle _ _ _ => s
  | .trace _ _ => s

/-- An access of n bytes to a device page from die `from'` (R25, R285, R462): the die and register it reaches. -/
def State.devAt (s : State) (from' pa n : Nat) : Except XlErr (Nat × DevReg) :=
  let d := pa / 2 ^ 37
  if !s.dieReach from' d then .error .fabric
  else match devReg d (pa % 2 ^ 37 / 8 * 8) with
    | none => .error .fabric
    | some r => if n ≠ 8 then .error (.reason 3) else .ok (d, r)

end Sys2Proof.Machine
end

