-- ==== Sys2Proof/Machine/Boot.lean ====
section
/-! DEFINITION. Boot and attestation (R468): SHA-256 (FIPS 180-4, log 6), the check of a boot image, and what the boot ROM leaves. -/

namespace Sys2Proof.Machine

/-! ## SHA-256 -/

/-- The greatest r that agrees with `r0` above its low bits and whose e-th power is at most x, bit by bit from the top. -/
def rootBelow (e x : Nat) : Nat → Nat → Nat
  | 0, r0 => r0
  | b + 1, r0 => rootBelow e x b (if (r0 + 2 ^ b) ^ e ≤ x then r0 + 2 ^ b else r0)

/-- The first 32 bits of the fractional part of the e-th root of p, for a root below 32. -/
def rootFraction (e p : Nat) : BitVec 32 := BitVec.ofNat 32 (rootBelow e (p * 2 ^ (32 * e)) 37 0)

/-- Primes below n. -/
def primesBelow (n : Nat) : List Nat :=
  (List.range n).filter fun p => decide (2 ≤ p) && (List.range p).all fun k => decide (k < 2 ∨ p % k ≠ 0)

/-- The round constants: from the cube roots of the first 64 primes. -/
def shaConst : List (BitVec 32) := (primesBelow 312).map (rootFraction 3)

/-- The initial hash value: from the square roots of the first eight primes. -/
def shaInit : List (BitVec 32) := (primesBelow 20).map (rootFraction 2)

def shaXor3 (x : BitVec 32) (a b c : Nat) (shift : Bool) : BitVec 32 :=
  x.rotateRight a ^^^ x.rotateRight b ^^^ (if shift then x >>> c else x.rotateRight c)

/-- n more words of the message schedule; the list holds the last 16, newest first. -/
def shaSchedule : Nat → List (BitVec 32) → List (BitVec 32)
  | 0, _ => []
  | n + 1, l =>
    let w := shaXor3 (l.getD 1 0) 17 19 10 true + l.getD 6 0 + shaXor3 (l.getD 14 0) 7 18 3 true + l.getD 15 0
    w :: shaSchedule n (w :: l.take 15)

/-- One round on a to h. -/
def shaRound (st : List (BitVec 32)) (kw : BitVec 32) : List (BitVec 32) :=
  match st with
  | [a, b, c, d, e, f, g, h] =>
    let t1 := h + shaXor3 e 6 11 25 false + ((e &&& f) ^^^ (~~~e &&& g)) + kw
    let t2 := shaXor3 a 2 13 22 false + ((a &&& b) ^^^ (a &&& c) ^^^ (b &&& c))
    [t1 + t2, a, b, c, d + t1, e, f, g]
  | _ => st

/-- One 64-byte block. -/
def shaBlock (st : List (BitVec 32)) (b : List Byte) : List (BitVec 32) :=
  let ws : List (BitVec 32) := (List.range 16).map fun i => BitVec.ofNat 32 (leNat ((b.drop (4 * i)).take 4).reverse)
  let all := ws ++ shaSchedule 48 ws.reverse
  let fin := (all.zip shaConst).foldl (fun s p => shaRound s (p.1 + p.2)) st
  (st.zip fin).map fun p => p.1 + p.2

/-- A message with its padding. -/
def shaPad (m : List Byte) : List Byte :=
  m ++ [0x80#8] ++ List.replicate ((119 - m.length % 64) % 64) (0 : Byte) ++ (toBytes 8 (8 * m.length)).reverse

/-- SHA-256. -/
def sha256 (m : List Byte) : List Byte :=
  let p := shaPad m
  ((List.range (p.length / 64)).foldl (fun st i => shaBlock st ((p.drop (64 * i)).take 64)) shaInit).flatMap
    fun (w : BitVec 32) => (toBytes 4 w.toNat).reverse

/-! ## The boot image (R468) -/

/-- The encoded message of PKCS #1 v1.5 for a SHA-256 digest, 384 bytes. -/
def pkcsEncoded (digest : List Byte) : List Byte :=
  let info : List Byte := [0x30, 0x31, 0x30, 0x0d, 0x06, 0x09, 0x60, 0x86, 0x48, 0x01, 0x65, 0x03, 0x04, 0x02, 0x01, 0x05, 0x00, 0x04, 0x20]
  [0x00#8, 0x01#8] ++ List.replicate 330 (0xFF : Byte) ++ [0x00#8] ++ info ++ digest

/-- A signature verifies a message under the fused key. -/
def rsaVerifies (msg sig : List Byte) : Bool :=
  let x := leNat sig.reverse
  decide (sig.length = 384 ∧ x < Config.bootModulus ∧ x ^ Config.bootExponent % Config.bootModulus = leNat (pkcsEncoded (sha256 msg)).reverse)

/-- LENGTH of an image. -/
def imageLength (f : List Byte) : Nat := bits (leWord (f.take 8)) 31 0

/-- The image that stands at the start of a flash. -/
def imageOf (f : List Byte) : List Byte := f.take (960 + imageLength f)

/-- The layout's fields stand as R468 asks. -/
def imageFormed (f : List Byte) : Bool :=
  let w := leWord (f.take 8)
  decide (bits w 63 56 = 1 ∧ bits w 55 32 = 0 ∧ 960 + imageLength f ≤ f.length) && ((f.drop 8).take 56).all fun b => decide (b = 0)

/-- The flash holds an image that verifies (R468). -/
def flashVerifies (f : List Byte) : Bool :=
  imageFormed f && rsaVerifies (f.take (576 + imageLength f)) ((f.drop (576 + imageLength f)).take 384)

/-! ## Reset (R7) -/

def Unit64.die (x : Unit64) : Nat := dieOf x.u

/-- A die reset: its cores, its device fields, its contexts and what of it is on its way; its collectives abort (log 12). -/
def State.resetDie (s : State) (d : Nat) : State :=
  let s := s.abortInsts (fun i => i.members.any fun m => decide (m.die = d) && !m.done) 0x08 none
  let away (u : Nat) : Bool := decide (dieOf u ≠ d)
  State.weirsRecheck { s with
    cores := s.cores.filter fun (p : Nat × Core) => decide (p.1 / 128 ≠ d)
    dies := Tbl.set s.dies d { since := s.now }
    posts := s.posts.filter fun (x : Post) => away x.src && away x.target
    pushes := s.pushes.filter fun (x : Push) => away x.src && away x.dst
    units := s.units.filter fun (x : Unit64) => away x.u && away x.copy.u
    late := s.late.filter fun (x : Unit64) => away x.u
    shoots := (s.shoots.filter fun (x : Shoot) => away x.u).map fun (x : Shoot) =>
      { x with dies := x.dies.filter fun k => decide (k ≠ d), active := x.active.filter fun (k : ShootDie) => decide (k.die ≠ d) }
    tried := s.tried.filter away }

/-- A package powers on (R468): its dies reset, its image verified, its fabric configuration written, its control cores
started; or no core starts and the failure is reported. -/
def State.powerOn (s : State) (p : Nat) : State :=
  let s := (List.range 32).foldl (fun s k => s.resetDie (p * 32 + k)) s
  let s := { s with poison := s.poison.filter fun l => decide (l / 2 ^ 35 ≠ p), fabric := s.fabric.filter fun x => decide (x ≠ p) }
  let f := Tbl.getD s.flash p []
  if flashVerifies f then
    let s := { s with
      image := Tbl.set s.image p (imageOf f), fabric := s.fabric ++ [p]
      coreImage := s.coreImage.filter fun x => decide (x.1 / 4096 ≠ p)
      packages := (s.packages.filter fun x => decide (x < p)) ++ p :: s.packages.filter fun x => decide (p < x) }
    (List.range 32).foldl (fun s k => (controlUnits (p * 32 + k)).foldl (fun s u => s.startControl u) s) s
  else { s with image := Tbl.del s.image p, bootFailed := s.bootFailed ++ [p] }

end Sys2Proof.Machine
end

