-- ==== Sys2Proof/Machine/Flags.lean ====
section
/-! DEFINITION. Comparison codes (R83), branch conditions (R94), and bit-field and rotate helpers of the scalar slot (R130, R131, R134). -/

namespace Sys2Proof.Machine

/-- A scalar comparison of two 64-bit values (R83). -/
def condHolds (c : Nat) (a b : DWord) : Bool :=
  match c with
  | 0 => decide (a = b)
  | 1 => decide (a ≠ b)
  | 2 => a.slt b
  | 3 => !a.slt b
  | 4 => !b.slt a
  | 5 => b.slt a
  | 6 => a.ult b
  | 7 => !a.ult b
  | 8 => !b.ult a
  | 9 => b.ult a
  | 10 => decide (a &&& b ≠ 0)
  | _ => decide (a &&& b = 0)

/-- Shifts and rotates on n-bit values by a count below n (R130). -/
inductive ShiftOp where
  | shl | shr | sar | rol | ror
  deriving DecidableEq, Repr

def ShiftOp.apply {n : Nat} (op : ShiftOp) (a : BitVec n) (c : Nat) : BitVec n :=
  match op with
  | .shl => a <<< c
  | .shr => a >>> c
  | .sar => a.sshiftRight c
  | .rol => a.rotateLeft c
  | .ror => a.rotateRight c

/-- With `.w` the count is b[4:0] and the 32-bit result is sign-extended; else b[5:0] on 64 bits (R130). -/
def shiftBy (op : ShiftOp) (w : Bool) (a b : DWord) : DWord :=
  if w then (op.apply (a.setWidth 32) (b.toNat % 32)).signExtend 64 else op.apply a (b.toNat % 64)

/-- A bitwise operation on 64 bits, or on the low 32 with the result sign-extended (R130). -/
def logicBy (f : DWord → DWord → DWord) (w : Bool) (a b : DWord) : DWord :=
  if w then ((f a b).setWidth 32).signExtend 64 else f a b

/-- Number of 1 bits (R131). -/
def popCount (x : DWord) : Nat := ((List.range 64).filter fun i => x.getLsbD i).length

/-- Number of 0 bits above the highest 1 (R131). -/
def leadingZeros (x : DWord) : Nat := if x = 0 then 64 else 63 - Nat.log2 x.toNat

/-- `bf_extract` (R134): bits beyond 63 read 0. -/
def bfExtract (x : DWord) (ofs wid : Nat) (sgn : Bool) : DWord :=
  let y := x.toNat / 2 ^ ofs % 2 ^ wid
  if sgn then (if wid = 0 then 0 else sextN wid y) else BitVec.ofNat 64 y

/-- `bf_insert` (R134): bits beyond 63 are not written. -/
def bfInsert (d v : DWord) (ofs wid : Nat) : DWord :=
  let mask : DWord := BitVec.ofNat 64 ((2 ^ wid - 1) * 2 ^ ofs)
  (d &&& ~~~mask) ||| ((v <<< ofs) &&& mask)

/-- A branch condition (R94) with the taint of its register. -/
def branchCond (s : State) (c : BitVec 8) (e : Bool) : Eff (Bool × Taint) :=
  let r := c.toNat % 64
  match c.toNat / 64 with
  | 0 => .ok (true, 0)
  | 1 => (srcS s (BitVec.ofNat 6 r) e).map fun v => (decide (v ≠ 0), taintS s (BitVec.ofNat 6 r))
  | 2 => (srcS s (BitVec.ofNat 6 r) e).map fun v => (decide (v = 0), taintS s (BitVec.ofNat 6 r))
  | _ => (source s (.p (r % 8)) e).map fun _ =>
    let v := (s.pre.pReg (r % 8)).val
    (match r / 16 with
     | 0 => v.getLsbD 0
     | 1 => decide (v ≠ 0)
     | 2 => decide (v = BitVec.allOnes 512)
     | _ => decide (v = 0),
     (s.pre.pReg (r % 8)).taint)

end Sys2Proof.Machine
end

