-- ==== Sys2Proof/Machine/CopyOps.lean ====
section
/-! DEFINITION. The copy and collective instructions (R388 to R411), and COPY_PERFORM, LANDING_UNIT_ARRIVAL, STORE_PERFORM, and the collectives' events. -/

namespace Sys2Proof.Machine

/-! ## Staging words (R201, R202, R391) -/

/-- Word i of copy staging register n. -/
def ckWord (s : State) (n i : Nat) : DWord := (Tbl.getD s.pre.ck (4 * n + i) {}).val

/-- Masks of the four words of a staging register. -/
def stageTaint (t : Tbl TWord) (n : Nat) : Taint :=
  (List.range 4).foldl (fun (m : Taint) i => m ||| (Tbl.getD t (4 * n + i) {}).taint) 0

/-- Reserved bits and codes of word i (R202). -/
def ckBad (i : Nat) (w : DWord) : Bool :=
  match i with
  | 0 => decide (bits w 63 56 ≠ 0)
  | 1 => decide (bits w 63 56 ≠ 0 ∨ bits w 31 21 ≠ 0)
  | 2 => decide (bits w 41 21 ≠ 0 ∨ 767 < bits w 63 54 ∨ 71 < bits w 48 42)
  | _ => decide (bits w 63 16 ≠ 0 ∨ bits w 9 0 ≠ 0 ∨ 3 < bits w 15 12 ∨ 1 < bits w 11 10)

def wordsOk (s : State) (n : Nat) (is : List Nat) : Bool := is.all fun i => !ckBad i (ckWord s n i)

def lenOf (s : State) (f : CpWord) : Nat := bits (ckWord s f.stg.toNat 1) 55 32
def dirOf (s : State) (f : CpWord) : Nat := bits (ckWord s f.stg.toNat 3) 11 10
def gaddrOf (s : State) (n : Nat) (f : CpWord) : Nat := bits (ckWord s n 0) 55 0 + f.off.toNat * 64
def spaddrOf (s : State) (f : CpWord) : Nat := bits (ckWord s f.stg.toNat 1) 20 0 + f.off.toNat * 64

/-- A command's local range lies in reachable granules; else the lowest address outside them (R391). -/
def spadRange (s : State) (a len : Nat) : Eff Unit :=
  let gs := (List.range (if len = 0 then 0 else (a + len - 1) / 4096 - a / 4096 + 1)).map fun i => a / 4096 + i
  match gs.find? fun g => !(decide (g < 384) && s.granReach g) with
  | some g => .error (.trap 0x0C (BitVec.ofNat 64 (max a (g * 4096))))
  | none => .ok ()

/-! ## Issuing a command (R388, R389) -/

def State.taskNo (s : State) : Nat := s.taskId.getD 0

/-- A command as issued from staging register n. -/
def command (s : State) (n : Nat) : Copy :=
  { u := s.cur, task := s.taskNo, ck := n, warn := s.core.spv.getLsbD 0 }

/-- Flag FL of a unit where FE is set. -/
def flagOf (f : CpWord) (u : Nat) : Option (Nat × Nat) := if f.fe then some (u, f.fl.toNat) else none

/-- Count the command in its tracker. -/
def State.track (s : State) (c : Copy) : State :=
  let s := s.countAt s.cur 0x10 1
  if c.tracked then s.upd fun x =>
    let t := Tbl.getD x.trk.ck c.ck {}
    { x with trk := { x.trk with ck := Tbl.set x.trk.ck c.ck { t with out := t.out + 1 } } }
  else s

/-- Put a command into its die's queue of 256. -/
def State.queueCopy (s : State) (c : Copy) : State :=
  s.updDie (dieOf c.u) fun x => { x with copyq := x.copyq ++ [{ c with id := x.nextCopy }], nextCopy := x.nextCopy + 1 }

def State.copyRoom (s : State) (d : Nat) : Bool := decide ((s.dieAt d).copyq.length < 256)

/-- Issue: at once into the queue, or withheld (R388). A register with OUT = 65,535 waits. -/
def issueCopy (s : State) (c : Copy) (taint : Taint) (withheld : Bool) : Eff State := do
  need (!c.tracked || decide ((Tbl.getD s.core.trk.ck c.ck {}).out < 65535)) stall
  let m := accessTaint s taint
  let waits := m &&& s.core.pendingMask
  if withheld then
    let s ← s.withhold [.copy { c with waits := 0 }] waits 0
    .ok (s.track c)
  else
    need (s.copyRoom (dieOf s.cur)) stall
    .ok ((s.track c).queueCopy { c with waits := waits })

/-- `CPY` (R392). -/
def cpy (s : State) (f : CpWord) : Eff State := do
  let n := f.stg.toNat
  need (wordsOk s n [0, 1, 3] && !isControl s.cur && !(f.dec && decide (dirOf s f ≠ 0))) (illegalOperand s)
  let len := lenOf s f
  spadRange s (spaddrOf s f) len
  let g : Side := .glob (s.tsid s.cur) (gaddrOf s n f)
  let l : Side := .spad s.cur (spaddrOf s f)
  let c := { command s n with len := len, flag := flagOf f s.cur }
  if dirOf s f = 0 then
    need (!(f.dec && s.prior.core.dtBusy.contains f.dt.toNat)) stall
    issueCopy s { c with src := g, dst := l, dec := if f.dec then some f.dt.toNat else none } (stageTaint s.pre.ck n) false
  else issueCopy s { c with src := l, dst := g } (stageTaint s.pre.ck n) true

/-- `CPYR` (R393). -/
def cpyr (s : State) (f : CpWord) : Eff State := do
  let n := f.stg.toNat
  let w := ckWord s n 2
  let len := lenOf s f
  let a := spaddrOf s f
  let da := bits w 20 0 + f.off.toNat * 64
  let e := afmtBytes (bits (ckWord s n 3) 15 12)
  need (wordsOk s n [1, 2, 3] && (!f.acw || decide (len % e = 0 ∧ a % e = 0 ∧ da % e = 0)) &&
    (!f.le || decide (len % 64 = 0 ∧ da % 64 = 0))) (illegalOperand s)
  spadRange s a len
  let u := (bits w 63 54 * 32 + bits w 53 49) * 128 + bits w 48 42
  issueCopy s { command s n with
    len := len, src := .spad s.cur a, dst := .spad u da, remote := true, flag := flagOf f u
    acc := if f.acw then some (bits (ckWord s n 3) 15 12) else none
    lc := if f.le then some f.lc.toNat else none } (stageTaint s.pre.ck n) true

/-- `CPYS` (R394): N is even; word 0 of the next register is the destination. -/
def cpys (s : State) (f : CpWord) : Eff State := do
  let n := f.stg.toNat
  need (decide (n % 2 = 0) && wordsOk s n [0, 1] && wordsOk s (n + 1) [0]) (illegalOperand s)
  let t := s.tsid s.cur
  issueCopy s { command s n with
    len := lenOf s f, src := .glob t (gaddrOf s n f), dst := .glob t (gaddrOf s (n + 1) f), flag := flagOf f s.cur }
    (stageTaint s.pre.ck n ||| stageTaint s.pre.ck (n + 1)) true

/-- `CFILL` (R395). -/
def cfill (s : State) (f : CpWord) : Eff State := do
  let n := f.stg.toNat
  let v ← srcS s f.sr f.ea
  need (wordsOk s n [1, 3] && (decide (dirOf s f = 0) || wordsOk s n [0]) && !(isControl s.cur && decide (dirOf s f = 0))) (illegalOperand s)
  let c := { command s n with len := lenOf s f, src := .bytes (toBytes 8 v.toNat), flag := flagOf f s.cur }
  let t := stageTaint s.pre.ck n ||| taintS s f.sr
  if dirOf s f = 0 then
    spadRange s (spaddrOf s f) (lenOf s f)
    issueCopy s { c with dst := .spad s.cur (spaddrOf s f) } t false
  else issueCopy s { c with dst := .glob (s.tsid s.cur) (gaddrOf s n f) } t true

/-! ## Channels (R400 to R403) -/

/-- Context of the running task, which names its channels (R307). -/
def State.taskCtx (s : State) : Nat := s.core.ofTask fun r => r.ctx

/-- The queue fault of a channel: class 1 push, 2 pop; kind 2 limit expired, 3 not its endpoint (R309). -/
def chanFault (s : State) (cls kind ch : Nat) : Stop :=
  let p : Nat × Nat × Nat := match s.chan (dieOf s.cur) s.taskCtx ch with
    | none => (0, 0, 0)
    | some e => match s.chanAtReceiver e s.taskCtx ch with
      | some r => (e.depth, r.pushIx, r.popIx)
      | none => (e.depth, e.pushIx, e.popIx)
  .trap 0x10 (BitVec.ofNat 64 (cls * 2 ^ 62 + kind * 2 ^ 60 + ch * 2 ^ 48 + p.1 * 2 ^ 32 + p.2.1 * 2 ^ 16 + p.2.2))

/-- The loaded entry whose sender is this core. -/
def sendEnd (s : State) (ch : Nat) : Eff ChanEnt :=
  match s.chan (dieOf s.cur) s.taskCtx ch with
  | some e => if e.sender = s.cur then .ok e else .error (chanFault s 1 3 ch)
  | none => .error (chanFault s 1 3 ch)

/-- The landing slot of a send: SENDIX mod DEPTH (R401). -/
def sendTo (s : State) (e : ChanEnt) (ch : Nat) : Side :=
  .slot e.receiver s.taskCtx ch (e.sendIx % e.depth)

/-- A channel send issues: SENDIX advances (R401), which no rollback undoes (R441; log 83). -/
def State.countSend (s : State) (ch : Nat) : State :=
  s.updCtx (dieOf s.cur) s.taskCtx fun x => match Tbl.get? x.chans ch with
    | some e => { x with chans := Tbl.set x.chans ch { e with sendIx := (e.sendIx + 1) % 65536 } }
    | none => x

/-- `CSEND` (R401). -/
def csend (s : State) (f : CpWord) : Eff State := do
  let n := f.stg.toNat
  let ch := f.ch.toNat
  need (wordsOk s n [1]) (illegalOperand s)
  let e ← sendEnd s ch
  let a := spaddrOf s f
  need (decide (lenOf s f = e.tileBytes) && decide (a % 64 = 0)) (illegalOperand s)
  spadRange s a e.tileBytes
  (issueCopy s { command s n with len := e.tileBytes, src := .spad s.cur a, dst := sendTo s e ch, remote := true }
    (stageTaint s.pre.ck n) true).map fun s => s.countSend ch

/-- `CQSEND` (R402): rows leave the queue at issue; promised rows are waited for. A row with an uncorrectable error ends the command
where it is read (R391, R415). -/
def cqsend (s : State) (f : CpWord) : Eff State := do
  let ch := f.ch.toNat
  let q := f.rq.toNat
  let e ← sendEnd s ch
  need (decide (e.tileBytes % 512 = 0)) (illegalOperand s)
  let r := e.tileBytes / 512
  let c := s.core
  let head := Tbl.getD c.live.rqHead q 0
  let present := Tbl.getD c.live.rqTail q 0 - head
  need (decide (r ≤ c.occupancy c.live q)) (queueFault s 1 q r)
  need (decide (r ≤ present)) stall
  let bad := (List.range r).find? fun i => c.rowsBad.contains (q * 2 ^ 32 + head + i)
  let bs := (List.range r).flatMap fun i => vecBytes (Tbl.getD c.rows (q * 2 ^ 32 + head + i) 0)
  let s := s.live fun g => { g with rqHead := Tbl.set g.rqHead q (head + r) }
  (issueCopy s { command s 0 with
    tracked := false, len := e.tileBytes, src := .bytes bs, dst := sendTo s e ch, remote := true
    badFrom := bad.map fun i => 512 * i } 0 true).map fun s => s.countSend ch

/-- `CHOPEN` and `CHCLOSE` (R403). -/
def setOpen (s : State) (f : CpWord) (b : Bool) : Eff State :=
  let ch := f.ch.toNat
  match s.chan (dieOf s.cur) s.taskCtx ch with
  | some e =>
    if e.receiver = s.cur then
      .ok (s.updCtx (dieOf s.cur) s.taskCtx fun x => { x with chans := Tbl.set x.chans ch { e with isOpen := b } })
    else .error (chanFault s 2 3 ch)
  | none => .error (chanFault s 2 3 ch)

/-! ## Collectives (R406, R410, R411) -/

def clWord (s : State) (n i : Nat) : DWord := (Tbl.getD s.pre.cl (4 * n + i) {}).val

/-- `SLUICE` (R406): withheld; the tracker names the instance. -/
def sluice (s : State) (f : CpWord) : Eff State := do
  let n := f.stg.toNat
  let m : Member := { u := s.cur, task := s.taskNo, cl := n, w0 := clWord s n 0, w1 := clWord s n 1, w2 := clWord s n 2, w3 := clWord s n 3
                      tsid := s.tsid s.cur, flag := if f.fe then some f.fl.toNat else none }
  need (!m.illegal) (illegalOperand s)
  let s ← s.withhold [.sluice m (Tbl.getD s.core.trk.cl n {})] (accessTaint s (stageTaint s.pre.cl n) &&& s.core.pendingMask) 0
  let x : ClTrack := { valid := true, part := (s.dieAt (dieOf s.cur)).partition, group := m.group, step := m.step, buf := m.buf }
  .ok (s.upd fun c => { c with trk := { c.trk with cl := Tbl.set c.trk.cl n x } })

/-- STATE of `SLSTAT` that a record's STATE tells (R410). -/
def slState : Nat → Nat
  | 1 => 4
  | 2 => 5
  | _ => 6

/-- The member that a tracker names is still withheld. -/
def Core.withholds (c : Core) (u task cl : Nat) (t : ClTrack) : Bool :=
  c.wb.any fun e => match e.k with
    | .sluice m _ => m.isNamed u task cl t
    | _ => false

/-- The live instance that holds the member a tracker names, and whether that member is finished. -/
def State.ownInst (s : State) (u task cl : Nat) (t : ClTrack) : Option (Inst × Bool) :=
  s.insts.findSome? fun i => if i.part ≠ t.part then none
    else (i.members.find? fun m => m.isNamed u task cl t).map fun m => (i, m.done)

/-- STATE, CAUSE and ARRIVED of the instance a tracker names (R410): the member is withheld, in a live instance, or finished. -/
def State.instState (s : State) (u task cl : Nat) (t : ClTrack) : Nat × Nat × Nat :=
  let ended := match s.memberEnds.find? fun e => e.m.isNamed u task cl t && decide (e.part = t.part) with
    | some e => (slState e.state, e.cause, e.arrived)
    | none => (0, 0, 0)
  if !t.valid then (0, 0, 0)
  else if (s.coreAt u).withholds u task cl t then (1, 0, 0)
  else match s.ownInst u task cl t with
    | some (_, true) => ended
    | some (i, false) => match i.abort with
      | some cause => (slState (abortState cause), cause, i.arrived)
      | none => (if i.committed then 3 else 2, 0, i.arrived)
    | none => ended

/-- `SLSTAT` (R410). -/
def slstat (s : State) (f : CpWord) : Eff State := do
  dstS s f.sr
  let t := Tbl.getD s.core.trk.cl f.stg.toNat {}
  let r := s.instState s.cur s.taskNo f.stg.toNat t
  .ok (s.produce (.s f.sr.toNat) (r.1 * 2 ^ 56 + r.2.1 * 2 ^ 48 + r.2.2 % 65536 * 2 ^ 32 + (if t.valid then t.step else 0)) 0 4 0)

/-- `SLABORT` (R411): withheld. -/
def slabort (s : State) (f : CpWord) : Eff State :=
  let n := f.stg.toNat
  s.withhold [.slabort s.taskNo n (Tbl.getD s.core.trk.cl n {})] (accessTaint s (stageTaint s.pre.cl n) &&& s.core.pendingMask) 0

/-- `DTLOAD` (R396): no command in flight names the slot; those of its own group are served in program order (R416). -/
def dtload (s : State) (f : CpWord) : Eff State := do
  let n := f.stg.toNat
  let dt := f.dt.toNat
  need (wordsOk s n [0]) (illegalOperand s)
  need (!s.prior.tableUsed s.cur dt none && !s.prior.core.dtBusy.contains dt) stall
  let s ← issueCopy s { command s n with
    len := 272, src := .glob (s.tsid s.cur) (bits (ckWord s n 0) 55 0), dst := .bytes [], dtload := some dt } (stageTaint s.pre.ck n) false
  .ok (s.upd fun c => { c with dtBusy := dt :: c.dtBusy })

/-- `CWAIT` (R397): the implicit checkpoint first while a counted command is withheld; then the copy fault, or the
completion wait of R269. -/
def cwait (s : State) (f : CpWord) : Eff State :=
  let k := f.stg.toNat
  let t := Tbl.getD s.core.trk.ck k {}
  let held := s.core.wb.any fun e => !e.released && (match e.k with
    | .copy c => c.tracked && decide (c.ck = k)
    | _ => false)
  if t.out ≠ 0 then .error (.wait .plain held false)
  else if t.err then .error (.copyFault k (BitVec.ofNat 64 (t.code * 2 ^ 56 + t.addr % 2 ^ 56)))
  else .ok (s.acquire s.cur)

/-- `CSTAT` (R397). -/
def cstat (s : State) (f : CpWord) : Eff State := do
  dstS s f.sr
  .ok (s.produce (.s f.sr.toNat) (Tbl.getD s.core.trk.ck f.stg.toNat {}).word.toNat 0 4 0)

/-! ## Performing withheld effects (R257, R258, R261, R442) -/

/-- A release entry or a post is performed after every earlier store; a store after the earlier ones it overlaps; an abort after
the `SLUICE` it names, which would else have started no instance. -/
def WEntry.mayPass (e : WEntry) (x : WEntry) : Bool :=
  match x.k with
  | .store qs _ _ _ => (match e.k with
    | .store ps _ rel _ => !rel && !piecesMeet ps qs
    | .post _ _ => false
    | .doorbell _ => false
    | _ => true)
  | .sluice m _ => (match e.k with
    | .slabort task cl t => !m.isNamed m.u task cl t
    | _ => true)
  | _ => true

/-- The entry is a release: what the core stored before it, the scratchpad included, is performed with it (R261). -/
def WEntry.releases (e : WEntry) : Bool :=
  match e.k with
  | .store _ _ rel _ => rel
  | .post _ _ => true
  | .doorbell _ => true
  | _ => false

/-- The entry can be performed: released, its loads bound, its earlier entries performed, room in the copy queue. -/
def State.canPerform (s : State) (u : Nat) (e : WEntry) : Bool :=
  e.released && decide (e.waits = 0) &&
  ((s.coreAt u).wb.filter fun x => decide (x.serial < e.serial)).all e.mayPass &&
  match e.k with
  | .copy _ => s.copyRoom (dieOf u)
  | _ => true

/-- Perform a withheld effect. -/
def State.perform (s : State) (u : Nat) (e : WEntry) : State :=
  let s := s.updAt u fun c => { c with wb := c.wb.filter fun x => !decide (x.serial = e.serial) }
  let s := if e.releases then s.settle u else s
  match e.k with
  | .store ps data _ _ =>
    data.foldl (fun s b => match ps.find? fun p => decide (p.off ≤ b.1 ∧ b.1 < p.off + p.len) with
      | some p => (s.writeMem (p.pa + (b.1 - p.off)) [b.2]).updAt u fun c => c.l1Store (p.pa + (b.1 - p.off)) e.minFill [b.2]
      | none => s) s
  | .post t k => { s with posts := s.posts ++ [{ id := s.nextNet, src := u, target := t, flag := k }], nextNet := s.nextNet + 1 }
  | .doorbell t => if s.postReaches u t && isControl t then s.irq t 0 else s
  | .copy c => s.queueCopy c
  | .sluice m _ => (s.settle u).joinMember m 0
  | .slabort task cl t =>
    s.abortInsts (fun i => decide (i.part = t.part) && i.members.any fun m => m.isNamed u task cl t) 0x06 (some (u, task))

/-! ## Meanings -/

/-- CPY (R392). -/
def execCpy (f : CpWord) (s : State) : Host.Outcome State Fault Refusal := run (.cpy f) s fun s => cpy s f

/-- CPYR (R393). -/
def execCpyr (f : CpWord) (s : State) : Host.Outcome State Fault Refusal := run (.cpyr f) s fun s => cpyr s f

/-- CPYS (R394). -/
def execCpys (f : CpWord) (s : State) : Host.Outcome State Fault Refusal := run (.cpys f) s fun s => cpys s f

/-- CFILL (R395). -/
def execCfill (f : CpWord) (s : State) : Host.Outcome State Fault Refusal := run (.cfill f) s fun s => cfill s f

/-- CSEND (R401). -/
def execCsend (f : CpWord) (s : State) : Host.Outcome State Fault Refusal := run (.csend f) s fun s => csend s f

/-- CQSEND (R402). -/
def execCqsend (f : CpWord) (s : State) : Host.Outcome State Fault Refusal := run (.cqsend f) s fun s => cqsend s f

/-- CHOPEN (R403). -/
def execChopen (f : CpWord) (s : State) : Host.Outcome State Fault Refusal := run (.chopen f) s fun s => setOpen s f true

/-- CHCLOSE (R403). -/
def execChclose (f : CpWord) (s : State) : Host.Outcome State Fault Refusal := run (.chclose f) s fun s => setOpen s f false

/-- SLUICE (R406). -/
def execSluice (f : CpWord) (s : State) : Host.Outcome State Fault Refusal := run (.sluice f) s fun s => sluice s f

/-- SLSTAT (R410). -/
def execSlstat (f : CpWord) (s : State) : Host.Outcome State Fault Refusal := run (.slstat f) s fun s => slstat s f

/-- SLABORT (R411). -/
def execSlabort (f : CpWord) (s : State) : Host.Outcome State Fault Refusal := run (.slabort f) s fun s => slabort s f

/-- DTLOAD (R396). -/
def execDtload (f : CpWord) (s : State) : Host.Outcome State Fault Refusal := run (.dtload f) s fun s => dtload s f

/-- CWAIT (R397). -/
def execCwait (f : CpWord) (s : State) : Host.Outcome State Fault Refusal := run (.cwait f) s fun s => cwait s f

/-- CSTAT (R397). -/
def execCstat (f : CpWord) (s : State) : Host.Outcome State Fault Refusal := run (.cstat f) s fun s => cstat s f

/-- One unit of a vector store is performed before the others: its piece leaves the entry (R254). -/
def State.performPiece (s : State) (u : Nat) (e : WEntry) (i : Nat) : State :=
  match e.k with
  | .store ps data rel wide => match ps[i]? with
    | some p =>
      let t := s.perform u { e with k := .store [p] data rel wide }
      if ps.length ≤ 1 then t
      else t.updAt u fun c => { c with wb := (s.coreAt u).wb.map fun (x : WEntry) =>
        if x.serial = e.serial then { x with k := .store (ps.eraseIdx i) data rel wide } else x }
    | none => s
  | _ => s

/-- STORE_PERFORM (R257, R258): withheld entry `k` of unit `u`; with `m` only its piece `m` - 1 (R254). -/
def execStorePerform (s : State) : Host.Outcome State Fault Refusal :=
  let u := s.ev.u
  match (s.coreAt u).wb.find? fun (e : WEntry) => decide (e.serial = s.ev.k) with
  | some e => atUnit s u (s.canPerform u e) (if s.ev.m = 0 then s.perform u e else s.performPiece u e (s.ev.m - 1))
  | none => atUnit s u false s

/-- COPY_PERFORM (R388, R391): command `k` of die `u` makes its move `m`, 0 being all of it. -/
def execCopyPerform (s : State) : Host.Outcome State Fault Refusal :=
  match (s.dieAt s.ev.u).copyq.find? fun (c : Copy) => decide (c.id = s.ev.k) with
  | some c => happen s (s.copyReady c) (s.performCopy c s.ev.m)
  | none => happen s false s

/-- LANDING_UNIT_ARRIVAL (R393, R421): unit `u` of those on their way; `flag`: it is written later where none can tell (R269). -/
def execLandingUnitArrival (s : State) : Host.Outcome State Fault Refusal :=
  match s.units.find? fun (x : Unit64) => decide (x.id = s.ev.u) with
  | some x => happen s true (s.landUnit x s.ev.flag)
  | none => happen s false s

/-- FLAG_POST_ARRIVAL (R418, R420): post `u` of those on their way. -/
def execFlagPostArrival (s : State) : Host.Outcome State Fault Refusal :=
  match s.posts.find? fun (x : Post) => decide (x.id = s.ev.u) with
  | some x => happen s true (State.post { s with posts := s.posts.filter fun (y : Post) => !decide (y.id = x.id) } x.src x.target x.flag)
  | none => happen s false s

/-- The instance and member that key `u` of a member's message names: instance × 2,048 + member. -/
def memberKey (s : State) : Option (Inst × Nat) :=
  (s.insts.find? fun (i : Inst) => decide (i.id = s.ev.u / 2048)).map fun i => (i, s.ev.u % 2048)

/-- CONTRIBUTION_ARRIVAL (R409): contribution `u` reaches the root. -/
def execContributionArrival (s : State) : Host.Outcome State Fault Refusal :=
  match memberKey s with
  | some (i, n) => happen s true (s.contribute i n)
  | none => happen s false s

/-- ABORT_TOKEN_ARRIVAL (R411): token `u` reaches its member. -/
def execAbortTokenArrival (s : State) : Host.Outcome State Fault Refusal :=
  match memberKey s with
  | some (i, n) => happen s true (s.abortArrives i n)
  | none => happen s false s

/-- MEMBER_COMPLETION (R409): member `k` of instance `u` takes its result. -/
def execMemberCompletion (s : State) : Host.Outcome State Fault Refusal :=
  match s.insts.find? fun (i : Inst) => decide (i.id = s.ev.u) with
  | some i => happen s (i.mayTake s.ev.k) (s.distribute i s.ev.k)
  | none => happen s false s

end Sys2Proof.Machine
end

