-- ==== Sys2Proof/Machine/Sync.lean ====
section
/-! DEFINITION. The sync slot (R302 to R309, R423 to R428, R266, R267): flags, landing counters, channel queues, weirs, fences, suspension, and the expiry of limits. -/

namespace Sys2Proof.Machine

/-! ## Waits with a limit (R303, R425, R428) -/

/-- Cycles of a LIM field (R93); 31 is no limit. -/
def limitOf (lim : BitVec 5) : Option Nat := if lim = 31 then none else some (2 ^ (lim.toNat + 4))

/-- The limit of the group in progress passed before this cycle: what satisfies the wait in the cycle of the limit comes
first (R310). -/
def State.pastLimit (s : State) : Bool :=
  match s.core.deadline with
  | some d => decide (1 ≤ (s.cycle48 (dieOf s.cur) + 2 ^ 48 - d) % 2 ^ 48 ∧ (s.cycle48 (dieOf s.cur) + 2 ^ 48 - d) % 2 ^ 48 < 2 ^ 47)
  | none => false

/-- The wait stalls in place: it is a `BAR`, or the task may not suspend (R178, R299, R427). -/
def State.stallsHere (s : State) (kind : Nat) : Bool := decide (kind = 8) || !s.prior.core.maySuspend

/-- The limit trap of a wait (R309, R428): 1 flag, 2 landing counter, 3 push, 4 pop, 8 weir. ARRIVED is read with the
core's own arrival. -/
def limitTrap (s : State) (kind ix tgt : Nat) : Stop :=
  let info (w n t : Nat) : Stop := .trap 0x13 (BitVec.ofNat 64 (w * 2 ^ 60 + ix * 2 ^ 48 + n % 2 ^ 16 * 2 ^ 32 + t % 2 ^ 16 * 2 ^ 16))
  match kind with
  | 1 => info 1 (Core.flag s.core.live ix) tgt
  | 2 => info 2 (s.core.lcAt ix).count (s.core.lcAt ix).target
  | 3 => chanFault s 1 2 ix
  | 4 => chanFault s 2 2 ix
  | _ => info 3 (s.weirArrived s.cur ix) (s.weirMembers s.cur ix).length

/-- A wait: done where its condition holds; else its limit trap where it stalls in place, or it suspends or stalls; a task
that may suspend does so again with a limit that has passed (R303, R425). With TO the trap comes without a check. -/
def await (s : State) (cond : Bool) (kind ix tgt : Nat) (lim : BitVec 5) : Eff Unit :=
  if cond && !s.core.timedOut then .ok ()
  else if s.core.timedOut || (s.pastLimit && s.core.holding && s.stallsHere kind) then .error (limitTrap s kind ix tgt)
  else .error (.suspend kind ix tgt (limitOf lim))

/-! ## Flags and landing counters (R424 to R426) -/

/-- `FPOST`: at once to the core's own flag, else withheld as a release. -/
def fpost (s : State) (k : Nat) (r : BitVec 6) (ea : Bool) : Eff State := do
  let v ← srcS s r ea
  let t := if r = 0 then s.cur else unitOfId v
  if t = s.cur then .ok ((s.upd fun c => c.countSaturation k).ownFlag fun g => g.bumpFlag k)
  else s.withhold [.post t k] s.core.pendingMask 0

/-- `FSET`. -/
def fset (s : State) (k : Nat) (r : BitVec 6) (ea : Bool) : Eff State := do
  let v ← srcS s r ea
  .ok (s.ownFlag fun g => g.setFlag k (bits v 15 0))

/-- `FWAIT`: satisfied, an acquire and a completion wait. -/
def fwait (s : State) (k : Nat) (r : BitVec 6) (ea : Bool) (lim : BitVec 5) : Eff State := do
  let v ← srcS s r ea
  let t := bits v 15 0
  await s (decide (t ≤ Core.flag s.pre k)) 1 k t lim
  .ok (s.acquire s.cur)

/-- `FGET`. -/
def fget (s : State) (k : Nat) (r : BitVec 6) : Eff State := do
  dstS s r
  .ok (s.produce (.s r.toNat) (Core.flag s.pre k) 0 2 0)

/-- `LSET`: in a checkpoint group, once. -/
def lset (s : State) (m : Nat) (r : BitVec 6) (ea : Bool) : Eff State := do
  let v ← srcS s r ea
  let s ← s.needCk
  .ok (s.armLanding s.cur m v).ckEnd

/-- `LWAIT`. -/
def lwait (s : State) (m : Nat) (lim : BitVec 5) : Eff State := do
  await s (s.core.lcAt m).posted 2 m 0 lim
  .ok (s.acquire s.cur)

/-! ## Channels as queues (R305, R307) -/

/-- The receiver holds no room. -/
def State.chanFull (s : State) (e : ChanEnt) (ctx ch : Nat) : Bool :=
  match s.chanAtReceiver e ctx ch with
  | some x => decide (x.depth ≤ x.count)
  | none => false

/-- `QPUSH`: the entry travels to the receiver; the group completes once it has been applied. -/
def qpush (s : State) (ch : Nat) (r : BitVec 6) (ea : Bool) (lim : BitVec 5) : Eff State := do
  need (!s.core.timedOut) (limitTrap s 3 ch 0)
  let e ← sendEnd s ch
  let v ← srcS s r ea
  let s ← s.needCk
  match s.core.push with
  | .applied => .ok s.ckEnd
  | .flying _ => .error stall
  | p => do
    await s (!(decide (p = .full) && s.chanFull e s.taskCtx ch)) 3 ch 0 lim
    .error (.push ch v)

/-- `QPOP`: the oldest entry leaves the ring. -/
def qpop (s : State) (ch : Nat) (r : BitVec 6) (lim : BitVec 5) : Eff State := do
  let ctx := s.taskCtx
  need (!s.core.timedOut) (limitTrap s 4 ch 0)
  match s.chan (dieOf s.cur) ctx ch with
  | none => .error (chanFault s 2 3 ch)
  | some e => do
    need (decide (e.receiver = s.cur) && e.isOpen) (chanFault s 2 3 ch)
    dstS s r
    let s ← s.needCk
    await s (decide (e.pushIx ≠ e.popIx)) 4 ch 0 lim
    let x := Tbl.getD e.ring (e.popIx % e.depth) 0
    let s := s.updCtx (dieOf s.cur) ctx fun y => { y with chans := Tbl.set y.chans ch { e with popIx := (e.popIx + 1) % 65536 } }
    .ok ((s.produce (.s r.toNat) x.toNat 0 3 0).wake e.sender).ckEnd

/-- The receiver applies a push: the entry enters the ring, or its sender learns that the channel is full. Nothing
happens while the receiver's table does not hold the channel; an entry whose group has trapped is withdrawn (R307). -/
def State.applyPush (s : State) (x : Push) : State :=
  match (s.chanCtx (dieOf x.dst) x.ctx x.ch { e0 := x.e0, e1 := x.e1 }).bind fun c => (s.chan (dieOf x.dst) c x.ch).map fun e => (c, e) with
  | none => s
  | some (ctx, e) =>
    if (s.coreAt x.src).push ≠ .flying x.id then { s with pushes := s.pushes.filter fun (y : Push) => !decide (y.id = x.id) }
    else
    let room := decide (e.count < e.depth)
    let s := { s with pushes := s.pushes.filter fun (y : Push) => !decide (y.id = x.id) }
    let s := if room then s.updCtx (dieOf x.dst) ctx fun y =>
        { y with chans := Tbl.set y.chans x.ch { e with ring := Tbl.set e.ring (e.pushIx % e.depth) x.val, pushIx := (e.pushIx + 1) % 65536 } }
      else s
    (s.updAt x.src fun c => if c.push = .flying x.id then { c with push := if room then .applied else .full } else c).wake x.dst

/-! ## Weirs and fences (R266, R267, R427) -/

/-- `BAR`: after the checkpoint of R259 its group issues; it arrives behind the accesses of the group that precede it, and its
completion is an acquire at a scope beyond the core (R270, R427). -/
def bar (s : State) (sc : Nat) (lim : BitVec 5) : Eff State := do
  let s ← s.needCk
  .ok (s.leave (.bar sc (limitOf lim)))

/-- `FENCE` (R266): beyond the core, everything withheld is released and performed, every load has bound, and no later
load uses an older L1 line; at the core, later accesses follow the earlier loads. -/
def fence (s : State) (sc : Nat) : Eff State :=
  if sc = 0 then .ok (s.upd fun c => { c with acqWaits := c.acqWaits ||| c.pendingMask })
  else s.holdFor .fence

/-- `XFENCE` (R267): the group is held until every earlier access on both paths is performed. -/
def xfence (s : State) (pa pb : Nat) : Eff State := s.holdFor (.xfence pa pb)

/-- `SUSPEND` (R427). A full resume list leaves it without effect; so does a handler, whose level no record holds. -/
def suspendNow (s : State) : Eff State :=
  .ok (if (Tbl.free s.core.resume 16).isSome && decide (s.core.tlevel = 0) then s.leave .suspend else s)

/-! ## Meanings -/

/-- FPOST (R424). -/
def execFpost (k : BitVec 5) (r : BitVec 6) (ea : Bool) (s : State) : Host.Outcome State Fault Refusal :=
  run (.fpost k r ea) s fun s => fpost s k.toNat r ea

/-- FSET (R424). -/
def execFset (k : BitVec 5) (r : BitVec 6) (ea : Bool) (s : State) : Host.Outcome State Fault Refusal :=
  run (.fset k r ea) s fun s => fset s k.toNat r ea

/-- FWAIT (R425). -/
def execFwait (k : BitVec 5) (r : BitVec 6) (ea : Bool) (lim : BitVec 5) (s : State) : Host.Outcome State Fault Refusal :=
  run (.fwait k r ea lim) s fun s => fwait s k.toNat r ea lim

/-- FGET (R426). -/
def execFget (k : BitVec 5) (r : BitVec 6) (s : State) : Host.Outcome State Fault Refusal :=
  run (.fget k r) s fun s => fget s k.toNat r

/-- LSET (R426). -/
def execLset (m : BitVec 6) (r : BitVec 6) (ea : Bool) (s : State) : Host.Outcome State Fault Refusal :=
  run (.lset m r ea) s fun s => lset s m.toNat r ea

/-- LWAIT (R425). -/
def execLwait (m : BitVec 6) (lim : BitVec 5) (s : State) : Host.Outcome State Fault Refusal :=
  run (.lwait m lim) s fun s => lwait s m.toNat lim

/-- QPUSH (R307). -/
def execQpush (c : BitVec 8) (r : BitVec 6) (ea : Bool) (lim : BitVec 5) (s : State) : Host.Outcome State Fault Refusal :=
  run (.qpush c r ea lim) s fun s => qpush s c.toNat r ea lim

/-- QPOP (R307). -/
def execQpop (c : BitVec 8) (r : BitVec 6) (lim : BitVec 5) (s : State) : Host.Outcome State Fault Refusal :=
  run (.qpop c r lim) s fun s => qpop s c.toNat r lim

/-- BAR (R427). -/
def execBar (sc : BitVec 3) (lim : BitVec 5) (s : State) : Host.Outcome State Fault Refusal :=
  run (.bar sc lim) s fun s => bar s sc.toNat lim

/-- FENCE (R266, R427). -/
def execFence (sc : BitVec 3) (s : State) : Host.Outcome State Fault Refusal := run (.fence sc) s fun s => fence s sc.toNat

/-- XFENCE (R267, R427). -/
def execXfence (pa pb : BitVec 3) (s : State) : Host.Outcome State Fault Refusal :=
  run (.xfence pa pb) s fun s => xfence s pa.toNat pb.toNat

/-- SUSPEND (R427). -/
def execSuspend (s : State) : Host.Outcome State Fault Refusal := run .suspend s suspendNow

/-- QPUSH_ARRIVAL (R305): push `u` of those on their way. -/
def execQpushArrival (s : State) : Host.Outcome State Fault Refusal :=
  match s.pushes.find? fun (x : Push) => decide (x.id = s.ev.u) with
  | some x => happen s true (s.applyPush x)
  | none => happen s false s

/-- The condition of the wait at which a unit stalls now holds. -/
def State.waitOver (s : State) (kind ix tgt : Nat) : Bool :=
  if kind = 8 then s.core.barDone
  else s.waitMet s.cur { wkind := kind, wix := ix, wtgt := tgt, ctx := s.core.ofTask fun r => r.ctx }

/-- WAIT_LIMIT_EXPIRY (R428): the limit of the wait at which unit `u` stalls in place has passed and its condition does not
hold. -/
def execWaitLimitExpiry (s : State) : Host.Outcome State Fault Refusal :=
  let t := { s with cur := s.ev.u }
  match t.core.held with
  | .timed kind ix tgt _ =>
    let quiet := decide (t.core.push = .none ∨ t.core.push = .full) && !t.waitOver kind ix tgt
    let on := decide (t.core.run = .running) && t.core.holding && t.pastLimit && t.stallsHere kind && quiet
    atUnit s s.ev.u on (t.stopGroup (limitTrap t kind ix tgt))
  | _ => atUnit s s.ev.u false s

/-- DEADLINE_EXPIRY (R302): position `k` of unit `u` becomes ready with TO. -/
def execDeadlineExpiry (s : State) : Host.Outcome State Fault Refusal :=
  let u := s.ev.u
  let cyc := s.cycle48 (dieOf u)
  match Tbl.get? (s.coreAt u).resume s.ev.k with
  | some p =>
    atUnit s u (p.late cyc 1) (s.updAt u fun c => { c with resume := Tbl.set c.resume s.ev.k (p.expire cyc) })
  | none => atUnit s u false s

end Sys2Proof.Machine
end

