-- ==== Sys2Proof/Machine/Branch.lean ====
section
/-! DEFINITION. The branch instructions, `MODE`, the ends of a task and of a handler, and the call-class traps (R453 to R457, R137). -/

namespace Sys2Proof.Machine

/-! ## Branch targets (R114, R454) -/

/-- Write a branch-target register; `dyn`: its writer makes a taken branch through it traceable (R432). -/
def State.setTarget (s : State) (n : Nat) (v : DWord) (t : Taint) (dyn : Bool) : State :=
  s.upd fun c => { c with
    live := c.live.setB n ⟨v, t⟩
    dynB := if dyn then n :: c.dynB else c.dynB.filter fun x => !decide (x = n)
    bWrote := Tbl.set c.bWrote n s.now }

/-- Taint that a branch adds to CT (R118). -/
def State.controlTaint (s : State) (t : Taint) : State := s.live fun r => { r with ct := r.ct ||| t }

/-- Fetch continues at b[n] after the group, no earlier than R482 lets it; the branch's trace (R432). -/
def State.branch (s : State) (n : Nat) (cond taken : Bool) : State :=
  let cyc := s.cycle48 (dieOf s.cur)
  let a := (s.pre.bReg n).val.toNat
  let bubble := match Tbl.get? s.core.bWrote n with
    | some u => 4 - (s.now - u)
    | none => 0
  s.upd fun c =>
    let c := if taken then { c with pc := a, redirected := true, notBefore := max c.notBefore (s.now + 1 + bubble) } else c
    let c := if cond then c.outcome cyc taken else c
    if taken && c.dynB.contains n then c.traceTarget cyc a else c

/-- `BR` and `RET`. -/
def branchTo (s : State) (bt : BitVec 3) (cond : BitVec 8) (ea : Bool) : Eff State := do
  let c ← branchCond s cond ea
  let s := s.controlTaint (c.2 ||| (s.pre.bReg bt.toNat).taint)
  .ok (s.branch bt.toNat (decide (cond.toNat / 64 ≠ 0)) c.1)

/-- `CALL`: the link is written only where the call is taken; the target is that before the group. -/
def callTo (s : State) (bt : BitVec 3) (cond : BitVec 8) (lt : BitVec 3) (ea : Bool) : Eff State := do
  let c ← branchCond s cond ea
  let s := s.controlTaint (c.2 ||| (s.pre.bReg bt.toNat).taint)
  let t := s.branch bt.toNat (decide (cond.toNat / 64 ≠ 0)) c.1
  .ok (if c.1 then t.setTarget lt.toNat (BitVec.ofNat 64 s.core.npc) 0 false else t)

/-- `LOOP`. -/
def loopTo (s : State) (bt : BitVec 3) (r : BitVec 6) (ea : Bool) : Eff State := do
  let x ← srcS s r ea
  let t := taintS s r
  let s := s.controlTaint (t ||| (s.pre.bReg bt.toNat).taint)
  if x = 0 then .ok (s.branch bt.toNat true false)
  else do
    dstS s r
    .ok ((s.writeS r (x - 1) t 1).branch bt.toNat true (decide (x - 1 ≠ 0)))

/-! ## The pipeline mode (R111, R112, R455) -/

/-- `MODE`: every register is full and none is pending, those of its own group included. -/
def setMode (s : State) (ex : Bool) : Eff State := do
  s.clear (.mode ex)
  .ok (s.leave (.mode ex))

/-! ## Meanings -/

/-- PBR (R94, R454). -/
def execPbr (bt : BitVec 3) (off : BitVec 21) (s : State) : Host.Outcome State Fault Refusal :=
  run (.pbr bt off) s fun s =>
    .ok (s.setTarget bt.toNat (align4 (BitVec.ofNat 64 s.core.bpc + BitVec.ofInt 64 (4 * off.toInt))) 0 false)

/-- PBRL (R454). -/
def execPbrl (bt : BitVec 3) (lit : BitVec 64) (s : State) : Host.Outcome State Fault Refusal :=
  run (.pbrl bt lit) s fun s => .ok (s.setTarget bt.toNat lit 0 false)

/-- PBRS (R454). -/
def execPbrs (bt : BitVec 3) (r : BitVec 6) (ea : Bool) (s : State) : Host.Outcome State Fault Refusal :=
  run (.pbrs bt r ea) s fun s => do
    let v ← srcS s r ea
    .ok (s.setTarget bt.toNat (align4 v) (taintS s r) true)

/-- BR (R454). -/
def execBr (bt : BitVec 3) (cond : BitVec 8) (ea : Bool) (s : State) : Host.Outcome State Fault Refusal :=
  run (.br bt cond ea) s fun s => branchTo s bt cond ea

/-- CALL (R454). -/
def execCall (bt : BitVec 3) (cond : BitVec 8) (lt : BitVec 3) (ea : Bool) (s : State) : Host.Outcome State Fault Refusal :=
  run (.call bt cond lt ea) s fun s => callTo s bt cond lt ea

/-- RET (R454). -/
def execRet (bt : BitVec 3) (cond : BitVec 8) (ea : Bool) (s : State) : Host.Outcome State Fault Refusal :=
  run (.ret bt cond ea) s fun s => branchTo s bt cond ea

/-- LOOP (R454). -/
def execLoop (bt : BitVec 3) (r : BitVec 6) (ea : Bool) (s : State) : Host.Outcome State Fault Refusal :=
  run (.loop bt r ea) s fun s => loopTo s bt r ea

/-- MODE_EX (R455). -/
def execModeEx (s : State) : Host.Outcome State Fault Refusal := run .modeEx s fun s => setMode s true

/-- MODE_IL (R455). -/
def execModeIl (s : State) : Host.Outcome State Fault Refusal := run .modeIl s fun s => setMode s false

/-- DONE (R456). -/
def execDone (s : State) : Host.Outcome State Fault Refusal := run .done s fun s => .ok (s.leave .done)

/-- YIELD (R456): without effect where the resume list is full. -/
def execYield (s : State) : Host.Outcome State Fault Refusal :=
  run .yield s fun s => .ok (if (Tbl.free s.core.resume 16).isSome then s.leave .yield else s)

/-- TRAP (R457). -/
def execTrap (imm : BitVec 16) (s : State) : Host.Outcome State Fault Refusal :=
  run (.trap imm) s fun s => .ok (s.leave (.call 0x18 (imm.setWidth 64)))

/-- BKPT (R457). -/
def execBkpt (imm : BitVec 16) (s : State) : Host.Outcome State Fault Refusal :=
  run (.bkpt imm) s fun s => .ok (s.leave (.call 0x1A (imm.setWidth 64)))

/-- SYSC (R457). -/
def execSysc (imm : BitVec 16) (s : State) : Host.Outcome State Fault Refusal :=
  run (.sysc imm) s fun s => .ok (s.leave (.call 0x19 (imm.setWidth 64)))

/-- TRET (R457). -/
def execTret (s : State) : Host.Outcome State Fault Refusal := run .tret s fun s => .ok (s.leave .tret)

end Sys2Proof.Machine
end

