-- ==== Sys2Proof/Machine/Handles.lean ====
section
/-! DEFINITION. The handle table of a context: roots, pending counts (R339, R340, R345). -/

namespace Sys2Proof.Machine

/-! ## The table of a context (R339, R340) -/

/-- Pending readers and writers of the root of a valid handle. -/
def Ctx.counts (x : Ctx) (h : Handle) : Nat × Nat :=
  match x.handle? h.root with
  | some r => (r.pr, r.pw)
  | none => (0, 0)

/-- The root of a handle has no pending reader and no pending writer. -/
def Ctx.quiet (x : Ctx) (h : Nat) : Bool :=
  match x.handle? h with
  | some y => decide (x.counts y = (0, 0))
  | none => true

def Ctx.setHandle (x : Ctx) (h : Nat) (y : Handle) : Ctx := { x with handles := Tbl.set x.handles h y }

/-- Change the counts of a root. -/
def Ctx.updRoot (x : Ctx) (r : Nat) (f : Handle → Handle) : Ctx :=
  match x.handle? r with
  | some y => x.setHandle r (f y)
  | none => x

end Sys2Proof.Machine
end

