-- ==== Sys2Proof/Machine/Builtins.lean ====
section
/-! DEFINITION. Built-in operators by contract (R386): the tensors of an entry, its results, and the natural modes of their outputs (R412). -/

namespace Sys2Proof.Machine

/-! ## The catalogue -/

/-- Number of inputs and outputs of a built-in id; none where the catalogue does not list it. -/
def builtinArity (id : Nat) : Option (Nat × Nat) :=
  match id with
  | 0x002 => some (0, 1)
  | 0x007 => some (3, 0)
  | 0x004 => some (2, 1) | 0x006 => some (2, 1) | 0x030 => some (2, 1) | 0x032 => some (2, 1) | 0x033 => some (2, 1) | 0x048 => some (2, 1)
  | 0x015 => some (3, 1) | 0x031 => some (3, 1)
  | 0x001 => some (1, 1) | 0x003 => some (1, 1) | 0x005 => some (1, 1) | 0x01E => some (1, 1) | 0x020 => some (1, 1) | 0x021 => some (1, 1)
  | 0x03C => some (1, 1) | 0x03D => some (1, 1) | 0x040 => some (1, 1) | 0x041 => some (1, 1) | 0x050 => some (1, 1)
  | n =>
    if 0x010 ≤ n ∧ n ≤ 0x014 then some (2, 1)
    else if (0x018 ≤ n ∧ n ≤ 0x01D) ∨ (0x038 ≤ n ∧ n ≤ 0x03A) ∨ (0x0E0 ≤ n ∧ n ≤ 0x0E3) then some (1, 1)
    else none

/-- Why an operator stops its context: code, ADDR, HANDLE, INFO. A breach of contract has no ADDR of its own (R335). -/
structure OpErr where
  code : Nat := 0x07
  addr : Option Nat := none
  handle : Nat := 0
  info : Nat := 0
  deriving DecidableEq, Repr

abbrev Op (α : Type) := Except OpErr α

def breach {α : Type} (handle : Nat := 0) : Op α := .error { handle := handle }

def check (b : Bool) (handle : Nat := 0) : Op Unit := if b then .ok () else breach handle

/-! ## Tensors -/

/-- A tensor of an operator on this member: its descriptor, the indices it holds, and the contents of a block-local one,
over the whole extents, each element as mantissa + 256 × exponent for BFP. -/
structure Ten where
  hn : Nat := 0
  ws : List DWord := []
  held : List (Nat × Nat) := []
  vals : Option (List Nat) := none
  deriving DecidableEq, Repr

def Ten.fmt (t : Ten) : Nat := descFmt t.ws
def Ten.m (t : Ten) : Nat := bfpOf t.fmt
def Ten.ext (t : Ten) (k : Nat) : Nat := descExt t.ws k
def Ten.ndim (t : Ten) : Nat := descNdim t.ws
def Ten.isFp (t : Ten) : Bool := decide (t.m ≠ 0) || typeIsFp t.fmt

/-- The member holds the element. -/
def Ten.has (t : Ten) (i : List Nat) : Bool :=
  (List.range 6).all fun k => let r := t.held.getD k (0, 1); decide (r.1 ≤ i.getD k 0 ∧ i.getD k 0 < r.2)

def Ten.lo (t : Ten) (k : Nat) : Nat := (t.held.getD k (0, 1)).1
def Ten.hi (t : Ten) (k : Nat) : Nat := (t.held.getD k (0, 1)).2

/-- Dense index over the extents, dimension 0 innermost. -/
def denseIx (ext : List Nat) (i : List Nat) : Nat :=
  ((List.range 6).reverse).foldl (fun a k => a * ext.getD k 1 + i.getD k 0) 0

/-- Element offset in the storage of this member. -/
def Ten.offset (t : Ten) (i : List Nat) : Int :=
  match t.vals with
  | some _ => denseIx (descExts t.ws) i
  | none => elemOffset t.ws ((List.range 6).map fun k => i.getD k 0 - t.lo k)

/-- Index tuples of a box, dimension 0 fastest. -/
def boxIx : List (Nat × Nat) → List (List Nat)
  | [] => [[]]
  | (a, b) :: t => (boxIx t).flatMap fun r => (List.range (b - a)).map fun x => (a + x) :: r

def Ten.all (t : Ten) : List (List Nat) := boxIx ((List.range 6).map fun k => t.held.getD k (0, 1))

/-- An index with one component replaced. -/
def atIx (i : List Nat) (d x : Nat) : List Nat := (List.range 6).map fun k => if k = d then x else i.getD k 0

/-- Bytes of a handle's storage that the operator reads. -/
def State.opRead (s : State) (d ctx hn a n : Nat) : Op (List Byte) :=
  match s.engineRead d ctx a n with
  | .ok bs => .ok bs
  | .error e => .error { code := 0x0A, addr := some e.2, handle := hn, info := match e.1 with
      | .reason r => (xlInfo e.2 r 0).toNat % 65536
      | _ => 0 }

def State.opWrite (s : State) (d ctx hn a : Nat) (bs : List Byte) : Op State :=
  match s.engineWrite d ctx a bs with
  | .ok t => .ok t
  | .error e => .error { code := 0x0A, addr := some e.2, handle := hn, info := match e.1 with
      | .reason r => (xlInfo e.2 r 1).toNat % 65536
      | _ => 0 }

/-- The element at an offset as stored: bits, or mantissa + 256 × exponent. -/
def State.tenRawAt (s : State) (d ctx : Nat) (t : Ten) (off : Int) : Op Nat :=
  match t.vals with
  | some l => .ok (l.getD off.toNat 0)
  | none =>
    let a := addr64 (offsetAddr t.ws off)
    if t.m ≠ 0 then do
      let bs ← s.opRead d ctx t.hn a (2 * t.m)
      let e ← s.opRead d ctx t.hn (addr64 (descScale t.ws + off / 16)) 1
      .ok (leNat bs / 2 ^ (t.m * (off % 16).toNat) % 2 ^ t.m + 256 * leNat e)
    else do
      let bs ← s.opRead d ctx t.hn a (max 1 (typeW t.fmt / 8))
      .ok (if typeW t.fmt = 4 then leNat bs / 16 ^ (off % 2).toNat % 16 else leNat bs)

/-- An element as stored. -/
def State.tenRaw (s : State) (d ctx : Nat) (t : Ten) (i : List Nat) : Op Nat := s.tenRawAt d ctx t (t.offset i)

/-- The value of an element as stored. -/
def Ten.value (t : Ten) (x : Nat) : Fv :=
  if t.m ≠ 0 then bfpRead t.m (x % 256) (x / 256)
  else if typeIsFp t.fmt then (fmtOf t.fmt).read false x
  else Fv.ofInt false (intOf t.fmt x) 0

def State.tenVal (s : State) (d ctx : Nat) (t : Ten) (i : List Nat) : Op Fv := (s.tenRaw d ctx t i).map t.value

/-! ## Rounding (R55, R56, R386) -/

def r32 (v : Fv) : Fv := Fmt.f32.read false (Fmt.f32.round {} v).1

/-- An exact value as an integer: RNE; a NaN and an infinity as R56 has them for i32. -/
def Fv.whole : Fv → Int
  | .fin s m e => let n := (roundMag .rne s m e).1; if s then -(n : Int) else n
  | .inf s => if s then -(2 ^ 31 : Nat) else (2 ^ 31 : Nat) - 1
  | .nan => 0

/-- The exact result rounded once to a TYPE; integers wrap. -/
def toType (t : Nat) (v : Fv) : Nat := if typeIsFp t then ((fmtOf t).round {} v).1 else intTo t false v.whole

/-- a / b rounded once to FP32. -/
def Fv.div32 (a b : Fv) : Fv :=
  match a, b with
  | .nan, _ => .nan
  | _, .nan => .nan
  | .inf _, .inf _ => .nan
  | .inf s, .fin t _ _ => .inf (s != t)
  | .fin s _ _, .inf t => .fin (s != t) 0 0
  | .fin s m e, .fin t n d =>
    if n = 0 then (if m = 0 then .nan else .inf (s != t))
    else r32 (.fin (s != t) (2 * (m * 2 ^ 400 / n) + (if m * 2 ^ 400 % n = 0 then 0 else 1)) (e - d - 401))

/-- A special function of R163 on an FP32 value. -/
def Sp.fv (op : Sp) (v : Fv) : Fv := Fmt.f32.read false (op.eval .f32 {} (Fmt.f32.round {} v).1).1

/-- `tree_reduce` in FP32 (R66). -/
def tree32 (op : RedOp) (xs : List Fv) : Fv :=
  Fmt.f32.read false (treeReduce (op.fpRound .f32 false) (op.fpIdent .f32) (xs.map fun v => (Fmt.f32.round {} v).1)).1

/-- `tree_reduce` in i32. -/
def treeInt (op : RedOp) (xs : List Fv) : Fv :=
  Fv.ofInt false (treeReduce (op.intRound false) (op.intIdent false) (xs.map fun v => BitVec.ofInt 32 v.whole)).1.toInt 0

/-! ## Results -/

/-- A result element: a value to be rounded, or the bits of a moved element (R49). -/
inductive Res where
  | val (v : Fv)
  | raw (x : Nat)
  deriving DecidableEq, Repr

abbrev Results := List (List Nat × Res)

/-- Write one element of a TYPE format. -/
def State.tenPut (s : State) (d ctx : Nat) (t : Ten) (i : List Nat) (x : Nat) : Op (State × Ten) :=
  let off := t.offset i
  match t.vals with
  | some l => .ok (s, { t with vals := some (l.set off.toNat x) })
  | none =>
    let a := addr64 (offsetAddr t.ws off)
    if typeW t.fmt = 4 then do
      let b ← s.opRead d ctx t.hn a 1
      let y := if off % 2 = 0 then leNat b / 16 * 16 + x % 16 else leNat b % 16 + x % 16 * 16
      .ok (← s.opWrite d ctx t.hn a (toBytes 1 y), t)
    else do .ok (← s.opWrite d ctx t.hn a (toBytes (typeW t.fmt / 8) x), t)

/-- Write a block of 16 BFP elements; positions without a result take +0 (R53). -/
def State.tenPutBlock (s : State) (d ctx : Nat) (t : Ten) (b : Int) (xs : List (Int × Fv)) : Op (State × Ten) :=
  let vs := (List.range 16).map fun (p : Nat) => match xs.find? fun x => decide (x.1 = 16 * b + (p : Int)) with
    | some x => x.2
    | none => .fin false 0 0
  let q := bfpQuantise vs t.m .rne
  match t.vals with
  | some l => .ok (s, { t with vals := some (((List.range 16).zip q.2.1).foldl (fun (l : List Nat) p => l.set (16 * b.toNat + p.1) (p.2 + 256 * q.1)) l) })
  | none => do
    let s ← s.opWrite d ctx t.hn (addr64 (descBase t.ws + 2 * t.m * b)) (toBytes (2 * t.m) (packElems t.m q.2.1))
    .ok (← s.opWrite d ctx t.hn (addr64 (descScale t.ws + b)) (toBytes 1 q.1), t)

/-- Write one element and leave the others as they are: those of its BFP block are quantised with it. -/
def State.tenUpdate (s : State) (d ctx : Nat) (t : Ten) (i : List Nat) (v : Fv) : Op (State × Ten) :=
  if t.m = 0 then s.tenPut d ctx t i (toType t.fmt v)
  else do
    let b := t.offset i / 16
    let old ← (List.range 16).mapM fun p => (s.tenRawAt d ctx t (16 * b + (p : Int))).map fun x => (16 * b + (p : Int), t.value x)
    s.tenPutBlock d ctx t b ((t.offset i, v) :: old)

/-- Write the results of an operator to its output. -/
def State.tenStore (s : State) (d ctx : Nat) (t : Ten) (rs : Results) : Op (State × Ten) :=
  if t.m = 0 then rs.foldlM (fun (a : State × Ten) r => a.1.tenPut d ctx a.2 r.1 (match r.2 with
    | .val v => toType t.fmt v
    | .raw x => x)) (s, t)
  else
    let xs := rs.map fun r => (t.offset r.1, match r.2 with
      | .val v => v
      | .raw x => t.value x)
    ((xs.map fun x => x.1 / 16).eraseDups).foldlM (fun (a : State × Ten) b =>
      a.1.tenPutBlock d ctx a.2 b (xs.filter fun x => decide (x.1 / 16 = b))) (s, t)

/-! ## The contracts -/

/-- What a contract works on: the state, die and context, attribute words, and mesh. -/
structure OpCtx where
  s : State
  d : Nat
  ctx : Nat
  id : Nat
  attrs : List DWord
  /-- The natural mode of the output is Partial on axis k (R412). -/
  partialOn : Nat → Bool

def OpCtx.attr (c : OpCtx) (k : Nat) : Op DWord :=
  match c.attrs[k]? with
  | some v => .ok v
  | none => breach

def OpCtx.get (c : OpCtx) (t : Ten) (i : List Nat) : Op Fv := c.s.tenVal c.d c.ctx t i

/-- Extents agree, or the input is broadcast. -/
def broadcasts (y x : Ten) : Bool := (List.range 6).all fun k => decide (x.ext k = 1 ∨ x.ext k = y.ext k)

def bcast (x : Ten) (i : List Nat) : List Nat := (List.range 6).map fun k => if x.ext k = 1 then 0 else i.getD k 0

/-- Elementwise: `fn` on the values of the inputs, for the elements whose inputs this member holds. -/
def OpCtx.elementwise (c : OpCtx) (y : Ten) (xs : List Ten) (fn : List Fv → Fv) : Op Results := do
  for x in xs do check (broadcasts y x) x.hn
  let is := y.all.filter fun i => xs.all fun x => x.has (bcast x i)
  is.mapM fun i => do .ok (i, .val (fn (← xs.mapM fun x => c.get x (bcast x i))))

/-- A move of the elements that `only` admits: where each comes from. Equal formats keep their bits (R49). -/
def OpCtx.move (c : OpCtx) (y : Ten) (from' : List Nat → Option (Ten × List Nat)) (only : List Nat → Bool := fun _ => true) : Op Results := do
  let is := (y.all.filter only).filter fun i => match from' i with
    | some p => p.1.has p.2
    | none => true
  is.mapM fun i => match from' i with
    | none => .ok (i, .val (.fin false 0 0))
    | some (x, j) => do
      let r ← c.s.tenRaw c.d c.ctx x j
      .ok (i, if x.fmt = y.fmt then .raw r else .val (x.value r))

def signed64 (v : DWord) : Int := v.toInt

def first (l : List Fv) : Fv := l.getD 0 .nan

/-- add, sub, mul, min, max, fma: exact, with one rounding at the store. -/
def arithOf (id : Nat) (l : List Fv) : Fv :=
  let a := l.getD 0 .nan
  let b := l.getD 1 .nan
  match id with
  | 0x010 => (Fv.add .rne a b).1
  | 0x011 => (Fv.add .rne a b.neg).1
  | 0x012 => (Fv.mul a b).1
  | 0x013 => Fv.min a b
  | 0x014 => Fv.max a b
  | _ => (Fv.fma .rne a b (l.getD 2 .nan)).1

def spOfId (id : Nat) : Sp :=
  match id with
  | 0x018 => .exp2 | 0x019 => .log2 | 0x01A => .rcp | 0x01B => .rsq | 0x01C => .tanh | _ => .sigm

/-- x × 2^k; k beyond every exponent range acts as its limit. -/
def scaleBy (k : Int) : Fv → Fv
  | .fin s m e => .fin s m (e + max (-4096) (min 4096 k))
  | v => v

/-- transpose -/
def OpCtx.transpose (c : OpCtx) (y x : Ten) : Op Results := do
  let a ← c.attr 0
  let n := y.ndim
  let p := (List.range n).map fun k => bits a (3 * k + 2) (3 * k)
  check (decide (x.ndim = n) && (List.range n).all (fun k => p.contains k && decide (x.ext (p.getD k 0) = y.ext k))) x.hn
  c.move y fun i => some (x, (List.range 6).map fun k => if k < n then i.getD (p.findIdx fun q => decide (q = k)) 0 else 0)

/-- concat -/
def OpCtx.concat (c : OpCtx) (y x0 x1 : Ten) : Op Results := do
  let d := (← c.attr 0).toNat
  check (decide (d < y.ndim ∧ x0.ext d + x1.ext d = y.ext d) &&
    (List.range 6).all fun k => decide (k = d ∨ (x0.ext k = y.ext k ∧ x1.ext k = y.ext k)))
  c.move y fun i =>
    let v := i.getD d 0
    some (if v < x0.ext d then (x0, i) else (x1, atIx i d (v - x0.ext d)))

/-- slice -/
def OpCtx.slice (c : OpCtx) (y x : Ten) : Op Results := do
  let off ← (List.range 6).mapM fun k => if k < y.ndim then (c.attr k).map signed64 else .ok 0
  check ((List.range 6).all fun k => decide (0 ≤ off.getD k 0 ∧ (y.ext k : Int) + off.getD k 0 ≤ x.ext k)) x.hn
  c.move y fun i => some (x, (List.range 6).map fun k => i.getD k 0 + (off.getD k 0).toNat)

/-- A dimension named by attribute 0. -/
def OpCtx.dim (c : OpCtx) (x : Ten) : Op Nat := do
  let d := (← c.attr 0).toNat
  check (decide (d < x.ndim)) x.hn
  .ok d

/-- The row numbers of an index tensor of n elements along its dimension 0: those this member holds. -/
def OpCtx.rows (c : OpCtx) (x : Ten) (n : Nat) : Op (List (Option Int)) := do
  check (decide (x.fmt = 6 ∧ x.ext 0 = n) && (List.range 6).all fun k => decide (k = 0 ∨ x.ext k = 1)) x.hn
  (List.range n).mapM fun r => if x.has [r, 0, 0, 0, 0, 0] then (c.get x [r, 0, 0, 0, 0, 0]).map fun v => some v.whole else .ok none

/-- gather -/
def OpCtx.gather (c : OpCtx) (y x idx : Ten) : Op Results := do
  let d ← c.dim x
  check ((List.range 6).all fun k => decide (k = d ∨ x.ext k = y.ext k)) x.hn
  let rows ← c.rows idx (y.ext d)
  c.move y (fun i =>
    let r := (rows.getD (i.getD d 0) none).getD (-1)
    if 0 ≤ r ∧ r < x.ext d then some (x, atIx i d r.toNat) else none) fun i => (rows.getD (i.getD d 0) none).isSome

/-- scatteradd: rows of u into y in ascending row, each rounded; a row outside the extent adds nowhere. -/
def OpCtx.scatterAdd (c : OpCtx) (y idx u : Ten) : Op (State × Ten) := do
  let d ← c.dim y
  check ((List.range 6).all fun k => decide (k = d ∨ u.ext k = y.ext k)) u.hn
  let rows ← c.rows idx (u.ext d)
  u.all.foldlM (fun (a : State × Ten) j => do
    let r := (rows.getD (j.getD d 0) none).getD (-1)
    let i := atIx j d r.toNat
    if r < 0 ∨ y.ext d ≤ r ∨ !y.has i then .ok a
    else
      let old ← a.1.tenVal c.d c.ctx a.2 i
      let v ← a.1.tenVal c.d c.ctx u j
      a.1.tenUpdate c.d c.ctx a.2 i (Fv.add .rne old v).1) (c.s, y)

/-- The kind of a matrix operand: true is INT8; other formats than those of R61 break the contract. -/
def matrixInt (t : Ten) : Op Bool :=
  if t.m ≠ 0 ∨ (8 ≤ t.fmt ∧ t.fmt ≤ 11) then .ok false else if t.fmt = 2 then .ok true else breach t.hn

/-- Pieces of the k range: groups of G aligned to global k = 0, cut at the ends of the member's part (R386). -/
def kGroups (g : Nat) (ks : List Nat) : List (List Nat) := ((ks.map fun k => k / g).eraseDups).map fun q => ks.filter fun k => decide (k / g = q)

/-- One element of a product: FP32 bits or i32, as a value. -/
def product (int : Bool) (start : Option Fv) (groups : List (List (Fv × Fv))) : Fv :=
  if int then
    Fv.ofInt false (mmaElementInt (BitVec.ofInt 32 ((start.map Fv.whole).getD 0)) false (groups.flatten.map fun p => (p.1.whole, p.2.whole))).toInt 0
  else
    Fmt.f32.read false (groups.foldl (fun a g => mmaElement a false false g.length g)
      (match start with
       | some v => (Fmt.f32.round {} v).1
       | none => Fmt.f32.signed true 0))

/-- Products over k for the output elements at `pts`: `ia` and `ib` give the operands' indices for a point and a k. -/
def OpCtx.products (c : OpCtx) (int : Bool) (g : Nat) (ks : List Nat) (a b : Ten) (ia ib : List Nat → Nat → List Nat)
    (start : List Nat → Op (Option Fv)) (pts : List (List Nat)) : Op Results :=
  pts.mapM fun i => do
    let c0 ← start i
    let gs ← (kGroups g ks).mapM fun q => q.mapM fun k => do .ok (← c.get a (ia i k), ← c.get b (ib i k))
    .ok (i, .val (product int c0 gs))

/-- matmul, matmuladd, bmatmul: A has K in dimension 0, B in dimension 1, or in 0 where it is read transposed. -/
def OpCtx.matmul (c : OpCtx) (y a b : Ten) (add : Option Ten) : Op Results := do
  let ai ← matrixInt a
  let bi ← matrixInt b
  check (decide (ai = bi)) b.hn
  let g := if a.m ≠ 0 ∨ b.m ≠ 0 then 16 else 8
  let tr := (c.attrs.getD 0 0).getLsbD 0
  let kd := if tr then 0 else 1
  let k := a.ext 0
  check (decide (b.ext kd = k ∧ y.ext 1 = a.ext 1 ∧ y.ext 0 = b.ext (1 - kd)))
  check (((List.range 6).drop 2).all fun j => decide (a.ext j = y.ext j ∧ b.ext j = y.ext j ∧ (c.id = 0x032 ∨ y.ext j = 1)))
  match add with
  | some x => check (decide (x.ext 0 = y.ext 0 ∧ (x.ext 1 = 1 ∨ x.ext 1 = y.ext 1)) && ((List.range 6).drop 2).all fun j => decide (x.ext j = y.ext j)) x.hn
  | none => .ok ()
  let ks := (List.range k).filter fun q => decide (a.lo 0 ≤ q ∧ q < a.hi 0 ∧ b.lo kd ≤ q ∧ q < b.hi kd)
  let ia (i : List Nat) (q : Nat) : List Nat := q :: i.drop 1
  let ib (i : List Nat) (q : Nat) : List Nat := (if tr then [q, i.getD 0 0] else [i.getD 0 0, q]) ++ i.drop 2
  let q0 := ks.getD 0 0
  let pts := if ks.isEmpty then [] else y.all.filter fun i => a.has (ia i q0) && b.has (ib i q0)
  let zero := (List.range 3).any fun x => c.partialOn x && decide (c.s.meshCoord c.d c.ctx x ≠ 0)
  let start (i : List Nat) : Op (Option Fv) := match add with
    | none => .ok none
    | some x =>
      let j := (i.getD 0 0) :: (if x.ext 1 = 1 then 0 else i.getD 1 0) :: i.drop 2
      if !x.has j then breach x.hn else if zero then .ok (some (.fin false 0 0)) else (c.get x j).map some
  c.products ai g ks a b ia ib start pts

/-- conv2d: a matmul over k = (c × R + r) × S + s. -/
def OpCtx.conv (c : OpCtx) (y x f : Ten) : Op Results := do
  let ai ← matrixInt x
  let bi ← matrixInt f
  check (decide (ai = bi)) f.hn
  let g := if x.m ≠ 0 ∨ f.m ≠ 0 then 16 else 8
  let sw := f.ext 0
  let r := f.ext 1
  check (decide (f.ext 2 = x.ext 2 ∧ sw ≤ x.ext 0 ∧ r ≤ x.ext 1 ∧ y.ext 0 = x.ext 0 - sw + 1 ∧ y.ext 1 = x.ext 1 - r + 1 ∧ y.ext 2 = f.ext 3))
  check (((List.range 6).drop 3).all (fun k => decide (x.ext k = 1 ∧ y.ext k = 1)) && decide (f.ext 4 = 1 ∧ f.ext 5 = 1))
  check (decide (x.lo 0 = 0 ∧ x.hi 0 = x.ext 0 ∧ x.lo 1 = 0 ∧ x.hi 1 = x.ext 1 ∧ f.lo 0 = 0 ∧ f.hi 0 = sw ∧ f.lo 1 = 0 ∧ f.hi 1 = r ∧
    x.lo 2 = f.lo 2 ∧ x.hi 2 = f.hi 2))
  let ks := (List.range (x.ext 2 * r * sw)).filter fun k => decide (x.lo 2 ≤ k / (r * sw) ∧ k / (r * sw) < x.hi 2)
  let ia (i : List Nat) (k : Nat) : List Nat := [i.getD 0 0 + k % sw, i.getD 1 0 + k / sw % r, k / (r * sw), 0, 0, 0]
  let ib (i : List Nat) (k : Nat) : List Nat := [k % sw, k / sw % r, k / (r * sw), i.getD 2 0, 0, 0]
  c.products ai g ks x f ia ib (fun _ => .ok none) (y.all.filter fun i => decide (f.lo 3 ≤ i.getD 2 0 ∧ i.getD 2 0 < f.hi 3))

/-- The values of x along dimension d through index i, in index order: those this member holds. -/
def OpCtx.line (c : OpCtx) (x : Ten) (d : Nat) (i : List Nat) : Op (List Fv) :=
  ((List.range (x.hi d - x.lo d)).map fun k => atIx i d (x.lo d + k)).mapM (c.get x)

/-- Points of y whose line in x this member holds. -/
def linePts (y x : Ten) (d : Nat) : List (List Nat) := y.all.filter fun i => x.has (atIx i d (x.lo d))

/-- rsum, rmax, rmin. -/
def OpCtx.reduce (c : OpCtx) (y x : Ten) (op : RedOp) : Op Results := do
  let d ← c.dim x
  check (decide (y.ext d = 1) && (List.range 6).all fun k => decide (k = d ∨ y.ext k = x.ext k)) x.hn
  (linePts y x d).mapM fun i => do
    let vs ← c.line x d i
    .ok (i, .val (if x.isFp then tree32 op vs else treeInt op vs))

/-- Results of a contract that works on whole lines along dimension d. -/
def OpCtx.byLine (c : OpCtx) (y x : Ten) (fn : List Fv → List Fv) : Op Results := do
  let d ← c.dim x
  check ((List.range 6).all fun k => decide (y.ext k = x.ext k)) x.hn
  (linePts y x d).mapM fun i => do
    let vs ← c.line x d i
    .ok (i, .val ((fn vs).getD (i.getD d 0 - x.lo d) (.fin false 0 0)))

def sub32 (a b : Fv) : Fv := r32 (Fv.add .rne a b.neg).1
def add32 (a b : Fv) : Fv := r32 (Fv.add .rne a b).1
def mul32 (a b : Fv) : Fv := r32 (Fv.mul a b).1

/-- softmax of a line: each step rounded to FP32. -/
def softmax (vs : List Fv) : List Fv :=
  let xs := vs.map r32
  let m := tree32 .max xs
  let es := xs.map fun x => Sp.fv .exp2 (mul32 (sub32 x m) (Fmt.f32.read false 0x3FB8AA3B))
  let t := tree32 .add es
  es.map fun e => e.div32 t

/-- rmsnorm of a line. -/
def rmsnorm (eps : Fv) (vs : List Fv) : List Fv :=
  let xs := vs.map r32
  let t := tree32 .add (xs.map fun x => mul32 x x)
  let q := Sp.fv .rsq (add32 (t.div32 (Fv.ofInt false xs.length 0)) eps)
  xs.map fun x => mul32 x q

/-- Running sums, each step rounded by `rnd`. -/
def runningSums (rnd : Fv → Fv) : Fv → List Fv → List Fv
  | _, [] => []
  | a, x :: t =>
    let s := rnd (Fv.add .rne a x).1
    s :: runningSums rnd s t

/-- cumsum of a line: each step rounded to the output format, for a BFP output to FP32. -/
def cumsum (y : Ten) (vs : List Fv) : List Fv :=
  let rnd (v : Fv) : Fv := if y.m ≠ 0 then r32 v else y.value (toType y.fmt v)
  match vs with
  | [] => []
  | x :: t => rnd x :: runningSums rnd (rnd x) t

/-- inflate: elements of y in index order are the decoded bytes. -/
def OpCtx.inflate (c : OpCtx) (y x t : Ten) : Op Results := do
  check (decide (x.fmt = 3 ∧ t.fmt = 3 ∧ y.fmt = 3))
  let img ← (t.all.take 272).mapM (c.s.tenRaw c.d c.ctx t)
  let bytes ← x.all.mapM (c.s.tenRaw c.d c.ctx x)
  match tableOf (img.map fun b => BitVec.ofNat 8 b) with
  | none => breach t.hn
  | some tab =>
    let r := decodeStream tab fun i => (bytes[i]?).map fun b => BitVec.ofNat 8 b
    if !r.ok || decide (img.length ≠ 272 ∨ r.bytes.length ≠ y.all.length) then breach x.hn
    else .ok ((y.all.zip r.bytes).map fun p => (p.1, .raw p.2.toNat))

/-- The results of a built-in operator, other than scatteradd. -/
def OpCtx.results (c : OpCtx) (y : Ten) (xs : List Ten) : Op Results :=
  let x0 := xs.getD 0 {}
  let x1 := xs.getD 1 {}
  match c.id with
  | 0x001 => c.elementwise y xs first
  | 0x002 => do
    let v ← c.attr 0
    if y.m ≠ 0 then .ok (y.all.map fun i => (i, .val (y.value (v.toNat % 2 ^ y.m + 256 * ((Config.freeWord c.s.free).toNat % 256)))))
    else .ok (y.all.map fun i => (i, .raw (v.toNat % 2 ^ typeW y.fmt)))
  | 0x003 => c.transpose y x0
  | 0x004 => c.concat y x0 x1
  | 0x005 => c.slice y x0
  | 0x006 => c.gather y x0 x1
  | 0x01E => c.elementwise y xs fun l => Fv.max (first l) (.fin false 0 0)
  | 0x020 => do
    let k ← c.attr 0
    c.elementwise y xs fun l => scaleBy (signed64 k) (first l)
  | 0x021 => do
    let lo ← c.attr 0
    let hi ← c.attr 1
    c.elementwise y xs fun l => Fv.min (Fv.max (first l) (Fmt.f32.read false (lo.toNat % 2 ^ 32))) (Fmt.f32.read false (hi.toNat % 2 ^ 32))
  | 0x030 => c.matmul y x0 x1 none
  | 0x031 => c.matmul y x0 x1 (xs[2]?)
  | 0x032 => c.matmul y x0 x1 none
  | 0x033 => c.conv y x0 x1
  | 0x038 => c.reduce y x0 .add
  | 0x039 => c.reduce y x0 .max
  | 0x03A => c.reduce y x0 .min
  | 0x03C => c.byLine y x0 softmax
  | 0x03D => do
    let e ← c.attr 1
    c.byLine y x0 (rmsnorm (Fmt.f32.read false (e.toNat % 2 ^ 32)))
  | 0x040 => do
    check (decide (y.m ≠ 0)) y.hn
    c.elementwise y xs first
  | 0x041 => do
    check (decide (x0.m ≠ 0)) x0.hn
    c.elementwise y xs first
  | 0x048 => c.inflate y x0 x1
  | 0x050 => c.byLine y x0 (cumsum y)
  | n =>
    if 0x0E0 ≤ n then c.move y fun i => some (x0, i)
    else if 0x018 ≤ n then c.elementwise y xs fun l => (spOfId n).fv (first l)
    else c.elementwise y xs (arithOf n)

/-! ## Natural modes (R412) -/

/-- Mode and dimension of an axis (R341). -/
abbrev AxisMode := Nat × Nat

def modeOf (x : DWord) (k : Nat) : AxisMode := (axisMode x k, if axisMode x k = 1 then axisDim x k else 0)

/-- A matmul's or conv2d's output mode: contracted dimensions of both inputs, and what the kept ones become. -/
def contractMode (a b : AxisMode) (ka kb : Nat) (keepA keepB : Nat → Option Nat) : AxisMode :=
  if a = (1, ka) ∧ b = (1, kb) then (2, 0)
  else
    let pick (m : AxisMode) (f : Nat → Option Nat) : Option Nat := if m.1 = 1 then f m.2 else none
    match pick a keepA, pick b keepB with
    | some d, _ => (1, d)
    | none, some d => (1, d)
    | none, none => (0, 0)

/-- The natural mode of an operator's output on an axis from the sharding words of its input references; none where
nothing is inserted. -/
def naturalMode (id : Nat) (attrs : List DWord) (ins : List (Option DWord)) (k : Nat) : Option AxisMode :=
  match ins with
  | [] => none
  | x :: rest =>
    let a := x.map fun w => modeOf w k
    let b := (rest.getD 0 none).map fun w => modeOf w k
    let tr := (attrs.getD 0 0).getLsbD 0
    let kd := if tr then 0 else 1
    if id = 0x030 ∨ id = 0x031 ∨ id = 0x032 then
      match a, b with
      | some a, some b => some (contractMode a b 0 kd (fun d => if d = 0 then none else some d)
          fun d => if d = kd then none else if d = 1 - kd then some 0 else some d)
      | _, _ => none
    else if id = 0x033 then
      match a, b with
      | some a, some b => some (contractMode a b 2 2 (fun _ => none) fun d => if d = 3 then some 2 else none)
      | _, _ => none
    else if 0x038 ≤ id ∧ id ≤ 0x03A then
      a.map fun m => if m = (1, (attrs.getD 0 0).toNat) then (2, 0) else m
    else if 0x0E0 ≤ id ∧ id ≤ 0x0E3 then none
    else a

/-- The operation of an inserted reduction on an axis: maximum and minimum for rmax and rmin whose reduced dimension is split
there, else addition of partial sums (R341, R412). -/
def naturalRop (id : Nat) (attrs : List DWord) (x : Option DWord) (k : Nat) : Nat :=
  if x.map (fun w => modeOf w k) = some (1, (attrs.getD 0 0).toNat) then (if id = 0x039 then 2 else if id = 0x03A then 1 else 0) else 0

end Sys2Proof.Machine
end

