-- ==== Sys2Proof/Machine/Sweeps.lean ====
section
/-! DEFINITION. Sweeps: descriptors (R314, R315), the frontier (R319 to R321), creation, restore and retirement (R318, R323, R329), and RECORD_TAKE, AGE_PROMOTION, POINT_FIRE, POINT_COMPLETE. -/

namespace Sys2Proof.Machine

/-! ## Descriptors (R312 to R315) -/

/-- The eight dwords of a descriptor at an address. -/
def SweepDesc.ofWords (addr : Nat) (w : Nat → DWord) : SweepDesc :=
  { addr := addr, ndim := bits (w 0) 61 60 + 1, rclass := bits (w 0) 59 58, role := bits (w 0) 57 56, code := bits (w 0) 55 0
    fbase := bits (w 1) 55 0, rdepth := bits (w 2) 63 48, joinen := (w 2).getLsbD 35, ndep := bits (w 2) 34 32
    fstride := bits (w 2) 31 0, join := bits (w 3) 55 0, ext := w 4, dv := w 5, fsave := bits (w 6) 55 0 }

/-- N, the number of points. -/
def SweepDesc.points (d : SweepDesc) : Nat := d.extent 0 * d.extent 1 * d.extent 2 * d.extent 3

/-- Component j of dependence vector k. -/
def SweepDesc.dep (d : SweepDesc) (k j : Nat) : Nat := bits d.dv (16 * k + 4 * j + 3) (16 * k + 4 * j)

/-- R315. -/
def SweepDesc.ok (d : SweepDesc) (w : Nat → DWord) : Bool :=
  decide (d.addr % 64 = 0 ∧ bits (w 0) 63 62 = 0 ∧ d.rclass ≠ 3 ∧ bits (w 1) 63 56 = 0 ∧ bits (w 2) 47 36 = 0 ∧ d.ndep ≤ 4) &&
  decide (bits (w 3) 63 56 = 0 ∧ bits (w 6) 63 56 = 0 ∧ w 7 = 0) &&
  (List.range 4).all (fun j => if j < d.ndim then decide (d.extent j ≠ 0) else decide (d.extent j = 1)) &&
  (List.range 4).all (fun k =>
    if k < d.ndep then
      (List.range 4).any (fun j => decide (d.dep k j ≠ 0)) && (List.range 4).all fun j => decide (j < d.ndim ∨ d.dep k j = 0)
    else (List.range 4).all fun j => decide (d.dep k j = 0)) &&
  decide (d.code % 4 = 0 ∧ d.join % 8 = 0 ∧ d.fsave % 64 = 0 ∧ d.fstride % 8 = 0) &&
  decide (d.fbase + (d.points - 1) * d.fstride < 2 ^ 56)

/-- Coordinate j of linear index l (R312). -/
def SweepDesc.coord (d : SweepDesc) (l j : Nat) : Nat :=
  match j with
  | 0 => l % d.extent 0
  | 1 => l / d.extent 0 % d.extent 1
  | 2 => l / (d.extent 0 * d.extent 1) % d.extent 2
  | _ => l / (d.extent 0 * d.extent 1 * d.extent 2)

/-- Linear indices of the present predecessors of a point (R313). -/
def SweepDesc.preds (d : SweepDesc) (l : Nat) : List Nat :=
  ((List.range d.ndep).filter fun k => (List.range 4).all fun j => decide (d.dep k j ≤ d.coord l j)).map fun k =>
    l - (d.dep k 0 + d.extent 0 * (d.dep k 1 + d.extent 1 * (d.dep k 2 + d.extent 2 * d.dep k 3)))

/-! ## The frontier (R319, R320) -/

/-- Points complete: those below B, and those the window says are. -/
def Sweep.complete (w : Sweep) (l : Nat) : Bool := decide (l < w.base) || decide (Tbl.getD w.win l 0 = 2)

/-- R320. -/
def Sweep.eligible (w : Sweep) (l : Nat) : Bool :=
  decide (w.st = .active ∧ l < w.desc.points) && decide (Tbl.getD w.win l 0 = 0 ∨ Tbl.getD w.win l 0 = 3) && (w.desc.preds l).all w.complete

/-- The point a sweep fires next: a Restart point that a restore brought, else the lowest eligible index (R320, R329). -/
def Sweep.next (w : Sweep) : Option Nat :=
  (w.first.find? w.eligible).or (((List.range 1024).map fun i => w.base + i).find? w.eligible)

/-- B passes the consecutive complete points. -/
def Sweep.settle : Nat → Sweep → Sweep
  | 0, w => w
  | n + 1, w => if Tbl.getD w.win w.base 0 = 2 then Sweep.settle n { w with base := w.base + 1, win := Tbl.del w.win w.base } else w

/-- The record of a fired point. -/
def Sweep.record (w : Sweep) (id l enq : Nat) : Record :=
  { st := if Tbl.getD w.win l 0 = 3 then 3 else 0
    ctx := w.ctx, rclass := w.desc.rclass, role := w.desc.role, code := w.desc.code, sweep := id
    frame := w.desc.fbase + l * w.desc.fstride, join := w.desc.join
    coord := BitVec.ofNat 64 (packElems 16 ((List.range 4).map fun j => w.desc.coord l j)), enq := enq }

/-- Room for a record of this context and role (R37, R297). -/
def State.hasRoom (s : State) (d ctx role : Nat) : Bool :=
  let x := s.ctxAt d ctx
  let n := Tbl.getD x.spillLen role 0
  (decide (n = 0) && decide ((Tbl.getD (s.dieAt d).roleq role []).length < 4096)) || decide (n < 2 ^ x.desc.cap.getD role 0)

/-- The sweep whose point is fired next: the rotation of R320 over the sweeps that can fire. Those of a context fire once its restore
has ended (R452; log 97). -/
def State.firing (s : State) (d : Nat) : Option Nat :=
  let x := s.dieAt d
  ((List.range 16).map fun i => (x.lastFired + 1 + i) % 16).find? fun id => match Tbl.get? x.sweeps id with
    | some w => w.next.isSome && decide ((s.ctxAt d w.ctx).pre ≠ .restoring) && s.hasRoom d w.ctx w.desc.role
    | none => false

/-- Fire the next point of a sweep: Held, and its record into its queue. -/
def State.fire (s : State) (d id : Nat) : State :=
  match Tbl.get? (s.dieAt d).sweeps id with
  | none => s
  | some w => match w.next with
    | none => s
    | some l =>
      match s.enqueue d (w.record id l (s.cycle48 d)) with
      | none => s
      | some t => (t.setPoint d id l 1).updDie d fun x => { x with
          lastFired := id
          sweeps := x.sweeps.map fun p => if p.1 = id then (p.1, { p.2 with first := p.2.first.filter fun n => !decide (n = l) }) else p }

/-! ## Retirement (R323) and completion (R321) -/

/-- `INFO` of graph fault 0x0A (R335). -/
def faultInfo (va kind : Nat) : XlErr → Nat
  | .reason n => (xlInfo va n kind).toNat % 65536
  | _ => 0

/-- The operator of a sweep learns that it has retired (R273). -/
def State.reportRetired (s : State) (d : Nat) (w : Sweep) (id : Nat) : State :=
  s.updCtx d w.ctx fun x => { x with blocks := x.blocks.map fun (b : Block) =>
    if b.serial = w.blk then { b with entries := b.entries.map fun (e : Entry) => { e with sweeps := e.sweeps.filter fun n => !decide (n = id) } } else b }

/-- A sweep whose points are all complete retires: the join add, the report, and its entry is free. -/
def State.retire (s : State) (d id : Nat) : State :=
  match Tbl.get? (s.dieAt d).sweeps id with
  | none => s
  | some w =>
    let s := s.updDie d fun x => { x with sweeps := Tbl.set x.sweeps id { w with st := .retiring } }
    let leave (s : State) : State := (s.reportRetired d w id).updDie d fun x => { x with sweeps := Tbl.del x.sweeps id }
    if w.desc.joinen then
      match s.enginePa d w.ctx w.desc.join 2 with
      | .error e => s.graphFault d w.ctx 0x0A w.desc.join (s.entryOpid d w.ctx w.blk w.ent) 0 (faultInfo w.desc.join 2 e)
      | .ok pa => leave (s.writeMem pa (toBytes 8 ((leWord (s.readMem pa 8)).toNat + 1)))
    else leave s

/-- A point completes; B advances, and the sweep retires where B reaches N. -/
def State.completePoint (s : State) (d id l : Nat) : State :=
  match Tbl.get? (s.dieAt d).sweeps id with
  | none => s
  | some w =>
    let x := { w with win := Tbl.set w.win l 2, finishing := w.finishing.filter fun n => !decide (n = l) }
    let x := Sweep.settle (x.win.length + 1) x
    let s := s.updDie d fun y => { y with sweeps := Tbl.set y.sweeps id x }
    if x.base = x.desc.points then s.retire d id else s

/-! ## Creation and restore (R316, R318, R329) -/

/-- Why the frontier unit stops the context: fault code, ADDR and INFO. -/
structure SweepErr where
  code : Nat
  addr : Nat
  info : Nat := 0
  deriving DecidableEq, Repr

/-- n dwords that the frontier unit reads. -/
def State.frontierRead (s : State) (d ctx a n : Nat) : Except SweepErr (Nat → DWord) :=
  match s.engineRead d ctx a (8 * n) with
  | .error e => .error { code := 0x0A, addr := e.2, info := faultInfo e.2 0 e.1 }
  | .ok bs =>
    let ws := dwordsOf n bs
    .ok fun i => ws.getD i 0

/-- The descriptor at an address, checked. -/
def State.readDesc (s : State) (d ctx a : Nat) : Except SweepErr SweepDesc :=
  if a % 64 ≠ 0 then .error { code := 0x03, addr := a }
  else match s.frontierRead d ctx a 8 with
    | .error e => .error e
    | .ok w =>
      let x := SweepDesc.ofWords a w
      if x.ok w then .ok x else .error { code := 0x03, addr := a }

/-- Requests that wait for a sweep-table entry, by number: of plan routines and of restores (R36, R318). -/
def State.asks (s : State) (d : Nat) : List Nat :=
  ((planUnits d).filterMap fun u =>
    let c := s.coreAt u
    if c.planRun && c.holding then c.want.map fun w => w.1 else none) ++
  (s.dieAt d).ctxs.filterMap fun p => p.2.want.map fun w => w.1

/-- Put a sweep into the lowest free entry, in the order of the requests: none where all are in use or another asked before
`ask` (R36, R318). A sweep that is created is its own OLDID. A context that is being pre-empted gets it Paused. -/
def State.addSweep (s : State) (d : Nat) (ask : Option Nat) (w : Sweep) (old : Option Nat) : Option (Nat × State) :=
  let ahead := (s.asks d).any fun n => match ask with
    | some k => decide (n < k)
    | none => true
  if ahead || (s.dieAt d).offline then none
  else match Tbl.free (s.dieAt d).sweeps 16 with
    | none => none
    | some id =>
      let st := if (s.ctxAt d w.ctx).pre = .pausing then SweepSt.paused else SweepSt.active
      some (id, s.updDie d fun x => { x with sweeps := Tbl.set x.sweeps id { w with st := st, oldId := old.getD id } })

/-- A sweep that is installed with every point complete retires at once (R329). -/
def State.retireDone (s : State) (d id : Nat) : State :=
  match Tbl.get? (s.dieAt d).sweeps id with
  | some w => if w.base = w.desc.points then s.retire d id else s
  | none => s

/-- The saved frontier at an address, with its descriptor checked first (R328, R329). -/
def State.readFrontier (s : State) (d ctx a : Nat) : Except SweepErr Sweep :=
  match s.frontierRead d ctx a 40 with
  | .error e => .error e
  | .ok w => match s.readDesc d ctx (bits (w 0) 55 0) with
    | .error e => .error e
    | .ok x =>
      let n := x.points
      let base := (w 1).toNat
      let top := bits (w 2) 10 0
      let at' (o : Nat) : Nat := bits (w (8 + o / 32)) (2 * (o % 32) + 1) (2 * (o % 32))
      let used := (List.range 1024).filter fun o => decide (at' o ≠ 0)
      let good := decide (bits (w 0) 63 56 = 1 ∧ bits (w 2) 63 22 = 0 ∧ bits (w 2) 15 11 = 0) && [3, 4, 5, 6, 7].all (fun i => decide (w i = 0)) &&
        decide (base ≤ n) && !(decide (base < n) && decide (at' 0 = 2)) && used.all (fun o => decide (base + o < n)) &&
        decide (top = match used.getLast? with
          | some o => o + 1
          | none => 0)
      if good then
        .ok { ctx := ctx, desc := x, base := base, win := used.map (fun o => (base + o, at' o)), oldId := bits (w 2) 19 16
              first := (used.filter fun o => decide (at' o = 3)).map fun o => base + o }
      else .error { code := 0x04, addr := a }

/-! ## Meanings -/

/-- An idle, online compute core finds a record to take (R39, R326). -/
def State.asksRecord (s : State) (u : Nat) : Bool :=
  isCompute u && decide ((s.coreAt u).run = .idle) && !(s.dieAt (dieOf u)).offline && (s.chooseRecord u).isSome

/-- Bringing back spilled records has stopped a context of die d (R295, R297). -/
def State.stopsIn (s t : State) (d : Nat) : Bool :=
  (t.dieAt d).ctxs.any fun p => decide (p.2.st = .faulted ∧ (s.ctxAt d p.1).st ≠ .faulted)

/-- RECORD_TAKE (R39, R326): the idle, online core `u` takes its next record, after the lower-numbered ones of its die that
ask (R298). -/
def execRecordTake (s : State) : Host.Outcome State Fault Refusal :=
  let u := s.ev.u
  let t := s.refillDie (dieOf u)
  let takes := t.asksRecord u && (List.range (u % 128)).all fun i => !t.asksRecord (dieOf u * 128 + i)
  atUnit s u (takes || s.stopsIn t (dieOf u)) (if takes then t.takeRecord u else t)

/-- AGE_PROMOTION (R39, R42): record `m` of role queue `k` of die `u` has passed its limit and goes to the head of its
queue, behind the promoted records that stand there; never past one that arrived before it at the same age (R325). -/
def execAgePromotion (s : State) : Host.Outcome State Fault Refusal :=
  let d := s.ev.u
  let q := Tbl.getD (s.dieAt d).roleq s.ev.k []
  let front := q.takeWhile (s.promoted d)
  match q[s.ev.m]? with
  | some r => happen s (s.promoted d r && decide (front.length < s.ev.m) && ((q.take s.ev.m).drop front.length).all fun x => decide (x.enq ≠ r.enq))
      (s.updDie d fun x => { x with roleq := Tbl.set x.roleq s.ev.k (front ++ [r] ++ (q.eraseIdx s.ev.m).drop front.length) })
  | none => happen s false s

/-- POINT_FIRE (R320): sweep `k` of die `u` fires, after the completions that arrive (R321, R330). -/
def execPointFire (s : State) : Host.Outcome State Fault Refusal :=
  let d := s.ev.u
  let t := s.refillDie d
  let fires := decide (t.firing d = some s.ev.k) && !(t.dieAt d).offline && (t.dieAt d).sweeps.all fun p => p.2.finishing.isEmpty
  happen s (fires || s.stopsIn t d) (if fires then t.fire d s.ev.k else t)

/-- POINT_COMPLETE (R321): point `m` of sweep `k` of die `u`, whose task and its effects have finished. -/
def execPointComplete (s : State) : Host.Outcome State Fault Refusal :=
  let d := s.ev.u
  match Tbl.get? (s.dieAt d).sweeps s.ev.k with
  | some w => happen s (w.finishing.contains s.ev.m) (s.completePoint d s.ev.k s.ev.m)
  | none => happen s false s

end Sys2Proof.Machine
end

