-- ==== Sys2Proof/Machine/Graph.lean ====
section
/-! DEFINITION. The graph words (R343 to R367): control flow, shape arithmetic, captures, handles, channels, and the acceptance of blocks and operators. -/

namespace Sys2Proof.Machine

/-! ## Acceptance -/

/-- Why a word is not accepted now: it waits (in a state that may have changed), or its context stops with a graph fault:
code, ADDR where it is not the word, OPID, HANDLE, INFO. -/
inductive NoWord where
  | wait (s : State)
  | fault (code : Nat) (addr : Option Nat) (opid handle info : Nat)

abbrev Acc (α : Type) := Except NoWord α

def gfault {α : Type} (code : Nat) (handle : Nat := 0) : Acc α := .error (.fault code none 0 handle 0)

/-- The word waits where the condition does not hold. -/
def holdUntil (s : State) (b : Bool) : Acc Unit := if b then .ok () else .error (.wait s)

def orFault (b : Bool) (code : Nat) (handle : Nat := 0) : Acc Unit := if b then .ok () else gfault code handle

/-- Acceptance stands inside a block (R367). -/
def Ctx.inBlock (x : Ctx) : Bool :=
  match x.blocks.getLast? with
  | some b => decide (0 < b.left)
  | none => false

/-- Accept a word with n trailing words. `body` gets the state with the program address behind the word, the die, the
context's number and its state before the word; an OP is the one word that stands inside a block. -/
def accept (s : State) (n : Nat) (isOp : Bool) (body : State → Nat → Nat → Ctx → Acc State) : Host.Outcome State Fault Refusal :=
  if unitExists s.cur && decide (96 ≤ s.cur % 128) then
    let d := dieOf s.cur
    let c := s.cur % 128 - 96
    let x := s.ctxAt d c
    if x.inBlock && !isOp then .next (s.graphFault d c 0x01 x.pc 0 0 0)
    else match body (s.updCtx d c fun y => { y with pc := y.pc + 8 * (n + 1) }) d c x with
      | .ok t => .next (t.updAt s.cur fun k => { k with holding := false })
      | .error (.wait t) => .next ((t.updCtx d c fun y => { y with pc := x.pc }).updAt s.cur fun k => { k with holding := true })
      | .error (.fault code addr opid handle info) => .next (s.graphFault d c code (addr.getD x.pc) opid handle info)
  else .fault (.noSuchUnit s.cur)

def Ctx.shape (x : Ctx) (n : BitVec 5) : DWord := Tbl.getD x.h n.toNat 0

def State.setShape (s : State) (d c : Nat) (n : Nat) (v : DWord) : State := s.updCtx d c fun x => { x with h := Tbl.set x.h n v }

/-- A branch from the word before the program address: nx + 8 × sext(IMM32), modulo 2^64. -/
def Ctx.goto (x : Ctx) (imm : BitVec 32) : Ctx := { x with pc := (BitVec.ofNat 64 x.pc + 8 * imm.signExtend 64).toNat }

/-- Shape arithmetic (R356): a register of form GC written at acceptance. -/
def shapeWord (s : State) (g : GcWord) (fn : DWord → DWord → Acc DWord) : Host.Outcome State Fault Refusal :=
  accept s 0 false fun s d c x => (fn (x.shape g.hb) (x.shape g.hc)).map fun v => s.setShape d c g.ha.toNat v

/-! ## Control flow (R354, R355) -/

/-- LOOP (R354). -/
def execEgbLoop (g : GcWord) (s : State) : Host.Outcome State Fault Refusal :=
  accept s 0 false fun s d c x => do
    let n := x.shape g.ha
    if n = 0 then .ok (s.updCtx d c fun y => y.goto g.imm)
    else do
      orFault (decide (x.loops.length < 8)) 0x08
      .ok (State.setShape (s.updCtx d c fun y => { y with
        loops := { body := y.pc, count := n.toNat, index := 0, reg := g.hb.toNat } :: y.loops }) d c g.hb.toNat 0)

/-- ENDLOOP (R354). -/
def execEndloop (_g : GcWord) (s : State) : Host.Outcome State Fault Refusal :=
  accept s 0 false fun s d c x =>
    match x.loops with
    | [] => gfault 0x08
    | t :: rest =>
      let t := { t with index := t.index + 1 }
      if t.index < t.count then
        .ok (State.setShape (s.updCtx d c fun y => { y with pc := t.body, loops := t :: rest }) d c t.reg (BitVec.ofNat 64 t.index))
      else .ok (s.updCtx d c fun y => { y with loops := rest })

/-- BR (R355). -/
def execEgbBr (g : GcWord) (s : State) : Host.Outcome State Fault Refusal :=
  accept s 0 false fun s d c _ => .ok (s.updCtx d c fun y => y.goto g.imm)

/-- BRC (R355). -/
def execBrc (g : GcWord) (s : State) : Host.Outcome State Fault Refusal :=
  accept s 0 false fun s d c x =>
    .ok (if condHolds g.cond.toNat (x.shape g.ha) (x.shape g.hb) then s.updCtx d c fun y => y.goto g.imm else s)

/-- CALL (R355). -/
def execEgbCall (g : GcWord) (s : State) : Host.Outcome State Fault Refusal :=
  accept s 0 false fun s d c x => do
    orFault (decide (x.calls.length < 16)) 0x08
    .ok (s.updCtx d c fun y => Ctx.goto { y with calls := { ret := y.pc } :: y.calls } g.imm)

/-- Return through the call stack (R355). -/
def egbReturn (s : State) (d c : Nat) (x : Ctx) : Acc State :=
  match x.calls with
  | [] => gfault 0x08
  | t :: rest => .ok (s.updCtx d c fun y => { y with pc := t.ret, calls := rest })

/-- RET (R355). -/
def execEgbRet (_g : GcWord) (s : State) : Host.Outcome State Fault Refusal :=
  accept s 0 false fun s d c x => egbReturn s d c x

/-- Every accepted block has committed. -/
def Ctx.idle (x : Ctx) : Bool := x.blocks.isEmpty

/-- GEND (R358). -/
def execGend (_g : GcWord) (s : State) : Host.Outcome State Fault Refusal :=
  accept s 0 false fun s d c x => do
    holdUntil s (x.idle && (s.dieAt d).sweeps.all fun p => decide (p.2.ctx ≠ c))
    let t := (s.unloadAll d c).updCtx d c fun y => { y with done := true, st := .free }
    .ok (if x.done then t else t.irqDie d 1)

/-! ## Capture and replay (R351, R359) -/

/-- CAPBEG (R359). -/
def execCapbeg (g : GcWord) (s : State) : Host.Outcome State Fault Refusal :=
  accept s 0 false fun s d c _ => .ok (s.updCtx d c fun y => { y with caps := Tbl.set y.caps g.imm.toNat { start := y.pc } })

/-- CAPEND (R359). -/
def execCapend (g : GcWord) (s : State) : Host.Outcome State Fault Refusal :=
  accept s 0 false fun s d c x =>
    let k := g.imm.toNat
    match x.calls with
    | { replay := some n, .. } :: _ => if n = k then egbReturn s d c x else capEnd s d c x k
    | _ => capEnd s d c x k
where
  /-- The end of a region that is not being replayed. -/
  capEnd (s : State) (d c : Nat) (x : Ctx) (k : Nat) : Acc State :=
    match Tbl.get? x.caps k with
    | none => gfault 0x0C
    | some e => .ok (if e.closed then s else s.updCtx d c fun y => { y with caps := Tbl.set y.caps k { e with closed := true, stop := x.pc } })

/-- REPLAY (R351, R359): the flip comes before the push, which may find the stack full. -/
def execReplay (g : GcWord) (s : State) : Host.Outcome State Fault Refusal :=
  accept s 0 false fun s d c x =>
    let k := g.imm.toNat
    match Tbl.get? x.caps k with
    | some e => do
      orFault e.closed 0x0C
      let t := s.updCtx d c fun y => { y with actgen := y.actgen != y.patch, patch := false }
      if 16 ≤ x.calls.length then .ok (t.graphFault d c 0x08 x.pc 0 0 0)
      else .ok (t.updCtx d c fun y => { y with calls := { ret := y.pc, replay := some k } :: y.calls, pc := e.start })
    | none => gfault 0x0C

/-! ## Shape arithmetic (R356) -/

/-- HSET (R356). -/
def execHset (g : GcWord) (s : State) : Host.Outcome State Fault Refusal := shapeWord s g fun _ _ => .ok (g.imm.signExtend 64)

/-- HADD (R356). -/
def execHadd (g : GcWord) (s : State) : Host.Outcome State Fault Refusal := shapeWord s g fun a b => .ok (a + b + g.imm.signExtend 64)

/-- HMUL (R356). -/
def execHmul (g : GcWord) (s : State) : Host.Outcome State Fault Refusal := shapeWord s g fun a b => .ok (a * b)

/-- HDIV (R356). -/
def execHdiv (g : GcWord) (s : State) : Host.Outcome State Fault Refusal :=
  shapeWord s g fun a b =>
    if b = 0 then gfault 0x06
    else .ok (if g.imm.getLsbD 0 then BitVec.ofNat 64 ((a.toNat + b.toNat - 1) / b.toNat) else a / b)

/-- HMIN (R356). -/
def execHmin (g : GcWord) (s : State) : Host.Outcome State Fault Refusal := shapeWord s g fun a b => .ok (if a.toNat ≤ b.toNat then a else b)

/-- HMAX (R356). -/
def execHmax (g : GcWord) (s : State) : Host.Outcome State Fault Refusal := shapeWord s g fun a b => .ok (if a.toNat ≤ b.toNat then b else a)

/-! ## Handles (R360 to R362, R364) -/

/-- A valid handle, or fault 0x07. -/
def Ctx.need (x : Ctx) (h : Nat) : Acc Handle :=
  match x.handle? h with
  | some y => .ok y
  | none => gfault 0x07 h

/-- A resolved, well-formed descriptor, or fault 0x07. -/
def Ctx.descOf (x : Ctx) (w : List DWord) (h : Nat) : Acc (List DWord) :=
  match resolveDesc x.h w with
  | some r => if descOk r then .ok r else gfault 0x07 h
  | none => gfault 0x07 h

/-- HLD (R362). -/
def execHld (g : GhWord) (s : State) : Host.Outcome State Fault Refusal :=
  accept s 0 false fun s d c x => do
    let h ← x.need g.handle.toNat
    holdUntil s (decide ((x.counts h).2 = 0))
    let item := g.aux.toNat / 256 % 16
    orFault (decide (item < 8)) 0x07 g.handle.toNat
    .ok (s.setShape d c (g.aux.toNat % 32) (BitVec.ofNat 64 (
      if item = 6 then prodOf (descExts h.words) else if item = 7 then descNdim h.words else descExt h.words item)))

/-- HDEF (R360). -/
def execHdef (g : GhWord) (s : State) : Host.Outcome State Fault Refusal :=
  accept s 12 false fun s d c x => do
    let n := g.handle.toNat
    holdUntil s (match x.handle? n with
      | some h => decide (h.pr = 0 ∧ h.pw = 0)
      | none => true)
    orFault (x.handle? n).isNone 0x07 n
    let w ← x.descOf g.trail n
    .ok (s.updCtx d c fun y => y.setHandle n { words := w, root := n, shard := noShard })

/-- HFREE (R361). -/
def execHfree (g : GhWord) (s : State) : Host.Outcome State Fault Refusal :=
  accept s 0 false fun s d c x => do
    let n := g.handle.toNat
    let h ← x.need n
    holdUntil s (x.quiet n)
    .ok (s.updCtx d c fun y => { y with
      handles := y.handles.filter fun p => !decide (p.1 = n) && !(!h.isAlias && p.2.isAlias && decide (p.2.root = n)) })

/-- HRESHAPE (R360). -/
def execHreshape (g : GhWord) (s : State) : Host.Outcome State Fault Refusal :=
  accept s 11 false fun s d c x => do
    let n := g.handle.toNat
    holdUntil s (x.quiet n)
    let h ← x.need n
    let w ← x.descOf (h.words.take 1 ++ g.trail) n
    orFault (shardOk x.desc w h.shard) 0x07 n
    .ok (s.updCtx d c fun y => y.setHandle n { h with words := w })

/-- HSHARD (R361): the root and every alias of it. -/
def execHshard (g : GhWord) (s : State) : Host.Outcome State Fault Refusal :=
  accept s 1 false fun s d c x => do
    let n := g.handle.toNat
    let h ← x.need n
    holdUntil s (x.quiet n)
    let v := g.trail.getD 0 0
    let all := x.handles.filter fun p => decide (p.2.root = h.root)
    orFault (all.all fun p => shardOk x.desc p.2.words v) 0x07 n
    .ok (s.updCtx d c fun y => { y with handles := y.handles.map fun (p : Nat × Handle) =>
      if p.2.root = h.root then (p.1, { p.2 with shard := v }) else p })

/-- HALIAS (R360). -/
def execHalias (g : GhWord) (s : State) : Host.Outcome State Fault Refusal :=
  accept s 12 false fun s d c x => do
    let n := g.handle.toNat
    let src := g.aux.toNat
    holdUntil s (x.quiet src)
    orFault (x.handle? n).isNone 0x07 n
    let h ← x.need src
    let off := g.trail.getD 0 0
    let base := BitVec.ofNat 64 (descBase h.words) + off
    orFault (decide (off.toNat % 64 = 0)) 0x07 n
    let w ← x.descOf (base :: g.trail.drop 1) n
    .ok (s.updCtx d c fun y => y.setHandle n { words := w, isAlias := true, root := h.root, shard := h.shard })

/-- WAITH (R364). -/
def execWaith (g : GhWord) (s : State) : Host.Outcome State Fault Refusal :=
  accept s 0 false fun s _ _ x => do
    let h ← x.need g.handle.toNat
    holdUntil s (decide ((x.counts h).2 = 0) && (decide (g.aux.toNat % 2 = 0) || decide ((x.counts h).1 = 0)))
    .ok s

/-! ## Parameters, steps, signals (R351, R357, R363) -/

/-- Base of a parameter generation (R332). -/
def Ctx.paramBase (x : Ctx) (gen : Nat) : Nat := x.desc.pbase + gen * 0x8000

/-- A sequencer access that failed: fault 0x0A at the address (R335). -/
def seqFault {α : Type} (kind : Nat) (e : XlErr × Nat) : Acc α := .error (.fault 0x0A (some e.2) 0 0 (faultInfo e.2 kind e.1))

/-- PARAM (R363). -/
def execParam (g : GhWord) (s : State) : Host.Outcome State Fault Refusal :=
  accept s 0 false fun s d c x =>
    match s.engineRead d c (x.paramBase x.actgen.toNat + 8 * g.handle.toNat) 8 with
    | .error e => seqFault 0 e
    | .ok bs => .ok (s.setShape d c (g.aux.toNat % 32) (leWord bs))

/-- STEP (R357). -/
def execEgbStep (_g : GcWord) (s : State) : Host.Outcome State Fault Refusal :=
  accept s 0 false fun s d c x => do
    holdUntil s x.idle
    .ok (s.updCtx d c fun y => { y with step := y.step + 1 })

/-- SIGNAL (R357). -/
def execSignal (g : GcWord) (s : State) : Host.Outcome State Fault Refusal :=
  accept s 0 false fun s d c x => do
    holdUntil s x.idle
    match s.engineWrite d c (x.desc.sigaddr + 8 * (g.imm.toNat % 256)) (toBytes 8 (x.shape g.ha).toNat) with
    | .error e => seqFault 1 e
    | .ok t => .ok (t.irqDie d 1)

/-! ## Channels (R365, R398, R399) -/

/-- The entry is allowed, and meets no other channel of its receiver. -/
def State.chanOk (s : State) (d c ch : Nat) (e : ChanEnt) : Bool :=
  let pkgs := s.partPackages (s.dieAt d).partition
  e.fieldsOk && pkgs.contains (e.sender / 4096) && pkgs.contains (e.receiver / 4096) &&
  (decide (dieOf e.receiver ≠ d) || (List.range 4).all fun k => (s.ctxAt d k).chans.all fun p => decide (k = c ∧ p.1 = ch) || !e.overlaps p.2)

/-- CHLOAD (R365, R399). -/
def execChload (g : GhWord) (s : State) : Host.Outcome State Fault Refusal :=
  accept s 2 false fun s d c x => do
    holdUntil s x.idle
    let ch := g.handle.toNat
    let e : ChanEnt := { e0 := g.trail.getD 0 0, e1 := g.trail.getD 1 0 }
    orFault (s.chanOk d c ch e) 0x0E
    let s := s.unloadChan d c ch
    holdUntil s (decide (dieOf e.receiver ≠ d) || s.landingFree e)
    .ok (s.loadChan d c ch e)

/-- CHLOAD.off (R365). -/
def execChloadOff (g : GhWord) (s : State) : Host.Outcome State Fault Refusal :=
  accept s 0 false fun s d c x => do
    holdUntil s x.idle
    .ok (s.unloadChan d c g.handle.toNat)

/-! ## Blocks and operators (R343 to R349, R367, R371, R385) -/

def Ctx.bank (x : Ctx) (k : Nat) : Bank := if k = 1 then x.bank1 else x.bank0

/-- Block-local outputs of an operator: NOUT, or the outputs of a contract that the entry does not name (R348, R386). -/
def localOuts (b : Bank) (id nrefs : Nat) : Nat :=
  if id < 0x100 then match builtinArity id with
    | some (i, o) => if nrefs = i then o else 0
    | none => 0
  else match Tbl.get? b.ops id with
    | some o => o.nout
    | none => 0

/-- BLOCK (R343, R349, R367). -/
def execBlock (nm1 : BitVec 5) (budget : BitVec 16) (s : State) : Host.Outcome State Fault Refusal :=
  accept s 0 false fun s d c x => do
    orFault (decide (budget.toNat ≤ 384)) 0x0B
    holdUntil s (decide (x.blocks.length < 64))
    let b : Block := { serial := x.nextSerial, addr := x.pc, budget := budget.toNat, bank := x.curBank.toNat, gen := x.actgen.toNat, left := nm1.toNat + 1 }
    .ok (s.updCtx d c fun y => { y with blocks := y.blocks ++ [b], nextSerial := y.nextSerial + 1 })

/-- Why an entry is refused: a code, OPID and handle. -/
def opFault {α : Type} (code : Nat) (w : OpWord) (handle : Nat := 0) : Acc α := .error (.fault code none w.opid.toNat handle 0)

/-- The roots of an entry's references; an invalid handle stops the context (R348). -/
def Ctx.rootsOf (x : Ctx) (w : OpWord) : Acc (List Nat) :=
  w.refs.mapM fun r => if refKind r = 3 then .ok 0 else match x.handle? (refHandle r) with
    | some h => .ok h.root
    | none => opFault 0x07 w (refHandle r)

/-- The rules of R99 and R348 for entry j of the n of a block. -/
def blockRules (b : Block) (bank : Bank) (w : OpWord) (roots : List Nat) (j n : Nat) : Bool :=
  let named := (w.refs.zip roots).filter fun p => decide (refKind p.1 ≠ 3)
  let mine := named.map fun p => p.2
  (List.range 32).all (fun k => !w.cons.getLsbD k || (decide (j < k) && decide (k < n))) &&
  w.refs.all (fun r => decide (refKind r ≠ 3) || (decide (refEntry r < j) && match b.entries[refEntry r]? with
    | some e => decide (e.cons / 2 ^ j % 2 = 1) && decide (refOut r < localOuts bank e.opid e.refs.length)
    | none => false)) &&
  decide (mine.eraseDups.length = mine.length) &&
  b.entries.all fun e => (e.refs.zip e.roots).all fun p => !(refWrites p.1 && decide (refKind p.1 ≠ 3)) || !mine.contains p.2

/-- An operator id is defined in a bank (R371). -/
def opDefined (bank : Bank) (id : Nat) : Bool := if id < 0x100 then (builtinArity id).isSome else (Tbl.get? bank.ops id).isSome

/-- Accept one entry of the last block: R99, R348, R371, and its references count (R345). -/
def Ctx.acceptEntry (x : Ctx) (b : Block) (w : OpWord) (addr j n : Nat) : Acc (Ctx × Block) := do
  let bank := x.bank b.bank
  if !opDefined bank w.opid.toNat then opFault 0x0D w
  let roots ← x.rootsOf w
  if !blockRules b bank w roots j n then opFault 0x02 w
  let e : Entry := { opid := w.opid.toNat, cons := w.cons.toNat, refs := w.refs, roots := roots, attrs := w.attrs, addr := addr, hregs := x.h }
  let y := (w.refs.zip roots).foldl (fun (y : Ctx) p =>
    if refKind p.1 = 3 then y
    else y.updRoot p.2 fun h => { h with pr := h.pr + (refReads p.1).toNat, pw := h.pw + (refWrites p.1).toNat }) x
  .ok (y, { b with entries := b.entries ++ [e], left := b.left - 1 })

/-- The words of a decomposition (R385): a budget and the entries; none where they are no block of built-in operators. -/
def parseBlock : List (BitVec 64) → Option (Nat × List OpWord)
  | [] => none
  | w :: t => match decodeEgb w [] with
    | some (.block nm1 budget) => (entries (nm1.toNat + 1) t).map fun l => (budget.toNat, l)
    | _ => none
where
  /-- n entries that use up all the words. -/
  entries : Nat → List (BitVec 64) → Option (List OpWord)
    | 0, ws => if ws.isEmpty then some [] else none
    | _ + 1, [] => none
    | n + 1, w :: t =>
      match decodeEgb w t with
      | some (.op o) =>
        if o.opid.toNat < 0x100 ∧ unusedRefsClear o.refs.length t ∧ (o.refs.all fun r => decide (refKind r = 3 ∨ refHandle r < 16)) then
          (entries n (t.drop ((o.refs.length + 3) / 4 + o.attrs.length))).map fun l => o :: l
        else none
      | _ => none

/-- An entry of a decomposition with the references and attributes of the decomposed entry in place. -/
def substitute (w o : OpWord) : Option OpWord := do
  let refs ← o.refs.mapM fun r => if refKind r = 3 then some r else match w.refs[refHandle r]? with
    | some q => if refKind q = 3 then none else some (r &&& 0xC000 ||| q &&& 0x0FFF)
    | none => none
  let attrs ← o.attrs.mapM fun a => if bits a 63 8 = 2 ^ 55 ∧ bits a 7 0 ≤ 30 then w.attrs[bits a 7 0]? else some a
  some { o with refs := refs, attrs := attrs }

/-- Accept the block that stands for a decomposed entry. -/
def Ctx.acceptDecomposed (x : Ctx) (b : Block) (w : OpWord) (addr : Nat) (ws : List (BitVec 64)) : Acc (Ctx × Block) := do
  match parseBlock ws with
  | none => opFault 0x02 w
  | some (budget, os) =>
    let b := { b with budget := b.budget + budget, left := os.length }
    if 384 < b.budget then .error (.fault 0x0B (some b.addr) w.opid.toNat 0 0)
    ((List.range os.length).zip os).foldlM (fun (a : Ctx × Block) p => match substitute w p.2 with
      | none => opFault 0x02 w
      | some o => match a.1.acceptEntry a.2 o addr p.1 os.length with
        | .ok r => .ok r
        | .error (.fault code ad _ handle info) => .error (.fault code ad w.opid.toNat handle info)
        | .error e => .error e) (x, b)

/-- OP (R343 to R349, R367): an entry of the open block, or a block of its own. -/
def execOp (w : OpWord) (s : State) : Host.Outcome State Fault Refusal :=
  accept s ((w.refs.length + 3) / 4 + w.attrs.length) true fun s d c x => do
    holdUntil s (x.inBlock || decide (x.blocks.length < 64))
    let fresh : Block := { serial := x.nextSerial, addr := x.pc, bank := x.curBank.toNat, gen := x.actgen.toNat, left := 1 }
    let b := if x.inBlock then x.blocks.getLastD fresh else fresh
    let y := if x.inBlock then { x with blocks := x.blocks.dropLast } else { x with nextSerial := x.nextSerial + 1 }
    let j := b.entries.length
    let n := j + b.left
    let dec := if w.opid.toNat < 0x100 then none else Tbl.get? (x.bank b.bank).decs w.opid.toNat
    let r ← match dec with
      | some ws => do
        if n ≠ 1 ∨ w.cons ≠ 0 then opFault 0x02 w
        y.acceptDecomposed b w x.pc ws
      | none => y.acceptEntry b w x.pc j n
    let pc := (s.ctxAt d c).pc
    .ok (s.updCtx d c fun _ => { r.1 with pc := pc, blocks := r.1.blocks ++ [r.2] })

/-! ## Words that are none (R101) -/

/-- ILLEGAL_WORD (R101): context `k` of die `u` stops at the word at address `v`. -/
def execIllegalWord (s : State) : Host.Outcome State Fault Refusal :=
  happen s (decide (s.ev.k < 4 ∧ (s.ctxAt s.ev.u s.ev.k).st = .running) && s.noWord s.ev.u s.ev.k s.ev.v.toNat) (s.graphFault s.ev.u s.ev.k 0x01 s.ev.v.toNat 0 0 0)

end Sys2Proof.Machine
end

