-- ==== Sys2Proof/Machine/Images.lean ====
section
/-! DEFINITION. `CSLOAD`: control-store images and Traip code objects (R366, R381 to R384). -/

namespace Sys2Proof.Machine

/-- Why a load fails: a malformed image (0x10), or a read that fails (0x0A). -/
inductive LoadErr where
  | bad
  | access (e : XlErr × Nat)

/-- n dwords of an image. -/
def State.imageRead (s : State) (d c a n : Nat) : Except LoadErr (List DWord) :=
  match s.engineRead d c a (8 * n) with
  | .ok bs => .ok (dwordsOf n bs)
  | .error e => .error (.access e)

def imageNeed (b : Bool) : Except LoadErr Unit := if b then .ok () else .error .bad

/-- An operator-table entry of an image: its id and entry (R371, R381, R382). -/
def imageOp (codeLen : Nat) (p : DWord × DWord) : Option (Nat × OpEnt) :=
  let id := bits p.1 9 0
  let v := p.2
  if bits p.1 63 10 = 0 ∧ 0x100 ≤ id ∧ v.getLsbD 63 ∧ bits v 62 57 = 0 ∧ bits v 51 48 = 0 ∧ bits v 31 18 = 0 ∧ bits v 56 52 ≤ 16 ∧
      bits v 17 0 % 4 = 0 ∧ bits v 17 0 < codeLen then
    some (id, { nout := bits v 56 52, pre := bits v 47 32, plan := bits v 17 0 })
  else none

/-- Pairs of neighbouring dwords. -/
def dwordPairs : List DWord → List (DWord × DWord)
  | a :: b :: t => (a, b) :: dwordPairs t
  | _ => []

/-- Read and check a control-store image (R381, R382). -/
def State.loadImage (s : State) (d c a : Nat) : Except LoadErr Bank := do
  let h ← s.imageRead d c a 8
  let w (i : Nat) : DWord := h.getD i 0
  let codeLen := bits (w 0) 31 0
  let nops := bits (w 1) 9 0
  imageNeed (decide (a % 64 = 0 ∧ bits (w 0) 63 56 = 1 ∧ bits (w 0) 55 32 = 0 ∧ codeLen % 4 = 0 ∧ codeLen ≤ 0x40000 ∧ bits (w 1) 63 10 = 0 ∧ nops ≤ 768) &&
    (h.drop 2).all fun x => decide (x = 0))
  let es ← s.imageRead d c (a + 64) (2 * nops)
  match (dwordPairs es).mapM (imageOp codeLen) with
  | none => .error .bad
  | some ops =>
    imageNeed (decide ((ops.map fun p => p.1).eraseDups.length = ops.length))
    match s.engineRead d c (a + 64 + 16 * nops) codeLen with
    | .error e => .error (.access e)
    | .ok code => .ok { code := Memory.writeN [] 0 code, ops := ops.foldl (fun t p => Tbl.set t p.1 p.2) [] }

/-- Architecture revision level of every die (R384). -/
def revLevel : Nat := 1

/-- Read a Traip code object: the selected image with the decompositions of the ids it leaves undefined (R383, R384). -/
def State.loadObject (s : State) (d c a : Nat) : Except LoadErr Bank := do
  let h ← s.imageRead d c a 8
  let w0 := h.getD 0 0
  let ndec := bits w0 15 8
  let nimg := bits w0 7 0
  imageNeed (decide (a % 64 = 0 ∧ bits w0 55 16 = 0 ∧ 1 ≤ nimg) && (h.drop 1).all fun x => decide (x = 0))
  let es := dwordPairs (← s.imageRead d c (a + 64) (2 * (nimg + ndec)))
  let imgs := es.take nimg
  let decs := es.drop nimg
  let revs := imgs.map fun p => p.1.toNat
  let ids := decs.map fun p => bits p.1 9 0
  imageNeed (imgs.all (fun p => decide (p.1.toNat < 256 ∧ p.2.toNat % 64 = 0)) && decide (revs.eraseDups.length = revs.length) &&
    decs.all (fun p => decide (bits p.1 31 10 = 0 ∧ bits p.1 63 43 = 0 ∧ 1 ≤ bits p.1 42 32 ∧ bits p.1 42 32 ≤ 1024 ∧ p.2.toNat % 8 = 0)) &&
    decide (ids.eraseDups.length = ids.length))
  let best := (imgs.filter fun p => decide (p.1.toNat ≤ revLevel)).foldl (fun (b : Option (DWord × DWord)) p => match b with
    | some q => if q.1.toNat < p.1.toNat then some p else b
    | none => some p) none
  let bank ← match best with
    | some p => s.loadImage d c (a + p.2.toNat)
    | none => .ok {}
  decs.foldlM (fun (b : Bank) p => do
    let ws ← s.imageRead d c (a + p.2.toNat) (bits p.1 42 32)
    imageNeed (parseBlock ws).isSome
    .ok (if (Tbl.get? b.ops (bits p.1 9 0)).isSome then b else { b with decs := Tbl.set b.decs (bits p.1 9 0) ws })) bank

/-- The bank of an image or a code object. -/
def State.loadBank (s : State) (d c a : Nat) : Except LoadErr Bank := do
  let h ← s.imageRead d c a 1
  if bits (h.getD 0 0) 63 56 = 2 then s.loadObject d c a else s.loadImage d c a

/-- No entry that has still to run is bound to a bank (R366). -/
def Ctx.bankFree (x : Ctx) (k : Nat) : Bool :=
  x.blocks.all fun b => decide (b.bank ≠ k) || b.entries.all fun e => decide (e.stage = .complete)

/-- CSLOAD (R366). -/
def execCsload (g : GhWord) (s : State) : Host.Outcome State Fault Refusal :=
  accept s 1 false fun s d c x => do
    let k := (!x.curBank).toNat
    holdUntil s (x.bankFree k)
    match s.loadBank d c (g.trail.getD 0 0).toNat with
    | .error .bad => gfault 0x10
    | .error (.access e) => seqFault 0 e
    | .ok b => .ok (s.updCtx d c fun y => if k = 1 then { y with bank1 := b, curBank := true } else { y with bank0 := b, curBank := false })

end Sys2Proof.Machine
end

