-- ==== Sys2Proof/Machine/Operators.lean ====
section
/-! DEFINITION. Operators: issue (R346, R349, R373), built-in operators (R386), inserted collectives (R412 to R414), completion (R273) and commit (R347). -/

namespace Sys2Proof.Machine

/-! ## The issue check (R346) -/

/-- Roots of the references of an entry that satisfy p, block-local ones apart. -/
def Entry.named (e : Entry) (p : BitVec 16 → Bool) : List Nat :=
  ((e.refs.zip e.roots).filter fun q => decide (refKind q.1 ≠ 3) && p q.1).map fun q => q.2

def meetsRoots (a b : List Nat) : Bool := a.any fun x => b.contains x

/-- Entry j of a block may issue, its budget apart. -/
def Ctx.mayIssue (x : Ctx) (b : Block) (j : Nat) (e : Entry) : Bool :=
  let before := x.blocks.takeWhile fun c => decide (c.serial ≠ b.serial)
  let all := e.named fun _ => true
  let wr := e.named refWrites
  let earlier := before.flatMap fun c => c.entries
  decide (e.stage = .accepted) &&
  earlier.all (fun q => !meetsRoots (q.named refWrites) all) &&
  (earlier ++ b.entries.take j).all (fun q => decide (q.stage = .complete) || !meetsRoots (q.named refReads) wr) &&
  b.entries.all fun q => decide (q.cons / 2 ^ j % 2 = 0) || decide (q.stage = .complete)

/-! ## Operator regions (R223, R349) -/

/-- Compute cores of a die that are online (R45). -/
def State.onlineCores (s : State) (d : Nat) : List Nat := (computeUnits d).filter fun u => decide ((s.coreAt u).run ≠ .offline)

/-- The Operator region of a block on every online core; none where some core has no room. -/
def State.allocBlock (s : State) (d c : Nat) (b : Block) : Option State :=
  if b.budget = 0 then some (s.updCtx d c fun x => x.updBlock b.serial fun b => { b with allocated := true })
  else
    let r := (s.onlineCores d).foldlM (fun (a : State × Tbl Nat) u =>
      ((a.1.coreAt u).findGrans b.budget).map fun g =>
        (a.1.updAt u fun k => k.takeGrans g b.budget (.oper c b.serial), Tbl.set a.2 u g)) (s, [])
    r.map fun a => a.1.updCtx d c fun x => x.updBlock b.serial fun b => { b with allocated := true, regions := a.2 }

/-- Allocate blocks in acceptance order as far as a block, until one finds no room. -/
def State.allocUpTo (s : State) (d c serial : Nat) : List Block → State
  | [] => s
  | b :: t =>
    if b.allocated then (if b.serial = serial then s else State.allocUpTo s d c serial t)
    else match s.allocBlock d c b with
      | none => s
      | some s => if b.serial = serial then s else State.allocUpTo s d c serial t

/-! ## Built-in operators at issue (R386) -/

/-- The tensor of a handle reference: what this member holds of it, some axes taken whole. -/
def State.handleTen (s : State) (d c n : Nat) (skip : Nat → Bool) : Ten :=
  let h := ((s.ctxAt d c).handle? n).getD {}
  { hn := n, ws := h.words, held := (List.range 6).map (s.localRange d c h.words h.shard skip) }

/-- Descriptor words of a dense tensor. -/
def denseDesc (w1 : DWord) (ext : List Nat) : List DWord :=
  let strides := (List.range 6).map fun k => BitVec.ofNat 64 (prodOf (ext.take k) % 2 ^ 48)
  [0, setBits w1 55 48 0] ++ extWords ext ++ strides ++ [0]

/-- What a built-in operator reads as block-local output o of entry e: a built-in's value; of a writable operator the
bytes' place among the cores is not stated, so the elements are free values, in the shape `like` (log 1). -/
def State.localTen (s : State) (d c : Nat) (e : Entry) (o : Nat) (like : List DWord) : Ten × Option DWord :=
  match Tbl.get? e.locs o with
  | some (h, vs) => ({ ws := h.words, held := (List.range 6).map (s.localRange d c h.words h.shard fun _ => false), vals := some vs }, some h.shard)
  | none =>
    let ext := descExts like
    let w1 := (Tbl.getD e.louts o (0, 0)).2
    ({ ws := denseDesc w1 ext, held := ext.map fun n => (0, n)
       vals := some ((List.range (prodOf ext)).map fun i => (Config.freeWord (s.free + i)).toNat % 2 ^ (if bfpOf (bits w1 63 59) = 0 then typeW (bits w1 63 59) else 16)) }, none)

/-- Sharding word of a reference; none where it has none that is known. -/
def State.refShard (s : State) (d c : Nat) (b : Block) (r : BitVec 16) : Option DWord :=
  if refKind r = 3 then match b.entries[refEntry r]? with
    | some e => (Tbl.get? e.locs (refOut r)).map fun p => p.1.shard
    | none => none
  else ((s.ctxAt d c).handle? (refHandle r)).map fun h => h.shard

/-- The natural mode of the outputs of an entry on an axis (R412). -/
def State.natural (s : State) (d c : Nat) (b : Block) (e : Entry) (k : Nat) : Option AxisMode :=
  let ins := if e.opid < 0x100 then e.refs.take ((builtinArity e.opid).getD (0, 0)).1
    else (e.refs.filter fun r => refReads r || decide (refKind r = 3)).take 1
  naturalMode e.opid e.attrs (ins.map (s.refShard d c b)) k

/-- The sharding of a block-local output of a built-in: its natural mode on each axis (R412), else as its first input. -/
def State.localShard (s : State) (d c : Nat) (b : Block) (e : Entry) (first : Option DWord) : DWord :=
  (List.range 3).foldl (fun x k => match s.natural d c b e k with
    | some m => setBits x (5 * k + 4) (5 * k) (m.1 * 8 + m.2)
    | none => x) (first.getD noShard)

/-- C of matmuladd is Replicated on an axis where the output is Partial, and nowhere Partial itself: there its local part is to
hold the elements (`OpCtx.matmul`). -/
def State.startOk (s : State) (d c : Nat) (b : Block) (e : Entry) (part : Nat → Bool) : Bool :=
  decide (e.opid ≠ 0x031) || (List.range 3).all fun k => match (e.refs[2]?).map (s.refShard d c b) with
    | some (some x) => if part k then decide (axisMode x k = 0) else decide ((s.ctxAt d c).desc.size k ≤ 1 ∨ axisMode x k ≠ 2)
    | _ => true

/-- The axes of conv2d are split as its contract admits: C in X and F alike, or O in F alone (R386). -/
def State.convOk (s : State) (d c : Nat) (b : Block) (e : Entry) : Bool :=
  decide (e.opid ≠ 0x033) || (List.range 3).all fun k => match e.refs.map (s.refShard d c b) with
    | some x :: some f :: _ =>
      let m := modeOf x k
      let n := modeOf f k
      decide ((m = (1, 2) ∧ n = (1, 2)) ∨ (m.1 ≠ 1 ∧ (n.1 ≠ 1 ∨ n = (1, 3))))
    | _ => true

/-- Words of a scratchpad range that nothing has written take free values, or stay unwritten, by free choice (log 1). -/
def Core.freeWords (c : Core) (lo n free : Nat) : Core :=
  let words := (List.range n).filterMap fun i => match Tbl.get? c.spad (lo + i) with
    | some v => some (lo + i, v)
    | none => if (Config.freeWord (free + i)).getLsbD 63 then some (lo + i, (Config.freeWord (free + i)).setWidth 32) else none
  { c with spad := c.spad.filter (fun p => decide (p.1 < lo)) ++ words ++ c.spad.filter fun p => decide (lo + n ≤ p.1) }

/-- A built-in operator leaves a block-local output in the Operator regions of its block, beside what other entries keep there; which
bytes of which core hold which element is not stated, so free values fill words that nothing has written (R34, R386, log 1). -/
def State.fillRegions (s : State) (b : Block) : State :=
  b.regions.foldl (fun s p => State.updAt { s with free := s.free + 1024 * b.budget } p.1 fun c => c.banked.freeWords (1024 * p.2) (1024 * b.budget) s.free) s

/-- Run the contract of a built-in entry: its output is written, or is a block-local value that the block's regions hold. -/
def State.runBuiltin (s : State) (d c : Nat) (b : Block) (j : Nat) (e : Entry) : Op State := do
  let (nin, nout) := (builtinArity e.opid).getD (0, 0)
  let ins := e.refs.take nin
  let outs := e.refs.drop nin
  check (decide (ins.length = nin ∧ (outs.length = nout ∨ outs.length = 0)) && ins.all (fun r => decide (refKind r ≠ 1)) && outs.all refWrites)
  let desc := (s.ctxAt d c).desc
  let part (k : Nat) : Bool := decide (1 < desc.size k) && decide ((s.natural d c b e k).map (fun m => m.1) = some 2)
  let like := match outs with
    | r :: _ => (((s.ctxAt d c).handle? (refHandle r)).getD {}).words
    | [] => denseDesc 0 [1, 1, 1, 1, 1, 1]
  let xs := ins.map fun r => if refKind r = 3 then match b.entries[refEntry r]? with
      | some p => (s.localTen d c p (refOut r) like).1
      | none => {}
    else s.handleTen d c (refHandle r) fun _ => false
  check (s.startOk d c b e part && s.convOk d c b e)
  let oc : OpCtx := { s := s, d := d, ctx := c, id := e.opid, attrs := e.attrs, partialOn := part }
  let drawn (t : State) : State := { t with free := t.free + 1 + (xs.map fun x => (x.vals.getD []).length).foldl (· + ·) 0 }
  if e.opid = 0x007 then
    check (decide ((ins.map refKind).head? = some 2))
    let r ← oc.scatterAdd (xs.getD 0 {}) (xs.getD 1 {}) (xs.getD 2 {})
    .ok (drawn r.1)
  else match outs with
    | r :: _ => do
      let y := s.handleTen d c (refHandle r) part
      let rs ← oc.results y xs
      let t ← s.tenStore d c y rs
      .ok (drawn t.1)
    | [] =>
      let x := xs.getD 0 {}
      let ext := descExts x.ws
      let sh := s.localShard d c b e (((ins.head?).map (s.refShard d c b)).getD none)
      let ws := denseDesc (x.ws.getD 1 0) ext
      let y : Ten := { ws := ws, held := (List.range 6).map (s.localRange d c ws sh fun _ => false), vals := some (List.replicate (prodOf ext) 0) }
      let rs ← oc.results y xs
      let t ← s.tenStore d c y rs
      let h : Handle := { words := y.ws, shard := sh }
      .ok ((drawn (t.1.updCtx d c fun z => z.updEntry b.serial j fun e => { e with
        locs := Tbl.set e.locs 0 (h, (t.2.vals).getD []), louts := Tbl.set e.louts 0 (Config.freeWord (s.free + 1) &&& 0xFFFFC0, x.ws.getD 1 0) })).fillRegions b)

/-! ## Plan routines (R373) -/

/-- Free plan units of a die. -/
def State.freePlans (s : State) (d : Nat) : List Nat := (planUnits d).filter fun u => !(s.coreAt u).planRun

/-- A plan routine starts on a free unit for an entry. -/
def State.startPlan (s : State) (d c u : Nat) (b : Block) (j : Nat) (e : Entry) : State :=
  let x := s.ctxAt d c
  let pc := if e.opid < 0x100 then 0x40000 else match Tbl.get? (x.bank b.bank).ops e.opid with
    | some o => o.plan
    | none => 0
  let v : List DWord := [BitVec.ofNat 64 e.opid, BitVec.ofNat 64 e.attrs.length, BitVec.ofNat 64 e.refs.length,
    BitVec.ofNat 64 (x.paramBase b.gen), BitVec.ofNat 64 j, BitVec.ofNat 64 e.cons]
  let regs : Regs := { s := ((List.range 6).zip v).map fun p => (p.1 + 1, { val := p.2 }) }
  s.updAt u fun k => { Core.reset u with
    run := .running, planRun := true, planCtx := c, planBlk := b.serial, planEnt := j, pc := pc, live := regs, pre := regs
    notBefore := k.notBefore, nextId := k.nextId, nextSerial := k.nextSerial }

/-- The first issued entry that waits for a routine and whose context runs. -/
def State.planHead (s : State) (d : Nat) : Option (Nat × Nat × Nat) :=
  (s.dieAt d).planq.find? fun p => decide ((s.ctxAt d p.1).st = .running ∧ (s.ctxAt d p.1).pre = .none)

/-- Start the routine of the first entry that waits for one, where a unit is free. -/
def State.nextPlan (s : State) (d : Nat) : State :=
  match s.planHead d, s.freePlans d with
  | some (c, blk, j), u :: _ =>
    match (s.ctxAt d c).block? blk, (s.ctxAt d c).entry? blk j with
    | some b, some e =>
      State.startPlan (s.updDie d fun x => { x with planq := x.planq.filter fun p => !decide (p = (c, blk, j)) }) d c u b j e
    | _, _ => s
  | _, _ => s

/-- An operator stops its context (R335). -/
def State.opStop (s : State) (d c : Nat) (e : Entry) (x : OpErr) : State := s.graphFault d c x.code (x.addr.getD e.addr) e.opid x.handle x.info

/-- Entry j of an allocated block issues: a breach of a built-in's contract stops the context at once, else the entry asks for
its plan routine (R35, R346, R386). -/
def State.issueEntry (s : State) (d c : Nat) (b : Block) (j : Nat) (e : Entry) : State :=
  let snap := e.refs.map fun r => ((s.ctxAt d c).handle? (refHandle r)).getD {}
  let s := s.updCtx d c fun x => x.updEntry b.serial j fun e => { e with stage := .issued, snap := snap }
  let stop : Option OpErr := if e.opid < 0x100 then match s.runBuiltin d c b j e with
      | .ok _ => none
      | .error x => if x.code = 0x07 then some x else none
    else none
  match stop with
  | some x => s.opStop d c e x
  | none => State.nextPlan (s.updDie d fun x => { x with planq := x.planq ++ [(c, b.serial, j)] }) d

/-- The move of a unit that runs the routine of a built-in operator. The routine stands in the resident area, whose code the
manual does not give: its one move is the operator's contract and its `DONE` (R370, R386, log 71). -/
def State.builtinTurn (s : State) (u : Nat) : Option State :=
  let k := s.coreAt u
  let d := dieOf u
  let c := k.planCtx
  match (s.ctxAt d c).block? k.planBlk, (s.ctxAt d c).entry? k.planBlk k.planEnt with
  | some b, some e =>
    if isPlan u && k.planRun && decide (e.opid < 0x100) then
      some (match s.runBuiltin d c b k.planEnt e with
        | .ok t => t.planEnd u
        | .error x => s.opStop d c e x)
    else none
  | _, _ => none

/-! ## Inserted collectives (R413, R414) -/

/-- Dense strided with dimension `dim` outermost. -/
def denseOuter (w : List DWord) (ext : List Nat) (dim : Nat) : Bool :=
  decide (dim + 1 = descNdim w ∧ descLayout w = 0) &&
  (List.range (dim + 1)).all fun k => decide (descStride w k = (prodOf (ext.take k) : Nat))

/-- EFMT of a reduction; none where the format is not one of R413. -/
def reduceFmt (f : Nat) : Option Nat := if f = 12 then some 0 else if f = 10 then some 1 else if f = 11 then some 2 else if f = 6 then some 3 else none

/-- What is inserted for output reference r of an entry on axis k, with `rop` for a reduction: kinds 0 all-reduce, 1 reduce-scatter, 2 all-gather,
3 broadcast; `.error` is a fault 0x07. -/
def State.insertedOn (s : State) (d c : Nat) (e : Entry) (r k : Nat) (nat : Option AxisMode) (rop : Nat) : Op (List (Nat × Nat × Nat × Nat × Bool)) :=
  let n := refHandle (e.refs.getD r 0)
  let h := ((s.ctxAt d c).handle? n).getD {}
  let w := h.words
  let f := descFmt w
  let ext := s.storeExts d c h k
  let size := (s.ctxAt d c).desc.size k
  let per := prodOf ext / size
  let gather (dim : Nat) : Op (List (Nat × Nat × Nat × Nat × Bool)) :=
    if !denseOuter w ext dim then breach n
    else if 0x11 ≤ f then (if per % 16 = 0 then .ok [(r, k, 2, 0, false), (r, k, 2, 0, true)] else breach n)
    else if per * typeW f % 8 = 0 then .ok [(r, k, 2, 0, false)] else breach n
  match nat with
  | none => .ok []
  | some m =>
    let y := modeOf h.shard k
    match m.1, y.1 with
    | 0, 0 => .ok []
    | 0, 1 => .ok []
    | 1, 0 => gather m.2
    | 1, 1 => if m.2 = y.2 then .ok [] else breach n
    | 2, 0 => if (reduceFmt f).isSome then .ok [(r, k, 0, rop, false)] else breach n
    | 2, 1 => if (reduceFmt f).isSome && denseOuter w ext y.2 then .ok [(r, k, 1, rop, false)] else breach n
    | 2, 2 => .ok []
    | _, _ => breach n

/-- The collective of a collective built-in on an axis (R386): where the modes of x and y call for its kind. It acts on the storage
of y: without an output reference there is none. -/
def State.collectiveOn (s : State) (d c : Nat) (b : Block) (e : Entry) (k : Nat) : List (Nat × Nat × Nat × Nat × Bool) :=
  let x := ((e.refs.head?).map (s.refShard d c b)).getD none
  match e.refs[1]? with
  | none => []
  | some r =>
    let y := (s.refShard d c b r).getD noShard
    match x.map fun w => axisMode w k, axisMode y k, e.opid with
    | some 1, 0, 0x0E0 => [(1, k, 2, 0, false)]
    | some 2, 0, 0x0E1 => [(1, k, 0, 0, false)]
    | some 2, 1, 0x0E2 => [(1, k, 1, 0, false)]
    | some 0, 0, 0x0E3 => [(1, k, 3, 0, false)]
    | _, _, _ => []

/-- The collectives of an entry, in ascending axis. -/
def State.planCollectives (s : State) (d c : Nat) (b : Block) (e : Entry) : Op (List (Nat × Nat × Nat × Nat × Bool)) := do
  let size := (s.ctxAt d c).desc.size
  let outs := (List.range e.refs.length).filter fun r => refWrites (e.refs.getD r 0)
  let parts ← ((List.range 3).filter fun k => decide (1 < size k)).mapM fun k =>
    if 0x0E0 ≤ e.opid ∧ e.opid ≤ 0x0E3 then .ok (s.collectiveOn d c b e k)
    else do .ok (← outs.mapM fun r => s.insertedOn d c e r k (s.natural d c b e k) (naturalRop e.opid e.attrs (((e.refs.head?).map (s.refShard d c b)).getD none) k)).flatten
  .ok parts.flatten

/-- The line of an inserted instance: axis, context, die within its package, and the other coordinates; never 0. -/
def State.lineOf (s : State) (d c k : Nat) : Nat :=
  let m (j : Nat) : Nat := if j = k then 0 else s.meshCoord d c j
  1 + k + 4 * (c + 4 * (d % 32 + 32 * (m 0 + 1024 * (m 1 + 1024 * m 2))))

/-- The member that this sequencer starts (R414). STEP names the block, the entry and the output: the manual gives no
number (log 9). -/
def State.insertedMember (s : State) (d c : Nat) (b : Block) (j : Nat) (e : Entry) (it : Nat × Nat × Nat × Nat × Bool) : Member :=
  let (r, k, kind, rop, exps) := it
  let h := ((s.ctxAt d c).handle? (refHandle (e.refs.getD r 0))).getD {}
  let w := h.words
  let f := descFmt w
  let ext := s.storeExts d c h k
  let n := prodOf ext
  let red := kind < 2
  let efmt := if red then (reduceFmt f).getD 3 else 4
  let count := if red then (if kind = 0 then (offsetSpan w ext).2.toNat + 1 else n)
    else if exps then n / 16 else if 0x11 ≤ f then n / 16 * (2 * bfpOf f) else n * typeW f / 8
  let wide := red && decide (efmt = 1 ∨ efmt = 2)
  let step := (b.serial * 32 + j) * 32 + r * 2 + exps.toNat
  { u := d * 128 + 96 + c, tsid := c, inserted := some (b.serial, j)
    w0 := BitVec.ofNat 64 (if exps then descScale w else descBase w), w1 := BitVec.ofNat 64 count
    w2 := BitVec.ofNat 64 ((63 * 1024 + ((s.ctxAt d c).desc.size k - 1)) * 2 ^ 32 + s.meshCoord d c k)
    w3 := BitVec.ofNat 64 (step % 2 ^ 32 * 2 ^ 32 + 2048 + wide.toNat * 1024 + rop * 256 + efmt * 16 + kind) }

/-- Start the next collective of an entry. -/
def State.startCollective (s : State) (d c : Nat) (b : Block) (j : Nat) (e : Entry) (it : Nat × Nat × Nat × Nat × Bool) : State :=
  let m := s.insertedMember d c b j e it
  let line := s.lineOf d c it.2.1
  match s.endedInst line (s.dieAt d).partition 63 m.step with
  | some x => s.graphFault d c 0x11 e.addr e.opid 0 x.cause
  | none =>
    let s := s.updCtx d c fun x => x.updEntry b.serial j fun e => { e with todo := e.todo.drop 1 }
    let t := s.joinMember m line
    match t.insts.find? fun i => decide (i.line = line ∧ i.step = m.step) && i.members.any fun x => decide (x = m) with
    | some i => t.updCtx d c fun x => x.updEntry b.serial j fun e => { e with colls := [i.id] }
    | none => t

/-! ## Completion and commit (R273, R347) -/

/-- An operator's routine, sweeps and collectives are done. -/
def Entry.ready (e : Entry) : Bool := decide (e.stage = .issued) && e.planDone && e.sweeps.isEmpty && e.colls.isEmpty

/-- The operator goes on to its collectives, then completes: its input references count no more (R345). -/
def State.completeEntry (s : State) (d c : Nat) (b : Block) (j : Nat) (e : Entry) : State :=
  if !e.planned then match s.planCollectives d c b e with
    | .error x => s.opStop d c e x
    | .ok l => s.updCtx d c fun x => x.updEntry b.serial j fun e => { e with planned := true, todo := l }
  else match e.todo with
    | it :: _ => s.startCollective d c b j e it
    | [] => s.updCtx d c fun x =>
      (e.named refReads).foldl (fun (y : Ctx) r => y.updRoot r fun h => { h with pr := h.pr - 1 })
        (x.updEntry b.serial j fun e => { e with stage := .complete })

/-- Physical pieces of a range of virtual bytes: address and length, page by page. -/
def State.frames (s : State) (d c lo hi : Nat) : List (Nat × Nat) :=
  (List.range (hi / 4096 + 1 - lo / 4096)).filterMap fun i =>
    let a := max lo ((lo / 4096 + i) * 4096)
    let e := min hi ((lo / 4096 + i + 1) * 4096)
    match s.engineXl d c a 0 with
    | .ok t => if a < e then some (t.phys a, e - a) else none
    | .error _ => none

/-- L1 lines that overlap the ranges leave the cores of the scope (R273 step 2). -/
def State.dropLines (s : State) (d scope : Nat) (fs : List (Nat × Nat)) : State :=
  { s with cores := s.cores.map fun (p : Nat × Core) =>
      let h := p.1 / 128
      let inside := decide (if scope = 2 then h = d else if scope = 3 then h / 32 = d / 32 else True) && decide ((s.dieAt h).partition = (s.dieAt d).partition)
      if inside then (p.1, { p.2 with l1 := p.2.l1.filter fun l => !fs.any fun f => decide (l.pa < f.1 + f.2 ∧ f.1 < l.pa + 128) }) else p }

/-- Output handles of an entry. -/
def Entry.outs (e : Entry) : List Nat := (e.refs.filter refWrites).map refHandle

/-- Step 2 of R273 for one output handle. -/
def State.releaseLines (s : State) (d c n : Nat) : State :=
  match (s.ctxAt d c).handle? n with
  | none => s
  | some h =>
    (byteRanges h.words (s.storeExts d c h 3)).foldl (fun s r => s.dropLines d (shardScope h.shard) (s.frames d c r.1 r.2)) s

/-- Extents recorded by `PSETEXT` (R376). -/
def Ctx.applyExts (x : Ctx) (e : Entry) : Ctx :=
  e.exts.foldl (fun (y : Ctx) t =>
    let n := refHandle (e.refs.getD t.1 0)
    match y.handle? n with
    | none => y
    | some h => y.setHandle n { h with words := h.words.take 2 ++ extWords ((descExts h.words).set t.2.1 t.2.2) ++ h.words.drop 5 }) x

/-- A block commits: the recorded extents stand (R362), then R347. -/
def State.commitBlock (s : State) (d c : Nat) (b : Block) : State :=
  let s := s.updCtx d c fun x => b.entries.foldl Ctx.applyExts x
  let s := (b.entries.flatMap Entry.outs).foldl (fun s n => s.releaseLines d c n) s
  let s := s.updCtx d c fun x =>
    let x := b.entries.foldl (fun (y : Ctx) e => (e.named refWrites).foldl (fun (y : Ctx) r => y.updRoot r fun h => { h with pw := h.pw - 1 }) y) x
    { x with
      handles := Tbl.mapV (fun (h : Handle) => if h.resBlk = b.serial then { h with resident := 0, resBlk := 0 } else h) x.handles
      blocks := x.blocks.filter fun k => !decide (k.serial = b.serial) }
  s.freeOperGrans d c (some b.serial)

/-! ## Meanings -/

/-- The context runs and is not being pre-empted. -/
def State.ctxActive (s : State) (d c : Nat) : Bool := decide ((s.ctxAt d c).st = .running ∧ (s.ctxAt d c).pre = .none) && !(s.dieAt d).offline

/-- Another entry of the context comes before entry j of block b in the present cycle: one accepted earlier that may issue, or one
whose completion is to be applied first (R346, R368). -/
def State.issuesAfter (s : State) (d c : Nat) (b : Block) (j : Nat) : Bool :=
  let x := s.ctxAt d c
  let able (k : Block) (n : Nat) : Bool := k.allocated && match k.entries[n]? with
    | some e => x.mayIssue k n e
    | none => false
  (x.blocks.takeWhile fun k => decide (k.serial ≠ b.serial)).any (fun k => (List.range k.entries.length).any (able k)) ||
    (List.range j).any (able b) || x.blocks.any fun k => k.entries.any Entry.ready

/-- OPERATOR_ISSUE (R346): entry `n` of the block of serial `m` of context `k` of die `u` issues; or, issued before, gets
its plan routine. -/
def execOperatorIssue (s : State) : Host.Outcome State Fault Refusal :=
  let d := s.ev.u
  let c := s.ev.k
  match (s.ctxAt d c).block? s.ev.m, (s.ctxAt d c).entry? s.ev.m s.ev.n with
  | some b, some e =>
    if e.stage = .issued then
      happen s (decide (s.planHead d = some (c, s.ev.m, s.ev.n)) && !(s.freePlans d).isEmpty && !(s.dieAt d).offline) (s.nextPlan d)
    else
      let t := s.allocUpTo d c b.serial (s.ctxAt d c).blocks
      let u := match (t.ctxAt d c).block? b.serial with
        | some b => if b.allocated then t.issueEntry d c b s.ev.n e else t
        | none => t
      happen s (s.ctxActive d c && (s.ctxAt d c).mayIssue b s.ev.n e && !t.issuesAfter d c b s.ev.n) u
  | _, _ => happen s false s

/-- OPERATOR_COMPLETE (R273, R413): entry `n` of the block of serial `m` of context `k` of die `u` is done with its sweeps. -/
def execOperatorComplete (s : State) : Host.Outcome State Fault Refusal :=
  let d := s.ev.u
  let c := s.ev.k
  match (s.ctxAt d c).block? s.ev.m, (s.ctxAt d c).entry? s.ev.m s.ev.n with
  | some b, some e => happen s (decide ((s.ctxAt d c).st = .running) && e.ready) (s.completeEntry d c b s.ev.n e)
  | _, _ => happen s false s

/-- BLOCK_COMMIT (R347): the block of serial `m` of context `k` of die `u`. -/
def execBlockCommit (s : State) : Host.Outcome State Fault Refusal :=
  let d := s.ev.u
  let c := s.ev.k
  match (s.ctxAt d c).block? s.ev.m with
  | some b => happen s (decide ((s.ctxAt d c).st = .running ∧ b.left = 0) && b.entries.all fun e => decide (e.stage = .complete)) (s.commitBlock d c b)
  | none => happen s false s

end Sys2Proof.Machine
end

