-- ==== Sys2Proof/Machine/ContextSwitch.lean ====
section
/-! DEFINITION. Pre-emption, context save and restore, and the stop of a context (R327, R448 to R452), and `CTXSW` (R458). -/

namespace Sys2Proof.Machine

/-! ## The request (R327, R448) -/

/-- A context is to be pre-empted: its sweeps pause, and its running tasks stop at their next quiet checkpoint. -/
def State.pauseCtx (s : State) (d ctx : Nat) : State :=
  let s := s.updCtx d ctx fun x => { x with pre := .pausing }
  let s := s.updDie d fun x => { x with sweeps := Tbl.mapV (fun (w : Sweep) =>
    if w.ctx = ctx ∧ w.st = .active then { w with st := .paused } else w) x.sweeps }
  { s with cores := s.cores.map fun (p : Nat × Core) =>
      match p.2.task with
      | some t => if p.1 / 128 = d ∧ t.r.ctx = ctx ∧ p.2.run = .running ∧ p.2.stopReq = 0 then (p.1, { p.2.request 1 with stopSince := s.now }) else p
      | none => p }

/-! ## The save (R327, R450, R451) -/

/-- A plan routine of the context stands at a wait at which it can be saved (R450 step 1). -/
def Core.isParked (c : Core) : Bool :=
  match c.held with
  | .parked _ => c.holding
  | _ => false

/-- Plan units that run a routine of the context, ascending. -/
def State.plansOf (s : State) (d ctx : Nat) : List Nat :=
  (planUnits d).filter fun u => (s.coreAt u).planRun && decide ((s.coreAt u).planCtx = ctx)

/-- Nothing of the context runs on a core, its ended tasks and aborted records are finished, its points reported, and
its plan routines stand at their waits. -/
def State.saveReady (s : State) (d ctx : Nat) : Bool :=
  (computeUnits d).all (fun u =>
    let c := s.coreAt u
    (match c.task with
     | some t => decide (t.r.ctx ≠ ctx)
     | none => true) && c.resume.all fun p => decide (p.2.r.ctx ≠ ctx) || p.2.ending.isNone) &&
  (s.dieAt d).sweeps.all (fun p => decide (p.2.ctx ≠ ctx) || p.2.finishing.isEmpty) &&
  (s.plansOf d ctx).all fun u => (s.coreAt u).isParked

/-- Write bytes for the sequencer; a failure stops the context with graph fault 0x0A (R335). `none` says that it did. -/
def State.seqWrite (s : State) (d ctx a : Nat) (bs : List Byte) : Except State State :=
  match s.engineWrite d ctx a bs with
  | .ok t => .ok t
  | .error e => .error (s.graphFault d ctx 0x0A e.2 0 0 (faultInfo e.2 1 e.1))

/-- Bytes the sequencer reads; a failure stops the context. -/
def State.seqRead (s : State) (d ctx a n : Nat) : Except State (List Byte) :=
  match s.engineRead d ctx a n with
  | .ok bs => .ok bs
  | .error e => .error (s.graphFault d ctx 0x0A e.2 0 0 (faultInfo e.2 0 e.1))

def wordBytes (ws : List DWord) : List Byte := ws.flatMap fun w => toBytes 8 w.toNat

/-- Sweeps of a context in its entries by other ids. -/
def Ctx.mapSweeps (x : Ctx) (f : Nat → Nat) : Ctx :=
  { x with blocks := x.blocks.map fun (b : Block) => { b with entries := b.entries.map fun (e : Entry) =>
      { e with sweeps := e.sweeps.map f, made := Tbl.mapV f e.made } } }

/-- Number by which the entries of a context know a sweep that is saved: no id of the table. -/
def savedId (id : Nat) : Nat := 16 + id

/-- Write the frontiers of the context's sweeps to their FSAVE and free the entries; each keeps its id as OLDID (R318, R327
step 5). -/
def saveFrontiers (d ctx : Nat) : List (Nat × Sweep) → State → Except State State
  | [], s => .ok s
  | (id, w) :: t, s => do
    let s ← s.seqWrite d ctx w.desc.fsave (wordBytes (Sweep.image { w with oldId := id }))
    let s := s.updCtx d ctx fun x => Ctx.mapSweeps { x with saved := Tbl.set x.saved id (w.desc.fsave, w.blk, w.ent) }
      fun n => if n = id then savedId id else n
    saveFrontiers d ctx t (s.updDie d fun x => { x with sweeps := Tbl.del x.sweeps id })

/-- Records of the context in a role queue go to their spill ring, ahead of those that stand there; what finds no room
stays in the queue (R450 step 3). -/
def saveQueue (d ctx role : Nat) (s : State) : Except State State :=
  let x := s.ctxAt d ctx
  let q := Tbl.getD (s.dieAt d).roleq role []
  let mine := q.filter fun r => decide (r.ctx = ctx)
  let cap := 2 ^ x.desc.cap.getD role 0
  let n := Tbl.getD x.spillLen role 0
  let out := mine.drop (mine.length - min mine.length (cap - n))
  let head := (Tbl.getD x.spillHead role 0 + cap - out.length) % cap
  let s := s.updDie d fun y => { y with roleq := Tbl.set y.roleq role (q.filter fun r => !out.contains r) }
  let s := s.updCtx d ctx fun y => { y with spillHead := Tbl.set y.spillHead role head, spillLen := Tbl.set y.spillLen role (n + out.length) }
  ((List.range out.length).zip out).foldlM (fun s p => s.seqWrite d ctx (x.desc.ring.getD role 0 + 64 * ((head + p.1) % cap)) p.2.bytes) s

/-- The context's resume-list records of a core, by position. -/
def State.resumeOf (s : State) (u ctx : Nat) : List (Nat × ResumePos) := (s.coreAt u).resume.filter fun p => decide (p.2.r.ctx = ctx)

/-- The core writes a record's trackers to its save frame; the record leaves its position (R450 step 4). -/
def savePosition (u ctx : Nat) (s : State) (p : Nat × ResumePos) : Except State State := do
  let base := frameAddr (s.ctxAt (dieOf u) ctx).desc.savebase (u % 128) p.1
  let s ← s.seqWrite (dieOf u) ctx (base + 0x880) p.2.trk.bytes
  .ok (s.updAt u fun c => { c with resume := Tbl.del c.resume p.1, saved := Tbl.set c.saved p.2.id (base, p.2.r) })

def stageCode : Stage → Nat
  | .accepted => 0
  | .issued => 1
  | .complete => 2

/-- n bytes, cut or filled with zeros. -/
def padTo (n : Nat) (bs : List Byte) : List Byte := (bs ++ List.replicate (n - bs.length) 0).take n

/-- A plan routine in 1,024 bytes (R451). -/
def planImage (x : Ctx) (c : Core) : List Byte :=
  let slot := (x.blocks.findIdx? fun (b : Block) => decide (b.serial = c.planBlk)).getD 0
  padTo 1024 (((List.range 64).flatMap fun n => toBytes 8 (c.live.sReg n).val.toNat) ++
    ((List.range 8).flatMap fun n => toBytes 8 (c.live.bReg n).val.toNat) ++
    toBytes 8 c.pc ++ toBytes 8 slot ++ toBytes 8 c.planEnt ++ c.live.latchBytes)

/-- The context save area below its records (R451). -/
def saveImage (d : Nat) (x : Ctx) (plans : List Core) (nrec : Nat) : List Byte :=
  toBytes 8 (2 ^ 56 + x.pc % 2 ^ 56) ++
  toBytes 8 (d % 32 + x.actgen.toNat * 2 ^ 5 + x.patch.toNat * 2 ^ 6 + x.loops.length * 2 ^ 8 + x.calls.length * 2 ^ 16 +
    x.blocks.length * 2 ^ 24 + plans.length * 2 ^ 32 + nrec * 2 ^ 40) ++
  toBytes 8 x.step.toNat ++ List.replicate 40 (0 : Byte) ++
  ((List.range 32).flatMap fun n => toBytes 8 (Tbl.getD x.h n 0).toNat) ++
  padTo 256 (x.loops.reverse.flatMap fun l => toBytes 8 l.body ++ toBytes 8 l.count ++ toBytes 8 l.index ++ toBytes 8 l.reg) ++
  padTo 128 (x.calls.reverse.flatMap fun k => toBytes 8 (k.ret % 2 ^ 56 + match k.replay with
    | some n => 2 ^ 63 + n * 2 ^ 56
    | none => 0)) ++
  ((List.range 16).flatMap fun n => match Tbl.get? x.caps n with
    | some k => toBytes 8 ((if k.closed then 2 else 1) + k.stop % 2 ^ 56 * 256) ++ toBytes 8 (k.start % 2 ^ 56)
    | none => List.replicate 16 (0 : Byte)) ++
  ((List.range 16).flatMap fun n => toBytes 8 (match Tbl.get? x.saved n with
    | some f => 2 ^ 63 + f.1
    | none => 0)) ++
  padTo 4096 (x.blocks.flatMap fun (b : Block) => padTo 64 (toBytes 8 b.addr ++
    toBytes 8 (packElems 2 (b.entries.map fun (e : Entry) => stageCode e.stage)) ++ toBytes 8 (b.bank % 2 + b.gen % 2 * 2))) ++
  padTo 8192 (plans.flatMap (planImage x))

/-- A saved record with its core (R451). -/
def savedRecord (p : Nat × Record) : List Byte := padTo 128 (p.2.bytes ++ toBytes 8 p.1)

/-- The save, in the order of R327 step 5 and R450. The blocks of the context stay with its sequencer. -/
def saveSteps (d ctx : Nat) (s : State) : Except State State := do
  let s := s.updCtx d ctx fun x => { x with saved := [], removed := [] }
  let s ← saveFrontiers d ctx ((s.dieAt d).sweeps.filter fun p => decide (p.2.ctx = ctx)) s
  let x := s.ctxAt d ctx
  let s ← s.seqWrite d ctx x.desc.hsave ((List.range 4096).flatMap fun n => wordBytes (handleImage (Tbl.get? x.handles n)))
  let s ← (List.range 4).foldlM (fun s r => saveQueue d ctx r s) s
  let recs := (computeUnits d).flatMap fun u => (s.resumeOf u ctx).map fun p => (u, p)
  let s ← recs.foldlM (fun s p => savePosition p.1 ctx s p.2) s
  let plans := s.plansOf d ctx
  let y := s.ctxAt d ctx
  let s ← s.seqWrite d ctx y.desc.csave (saveImage d y (plans.map s.coreAt) recs.length)
  let s ← s.seqWrite d ctx (y.desc.csave + 0x3440) ((recs.map fun p => (p.1 % 128, p.2.2.r)).flatMap savedRecord)
  let s := s.updAll plans fun c => { c with planRun := false, run := .idle, holding := false, held := .plain, want := none }
  .ok ((s.updCtx d ctx fun z => { z with st := .preempted, pre := .none }).irqDie d 1)

def State.saveCtx (s : State) (d ctx : Nat) : State :=
  match saveSteps d ctx s with
  | .ok t => t
  | .error t => t

/-! ## The restore (R452) -/

/-- The area has the form of R451. -/
def imageOk (d : Nat) (w : Nat → DWord) : Bool :=
  decide (bits (w 0) 63 56 = 1 ∧ bits (w 1) 4 0 = d % 32 ∧ bits (w 1) 7 7 = 0 ∧ bits (w 1) 15 12 = 0 ∧ bits (w 1) 23 21 = 0 ∧
    bits (w 1) 31 31 = 0 ∧ bits (w 1) 39 36 = 0 ∧ bits (w 1) 63 51 = 0) &&
  decide (bits (w 1) 11 8 ≤ 8 ∧ bits (w 1) 20 16 ≤ 16 ∧ bits (w 1) 30 24 ≤ 64 ∧ bits (w 1) 35 32 ≤ 8 ∧ bits (w 1) 50 40 ≤ 1152) &&
  [3, 4, 5, 6, 7].all (fun i => decide (w i = 0)) &&
  -- unused stack, capture, sweep, block and routine entries
  let clear (off n : Nat) : Bool := (List.range n).all fun i => decide (w (off / 8 + i) = 0)
  let free (off k n : Nat) : List Nat → Bool := fun l => l.all fun i => decide (i < n) || clear (off + 8 * k * i) k
  free 0x140 4 (bits (w 1) 11 8) (List.range 8) && free 0x240 1 (bits (w 1) 20 16) (List.range 16) &&
  ((List.range 16).all fun n => decide (bits (w (0x2C0 / 8 + 2 * n)) 1 0 ≠ 0) || clear (0x2C0 + 16 * n) 2) &&
  ((List.range 16).all fun n => (w (0x3C0 / 8 + n)).getLsbD 63 || clear (0x3C0 + 8 * n) 1) &&
  free 0x440 8 (bits (w 1) 30 24) (List.range 64) && free 0x1440 128 (bits (w 1) 35 32) (List.range 8)

/-- The words of the area as the context they describe. -/
def Ctx.ofImage (x : Ctx) (w : Nat → DWord) : Ctx :=
  let at' (off : Nat) : DWord := w (off / 8)
  { x with
    pc := bits (w 0) 55 0, actgen := (w 1).getLsbD 5, patch := (w 1).getLsbD 6, step := w 2
    h := (List.range 32).map fun n => (n, at' (0x40 + 8 * n))
    loops := ((List.range (bits (w 1) 11 8)).map fun k =>
      { body := (at' (0x140 + 32 * k)).toNat, count := (at' (0x148 + 32 * k)).toNat, index := (at' (0x150 + 32 * k)).toNat
        reg := (at' (0x158 + 32 * k)).toNat % 32 : LoopEnt }).reverse
    calls := ((List.range (bits (w 1) 20 16)).map fun k =>
      let v := at' (0x240 + 8 * k)
      { ret := bits v 55 0, replay := if v.getLsbD 63 then some (bits v 59 56) else none : CallEnt }).reverse
    caps := ((List.range 16).filter fun n => decide (bits (at' (0x2C0 + 16 * n)) 1 0 ≠ 0)).map fun n =>
      (n, { closed := decide (bits (at' (0x2C0 + 16 * n)) 1 0 = 2), start := bits (at' (0x2C8 + 16 * n)) 55 0, stop := bits (at' (0x2C0 + 16 * n)) 63 8 }) }

/-- A handle-table entry of the save area; none where V is 0. -/
def handleOf (ws : List DWord) : Option Handle :=
  let w (i : Nat) : DWord := ws.getD i 0
  if (w 13).getLsbD 63 then
    some { words := ws.take 12, isAlias := (w 13).getLsbD 62, root := bits (w 13) 61 50, shard := w 12, pr := bits (w 13) 31 16
           pw := bits (w 13) 7 0, resident := w 14 }
  else none

/-- Restore the saved sweep n where it is valid, once: the frontier is read, then the sweep waits for an entry in the order of the
requests, takes it, and its operator knows it by its new id (R36, R329). `.error` holds the state that waits, or whose context
has stopped. -/
def restoreSweep (d ctx n : Nat) (s : State) : Except State State := do
  let x := s.ctxAt d ctx
  let v := x.image.getD ((0x3C0 + 8 * n) / 8) 0
  if !v.getLsbD 63 || (Tbl.get? x.remap n).isSome then return s
  let own := match Tbl.get? x.saved n with
    | some f => f.2
    | none => (0, 0)
  let w ← match x.want with
    | some w => .ok w.2
    | none => match s.readFrontier d ctx (bits v 55 0) with
      | .error e => .error (s.graphFault d ctx e.code e.addr (s.entryOpid d ctx own.1 own.2) 0 e.info)
      | .ok w => .ok { w with blk := own.1, ent := own.2 }
  match s.addSweep d (x.want.map fun w => w.1) w (some w.oldId) with
  | none =>
    let k := (s.dieAt d).nextAsk
    .error (if x.want.isSome then s
      else (s.updDie d fun y => { y with nextAsk := k + 1 }).updCtx d ctx fun y => { y with want := some (k, w) })
  | some (id, t) =>
    let t := (t.updCtx d ctx fun y => Ctx.mapSweeps { y with want := none, remap := Tbl.set y.remap n id }
      fun m => if m = savedId n then id else m).retireDone d id
    if (t.ctxAt d ctx).st = .preempted then .ok t else .error t

/-- The record as it returns: its sweep's new id, and its age counted from now (R296, R329). -/
def Record.returned (r : Record) (m : Tbl Nat) (enq : Nat) : Record := { r with sweep := Tbl.getD m r.sweep r.sweep, enq := enq }

/-- Spilled and queued records of a role return (R329 step 4). -/
def restoreQueue (d ctx : Nat) (m : Tbl Nat) (role : Nat) (s : State) : Except State State := do
  let x := s.ctxAt d ctx
  let cap := 2 ^ x.desc.cap.getD role 0
  let base := x.desc.ring.getD role 0
  let head := Tbl.getD x.spillHead role 0
  let cyc := s.cycle48 d
  let rs ← (List.range (Tbl.getD x.spillLen role 0)).mapM fun i => do
    let a := base + 64 * ((head + i) % cap)
    let bs ← s.seqRead d ctx a 64
    match Record.ofDwords (dwordsOf 8 bs) with
    | some r => .ok (r.returned m cyc)
    | none => .error (s.graphFault d ctx 0x05 a 0 0 role)
  let s := s.updDie d fun y => { y with roleq := Tbl.set y.roleq role ((Tbl.getD y.roleq role []).map fun r => if r.ctx = ctx then r.returned m cyc else r) }
  let s := s.updCtx d ctx fun y => { y with spillLen := Tbl.set y.spillLen role 0 }
  .ok (rs.foldl (fun s r => (s.enqueue d r).getD s) s)

/-- One record of the area at 0x3440, which waits while its position is taken; a point whose record a collective abort removed
restarts (R411, R452 step 4). -/
def restoreRecord (d ctx : Nat) (m : Tbl Nat) (s : State) (p : Nat × Record) : Except State State := do
  let u := d * 128 + p.1
  let r := p.2.returned m (s.cycle48 d)
  let done (t : State) : State := t.updCtx d ctx fun y => { y with back := y.back + 1 }
  if (s.ctxAt d ctx).removed.any fun q => decide (q.1 = p.1 ∧ q.2.saveix = p.2.saveix) then return done (s.restartPoint d r)
  if (Tbl.get? (s.coreAt u).resume p.2.saveix).isSome then .error s
  let base := frameAddr (s.ctxAt d ctx).desc.savebase p.1 p.2.saveix
  let bs ← s.seqRead d ctx (base + 0x880) 0xC0
  let c := s.coreAt u
  let id := match c.saved.find? fun q => decide (q.2.1 = base) with
    | some q => q.1
    | none => c.nextTask
  let pos : ResumePos := { r := r, id := id, ready := decide (r.wkind = 0) || r.timedOut, trk := Trackers.ofBytes (s.dieAt d).partition bs, since := s.cycle48 d }
  return done ((s.updAt u fun c => { c with
    resume := Tbl.set c.resume p.2.saveix pos, saved := Tbl.del c.saved id, nextTask := max c.nextTask (id + 1) }).wake u)

/-- A plan routine runs again from its resume address. A latch whose word is zero is invalid: the area has no valid bits. -/
def restorePlan (d ctx : Nat) (at' : Nat → DWord) (s : State) (p : Nat × Nat) : State :=
  let o := 0x1440 + 1024 * p.1
  let blk := match (s.ctxAt d ctx).blocks[(at' (o + 584)).toNat]? with
    | some b => b.serial
    | none => 0
  let latches := (List.range 8).filter fun i => decide (at' (o + 600 + 16 * i) ≠ 0)
  let regs : Regs :=
    { s := (List.range 64).map fun n => (n, { val := at' (o + 8 * n) }), b := (List.range 8).map fun n => (n, { val := at' (o + 512 + 8 * n) })
      latch := latches.map fun i => (i, { word := at' (o + 600 + 16 * i), l0 := (at' (o + 608 + 16 * i)).setWidth 32
                                          l1 := ((at' (o + 608 + 16 * i)) >>> 32).setWidth 32 }) }
  s.updAt p.2 fun c => { c.noWait with
    run := .running, planRun := true, planCtx := ctx, planBlk := blk, planEnt := (at' (o + 592)).toNat, pc := (at' (o + 576)).toNat
    live := regs, pre := regs, after := [], crw := [] }

/-- Steps 1 and 2 of R452: the area with its records, checked, and the handle table. -/
def restoreRead (d ctx : Nat) (s : State) : Except State State := do
  let x := s.ctxAt d ctx
  let a := x.desc.csave
  let bad : State := s.graphFault d ctx 0x0F a 0 0 0
  let ws := dwordsOf (0x3440 / 8) (← s.seqRead d ctx a 0x3440)
  let w (i : Nat) : DWord := ws.getD i 0
  let at' (off : Nat) : DWord := w (off / 8)
  if !imageOk d w then .error bad
  let nrec := bits (w 1) 50 40
  let nplan := bits (w 1) 35 32
  let rs := dwordsOf (16 * nrec) (← s.seqRead d ctx (a + 0x3440) (128 * nrec))
  let recWords (i : Nat) : List DWord := (rs.drop (16 * i)).take 16
  if (List.range nrec).any (fun i => decide (128 ≤ ((recWords i).getD 8 0).toNat) || ((recWords i).drop 9).any fun v => decide (v ≠ 0)) ||
      (List.range nplan).any (fun k => ((List.range 37).any fun j => decide (at' (0x1440 + 1024 * k + 728 + 8 * j) ≠ 0))) then .error bad
  let hs := dwordsOf (16 * 4096) (← s.seqRead d ctx x.desc.hsave (4096 * 128))
  let handles := (List.range 4096).filterMap fun n => (handleOf ((hs.drop (16 * n)).take 16)).map fun h => (n, h)
  return s.updCtx d ctx fun y => { (y.ofImage w) with handles := handles, image := ws ++ rs, remap := [], want := none, back := 0 }

/-- Record i of the area. -/
def imageRecord (s : State) (d ctx i : Nat) : Except State (Nat × Record) :=
  let x := s.ctxAt d ctx
  let ws := (x.image.drop (0x3440 / 8 + 16 * i)).take 16
  match Record.ofDwords (ws.take 8) with
  | some r => .ok ((ws.getD 8 0).toNat, r)
  | none => .error (s.graphFault d ctx 0x05 (x.desc.csave + 0x3440 + 128 * i) 0 0 (bits (ws.getD 0 0) 57 56))

/-- The restore, in the order of R452; the area is read once. `.error` holds the state of a context that stopped, or of one that
waits where a table entry, a resume position or a plan unit is taken: the restore then goes on from there later. -/
def restoreSteps (d ctx : Nat) (s : State) : Except State State := do
  let s ← if (s.ctxAt d ctx).image.isEmpty then restoreRead d ctx s else .ok s
  let w1 := (s.ctxAt d ctx).image.getD 1 0
  let nrec := bits w1 50 40
  let nplan := bits w1 35 32
  let s ← (List.range 16).foldlM (fun s n => restoreSweep d ctx n s) s
  let m := (s.ctxAt d ctx).remap
  let s ← if (s.ctxAt d ctx).back = 0 then (List.range 4).foldlM (fun s r => restoreQueue d ctx m r s) s else .ok s
  let s := s.updCtx d ctx fun y => { y with back := max y.back 1 }
  let s ← ((List.range nrec).drop ((s.ctxAt d ctx).back - 1)).foldlM (fun s i => do restoreRecord d ctx m s (← imageRecord s d ctx i)) s
  if (s.freePlans d).length < nplan then .error s
  let at' (off : Nat) : DWord := (s.ctxAt d ctx).image.getD (off / 8) 0
  let s := ((List.range nplan).zip (s.freePlans d)).foldl (restorePlan d ctx at') s
  return (s.updCtx d ctx fun y => { y with
    st := if y.st = .preempted then .running else y.st, pre := .none, removed := [], image := [], remap := [], back := 0 }).irqDie d 1

/-- A restore goes as far as it can. -/
def State.restoreCtx (s : State) (d ctx : Nat) : State :=
  match restoreSteps d ctx s with
  | .ok t => t
  | .error t => t

/-! ## The stop (R458) -/

/-- `CTXSW` stop: every task aborted without restart, sweeps freed, channels unloaded, the context Free. -/
def State.stopContext (s : State) (d ctx : Nat) : State :=
  let s := (s.dropCtxWork d ctx).abortInsts (fun i => i.members.any fun (m : Member) => decide (m.u / 128 = d ∧ m.tsid = ctx) && !m.done) 0x05 none
  ((s.unloadAll d ctx).updCtx d ctx fun x => { x with st := .free, handles := Tbl.mapV (fun (h : Handle) => { h with resident := 0 }) x.handles }).irqDie d 1

/-! ## CTXSW -/

/-- `CTXSW`: the operation that its operand names; 1 where STATE allows it, else 2. -/
def ctxsw (s : State) (f : SysR) : Eff State := do
  let o ← srcS s f.b f.e
  need (decide (bits o 63 6 = 0 ∧ bits o 3 2 = 0 ∧ bits o 5 4 ≠ 3)) (illegalOperand s)
  dstS s f.a
  let d := dieOf s.cur
  let c := bits o 1 0
  let st : CtxSt := (s.ctxAt d c).st
  let pre : PreSt := (s.ctxAt d c).pre
  let r := match bits o 5 4 with
    | 0 => if st = CtxSt.running then (1, if pre = PreSt.none then s.pauseCtx d c else s) else (2, s)
    | 1 => if st = CtxSt.preempted then
        (1, if pre = PreSt.none then (s.updCtx d c fun x => { x with pre := .restoring }).restoreCtx d c else s) else (2, s)
    | _ => if st = CtxSt.free then (2, s) else (1, s.stopContext d c)
  .ok (r.2.writeS f.a (BitVec.ofNat 64 r.1) 0 2)

/-! ## Meanings -/

/-- CTXSW_SAVE (R458): the three rows share one word, and the operand read names the operation. -/
def execCtxswSave (f : SysR) (s : State) : Host.Outcome State Fault Refusal := run (.ctxswSave f) s fun s => ctxsw s f

/-- CTXSW_RESTORE (R452, R458). -/
def execCtxswRestore (f : SysR) (s : State) : Host.Outcome State Fault Refusal := run (.ctxswRestore f) s fun s => ctxsw s f

/-- CTXSW_STOP (R458). -/
def execCtxswStop (f : SysR) (s : State) : Host.Outcome State Fault Refusal := run (.ctxswStop f) s fun s => ctxsw s f

/-- PREEMPT_BOUND_EXPIRY (R449): the task of core `u` has not stopped within its bound and restarts. -/
def execPreemptBoundExpiry (s : State) : Host.Outcome State Fault Refusal :=
  let u := s.ev.u
  let c := s.coreAt u
  match c.task with
  | some t => atUnit s u (decide (c.run = .running) && s.boundPassed u && restarts t.r.rclass 2) (s.updAt u fun c => c.abort 1 .idle)
  | none => atUnit s u false s

/-- CONTEXT_SAVE (R450): the save of context `k` of die `u`, once nothing of it runs; or the rest of its restore. -/
def execContextSave (s : State) : Host.Outcome State Fault Refusal :=
  let d := s.ev.u
  let c := s.ev.k
  match (s.ctxAt d c).pre with
  | .none => happen s false s
  | .pausing => happen s (s.saveReady d c) (s.saveCtx d c)
  | .restoring => happen s true (s.restoreCtx d c)

end Sys2Proof.Machine
end

