-- ==== Sys2Proof/Machine/MemoryOps.lean ====
section
/-! DEFINITION. The memory-slot instructions (R235 to R248, R199), and LOAD_BIND and PRODUCER_WRITEBACK (R110, R115). -/

namespace Sys2Proof.Machine

/-! ## Addresses -/

/-- BASE + (IDX << SH) + DISP × size (R233). -/
def memAddress (s : State) (f : MemWord) (size : Nat) : Eff Nat := do
  let b ← srcS s f.base f.ea
  let i ← srcS s f.idx f.ei
  .ok (effAddr b i f.sh f.disp size)

/-- Taint of the address registers. -/
def addressTaint (s : State) (f : MemWord) : Taint := taintS s f.base ||| taintS s f.idx

/-- The low bytes of a value, by offset. -/
def dataOf (bs : List Byte) : Tbl Byte := (List.range bs.length).zip bs

def isAcq (f : MemWord) : Bool := f.ord.getLsbD 0
def isRel (f : MemWord) : Bool := f.ord.getLsbD 1

/-- The value of n bytes, zero- or sign-extended (R235). -/
def extend (sext : Bool) (n : Nat) (x : Nat) : DWord := if sext then sextN (8 * n) x else BitVec.ofNat 64 x

/-! ## Accesses of a plan routine (R374, R375): performed at once, nothing withheld -/

/-- Physical address of a routine's access, or the device register it reaches. -/
def State.planPlace (s : State) (va n kind : Nat) : Eff (Nat ⊕ (Nat × DevReg)) :=
  let d := dieOf s.cur
  match s.engineXl d (s.tsid s.cur) va kind with
  | .error e => .error (xlTrap (isPlan s.cur) va kind e)
  | .ok e =>
    if e.dev then
      (if kind = 2 then .error (xlTrap (isPlan s.cur) va kind (.reason 3))
       else match s.devAt d (e.phys va) n with
        | .error x => .error (xlTrap (isPlan s.cur) va kind x)
        | .ok r => .ok (.inr r))
    else match s.enginePa d (s.tsid s.cur) va kind with
      | .error x => .error (xlTrap (isPlan s.cur) va kind x)
      | .ok pa => .ok (.inl pa)

def planLoad (s : State) (f : MemWord) (sext : Bool) (n a : Nat) : Eff State := do
  match ← s.planPlace a n 0 with
  | .inl pa => .ok (s.writeS f.dr (extend sext n (leNat (s.readMem pa n))) 0 1)
  | .inr (d, r) => .ok (s.writeS f.dr (extend sext n (s.readReg d r).toNat) 0 1)

def planStore (s : State) (n a : Nat) (v : DWord) : Eff State := do
  match ← s.planPlace a n 1 with
  | .inl pa => .ok (s.writeMem pa (toBytes n v.toNat))
  | .inr (d, r) => .ok (s.writeReg d r v)

/-! ## Device registers (R234, R275) -/

/-- A load from a device register, once, between the two checkpoints of its group. -/
def deviceLoad (s : State) (f : MemWord) (sext : Bool) (n : Nat) (p : Piece) : Eff State := do
  match s.devAt (dieOf s.cur) p.pa n with
  | .error e => .error (xlTrap (isPlan s.cur) p.va 0 e)
  | .ok (d, r) =>
    s.settled [] (addressTaint s f) false
    let s ← s.needCk
    let s ← s.globalLoad [] { dest := .s f.dr.toNat, size := n, sext := sext, taint := addressTaint s f, acq := isAcq f
                              scope := f.scope.toNat, fixed := some (s.readReg d r).toNat
                              least := homeLatency (dieOf s.cur) d, far := homeLatency (dieOf s.cur) d }
    .ok s.ckEnd

/-- Stores that act as a release whatever their ORD (R275, R333, R467). -/
def DevReg.releases : DevReg → Bool
  | .glaunch => true
  | .gpatch => true
  | .eth r => decide (r = 3 ∨ r = 7)
  | _ => false

def deviceStore (s : State) (f : MemWord) (n : Nat) (p : Piece) (v : DWord) : Eff State := do
  match s.devAt (dieOf s.cur) p.pa n with
  | .error e => .error (xlTrap (isPlan s.cur) p.va 1 e)
  | .ok (d, r) =>
    s.settled [] (addressTaint s f ||| taintS s f.dr) (isRel f || r.releases)
    let s ← s.needCk
    let s := if isRel f || r.releases then s.settle s.cur else s
    .ok (s.writeReg d r v).ckEnd

/-! ## Scalar accesses (R235) -/

def scalarLoad (s : State) (f : MemWord) (sext : Bool) : Eff State := do
  let n := 2 ^ f.sz.toNat
  let a ← memAddress s f n
  let a ← gaddr (isPlan s.cur) a n 0
  if isPlan s.cur then planLoad s f sext n a
  else
    dstS s f.dr
    let (p, e) ← s.piece 0 a n 0 true
    let s := s.tlbFill s.cur e
    if e.dev then deviceLoad s f sext n p
    else s.globalLoad [p] { dest := .s f.dr.toNat, size := n, sext := sext, taint := addressTaint s f, acq := isAcq f, scope := f.scope.toNat }

def scalarStore (s : State) (f : MemWord) : Eff State := do
  let n := 2 ^ f.sz.toNat
  let a ← memAddress s f n
  let a ← gaddr (isPlan s.cur) a n 1
  let v ← srcS s f.dr f.ed
  if isPlan s.cur then planStore s n a v
  else
    let (p, e) ← s.piece 0 a n 1 true
    let s := s.tlbFill s.cur e
    if e.dev then deviceStore s f n p v
    else s.globalStore [p] (dataOf (toBytes n v.toNat)) (addressTaint s f ||| taintS s f.dr) (isRel f) (decide (2 < f.scope.toNat))

/-! ## Vector accesses (R236, R237) -/

/-- The 64-byte units of a 512-byte access that hold an active byte. -/
def activeUnits (p : PReg) : List Nat := (List.range 8).filter fun k => decide (p.toNat / 2 ^ (64 * k) % 2 ^ 64 ≠ 0)

/-- Bytes of a vector by offset, those whose bit in the mask is set. -/
def maskedBytes (p : PReg) (v : VReg) : Tbl Byte := (dataOf (vecBytes v)).filter fun x => p.getLsbD x.1

/-- Taint of the governing predicate. -/
def predTaint (f : MemWord) (t : Taint) : Taint := if f.pen then t else 0

def vectorLoad (s : State) (f : MemWord) : Eff State := do
  let a ← memAddress s f 512
  let a ← gaddr (isPlan s.cur) a 512 0
  let d := f.dr.toNat
  let p ← predOf s f.pen f.pg
  let old ← if f.pen then srcV s d false else .ok 0
  destOk s (.v d)
  let (ps, s') ← s.pieces 0 ((activeUnits p.1).map fun k => (64 * k, a + 64 * k, 64))
  s'.globalLoad ps { dest := .v d, size := 512, taint := addressTaint s f ||| predTaint f p.2
                     keep := if f.pen then (s.pre.vReg d).taint ||| p.2 else 0
                     acq := isAcq f, scope := f.scope.toNat, inactive := maskedBytes (~~~p.1) old }

def vectorStore (s : State) (f : MemWord) : Eff State := do
  let a ← memAddress s f 512
  let a ← gaddr (isPlan s.cur) a 512 1
  let v ← srcV s f.dr.toNat f.ed
  let p ← predOf s f.pen f.pg
  let (ps, s') ← s.pieces 1 ((activeUnits p.1).map fun k => (64 * k, a + 64 * k, 64))
  if ps.isEmpty then .ok s'
  else s'.globalStore ps (maskedBytes p.1 v) (addressTaint s f ||| (s.pre.vReg f.dr.toNat).taint ||| predTaint f p.2) (isRel f) (decide (2 < f.scope.toNat))

/-- The elements of a gather or scatter in order, each checked and translated; the first that fails gives the trap. -/
def State.elements (s : State) (kind n : Nat) : List (Nat × Nat) → Eff (List Piece × State)
  | [] => .ok ([], s)
  | (off, a) :: t => match gaddr (isPlan s.cur) a n kind with
    | .error e => .error e
    | .ok a => match s.piece off a n kind false with
      | .error e => .error e
      | .ok (p, e) => match State.elements (s.tlbFill s.cur e) kind n t with
        | .error e => .error e
        | .ok (ps, s) => .ok (p :: ps, s)

/-- Byte offsets and addresses of the active elements. -/
def gatherList (b : DWord) (iv : VReg) (f : MemWord) (p : PReg) : List (Nat × Nat) :=
  let n := 2 ^ f.sz.toNat
  ((List.range (512 / n)).filter fun i => activeIn p (8 * n) i).map fun i =>
    (i * n, effAddr b (BitVec.ofNat 64 (elem (8 * n) iv i)) f.sh f.disp n)

def gather (s : State) (f : MemWord) : Eff State := do
  let n := 2 ^ f.sz.toNat
  let b ← srcS s f.base f.ea
  let iv ← srcV s f.idx.toNat f.ei
  let d := f.dr.toNat
  let p ← predOf s f.pen f.pg
  let old ← if f.pen then srcV s d false else .ok 0
  destOk s (.v d)
  let l := gatherList b iv f p.1
  let (ps, s') ← s.elements 0 n l
  let act (o : Nat) : Bool := activeIn p.1 (8 * n) (o / n)
  s'.globalLoad ps { dest := .v d, size := 512, least := 8, taint := taintS s f.base ||| (s.pre.vReg f.idx.toNat).taint ||| predTaint f p.2
                     keep := if f.pen then (s.pre.vReg d).taint ||| p.2 else 0
                     inactive := (dataOf (vecBytes old)).filter fun x => !act x.1 }

def scatter (s : State) (f : MemWord) : Eff State := do
  let n := 2 ^ f.sz.toNat
  let b ← srcS s f.base f.ea
  let iv ← srcV s f.idx.toNat f.ei
  let v ← srcV s f.dr.toNat f.ed
  let p ← predOf s f.pen f.pg
  let (ps, s') ← s.elements 1 n (gatherList b iv f p.1)
  let t := taintS s f.base ||| (s.pre.vReg f.idx.toNat).taint ||| (s.pre.vReg f.dr.toNat).taint ||| predTaint f p.2
  s'.settled ps t false
  let s' ← s'.needCk
  let bt := s'.core.boundTime (accessTaint s t)
  .ok (ps.foldl (fun (s : State) (q : Piece) => s.storeNow q.pa bt (((vecBytes v).drop q.off).take n)) s').ckEnd

/-! ## Atomics (R238) -/

inductive AtOp where
  | add | min | max | xch | cas
  deriving DecidableEq, Repr

/-- New memory value from old, v and c, each of w bits. -/
def AtOp.new (op : AtOp) (w : Nat) (uns : Bool) (old v c : Nat) : Nat :=
  let key (x : Nat) : Int := if uns then (x : Int) else sintN w x
  match op with
  | .add => (old + v) % 2 ^ w
  | .min => if key old ≤ key v then old else v
  | .max => if key old ≤ key v then v else old
  | .xch => v
  | .cas => if old = c then v else old

/-- Read, modify, write, and the old value as a load's: at once in a plan routine, else between two checkpoints. -/
def atomic (s : State) (f : MemWord) (op : AtOp) : Eff State := do
  let n := 2 ^ f.sz.toNat
  let b ← srcS s f.base f.ea
  let v ← srcS s f.dr f.ed
  let c ← if op = .cas then srcS s f.idx f.ei else .ok 0
  let a ← gaddr (isPlan s.cur) b.toNat n 2
  let new (old : Nat) : Nat := op.new (8 * n) f.u old (v.toNat % 2 ^ (8 * n)) (c.toNat % 2 ^ (8 * n))
  if isPlan s.cur then
    match ← s.planPlace a n 2 with
    | .inl pa =>
      let old := leNat (s.readMem pa n)
      .ok ((s.writeMem pa (toBytes n (new old))).writeS f.dr (BitVec.ofNat 64 old) 0 1)
    | .inr _ => .error (xlTrap (isPlan s.cur) a 2 (.reason 3))
  else
    let t := taintS s f.base ||| taintS s f.dr ||| (if op = .cas then taintS s f.idx else 0)
    let (p, e) ← s.piece 0 a n 2 false
    let s := s.tlbFill s.cur e
    s.settled [p] t (isRel f)
    let s ← s.needCk
    let s := if isRel f then s.settle s.cur else s
    let old := leNat (s.readMem p.pa n)
    let bt := s.core.boundTime (accessTaint s t)
    let s := s.storeNow p.pa bt (toBytes n (new old))
    let far := scopeLatency (dieOf s.cur) f.scope.toNat 40 [p]
    let s ← s.globalLoad [p] { dest := .s f.dr.toNat, size := n, taint := t, acq := isAcq f, scope := f.scope.toNat, fixed := some old
                               least := far, far := far }
    .ok s.ckEnd

/-! ## Prefetch, range acquire, pins (R239 to R241) -/

/-- Put a line into an L1 of 1,024 lines (R216). -/
def Core.fillL1 (c : Core) (l : L1Line) : Core := { c with l1 := (l :: c.l1.filter fun x => !decide (x.pa = l.pa)).take 1024 }

/-- A translation for read by the TLBs of the core, else by a walk, which fills them; it never faults (R239, R286). -/
def State.quietXl (s : State) (tsid va : Nat) : Option (TlbEnt × State) :=
  let d := dieOf s.cur
  match (s.core.tlb ++ (s.dieAt d).l2tlb).find? fun e => e.covers tsid va && e.allows 0 with
  | some e => some (e, s.tlbFill s.cur e)
  | none => match s.walkNow d tsid va with
    | .ok e => if e.allows 0 then some (e, (s.l2Fill d e).tlbFill s.cur e) else none
    | .error _ => none

/-- `PREF` (R239): the line enters the L1, or with SZ = 1 the L2 alone, which no program sees (R216). -/
def prefetch (s : State) (f : MemWord) : Eff State := do
  let a ← memAddress s f 128
  let t := s.tsid s.cur
  if 2 ^ 56 ≤ a then .ok s
  else match s.quietXl t a with
    | none => .ok s
    | some (e, s') =>
      let pa := e.phys a / 128 * 128
      if e.dev || !s.homeOk (dieOf s.cur) pa || s.poisoned pa then .ok s
      else if decide (f.sz.toNat = 1) || s.core.l1.any fun l => decide (l.pa = pa) then .ok s'
      else
      let s := s'
      .ok ((({ s with seq := s.seq + 1 } : State)).upd fun c => c.fillL1
        { tsid := t, va := a / 128 * 128, pa := pa, fill := s.seq + 1, bytes := s.readMem pa 128 })

/-- First and last + 1 address of a range clipped at 2^56. -/
def clipRange (b l : DWord) : Nat × Nat := (min b.toNat (2 ^ 56), min (b.toNat + l.toNat) (2 ^ 56))

/-- Number of pages a range overlaps. -/
def pageCount (lo hi : Nat) : Nat := if lo < hi then (hi - 1) / 4096 - lo / 4096 + 1 else 0

/-- The leaves of a table, and of those below it, for the addresses of a range (R281); `base` is the first address of the table. -/
def State.leaves (s : State) (d tsid lo hi : Nat) : Nat → Nat → Nat → List TlbEnt
  | level, table, base =>
    let size := 2 ^ (12 + 9 * level)
    let first := (max lo base - base) / size
    ((List.range (min 512 ((hi - base + size - 1) / size) - first)).map fun i => first + i).flatMap fun i =>
      let at' := table + 8 * i
      let e := leWord (s.readMem at' 8)
      if !s.homeOk d at' || s.poisoned at' || !e.getLsbD 0 || decide (bits e 63 52 ≠ 0 ∨ bits e 11 7 ≠ 0) then []
      else if e.getLsbD 1 then (match leafEntry tsid (base + i * size) level e with
        | .ok x => [x]
        | .error _ => [])
      else match level with
        | 0 => []
        | l + 1 => if bits e 6 2 ≠ 0 then [] else State.leaves s d tsid lo hi l (bits e 51 12 * 4096) (base + i * size)

/-- Translations of the pages of a range: those that the core's TLB, its die's and its walks have given, and what the tables give. -/
def State.rangeEntries (s : State) (tsid lo hi : Nat) : List TlbEnt :=
  let d := dieOf s.cur
  ((s.core.tlb ++ (s.dieAt d).l2tlb ++ (s.dieAt d).known).filter fun e => decide (e.tsid = tsid)) ++
    if lo < hi then s.leaves d tsid lo hi 4 (s.rootOf d tsid) 0 else []

/-- A line overlaps the range, at the address it was filled by or at another that maps it to memory (log 69). -/
def lineIn (es : List TlbEnt) (tsid lo hi : Nat) (l : L1Line) : Bool :=
  let meets (va : Nat) : Bool := decide (va < hi ∧ lo < va + 128 ∧ lo < hi)
  (decide (l.tsid = tsid) && meets l.va) || es.any fun e => !e.dev &&
    decide (e.pa ≤ l.pa ∧ l.pa < e.pa + pageBytes e.size) && meets (e.vpage * pageBytes e.size + (l.pa - e.pa))

/-- Invalidate the L1 lines that overlap a range (R240 step 2). -/
def State.dropRange (s : State) (lo hi : Nat) : State :=
  let t := s.tsid s.cur
  let es := s.rangeEntries t lo hi
  s.upd fun c => { c with l1 := c.l1.filter fun x => !lineIn es t lo hi x }

def rangeAcquire (s : State) (f : MemWord) : Eff State := do
  let b ← srcS s f.base f.ea
  let l ← srcS s f.idx f.ei
  need (decide (s.core.pendingMask = 0)) stall
  let r := clipRange b l
  .ok (s.dropRange r.1 r.2)

/-- Physical lines of the page at `pg` that a range overlaps. -/
def pageLines (lo hi pg pa : Nat) : List Nat :=
  (List.range 32).filterMap fun i =>
    let va := pg * 4096 + 128 * i
    if va < hi ∧ lo < va + 128 then some (pa / 4096 * 32 + i) else none

/-- Lines of the pages from `pg`, each page translated for read; the first failure is the trap. No access is made (R253), so no data
error is met; a line is fetched from a home that answers (R215). -/
def State.pinLines (s : State) (lo hi : Nat) : Nat → Nat → Eff (List Nat × State)
  | _, 0 => .ok ([], s)
  | pg, n + 1 =>
    let va := max lo (pg * 4096)
    match s.translate s.cur va 0 with
    | .error e => .error e
    | .ok e =>
      if e.dev then .error (xlTrap (isPlan s.cur) va 0 (.reason 3))
      else if !s.homeOk (dieOf s.cur) (e.phys va) then .error (.trap 0x0A (BitVec.ofNat 64 va))
      else match State.pinLines (s.tlbFill s.cur e) lo hi (pg + 1) n with
        | .error e => .error e
        | .ok (ls, s) => .ok (pageLines lo hi pg (e.phys va) ++ ls, s)

/-- Bit of the pin set: 0 to 71 the compute cores, 72 and 73 the control cores (R221). -/
def pinBit (u : Nat) : Nat := u % 128

def pinLimit : Nat := 393216

def l2pin (s : State) (f : MemWord) : Eff State := do
  let b ← srcS s f.base f.ea
  let l ← srcS s f.idx f.ei
  let r := clipRange b l
  let (ls, s) ← s.pinLines r.1 r.2 (r.1 / 4096) (pageCount r.1 r.2)
  let d := dieOf s.cur
  let pins := (s.dieAt d).pins
  let fresh := (ls.filter fun x => (Tbl.getD pins x []).isEmpty).eraseDups.length
  let held := (pins.filter fun p => !p.2.isEmpty).length
  need (decide (held + fresh ≤ pinLimit)) (.trap 0x0E b)
  .ok (s.updDie d fun x => { x with pins := ls.foldl (fun t n =>
    let set := Tbl.getD t n []
    if set.contains (pinBit s.cur) then t else Tbl.set t n (pinBit s.cur :: set)) x.pins })

/-- Clear one bit of a line's pin set; an empty set is not listed. -/
def unpinLine (t : Tbl (List Nat)) (n bit : Nat) : Tbl (List Nat) :=
  let set := (Tbl.getD t n []).filter fun k => !decide (k = bit)
  if set.isEmpty then Tbl.del t n else Tbl.set t n set

/-- The lines of the mapped pages of memory from `pg` on. -/
def State.unpinLines (s : State) (d tsid lo hi : Nat) : Nat → Nat → List Nat
  | _, 0 => []
  | pg, n + 1 =>
    let va := max lo (pg * 4096)
    let rest := State.unpinLines s d tsid lo hi (pg + 1) n
    let lines (e : TlbEnt) : List Nat := if e.dev then rest else pageLines lo hi pg (e.phys va) ++ rest
    match (s.core.tlb ++ (s.dieAt d).l2tlb).find? fun e => e.covers tsid va with
    | some e => lines e
    | none => match s.walkNow d tsid va with
      | .ok e => lines e
      | .error _ => rest

def l2unpin (s : State) (f : MemWord) : Eff State := do
  let b ← srcS s f.base f.ea
  let l ← srcS s f.idx f.ei
  let r := clipRange b l
  let d := dieOf s.cur
  if (s.dieAt d).pins.isEmpty then .ok s
  else
    let ls := s.unpinLines d (s.tsid s.cur) r.1 r.2 (r.1 / 4096) (pageCount r.1 r.2)
    .ok (s.updDie d fun x => { x with pins := ls.foldl (fun t n => unpinLine t n (pinBit s.cur)) x.pins })

/-! ## Scratchpad accesses (R242) -/

/-- A scratchpad access follows an earlier `.acq` load, and the loads before a `FENCE.core` (R262, R266). -/
def State.spadTurn (s : State) : Eff Unit := need (decide (s.core.acqWaits = 0)) stall

/-- An access reaches banks that no engine uses in this cycle; one that does goes first (R480). -/
def State.spadBanks (s : State) (a n : Nat) : Eff State := do
  let l := banksOf a n
  need (!l.any s.prior.core.engineBanks.contains) stall
  .ok (s.upd fun c => { c with coreBanks := l.filter (fun b => !c.coreBanks.contains b) ++ c.coreBanks })

/-- The bytes of a vector store at an address, by aligned 64-byte unit (R254). -/
def spadUnits (a : Nat) (bs : Tbl Byte) : List (Tbl Byte) :=
  ((List.range 8).map fun k => (bs.filter fun b => decide (b.1 / 64 = k)).map fun (b : Nat × Byte) => (a + b.1, b.2)).filter fun w => !w.isEmpty

def spadLoad (s : State) (f : MemWord) : Eff State := do
  let n := 2 ^ f.sz.toNat
  let a ← memAddress s f n
  let a ← s.spaddr a n
  dstS s f.dr
  s.spadTurn
  let s ← s.spadBanks a n
  let s ← s.spadCheck ((List.range n).map fun i => a + i)
  .ok (s.produce (.s f.dr.toNat) (leNat (s.core.banked.spadRead a n)) (addressTaint s f) 3 0)

def spadStore (s : State) (f : MemWord) : Eff State := do
  let n := 2 ^ f.sz.toNat
  let a ← memAddress s f n
  let a ← s.spaddr a n
  let v ← srcS s f.dr f.ed
  s.spadTurn
  let s ← s.spadBanks a n
  .ok (s.upd fun c => c.spadStore ((List.range n).map fun i => (a + i, BitVec.ofNat 8 (v.toNat / 256 ^ i))))

def vectorSpadLoad (s : State) (f : MemWord) : Eff State := do
  let a ← memAddress s f 512
  let a ← s.spaddr a 512
  let d := f.dr.toNat
  let p ← predOf s f.pen f.pg
  let old ← if f.pen then srcV s d false else .ok 0
  destOk s (.v d)
  s.spadTurn
  let s ← s.spadBanks a 512
  let s ← s.spadCheck (((List.range 512).filter fun i => p.1.getLsbD i).map fun i => a + i)
  let bs := ((List.range 512).zip ((s.core.banked.spadRead a 512).zip (vecBytes old))).map fun x => if p.1.getLsbD x.1 then x.2.1 else x.2.2
  .ok (s.produce (.v d) (leNat bs) (addressTaint s f ||| (if f.pen then (s.pre.vReg d).taint ||| p.2 else 0)) 4 0)

def vectorSpadStore (s : State) (f : MemWord) : Eff State := do
  let a ← memAddress s f 512
  let a ← s.spaddr a 512
  let v ← srcV s f.dr.toNat f.ed
  let p ← predOf s f.pen f.pg
  s.spadTurn
  let s ← s.spadBanks a 512
  .ok (s.upd fun c => (spadUnits a (maskedBytes p.1 v)).foldl Core.spadStore c)

/-! ## Regions (R243, R245) -/

def regionAlloc (s : State) (f : MemWord) : Eff State := do
  let z ← srcS s f.base f.ea
  dstS s f.dr
  let t := taintS s f.base
  let none' := s.produce (.s f.dr.toNat) (2 ^ 64 - 1) t 6 0
  if z = 0 ∨ spadBytes < z.toNat then .ok none'
  else
    let n := (z.toNat + 4095) / 4096
    match s.core.findGrans n, s.core.task with
    | some g, some k => .ok ((s.upd fun c => { c.takeGrans g n (.task k.id g false) with allocNow := true }).produce (.s f.dr.toNat) (4096 * g) t 6 0)
    | _, _ => .ok none'

def regionFree (s : State) (f : MemWord) : Eff State := do
  let b ← srcS s f.base f.ea
  let g := b.toNat / 4096
  let ok := decide (b.toNat % 4096 = 0) && (match s.core.task, Tbl.get? s.core.grans g with
    | some t, some (.task id first _) => decide (id = t.id ∧ first = g)
    | _, _ => false)
  need ok (.trap 0x0C b)
  .ok (s.upd fun c => { c with freeing := if c.freeing.contains g then c.freeing else c.freeing ++ [g] })

/-! ## Tag table (R246 to R248) -/

/-- The tag word of an entry (R229). -/
def TagEnt.word (e : TagEnt) (n : Nat) : DWord :=
  BitVec.ofNat 64 (e.s.toNat * 2 ^ 62 + e.d.toNat * 2 ^ 61 + e.len * 2 ^ 39 + e.spaddr * 2 ^ 8 + n)

/-- The answer on a miss. -/
def Core.missWord (c : Core) : DWord :=
  match Tbl.free c.tagTab 256 with
  | some n => BitVec.ofNat 64 (2 ^ 63 + n)
  | none =>
    let old := c.tagTab.foldl (fun (b : Nat × Nat) p => if b.2 < p.2.fage + 1 then (p.1, p.2.fage + 1) else b) (0, 0)
    BitVec.ofNat 64 (2 ^ 63 + 2 ^ 60 + old.1)

def tagLook (s : State) (f : MemWord) : Eff State := do
  let k ← srcS s f.base f.ea
  dstS s f.dr
  let w := match s.core.tagTab.find? fun p => decide (p.2.key = k.toNat) with
    | some p => p.2.word p.1
    | none => s.core.missWord
  .ok (s.writeS f.dr w (taintS s f.base) 1)

def tagFill (s : State) (f : MemWord) : Eff State := do
  let w ← srcS s f.dr f.ed
  let k ← srcS s f.base f.ea
  let len := bits w 53 39
  let bad := decide (bits w 63 62 ≠ 0 ∨ bits w 60 54 ≠ 0 ∨ bits w 38 29 ≠ 0 ∨ bits w 13 8 ≠ 0 ∨ bits k 63 56 ≠ 0 ∨ bits k 5 0 ≠ 0) ||
    decide (len = 0 ∨ 24576 < len)
  need (!bad) (illegalOperand s)
  let a := bits w 28 8
  need (decide (a + 64 * len ≤ spadBytes)) (.trap 0x0C (BitVec.ofNat 64 a))
  let n := bits w 7 0
  .ok (s.upd fun c =>
    let others := (c.tagTab.filter fun p => decide (p.1 ≠ n ∧ p.2.key ≠ k.toNat)).map fun (p : Nat × TagEnt) =>
      (p.1, { p.2 with fage := min 255 (p.2.fage + 1) })
    { c with tagTab := Tbl.set others n { d := w.getLsbD 61, key := k.toNat, spaddr := a, len := len } })

/-- Every page of a range translates for write: it fails at the first page that does not, or is one of device registers (R234); the error of a walk's own read is raised,
and a page not yet walked stops the group (R248, R287). -/
def State.writable (s : State) : Nat → Nat → Eff (Bool × State)
  | _, 0 => .ok (true, s)
  | pg, n + 1 => match s.translate s.cur (pg * 4096) 1 with
    | .ok e => if e.dev then .ok (false, s) else State.writable (s.tlbFill s.cur e) (pg + 1) n
    | .error (.trap 0x08 _) => .ok (false, s)
    | .error e => .error e

def tagEvict (s : State) (f : MemWord) : Eff State := do
  let b ← srcS s f.base f.ea
  need (decide (bits b 63 8 = 0)) (illegalOperand s)
  let n := b.toNat
  let fault : Stop := .trap 0x08 (BitVec.ofNat 64 (256 + n))
  let drop (s : State) : State := s.upd fun c => { c with tagTab := Tbl.del c.tagTab n }
  match Tbl.get? s.core.tagTab n with
  | none => .ok s
  | some e =>
    if !e.d then .ok (drop s)
    else
      need (!e.s) fault
      let (ok, s) ← s.writable (e.key / 4096) (pageCount e.key (e.key + 64 * e.len))
      need ok fault
      .ok (drop s)

/-! ## SDSET (R199) -/

def sdset (s : State) (f : MemWord) : Eff State := do
  let n := f.sz.toNat
  need (decide (n ≠ 0 ∧ f.sh.toNat + n ≤ 4 ∧ f.base.toNat + n ≤ 64)) (illegalOperand s)
  let r (i : Nat) : BitVec 6 := BitVec.ofNat 6 (f.base.toNat + i)
  let vs ← (List.range n).mapM fun i => srcS s (r i) f.ea
  .ok (s.live fun g => ((List.range n).zip vs).foldl (fun (g : Regs) p =>
    { g with sd := Tbl.set g.sd (4 * f.dr.toNat + f.sh.toNat + p.1) ⟨p.2, taintS s (r p.1)⟩ }) g)

/-! ## Binding (R115, R116, R218) -/

/-- Read one piece: from an L1 line that is young enough, unless the load is performed beyond it; else from memory, whose
line fills the L1. -/
def State.readPiece (s : State) (u : Nat) (l : Load) (p : Piece) : State × List Byte :=
  let line := p.pa / 128 * 128
  match (s.coreAt u).l1.find? fun x => decide (x.pa = line) && decide (l.minFill ≤ x.fill) && !l.beyond with
  | some x => (s, (x.bytes.drop (p.pa % 128)).take p.len)
  | none =>
    let x : L1Line := { tsid := s.tsid u, va := p.va / 128 * 128, pa := line, fill := s.seq, bytes := s.readMem line 128 }
    (s.updAt u fun c => (c.fillL1 x).count 0x0B 1, s.readMem p.pa p.len)

/-- A byte of piece p that an earlier piece of the load has read: every element reading it reads that value (R237). -/
def pieceByte (done : List (Piece × List Byte)) (p : Piece) (i : Nat) (b : Byte) : Byte :=
  match done.find? fun q => decide (q.1.pa ≤ p.pa + i ∧ p.pa + i < q.1.pa + q.1.len) with
  | some q => q.2.getD (p.pa + i - q.1.pa) b
  | none => b

/-- The bytes of a load by offset. -/
def State.readPieces (s : State) (u : Nat) (l : Load) : List Piece → List (Piece × List Byte) → State × Tbl Byte
  | [], done => (s, done.foldl (fun t q => ((List.range q.1.len).zip q.2).foldl (fun t b => Tbl.set t (q.1.off + b.1) b.2) t) [])
  | p :: ps, done =>
    let r := s.readPiece u l p
    let bs := if done.any fun q => p.meets q.1 then ((List.range p.len).zip r.2).map fun b => pieceByte done p b.1 b.2 else r.2
    State.readPieces r.1 u l ps ((p, bs) :: done)

/-- The core holds a piece of a load: in its L1, or in its withholding buffer. -/
def Core.near (c : Core) (l : Load) (p : Piece) : Bool :=
  (!l.beyond && c.l1.any fun x => decide (x.pa = p.pa / 128 * 128 ∧ l.minFill ≤ x.fill)) ||
  (List.range p.len).all fun i => (Tbl.get? l.fwd (p.off + i)).isSome

/-- The least latency of a load has passed (R475, R477). -/
def State.loadDue (s : State) (u : Nat) (l : Load) : Bool :=
  decide (l.sent + (if l.pieces.all ((s.coreAt u).near l) then l.least else max l.least l.far) ≤ s.now)

/-- A load reads one of its pieces before it binds, one that no other piece overlaps: the units of an access are not
atomic together (R254). -/
def State.readEarly (s : State) (u : Nat) (l : Load) (i : Nat) : State :=
  match l.pieces[i]? with
  | none => s
  | some p =>
    if l.fixed.isSome || (l.pieces.filter fun q => p.meets q).length ≠ 1 then s
    else
      let r := State.readPiece { s with seq := s.seq + 1 } u l p
      let fwd := ((List.range p.len).zip r.2).foldl (fun t b => if (Tbl.get? t (p.off + b.1)).isSome then t else Tbl.set t (p.off + b.1) b.2) l.fwd
      let least := if (s.coreAt u).near l p then l.least else max l.least l.far
      r.1.updAt u fun c => { c with loads := c.loads.map fun (x : Load) => if x.tag = l.tag then { x with fwd := fwd, least := least } else x }

/-- The bound tag leaves every wait; what waited for it does not use older L1 lines (R116, R262). -/
def Core.bindTag (c : Core) (j time : Nat) (wide : Bool) : Core :=
  let off (m : Taint) : Taint := m &&& ~~~tagBit j
  { c with
    tags := Tbl.set c.tags j { c.tag j with st := .bound, time := time }
    loads := c.loads.map fun (l : Load) => if l.waits.getLsbD j then { l with waits := off l.waits, minFill := max l.minFill time } else l
    wb := c.wb.map fun (e : WEntry) => if e.waits.getLsbD j then { e with waits := off e.waits, minFill := max e.minFill time } else e
    acqWaits := off c.acqWaits
    l1Floor := if wide then max c.l1Floor time else c.l1Floor }

/-- LOAD_BIND: the value is fixed and written; a cancelled load only binds (R444). -/
def State.bindLoad (s : State) (u : Nat) (l : Load) : State :=
  let s := { s with seq := s.seq + 1 }
  let r := match l.fixed with
    | some _ => (s, [])
    | none => if l.cancelled then (s, []) else s.readPieces u l l.pieces []
  let byte (i : Nat) : Byte := match Tbl.get? l.fwd i with
    | some b => b
    | none => Tbl.getD r.2 i 0
  let raw : Nat := match l.fixed with
    | some v => v
    | none => leNat ((List.range l.size).map byte)
  let val : Nat := match l.dest with
    | .s _ => (extend l.sext l.size raw).toNat
    | _ => raw
  let put (g : Regs) : Regs := g.put l.dest val true (g.taintOf l.dest)
  let s := r.1.updAt u fun c =>
    let c := { c with loads := c.loads.filter fun (x : Load) => !decide (x.tag = l.tag) }
    let c := c.bindTag l.tag s.seq l.acqWide
    if l.cancelled then c
    else { c with live := put c.live, shadow := if l.preCk then { c.shadow with regs := put c.shadow.regs } else c.shadow }
  s.updDie (dieOf u) fun x => { x with copyq := x.copyq.map fun (y : Copy) =>
    if y.u = u then { y with waits := y.waits &&& ~~~tagBit l.tag } else y }

/-- PRODUCER_WRITEBACK: a long-latency result is written (R110). -/
def Core.writeBack (c : Core) (p : Producer) : Core :=
  let put (g : Regs) : Regs := { g.put p.dest p.val true (g.taintOf p.dest) with fp := g.fp ||| p.fp }
  { c with
    prods := c.prods.filter fun (x : Producer) => !decide (x.id = p.id)
    live := put c.live, shadow := if p.preCk then { c.shadow with regs := put c.shadow.regs } else c.shadow }

/-! ## Meanings -/

/-- LD (R235). -/
def execLd (f : MemWord) (s : State) : Host.Outcome State Fault Refusal := run (.ld f) s fun s => scalarLoad s f false

/-- LDX (R235). -/
def execLdx (f : MemWord) (s : State) : Host.Outcome State Fault Refusal := run (.ldx f) s fun s => scalarLoad s f true

/-- ST (R235). -/
def execSt (f : MemWord) (s : State) : Host.Outcome State Fault Refusal := run (.st f) s fun s => scalarStore s f

/-- VLD (R236). -/
def execVld (f : MemWord) (s : State) : Host.Outcome State Fault Refusal := run (.vld f) s fun s => vectorLoad s f

/-- VST (R236). -/
def execVst (f : MemWord) (s : State) : Host.Outcome State Fault Refusal := run (.vst f) s fun s => vectorStore s f

/-- VGATH (R237). -/
def execVgath (f : MemWord) (s : State) : Host.Outcome State Fault Refusal := run (.vgath f) s fun s => gather s f

/-- VSCAT (R237, R220). -/
def execVscat (f : MemWord) (s : State) : Host.Outcome State Fault Refusal := run (.vscat f) s fun s => scatter s f

/-- PREF (R239). -/
def execPref (f : MemWord) (s : State) : Host.Outcome State Fault Refusal := run (.pref f) s fun s => prefetch s f

/-- ACQR (R240). -/
def execAcqr (f : MemWord) (s : State) : Host.Outcome State Fault Refusal := run (.acqr f) s fun s => rangeAcquire s f

/-- L2PIN (R241). -/
def execL2pin (f : MemWord) (s : State) : Host.Outcome State Fault Refusal := run (.l2pin f) s fun s => l2pin s f

/-- L2UNPIN (R241). -/
def execL2unpin (f : MemWord) (s : State) : Host.Outcome State Fault Refusal := run (.l2unpin f) s fun s => l2unpin s f

/-- SPLD (R242). -/
def execSpld (f : MemWord) (s : State) : Host.Outcome State Fault Refusal := run (.spld f) s fun s => spadLoad s f

/-- SPST (R242). -/
def execSpst (f : MemWord) (s : State) : Host.Outcome State Fault Refusal := run (.spst f) s fun s => spadStore s f

/-- VSPLD (R242). -/
def execVspld (f : MemWord) (s : State) : Host.Outcome State Fault Refusal := run (.vspld f) s fun s => vectorSpadLoad s f

/-- VSPST (R242). -/
def execVspst (f : MemWord) (s : State) : Host.Outcome State Fault Refusal := run (.vspst f) s fun s => vectorSpadStore s f

/-- RALLOC (R243). -/
def execRalloc (f : MemWord) (s : State) : Host.Outcome State Fault Refusal := run (.ralloc f) s fun s => regionAlloc s f

/-- RFREE (R245). -/
def execRfree (f : MemWord) (s : State) : Host.Outcome State Fault Refusal := run (.rfree f) s fun s => regionFree s f

/-- STLOOK (R246). -/
def execStlook (f : MemWord) (s : State) : Host.Outcome State Fault Refusal := run (.stlook f) s fun s => tagLook s f

/-- STFILL (R247). -/
def execStfill (f : MemWord) (s : State) : Host.Outcome State Fault Refusal := run (.stfill f) s fun s => tagFill s f

/-- STEVICT (R248). -/
def execStevict (f : MemWord) (s : State) : Host.Outcome State Fault Refusal := run (.stevict f) s fun s => tagEvict s f

/-- SDSET (R199). -/
def execSdset (f : MemWord) (s : State) : Host.Outcome State Fault Refusal := run (.sdset f) s fun s => sdset s f

/-- ATADD (R238). -/
def execAtadd (f : MemWord) (s : State) : Host.Outcome State Fault Refusal := run (.atadd f) s fun s => atomic s f .add

/-- ATMIN (R238). -/
def execAtmin (f : MemWord) (s : State) : Host.Outcome State Fault Refusal := run (.atmin f) s fun s => atomic s f .min

/-- ATMAX (R238). -/
def execAtmax (f : MemWord) (s : State) : Host.Outcome State Fault Refusal := run (.atmax f) s fun s => atomic s f .max

/-- ATXCH (R238). -/
def execAtxch (f : MemWord) (s : State) : Host.Outcome State Fault Refusal := run (.atxch f) s fun s => atomic s f .xch

/-- ATCAS (R238). -/
def execAtcas (f : MemWord) (s : State) : Host.Outcome State Fault Refusal := run (.atcas f) s fun s => atomic s f .cas

/-- LOAD_BIND (R115): the load of tag `k` at unit `u`, once what it may not pass has bound and its least latency has passed (R475); with `m` it reads its piece
`m` - 1 before it binds (R254). -/
def execLoadBind (s : State) : Host.Outcome State Fault Refusal :=
  let u := s.ev.u
  match (s.coreAt u).loads.find? fun (l : Load) => decide (l.tag = s.ev.k) with
  | some l => atUnit s u (decide (l.waits = 0)) (if s.ev.m ≠ 0 then s.readEarly u l (s.ev.m - 1) else if s.loadDue u l then s.bindLoad u l else s)
  | none => atUnit s u false s

/-- PRODUCER_WRITEBACK (R110): producer `k` of unit `u`, once its value is known and its least latency has passed; a register of
exposed mode is written at its cycle instead (R475). -/
def execProducerWriteback (s : State) : Host.Outcome State Fault Refusal :=
  let u := s.ev.u
  match (s.coreAt u).prods.find? fun (p : Producer) => decide (p.id = s.ev.k) with
  | some p => atUnit s u (!p.waiting && !p.exposed && decide (p.minDue ≤ s.now)) (s.updAt u fun c => c.writeBack p)
  | none => atUnit s u false s

end Sys2Proof.Machine
end

