-- ==== Sys2Proof/Machine/Outside.lean ====
section
/-! DEFINITION. Events from outside the cores: trap entry (R438), writes of device registers (R5, R333, R334, R463, R467, R469), Ethernet frames (R467), the host port (R465), boot and service (R468, R470 to R473). -/

namespace Sys2Proof.Machine

/-! ## Ethernet (R466, R467) -/

/-- An event at a die, which must exist. -/
@[inline] def atDie (s : State) (d : Nat) (enabled : Bool) (t : State) : Host.Outcome State Fault Refusal := happen s (dieExists d && enabled) t

/-- Die that serves Ethernet port p of the pod (R466). -/
def portDie (p : Nat) : Nat := 4 * p

def State.eth (s : State) (p : Nat) : EthPort := (s.dieAt (portDie p)).eth

def State.updEth (s : State) (p : Nat) (f : EthPort → EthPort) : State := s.updDie (portDie p) fun x => { x with eth := f x.eth }

/-- A register of port p is written. -/
def ethWrite (s : State) (p r : Nat) (v : DWord) : Host.Outcome State Fault Refusal :=
  atDie s (portDie p) true (s.updEth p fun e => e.writeReg r v)

/-- EN of a ring. -/
def ringOn (cfg : DWord) : Bool := cfg.getLsbD 8

/-- A configuration word with EN clear. -/
def ringOff (cfg : DWord) : DWord := setBits cfg 8 8 0

/-- Address of descriptor `head` of a ring (R467). -/
def ringDesc (base cfg : DWord) (head : Nat) : Nat := bits base 55 0 + 16 * (head % 2 ^ bits cfg 4 0)

/-- Add one, saturating. -/
def satCount (n : Nat) : Nat := min 0xFFFF (n + 1)

/-- The Ethernet interrupt of a port (R466). -/
def State.ethIrq (s : State) (p : Nat) : State := s.irq (portDie p * 128 + 72) 4

/-- A ring or buffer access faulted (R467): EFAULT, EN of the ring cleared, the interrupt. -/
def State.ethFault (s : State) (p : Nat) (tx : Bool) (a : Nat) : State :=
  (s.updEth p fun e => { e with
    faultV := true, faultA := a % 2 ^ 56
    rxCfg := if tx then e.rxCfg else ringOff e.rxCfg
    txCfg := if tx then ringOff e.txCfg else e.txCfg }).ethIrq p

/-- The port accepts a destination address (R467). -/
def EthPort.accepts (e : EthPort) (dst : List Byte) : Bool :=
  decide (leNat dst = bits e.emac 47 0 ∨ leNat dst = 2 ^ 48 - 1) || ((dst.getD 0 0).getLsbD 0 && e.emac.getLsbD 48) || e.emac.getLsbD 49

/-- A buffer write that faults at `a` has or has not written the bytes before it (log 13). -/
def State.partialFrame (s : State) (d buf a : Nat) (bs : List Byte) : State :=
  if (Config.freeWord s.free).getLsbD 0 then
    match ({ s with free := s.free + 1 } : State).engineWrite d 4 buf (bs.take (a - buf)) with
    | .ok t => t
    | .error _ => { s with free := s.free + 1 }
  else { s with free := s.free + 1 }

/-- An accepted frame takes descriptor HEAD of the receive ring (R467). -/
def State.takeFrame (s : State) (p : Nat) (bs : List Byte) : State :=
  let d := portDie p
  let e := s.eth p
  if e.rxHead = e.rxTail then s.updEth p fun e => { e with noDesc := satCount e.noDesc }
  else
    let a := ringDesc e.rxBase e.rxCfg e.rxHead
    match s.engineRead d 4 a 16 with
    | .error x => s.ethFault p false x.2
    | .ok w =>
      let buf := bits (leWord (w.take 8)) 55 0
      let size := bits (leWord (w.drop 8)) 15 0
      if size < bs.length then s.updEth p fun e => { e with tooBig := satCount e.tooBig }
      else match s.engineWrite d 4 buf bs with
        | .error x => (s.partialFrame d buf x.2 bs).ethFault p false x.2
        | .ok t => match t.engineWrite d 4 (a + 8) (toBytes 8 (2 ^ 63 + bs.length * 2 ^ 16 + size)) with
          | .error x => t.ethFault p false x.2
          | .ok t => (t.updEth p fun e => { e with rxHead := (e.rxHead + 1) % 2 ^ 32 }).ethIrq p

/-- A frame without its FCS arrives; `good`: its FCS and symbols are good. -/
def State.receiveFrame (s : State) (p : Nat) (good : Bool) (bs : List Byte) : State :=
  if !good ∨ bs.length + 4 < 64 ∨ 9216 < bs.length + 4 then s.updEth p fun e => { e with bad := satCount e.bad }
  else if ringOn (s.eth p).rxCfg && (s.eth p).accepts (bs.take 6) then s.takeFrame p bs else s

/-- Descriptor HEAD of the transmit ring is completed (R467). -/
def State.completeTx (s : State) (p a : Nat) (w1 : DWord) (refused : Bool) : State :=
  let w := w1.toNat % 2 ^ 61 + bits w1 62 62 * 2 ^ 62 + refused.toNat * 2 ^ 61 + 2 ^ 63
  match s.engineWrite (portDie p) 4 (a + 8) (toBytes 8 w) with
  | .error x => s.ethFault p true x.2
  | .ok t =>
    let t := t.updEth p fun e => { e with txHead := (e.txHead + 1) % 2 ^ 32 }
    if w1.getLsbD 62 then t.ethIrq p else t

/-- The frame check sequence of IEEE 802.3: the complemented remainder of the reflected polynomial 0xEDB88320, bit by bit from the first
byte, sent least significant byte first (log 98). -/
def frameCheck (bs : List Byte) : List Byte :=
  let bit (c : BitVec 32) : BitVec 32 := if c.getLsbD 0 then (c >>> 1) ^^^ 0xEDB88320#32 else c >>> 1
  let byte (c : BitVec 32) (b : Byte) : BitVec 32 := (List.range 8).foldl (fun c _ => bit c) (c ^^^ b.setWidth 32)
  toBytes 4 (~~~(bs.foldl byte 0xFFFFFFFF#32)).toNat

/-- A port sends, or refuses, the frame of descriptor HEAD (R467). -/
def State.sendFrame (s : State) (p : Nat) : State :=
  let d := portDie p
  let e := s.eth p
  let a := ringDesc e.txBase e.txCfg e.txHead
  match s.engineRead d 4 a 16 with
  | .error x => s.ethFault p true x.2
  | .ok w =>
    let w0 := leWord (w.take 8)
    let w1 := leWord (w.drop 8)
    let len := bits w1 13 0
    if bits w0 63 56 ≠ 0 ∨ bits w1 60 14 ≠ 0 ∨ len < 14 ∨ 9212 < len then s.completeTx p a w1 true
    else match s.engineRead d 4 (bits w0 55 0) len with
      | .error x => s.ethFault p true x.2
      | .ok f =>
        let f := f ++ List.replicate (60 - f.length) (0 : Byte)
        (s.updEth p fun e => { e with sent := e.sent ++ [f ++ frameCheck f] }).completeTx p a w1 false

/-! ## The host port (R465) -/

/-- BAR2 reaches n bytes at an offset of package p: one package, offsets below the stack's end, an online home. -/
def State.barReach (s : State) (p o n : Nat) : Bool :=
  let pa := bits (s.dieAt (p * 32)).hwin 51 0 + o
  decide (o + n ≤ 2 ^ 36 ∧ pa / 2 ^ 42 = p ∧ (pa + n - 1) / 2 ^ 37 = pa / 2 ^ 37 ∧ (pa + n - 1) % 2 ^ 37 < 0xC00000000) && !s.offlineStacks.contains (pa / 2 ^ 37)

/-- Byte a host read returns; of a poisoned line a free one (log 1). -/
def State.hostByte (s : State) (pa i : Nat) : Byte :=
  if s.poisoned (pa + i) then Config.poisonByte (s.free + i) else Memory.read s.mem (pa + i)

/-- A host request through BAR2 of package p (R465); Unsupported Request where it does not reach. -/
def State.hostAccess (s : State) (p o n : Nat) (wr : Bool) (bs : List Byte) : State :=
  let pa := bits (s.dieAt (p * 32)).hwin 51 0 + o
  if wr then (if s.barReach p o bs.length then s.writeMem pa bs else s)
  else if s.barReach p o n then { s with hostReads := s.hostReads ++ [some ((List.range n).map (s.hostByte pa))], free := s.free + n }
  else { s with hostReads := s.hostReads ++ [none] }

/-- A host request through BAR0 of package p (R464): the register at offset o, read where `v` is none, else written. A request
that is no whole register, or reaches none, is as one of BAR2 that reaches nothing (log 57). -/
def State.hostReg (s : State) (p o : Nat) (v : Option DWord) : State :=
  let d := p * 32 + o / 2 ^ 24
  match if p < 768 ∧ o < 2 ^ 29 ∧ o % 8 = 0 then devReg d (o % 2 ^ 24) else none, v with
  | some r, some v => s.writeReg d r v
  | some r, none => { s with hostReads := s.hostReads ++ [some (toBytes 8 (s.readReg d r).toNat)] }
  | none, some _ => s
  | none, none => { s with hostReads := s.hostReads ++ [none] }

/-- The host port or the management controller interrupts a control core (R211, log 60). -/
def State.outsideIrq (s : State) (u : Nat) (host : Bool) : State :=
  if isControl u then s.irq u (if host then 3 else 5) else s

/-! ## Links (R470, R471) -/

def linkExists (l : Nat) : Bool := decide (l / 256 < 768 ∧ l % 256 < 212)

/-- ECLASS of a link: 0x04 between dies, 0x05 for Lode (R470). -/
def linkClass (l : Nat) : Nat := if l % 256 < 84 then 4 else 5

/-- A link goes offline (R471); which collectives it serves is not given: each that runs is a free choice (log 10). -/
def State.linkOffline (s : State) (l : Nat) : State :=
  let s := { s with offlineLinks := s.offlineLinks ++ [l] }
  let s := (linkDies l).foldl (fun (s : State) d => s.updDie d fun x => { x with eclass := linkClass l }) s
  let s := s.requestReplace (.link l)
  let w := Config.freeWord s.free
  ({ s with free := s.free + 1 } : State).abortInsts (fun i => w.getLsbD (i.id % 64)) 0x08 none

/-! ## Service (R473) -/

/-- The copy of a row to a spare begins, or ends and lets the replace requests that waited take effect. -/
def State.spareRow (s : State) (d row : Nat) : State :=
  match (s.dieAt d).sparing with
  | none => s.updDie d fun x => { x with sparing := some row }
  | some r =>
    (s.dieAt d).replWait.foldl State.placeReplace
      (State.updDie { s with spared := s.spared ++ [(d, r)] } d fun x => { x with sparing := none, replWait := [] })

/-- A stack goes offline (R471). -/
def State.stackOffline (s : State) (d : Nat) : State :=
  (State.stackAborts { s with offlineStacks := s.offlineStacks ++ [d] } d).requestReplace (.stack d)

/-! ## Errors (R470) -/

/-- The die of a unit logs the class of an error. -/
def State.logError (s : State) (d cls : Nat) : State := s.updDie d fun x => { x with eclass := cls }

/-- Mark element i of a list of lines. -/
def markLine (ls : List L1Line) (i : Nat) : List L1Line := ls.modify i fun l => { l with bad := true }

/-- An uncorrectable error arises and its class is logged (log 37): kind 0 the HBM4E line i, 1 that line in the L2 of the unit's die, which are poisoned;
2 the 8-byte scratchpad word i of unit u; 3 its L1 data line i, 4 its instruction block i; 5 row i of its result queues; else its
operand memory, where the running task is aborted under its restart class without a trap record. -/
def State.upset (s : State) (u kind i : Nat) : State :=
  let d := dieOf u
  match kind with
  | 0 => State.logError { s with poison := i :: s.poison } (i / 2 ^ 30) 1
  | 1 => State.logError { s with poison := i :: s.poison } d 2
  | 2 => (s.updAt u fun c => { c with spadBad := i :: c.spadBad }).logError d 2
  | 3 => (s.updAt u fun c => { c with l1 := markLine c.l1 i }).logError d 2
  | 4 => (s.updAt u fun c => { c with l1i := markLine c.l1i i }).logError d 2
  | 5 => (s.updAt u fun c => { c with rowsBad := i :: c.rowsBad }).logError d 2
  | _ =>
    if isCompute u && decide ((s.coreAt u).run = .running) then ((s.endByClass u 4 (s.coreAt u).pc 0 .idle).irqDie d 2).logError d 3
    else s.logError d 3

/-! ## Meanings: traps and bundles -/

/-- Codes of R434 that a unit's trap can have. -/
def causeListed (k : Nat) : Bool :=
  decide ((1 ≤ k ∧ k ≤ 5) ∨ (8 ≤ k ∧ k ≤ 0xE) ∨ (0x10 ≤ k ∧ k ≤ 0x13) ∨ (0x18 ≤ k ∧ k ≤ 0x1A) ∨ k = 0x1C)

/-- TRAP_ENTRY (R438): the group in progress of unit `u` raises cause `k` with `TREC_INFO` `v`. -/
def execTrapEntry (s : State) : Host.Outcome State Fault Refusal :=
  let u := s.ev.u
  atUnit s u (decide (u % 128 < 96 ∧ (s.coreAt u).run = .running) && causeListed s.ev.k) ((s.updAt u fun c => c.endWait (s.cycle48 (dieOf u))).trapAt u s.ev.k s.ev.v 0)

/-- The group of one empty bundle. -/
def emptyGroup (ck : Bool) : List Bundle := [{ ck := ck, st := true, inc := 0, p := 0, d := 0, words := [], len := 4 }]

/-- A group that is one empty bundle issues (R71). -/
def State.issueEmpty (s : State) (ck : Bool) : State :=
  let g := emptyGroup ck
  let s := s.beginGroup.placeGroup g
  if s.lineBubble then s.later
  else match (s.upd fun c => { c with redirected := false }).groupCheckpoint g [] false false with
  | none => s.endStopped stall
  | some base => match base.preemptNow with
    | some t => t
    | none => base.endGroup g []

/-- EMPTY_BUNDLE (R71): the running unit `u` issues an empty bundle, with CK in `flag`. -/
def execEmptyBundle (s : State) : Host.Outcome State Fault Refusal :=
  let u := s.ev.u
  atUnit s u (decide (u % 128 < 96 ∧ (s.coreAt u).run = .running ∧ (s.coreAt u).after = [])) (State.issueEmpty { s with cur := u } s.ev.flag)

/-! ## Meanings: device registers -/

/-- GLAUNCH_WRITE (R332, R333). -/
def execGlaunchWrite (s : State) : Host.Outcome State Fault Refusal := atDie s s.ev.u true (s.launch s.ev.u s.ev.v)

/-- GPATCH_WRITE (R333, R351). -/
def execGpatchWrite (s : State) : Host.Outcome State Fault Refusal := atDie s s.ev.u true (s.writeReg s.ev.u .gpatch s.ev.v)

/-- GSTAT_FAULT_CLEAR (R334): a 1 at FAULT of context `k`. -/
def execGstatFaultClear (s : State) : Host.Outcome State Fault Refusal := atDie s s.ev.u (decide (s.ev.k < 4)) (s.clearFault s.ev.u s.ev.k)

/-- CCTL_OFFLINE (R45, R463, R471). -/
def execCctlOffline (s : State) : Host.Outcome State Fault Refusal :=
  atUnit s s.ev.u (isCompute s.ev.u || isControl s.ev.u) (s.setOffline s.ev.u true)

/-- CCTL_ONLINE (R463): OFFLINE written 0. -/
def execCctlOnline (s : State) : Host.Outcome State Fault Refusal :=
  atUnit s s.ev.u (isCompute s.ev.u || isControl s.ev.u) (s.setOffline s.ev.u false)

/-- CCTL_RESTART (R463). -/
def execCctlRestart (s : State) : Host.Outcome State Fault Refusal :=
  atUnit s s.ev.u (isCompute s.ev.u || isControl s.ev.u) (s.restartCore s.ev.u)

/-- DSVC_DRAIN (R469). -/
def execDsvcDrain (s : State) : Host.Outcome State Fault Refusal := atDie s s.ev.u true (s.setDrain s.ev.u true)

/-- DSVC_REENABLE (R463, R469). -/
def execDsvcReenable (s : State) : Host.Outcome State Fault Refusal := atDie s s.ev.u true (s.setDrain s.ev.u false)

/-- SPV_WARN_CLEAR (R206): a 1 at WARN; MODE as it stands. -/
def execSpvWarnClear (s : State) : Host.Outcome State Fault Refusal :=
  atUnit s s.ev.u (isCompute s.ev.u) (s.updAt s.ev.u fun c => { c with spv := spvWrite c.spv (c.spv ||| 2) })

/-- TRACE_ENABLE (R431): EN written 1. -/
def execTraceEnable (s : State) : Host.Outcome State Fault Refusal :=
  atUnit s s.ev.u (isCompute s.ev.u || isControl s.ev.u)
    (s.updAt s.ev.u fun c => c.setTraceCtl (s.cycle48 (dieOf s.ev.u)) (c.traceCtl ||| 1))

/-- TRACE_DISABLE (R431): EN written 0. -/
def execTraceDisable (s : State) : Host.Outcome State Fault Refusal :=
  atUnit s s.ev.u (isCompute s.ev.u || isControl s.ev.u)
    (s.updAt s.ev.u fun c => c.setTraceCtl (s.cycle48 (dieOf s.ev.u)) (c.traceCtl &&& 6))

/-- REGISTER_WRITE (R5, R462): the register at offset `k` of die `u`; an offset without a register has no effect there. -/
def execRegisterWrite (s : State) : Host.Outcome State Fault Refusal :=
  match devReg s.ev.u s.ev.k with
  | some r => atDie s s.ev.u (decide (s.ev.k % 8 = 0)) (s.writeReg s.ev.u r s.ev.v)
  | none => happen s false s

/-! ## Meanings: Ethernet -/

/-- ERXTAIL_WRITE (R467). -/
def execErxtailWrite (s : State) : Host.Outcome State Fault Refusal := ethWrite s s.ev.u 3 s.ev.v

/-- ETXTAIL_WRITE (R467). -/
def execEtxtailWrite (s : State) : Host.Outcome State Fault Refusal := ethWrite s s.ev.u 7 s.ev.v

/-- RING_ENABLE (R467): EN 1 with LOG2N `k`. -/
def execRingEnable (s : State) : Host.Outcome State Fault Refusal :=
  ethWrite s s.ev.u (if s.ev.flag then 5 else 1) (BitVec.ofNat 64 (256 + s.ev.k % 32))

/-- RING_STOP (R467): EN 0, LOG2N as it stands. No frame is in progress between steps. -/
def execRingStop (s : State) : Host.Outcome State Fault Refusal :=
  let e := s.eth s.ev.u
  if s.ev.flag then ethWrite s s.ev.u 5 (ringOff e.txCfg) else ethWrite s s.ev.u 1 (ringOff e.rxCfg)

/-- ESTAT_CLR (R467). -/
def execEstatClr (s : State) : Host.Outcome State Fault Refusal := ethWrite s s.ev.u 8 (BitVec.ofNat 64 (2 ^ 63))

/-- FRAME_RECEIVE (R467). -/
def execFrameReceive (s : State) : Host.Outcome State Fault Refusal :=
  atDie s (portDie s.ev.u) true (s.receiveFrame s.ev.u s.ev.flag s.ev.bytes)

/-- FRAME_TRANSMIT (R467). -/
def execFrameTransmit (s : State) : Host.Outcome State Fault Refusal :=
  let e := s.eth s.ev.u
  atDie s (portDie s.ev.u) (ringOn e.txCfg && decide (e.txHead ≠ e.txTail)) (s.sendFrame s.ev.u)

/-! ## Meanings: host, boot and service -/

/-- HOST_BAR2_ACCESS (R465). -/
def execHostBar2Access (s : State) : Host.Outcome State Fault Refusal :=
  happen s (decide (s.ev.u < 768)) (s.hostAccess s.ev.u s.ev.k s.ev.m s.ev.flag s.ev.bytes)

/-- POWER_ON_RESET (R7, R468) of package `u`. -/
def execPowerOnReset (s : State) : Host.Outcome State Fault Refusal := happen s (decide (s.ev.u < 768)) (s.powerOn s.ev.u)

/-- DIE_RESET (R7). -/
def execDieReset (s : State) : Host.Outcome State Fault Refusal := atDie s s.ev.u true (s.resetDie s.ev.u)

/-- ATTESTATION_REQUEST (R468): the identity key of die `u` answers a nonce of 32 bytes. -/
def execAttestationRequest (s : State) : Host.Outcome State Fault Refusal :=
  match Tbl.get? s.image (s.ev.u / 32) with
  | some f => atDie s s.ev.u (decide (s.ev.bytes.length = 32))
      { s with answers := s.answers ++ [Config.attestSign s.ev.u (sha256 (s.ev.bytes ++ sha256 f))] }
  | none => happen s false s

/-- FIRMWARE_UPDATE (R473): control core `u`, in no handler, reloads from the verified image and restarts; the other cores, the resident
areas and attestation keep the image of power-on (log 99). -/
def execFirmwareUpdate (s : State) : Host.Outcome State Fault Refusal :=
  let u := s.ev.u
  let f := Tbl.getD s.flash (u / 4096) []
  atUnit s u (isControl u && s.online u && decide ((s.coreAt u).tlevel = 0) && flashVerifies f)
    (State.startControl { s with coreImage := Tbl.set s.coreImage u (imageOf f) } u)

/-- LANE_RETRAIN (R473): flits in flight are retried; nothing is lost or reordered. -/
def execLaneRetrain (s : State) : Host.Outcome State Fault Refusal := happen s (linkExists s.ev.u) s

/-- ROW_SPARING (R473): an access is served from the old row or the new one and sees the same bytes. -/
def execRowSparing (s : State) : Host.Outcome State Fault Refusal := atDie s s.ev.u true (s.spareRow s.ev.u s.ev.k)

/-- FLIT_RETRY (R470): a retry of a link that fails too counts towards its limit; one that succeeds ends the count. -/
def execFlitRetry (s : State) : Host.Outcome State Fault Refusal :=
  let l := s.ev.u
  happen s (linkExists l && !s.offlineLinks.contains l && decide (Tbl.getD s.retries l 0 < 16))
    { s with retries := if s.ev.flag then Tbl.set s.retries l (Tbl.getD s.retries l 0 + 1) else Tbl.del s.retries l }

/-- LINK_RETRY_LIMIT (R470, R471): after 16 failed retries the link goes offline. -/
def execLinkRetryLimit (s : State) : Host.Outcome State Fault Refusal :=
  let l := s.ev.u
  happen s (linkExists l && !s.offlineLinks.contains l && decide (16 ≤ Tbl.getD s.retries l 0)) (s.linkOffline l)

/-- THERMAL_TRIP (R471, R472). -/
def execThermalTrip (s : State) : Host.Outcome State Fault Refusal := atDie s s.ev.u (!(s.dieAt s.ev.u).offline) (s.dieOffline s.ev.u)

/-- STACK_SPARES_EXHAUSTED (R471). -/
def execStackSparesExhausted (s : State) : Host.Outcome State Fault Refusal :=
  atDie s s.ev.u (!s.offlineStacks.contains s.ev.u) (s.stackOffline s.ev.u)

end Sys2Proof.Machine
end

