-- ==== Sys2Proof/Machine/PlanOps.lean ====
section
/-! DEFINITION. The plan operations (R376): what a plan routine reads of its entry, what it records, and its sweeps. -/

namespace Sys2Proof.Machine

/-! ## The entry of a routine (R373) -/

/-- Die, context, block and entry that the routine in progress runs for. -/
structure Plan where
  d : Nat
  c : Nat
  b : Block
  j : Nat
  e : Entry

/-- The routine's entry; without one an operand is illegal. -/
def State.plan (s : State) : Eff Plan :=
  let d := dieOf s.cur
  let k := s.core
  match (s.ctxAt d k.planCtx).block? k.planBlk, (s.ctxAt d k.planCtx).entry? k.planBlk k.planEnt with
  | some b, some e => .ok { d := d, c := k.planCtx, b := b, j := k.planEnt, e := e }
  | _, _ => .error (illegalOperand s)

/-- The value of a plan register. -/
def planReg (s : State) (n : BitVec 6) : DWord := (s.pre.sReg n.toNat).val

/-- The reference a register names: its number and its word. -/
def State.planRef (s : State) (p : Plan) (n : BitVec 6) : Eff (Nat × BitVec 16) :=
  let j := (planReg s n).toNat
  match p.e.refs[j]? with
  | some r => .ok (j, r)
  | none => .error (illegalOperand s)

/-- Requirements of R376. -/
def planNeed (s : State) (b : Bool) : Eff Unit := need b (illegalOperand s)

/-- An operation that reads one value into DR. -/
def planRead (s : State) (f : MemWord) (fn : Plan → Eff DWord) : Eff State := do
  let p ← s.plan
  let v ← fn p
  .ok (s.writeS f.dr v 0 1)

/-- Change the routine's entry. -/
def State.updPlan (s : State) (p : Plan) (fn : Entry → Entry) : State := s.updCtx p.d p.c fun x => x.updEntry p.b.serial p.j fn

/-! ## Sweeps of a routine (R36, R376) -/

/-- An operation of the frontier unit that fails stops the context (R379). -/
def sweepStop (e : SweepErr) : Stop := .trap (0x100 + e.code + e.info * 65536) (BitVec.ofNat 64 e.addr)

/-- Put the sweep that the routine asks for into the table, or wait for a free entry in the order of the requests (R36). The
sweep is read once, as it is asked for (R314); a created one is its own OLDID. -/
def planSweep (s : State) (f : MemWord) (p : Plan) (fresh : Bool) (read : Except SweepErr Sweep) : Eff State := do
  let w ← match s.core.want with
    | some w => .ok w.2
    | none => match read with
      | .ok w => .ok { w with ctx := p.c, blk := p.b.serial, ent := p.j }
      | .error e => .error (sweepStop e)
  match s.addSweep p.d (s.core.want.map fun w => w.1) w (if fresh then none else some w.oldId) with
  | none => .error (.sweep w)
  | some (id, t) =>
    let t := (t.updPlan p fun e => { e with sweeps := e.sweeps ++ [id], made := Tbl.set e.made id id }).retireDone p.d id
    .ok (t.writeS f.dr (BitVec.ofNat 64 id) 0 1)

/-! ## Meanings -/

/-- PATTR (R376). -/
def execPattr (f : MemWord) (s : State) : Host.Outcome State Fault Refusal :=
  run (.pattr f) s fun s => planRead s f fun p => match p.e.attrs[(planReg s f.base).toNat]? with
    | some v => .ok v
    | none => .error (illegalOperand s)

/-- PSHAPE (R376). -/
def execPshape (f : MemWord) (s : State) : Host.Outcome State Fault Refusal :=
  run (.pshape f) s fun s => planRead s f fun p => do
    let x := (planReg s f.base).toNat
    planNeed s (decide (x ≤ 31))
    .ok (Tbl.getD p.e.hregs x 0)

/-- PHREF (R376). -/
def execPhref (f : MemWord) (s : State) : Host.Outcome State Fault Refusal :=
  run (.phref f) s fun s => planRead s f fun p => do
    let (j, r) ← s.planRef p f.base
    .ok (BitVec.ofNat 64 (r.toNat + (if refKind r = 3 then 0 else p.e.roots.getD j 0 % 4096) * 2 ^ 16))

/-- PHDESC (R376, R378). -/
def execPhdesc (f : MemWord) (s : State) : Host.Outcome State Fault Refusal :=
  run (.phdesc f) s fun s => planRead s f fun p => do
    let (j, r) ← s.planRef p f.base
    let w := (planReg s f.idx).toNat
    if refKind r = 3 then
      let l := match p.b.entries[refEntry r]? with
        | some e => Tbl.getD e.louts (refOut r) (0, 0)
        | none => (0, 0)
      .ok (if w = 0 then l.1 else if w = 1 then l.2 else 0)
    else do
      planNeed s (decide (w ≤ 14))
      .ok ((handleImage (p.e.snap[j]?)).getD w 0)

/-- PSETEXT (R376). -/
def execPsetext (f : MemWord) (s : State) : Host.Outcome State Fault Refusal :=
  run (.psetext f) s fun s => do
    let p ← s.plan
    let (j, r) ← s.planRef p f.base
    let k := (planReg s f.idx).toNat
    let v := (planReg s f.dr).toNat
    planNeed s (refWrites r && decide (k < descNdim ((p.e.snap.getD j {}).words) ∧ 1 ≤ v ∧ v < 2 ^ 31))
    .ok (s.updPlan p fun e => { e with exts := e.exts ++ [(j, k, v)] })

/-- PLOUT (R376). -/
def execPlout (f : MemWord) (s : State) : Host.Outcome State Fault Refusal :=
  run (.plout f) s fun s => do
    let p ← s.plan
    let o := (planReg s f.base).toNat
    let off := planReg s f.dr
    planNeed s (decide (o < localOuts ((s.ctxAt p.d p.c).bank p.b.bank) p.e.opid p.e.refs.length ∧ off.toNat % 64 = 0))
    .ok (s.updPlan p fun e => { e with louts := Tbl.set e.louts o (off, planReg s f.idx) })

/-- PRESID (R376, R340). -/
def execPresid (f : MemWord) (s : State) : Host.Outcome State Fault Refusal :=
  run (.presid f) s fun s => do
    let p ← s.plan
    let (_, r) ← s.planRef p f.base
    let v := planReg s f.dr
    planNeed s (refWrites r && decide (bits v 62 55 = 0 ∧ bits v 47 41 = 0 ∧ bits v 31 25 = 0 ∧ bits v 15 0 = 0 ∧ bits v 54 48 < 72 ∧
      bits v 40 32 + bits v 24 16 ≤ 384))
    .ok (s.updCtx p.d p.c fun x => match x.handle? (refHandle r) with
      | some h => x.setHandle (refHandle r) { h with resident := v, resBlk := p.b.serial }
      | none => x)

/-- PSWEEP (R376, R314 to R316). -/
def execPsweep (f : MemWord) (s : State) : Host.Outcome State Fault Refusal :=
  run (.psweep f) s fun s => do
    let p ← s.plan
    planSweep s f p true ((s.readDesc p.d p.c (planReg s f.base).toNat).map fun x => { ctx := p.c, desc := x })

/-- PRESTORE (R329, R376). -/
def execPrestore (f : MemWord) (s : State) : Host.Outcome State Fault Refusal :=
  run (.prestore f) s fun s => do
    let p ← s.plan
    planSweep s f p false (s.readFrontier p.d p.c (planReg s f.base).toNat)

/-- PREGION (R376). -/
def execPregion (f : MemWord) (s : State) : Host.Outcome State Fault Refusal :=
  run (.pregion f) s fun s => planRead s f fun p =>
    let c := (planReg s f.base).toNat
    .ok (match if c < 72 && decide ((s.coreAt (p.d * 128 + c)).run ≠ .offline) then Tbl.get? p.b.regions (p.d * 128 + c) else none with
      | some g => BitVec.ofNat 64 (4096 * g)
      | none => BitVec.allOnes 64)

/-- PSWAIT (R376). -/
def execPswait (f : MemWord) (s : State) : Host.Outcome State Fault Refusal :=
  run (.pswait f) s fun s => do
    let p ← s.plan
    match Tbl.get? p.e.made (planReg s f.base).toNat with
    | none => .error (illegalOperand s)
    | some id => if p.e.sweeps.contains id then .error (.wait (.parked false) false false) else .ok s

end Sys2Proof.Machine
end

