-- ==== Sys2Proof/Machine/Scalar.lean ====
section
/-! DEFINITION. The scalar-slot instructions (R124 to R137). -/

namespace Sys2Proof.Machine

/-! ## Shapes of operands -/

/-- Two scalar sources, one scalar destination with a fixed latency (R124). -/
def scalar2 (s : State) (d a : BitVec 6) (e : Bool) (b : BitVec 6) (f : Bool) (lat : Nat) (op : DWord → DWord → DWord) : Eff State := do
  let x ← srcS s a e
  let y ← srcS s b f
  dstS s d
  .ok (s.writeS d (op x y) (taintS s a ||| taintS s b) lat)

/-- One scalar source. -/
def scalar1 (s : State) (d a : BitVec 6) (e : Bool) (lat : Nat) (op : DWord → DWord) : Eff State := do
  let x ← srcS s a e
  dstS s d
  .ok (s.writeS d (op x) (taintS s a) lat)

/-- `ADD` to `MAX` (R126): the exact result of two integers, wrapped. -/
def arith (s : State) (f : ArithR) (lat : Nat) (op : Int → Int → Int) : Eff State :=
  scalar2 s f.d f.a f.e f.b f.f lat fun x y => res64 (op (opnd x f.w f.u) (opnd y f.w f.u)) f.w f.u

/-- The high half of a product (R126): an exact arithmetic shift right. -/
def mulHigh (w : Bool) (a b : Int) : Int := a * b / ((if w then 2 ^ 32 else 2 ^ 64 : Nat) : Int)

/-- Quotient and remainder of R127. -/
def divRem (a b : Int) (w uns : Bool) : Int × Int :=
  if b = 0 then (-1, a)
  else if !uns ∧ b = -1 ∧ a = -((if w then 2 ^ 31 else 2 ^ 63 : Nat) : Int) then (a, 0)
  else (a.tdiv b, a.tmod b)

/-- `DIV` and `REM` (R127): a long-latency producer; in exposed mode its latency counts from the cycle in which the
divider starts it (R477). -/
def divide (s : State) (f : ArithR) (pick : Int × Int → Int) : Eff State := do
  let x ← srcS s f.a f.e
  let y ← srcS s f.b f.f
  dstS s f.d
  let n := if f.w then 20 else 36
  let start := max s.now s.core.divFree
  let v := res64 (pick (divRem (opnd x f.w f.u) (opnd y f.w f.u) f.w f.u)) f.w f.u
  .ok ((s.produce (.s f.d.toNat) v.toNat (taintS s f.a ||| taintS s f.b) (start - s.now + n) 0).upd fun c =>
    { c with divFree := start + n })

/-- I form (R128): IMM11 sign-extended. -/
def immed (s : State) (f : ImmI) (lat : Nat) (op : DWord → DWord → DWord) : Eff State :=
  scalar1 s f.d f.a f.e lat fun x => op x (f.imm.signExtend 64)

def logic (s : State) (f : LogicR) (op : DWord → DWord → DWord) : Eff State :=
  scalar2 s f.d f.a f.e f.b f.f 1 (logicBy op f.w)

def shift (s : State) (f : LogicR) (op : ShiftOp) : Eff State := scalar2 s f.d f.a f.e f.b f.f 1 (shiftBy op f.w)

def shiftImm (s : State) (f : ShiftI) (op : ShiftOp) : Eff State :=
  scalar1 s f.d f.a f.e 1 fun x => op.apply x f.c.toNat

/-- All 512 bits of a predicate := b (R132). -/
def setPred (s : State) (p : BitVec 3) (b : Bool) (t : Taint) : Eff State := do
  destOk s (.p p.toNat)
  .ok (s.result (.p p.toNat) (if b then (BitVec.allOnes 512).toNat else 0) t 1 0)

/-- A destination that is also read as a source (R133, R134). -/
def scalarUpd (s : State) (d : BitVec 6) (t : Taint) (op : DWord → DWord) : Eff State := do
  let old ← srcS s d false
  .ok (s.writeS d (op old) (t ||| taintS s d) 1)

def ofsOf (b : DWord) : Nat := b.toNat % 64
def widOf (b : DWord) : Nat := b.toNat / 64 % 64

/-! ## Meanings -/

/-- ADD (R126). -/
def execAdd (f : ArithR) (s : State) : Host.Outcome State Fault Refusal :=
  run (.add f) s fun s => arith s f 1 (· + ·)

/-- SUB (R126). -/
def execSub (f : ArithR) (s : State) : Host.Outcome State Fault Refusal :=
  run (.sub f) s fun s => arith s f 1 (· - ·)

/-- MUL (R126). -/
def execMul (f : ArithR) (s : State) : Host.Outcome State Fault Refusal :=
  run (.mul f) s fun s => arith s f 3 (· * ·)

/-- MULH (R126). -/
def execMulh (f : ArithR) (s : State) : Host.Outcome State Fault Refusal :=
  run (.mulh f) s fun s => arith s f 3 (mulHigh f.w)

/-- MIN (R126). -/
def execMin (f : ArithR) (s : State) : Host.Outcome State Fault Refusal :=
  run (.min f) s fun s => arith s f 1 (fun a b => if a ≤ b then a else b)

/-- MAX (R126). -/
def execMax (f : ArithR) (s : State) : Host.Outcome State Fault Refusal :=
  run (.max f) s fun s => arith s f 1 (fun a b => if a ≤ b then b else a)

/-- DIV (R127). -/
def execDiv (f : ArithR) (s : State) : Host.Outcome State Fault Refusal :=
  run (.div f) s fun s => divide s f Prod.fst

/-- REM (R127). -/
def execRem (f : ArithR) (s : State) : Host.Outcome State Fault Refusal :=
  run (.rem f) s fun s => divide s f Prod.snd

/-- ADDI (R128). -/
def execAddi (f : ImmI) (s : State) : Host.Outcome State Fault Refusal :=
  run (.addi f) s fun s => immed s f 1 (· + ·)

/-- RSBI (R128). -/
def execRsbi (f : ImmI) (s : State) : Host.Outcome State Fault Refusal :=
  run (.rsbi f) s fun s => immed s f 1 (fun x i => i - x)

/-- MULI (R128). -/
def execMuli (f : ImmI) (s : State) : Host.Outcome State Fault Refusal :=
  run (.muli f) s fun s => immed s f 3 (· * ·)

/-- ANDI (R128). -/
def execAndi (f : ImmI) (s : State) : Host.Outcome State Fault Refusal :=
  run (.andi f) s fun s => immed s f 1 (· &&& ·)

/-- ORI (R128). -/
def execOri (f : ImmI) (s : State) : Host.Outcome State Fault Refusal :=
  run (.ori f) s fun s => immed s f 1 (· ||| ·)

/-- XORI (R128). -/
def execXori (f : ImmI) (s : State) : Host.Outcome State Fault Refusal :=
  run (.xori f) s fun s => immed s f 1 (· ^^^ ·)

/-- AND (R130). -/
def execAnd (f : LogicR) (s : State) : Host.Outcome State Fault Refusal :=
  run (.and f) s fun s => logic s f (· &&& ·)

/-- OR (R130). -/
def execOr (f : LogicR) (s : State) : Host.Outcome State Fault Refusal :=
  run (.or f) s fun s => logic s f (· ||| ·)

/-- XOR (R130). -/
def execXor (f : LogicR) (s : State) : Host.Outcome State Fault Refusal :=
  run (.xor f) s fun s => logic s f (· ^^^ ·)

/-- ANDN (R130). -/
def execAndn (f : LogicR) (s : State) : Host.Outcome State Fault Refusal :=
  run (.andn f) s fun s => logic s f (fun x y => x &&& ~~~y)

/-- ORN (R130). -/
def execOrn (f : LogicR) (s : State) : Host.Outcome State Fault Refusal :=
  run (.orn f) s fun s => logic s f (fun x y => x ||| ~~~y)

/-- SHL (R130). -/
def execShl (f : LogicR) (s : State) : Host.Outcome State Fault Refusal :=
  run (.shl f) s fun s => shift s f .shl

/-- SHR (R130). -/
def execShr (f : LogicR) (s : State) : Host.Outcome State Fault Refusal :=
  run (.shr f) s fun s => shift s f .shr

/-- SAR (R130). -/
def execSar (f : LogicR) (s : State) : Host.Outcome State Fault Refusal :=
  run (.sar f) s fun s => shift s f .sar

/-- ROL (R130). -/
def execRol (f : LogicR) (s : State) : Host.Outcome State Fault Refusal :=
  run (.rol f) s fun s => shift s f .rol

/-- ROR (R130). -/
def execRor (f : LogicR) (s : State) : Host.Outcome State Fault Refusal :=
  run (.ror f) s fun s => shift s f .ror

/-- SHLI (R131). -/
def execShli (f : ShiftI) (s : State) : Host.Outcome State Fault Refusal :=
  run (.shli f) s fun s => shiftImm s f .shl

/-- SHRI (R131). -/
def execShri (f : ShiftI) (s : State) : Host.Outcome State Fault Refusal :=
  run (.shri f) s fun s => shiftImm s f .shr

/-- SARI (R131). -/
def execSari (f : ShiftI) (s : State) : Host.Outcome State Fault Refusal :=
  run (.sari f) s fun s => shiftImm s f .sar

/-- RORI (R131). -/
def execRori (f : ShiftI) (s : State) : Host.Outcome State Fault Refusal :=
  run (.rori f) s fun s => shiftImm s f .ror

/-- POPC (R131). -/
def execPopc (f : UnaryR) (s : State) : Host.Outcome State Fault Refusal :=
  run (.popc f) s fun s => scalar1 s f.d f.a f.e 1 fun x => BitVec.ofNat 64 (popCount x)

/-- CLZ (R131). -/
def execClz (f : UnaryR) (s : State) : Host.Outcome State Fault Refusal :=
  run (.clz f) s fun s => scalar1 s f.d f.a f.e 1 fun x => BitVec.ofNat 64 (leadingZeros x)

/-- CMP (R132). -/
def execCmp (f : CmpR) (s : State) : Host.Outcome State Fault Refusal :=
  run (.cmp f) s fun s => scalar2 s f.d f.a f.e f.b f.f 1 fun x y => if condHolds f.cond.toNat x y then 1 else 0

/-- CMPI (R132). -/
def execCmpi (f : CmpC) (s : State) : Host.Outcome State Fault Refusal :=
  run (.cmpi f) s fun s => scalar1 s f.d f.a f.e 1 fun x => if condHolds f.cond.toNat x (f.imm.signExtend 64) then 1 else 0

/-- CMPP (R132). -/
def execCmpp (f : CmppR) (s : State) : Host.Outcome State Fault Refusal :=
  run (.cmpp f) s fun s => do
    let x ← srcS s f.a f.e
    let y ← srcS s f.b f.f
    setPred s f.p (condHolds f.cond.toNat x y) (taintS s f.a ||| taintS s f.b)

/-- CMPPI (R132). -/
def execCmppi (f : CmppC) (s : State) : Host.Outcome State Fault Refusal :=
  run (.cmppi f) s fun s => do
    let x ← srcS s f.a f.e
    setPred s f.p (condHolds f.cond.toNat x (f.imm.signExtend 64)) (taintS s f.a)

/-- SEL (R133). -/
def execSel (f : SelR) (s : State) : Host.Outcome State Fault Refusal :=
  run (.sel f) s fun s => do
    let x ← srcS s f.a f.e
    let y ← srcS s f.b f.f
    let p ← srcP s f.p.toNat
    dstS s f.d
    .ok (s.writeS f.d (if p.getLsbD 0 then x else y) (taintS s f.a ||| taintS s f.b ||| (s.pre.pReg f.p.toNat).taint) 1)

/-- CMOV (R133): the old destination is a source in both cases. -/
def execCmov (f : BinR) (s : State) : Host.Outcome State Fault Refusal :=
  run (.cmov f) s fun s => do
    let x ← srcS s f.a f.e
    let y ← srcS s f.b f.f
    scalarUpd s f.d (taintS s f.a ||| taintS s f.b) fun old => if y ≠ 0 then x else old

/-- LEA (R129). -/
def execLea (f : LeaR) (s : State) : Host.Outcome State Fault Refusal :=
  run (.lea f) s fun s => scalar2 s f.d f.a f.e f.b f.f 1 fun x y => x + y <<< f.sh.toNat

/-- BFX (R134). -/
def execBfx (f : BinR) (s : State) : Host.Outcome State Fault Refusal :=
  run (.bfx f) s fun s => scalar2 s f.d f.a f.e f.b f.f 1 fun x y => bfExtract x (ofsOf y) (widOf y) false

/-- BFXS (R134). -/
def execBfxs (f : BinR) (s : State) : Host.Outcome State Fault Refusal :=
  run (.bfxs f) s fun s => scalar2 s f.d f.a f.e f.b f.f 1 fun x y => bfExtract x (ofsOf y) (widOf y) true

/-- BFXI (R134): the F form has no empty-action bit. -/
def execBfxi (f : FieldF) (s : State) : Host.Outcome State Fault Refusal :=
  run (.bfxi f) s fun s => scalar1 s f.d f.a false 1 fun x => bfExtract x f.ofs.toNat f.wid.toNat false

/-- BFXSI (R134): the F form has no empty-action bit. -/
def execBfxsi (f : FieldF) (s : State) : Host.Outcome State Fault Refusal :=
  run (.bfxsi f) s fun s => scalar1 s f.d f.a false 1 fun x => bfExtract x f.ofs.toNat f.wid.toNat true

/-- BFI (R134). -/
def execBfi (f : BinR) (s : State) : Host.Outcome State Fault Refusal :=
  run (.bfi f) s fun s => do
    let x ← srcS s f.a f.e
    let y ← srcS s f.b f.f
    scalarUpd s f.d (taintS s f.a ||| taintS s f.b) fun old => bfInsert old x (ofsOf y) (widOf y)

/-- BFII (R134). -/
def execBfii (f : FieldF) (s : State) : Host.Outcome State Fault Refusal :=
  run (.bfii f) s fun s => do
    let x ← srcS s f.a false
    scalarUpd s f.d (taintS s f.a) fun old => bfInsert old x f.ofs.toNat f.wid.toNat

/-- MOVI (R135). -/
def execMovi (d : BitVec 6) (imm : BitVec 18) (s : State) : Host.Outcome State Fault Refusal :=
  run (.movi d imm) s fun s => do
    dstS s d
    .ok (s.writeS d (imm.signExtend 64) 0 1)

/-- MOVL (R135). -/
def execMovl (d : BitVec 6) (lit : BitVec 64) (s : State) : Host.Outcome State Fault Refusal :=
  run (.movl d lit) s fun s => do
    dstS s d
    .ok (s.writeS d lit 0 1)

/-- MFCR (R136). -/
def execMfcr (f : CrK) (s : State) : Host.Outcome State Fault Refusal :=
  run (.mfcr f) s fun s => moveFromCr s f.r f.crn.toNat

/-- MTCR (R136). -/
def execMtcr (f : CrK) (s : State) : Host.Outcome State Fault Refusal :=
  run (.mtcr f) s fun s => moveToCr s f.r f.e f.crn.toNat

/-- TCLR (R137): only the mask; an empty register stays empty. In exposed mode it is the later write of the mask: results
due by its own cycle lose theirs (R111). -/
def execTclr (d : BitVec 6) (s : State) : Host.Outcome State Fault Refusal :=
  run (.tclr d) s fun s =>
    .ok (s.upd fun c => { c with
      live := c.live.setS d.toNat { (c.live.sReg d.toNat) with taint := 0 }
      pipe := c.pipe.map fun w => if w.due ≤ s.now + 1 ∧ w.dest = some (.s d.toNat) then { w with taint := 0 } else w })

/-- TCLR.C (R137). -/
def execTclrC (s : State) : Host.Outcome State Fault Refusal :=
  run .tclrC s fun s => .ok (s.live fun r => { r with ct := 0 })

/-- TGET (R137): reads OPA only for its taint. -/
def execTget (f : UnaryR) (s : State) : Host.Outcome State Fault Refusal :=
  run (.tget f) s fun s => do
    dstS s f.d
    .ok (s.writeS f.d (BitVec.ofNat 64 ((taintS s f.a).toNat + s.pre.ct.toNat * 2 ^ 16 + s.prior.core.pendingMask.toNat * 2 ^ 32)) 0 1)

/-- The token of a mask (R120). -/
def Core.token (c : Core) (m : Taint) : DWord :=
  BitVec.ofNat 64 (packElems 4 ((List.range 16).map fun j => if m.getLsbD j then 8 + (c.tag j).gen.toNat else 0))

/-- The tags a token names that are not Free and whose generation matches (R120). -/
def Core.tokenTags (c : Core) (v : DWord) : Taint :=
  tagMask ((List.range 16).filter fun j =>
    v.getLsbD (4 * j + 3) && decide ((c.tag j).st ≠ .free) && decide ((c.tag j).gen.toNat = bits v (4 * j + 2) (4 * j)))

/-- TSPILL (R137, R120). -/
def execTspill (f : UnaryR) (s : State) : Host.Outcome State Fault Refusal :=
  run (.tspill f) s fun s => do
    dstS s f.d
    let m := taintS s f.a
    .ok ((s.writeS f.d (s.prior.core.token m) 0 1).upd fun c =>
      (List.range 16).foldl (fun c j => if m.getLsbD j then c.setTag j { c.tag j with hold := true } else c) c)

/-- TFILL (R137, R120); a tag that the group's own collapse has freed enters no mask (R119). -/
def execTfill (f : BinR) (s : State) : Host.Outcome State Fault Refusal :=
  run (.tfill f) s fun s => do
    let x ← srcS s f.a f.e
    let y ← srcS s f.b f.f
    dstS s f.d
    .ok (s.writeS f.d x (taintS s f.a ||| taintS s f.b ||| s.prior.core.tokenTags y &&& s.core.tokenTags y) 1)

end Sys2Proof.Machine
end

