-- ==== Sys2Proof/Machine/System.lean ====
section
/-! DEFINITION. The system instructions: code visibility (R277), translation and shootdowns (R286 to R291), privileged control-register moves, `WAITI` and `DBELL` (R458), and SHOOTDOWN_COMPLETE, PAGE_WALK_COMPLETE. -/

namespace Sys2Proof.Machine

/-! ## Code visibility (R277) -/

/-- `CWB`: no translation, whatever the range. -/
def cwb (s : State) (f : SysR) : Eff State := do
  let _ ← srcS s f.a f.e
  let _ ← srcS s f.b f.e
  s.holdFor .stores

/-- `IINV`: lines of the L1 instruction cache that the range [b, b + l) meets, clipped at 2^56. -/
def iinv (s : State) (f : SysR) : Eff State := do
  let b ← srcS s f.a f.e
  let l ← srcS s f.b f.e
  let lo := b.toNat
  let hi := min (lo + l.toNat) (2 ^ 56)
  .ok (s.upd fun c => { c with l1i := c.l1i.filter fun (x : L1Line) => !decide (lo < x.va / 128 * 128 + 128 ∧ x.va / 128 * 128 < hi ∧ lo < hi) })

/-! ## Translation (R286, R458) -/

/-- Entries of a walk or TLB in the layout of `TLBPROBE`. -/
def TlbEnt.probe (e : TlbEnt) (va : Nat) : Nat :=
  e.phys va / 4096 % 2 ^ 40 * 4096 + e.size * 128 + e.dev.toNat * 32 + e.x.toNat * 16 + e.w.toNat * 8 + e.r.toNat * 4 + 1

/-- What `TLBPROBE` answers: the TLBs, else a walk. The spec states no value where the walk's own read fails (log 1). -/
def State.probe (s : State) (va : Nat) : Nat :=
  let t := s.tsid s.cur
  if 2 ^ 56 ≤ va then 0
  else match (s.core.tlb ++ (s.dieAt (dieOf s.cur)).l2tlb).find? fun e => e.covers t va with
    | some e => e.probe va
    | none => match s.walkNow (dieOf s.cur) t va with
      | .ok e => e.probe va
      | .error (.reason n) => n * 512
      | .error _ => (Config.freeWord s.free).toNat

/-- `TLBPROBE`. -/
def tlbprobe (s : State) (f : SysR) : Eff State := do
  let a ← srcS s f.b f.e
  dstS s f.a
  .ok (State.produce { s with free := s.free + 1 } (.s f.a.toNat) (s.prior.probe a.toNat) 0 4 0)

/-- `TLBWR`: the entry replaces that of its page. -/
def tlbwr (s : State) (f : SysR) : Eff State := do
  let a ← srcS s f.a f.e
  let e ← srcS s f.b f.e
  need (decide (bits e 63 55 = 0 ∧ bits e 54 52 < 6 ∧ bits e 11 9 = 0 ∧ bits e 6 6 = 0 ∧ bits e 1 0 = 1)) (illegalOperand s)
  let n := pageBytes (bits e 8 7)
  let x : TlbEnt := { tsid := bits e 54 52, vpage := a.toNat / n, size := bits e 8 7, pa := bits e 51 12 * 4096 / n * n
                      r := e.getLsbD 2, w := e.getLsbD 3, x := e.getLsbD 4, dev := e.getLsbD 5 }
  .ok ((s.upd fun c => { c with tlb := tlbPut 192 c.tlb x }).updDie (dieOf s.cur) fun y => y.knows x)

/-- `TLBINV`: the core's earlier accesses are performed, then the shootdown runs and the group waits for its end. -/
def tlbinv (s : State) (f : SysR) : Eff State := do
  let a ← srcS s f.a f.e
  let t ← srcS s f.b f.e
  need (decide (t.toNat < 6)) (illegalOperand s)
  s.clear (.shoot t.toNat a.toNat)
  .ok (s.leave (.shoot t.toNat a.toNat))

/-! ## Shootdowns (R290, R291) -/

/-- The page of a shootdown at a die: its start and bytes, and the physical frames it names, by the entries held, the present
walk, and the translations the die has used since the last shootdown of the page, which stand where it is mapped no more (R291); else
4 KiB. A page of device registers has no frame. -/
def State.shootPage (s : State) (d tsid va : Nat) : (Nat × Nat) × List (Nat × Nat) :=
  let held := ((s.dieAt d).known ++ (s.dieAt d).l2tlb ++ (s.cores.filter fun (p : Nat × Core) => decide (p.1 / 128 = d)).flatMap fun (p : Nat × Core) => p.2.tlb).filter fun e => e.covers tsid va
  let es := held ++ match s.walkNow d tsid va with
    | .ok e => [e]
    | .error _ => []
  let n := (es.map fun (e : TlbEnt) => pageBytes e.size).foldl max 4096
  ((va / n * n, n), ((es.filter fun e => !e.dev).map fun (e : TlbEnt) => (e.pa, pageBytes e.size)).eraseDups)

/-- Two ranges, start and length, share a byte. -/
def rangesMeet (a b : Nat × Nat) : Bool := decide (a.1 < b.1 + b.2 ∧ b.1 < a.1 + a.2)

def piecesIn (ps : List Piece) (page : Nat × Nat) : Bool := ps.any fun p => rangesMeet (p.va, p.len) page

/-- Step 1 at a die: TLB entries of the page go, and what walks have answered about it; its walks in flight start again. What
translated by the entries is noted, and cores that withhold an entry to the page take a checkpoint at their next group. -/
def State.shootBegin (s : State) (x : Shoot) (d : Nat) : State :=
  let pf := s.shootPage d x.tsid x.va
  let page := pf.1
  let here := s.cores.filter fun (p : Nat × Core) => decide (p.1 / 128 = d)
  let mine := here.filter fun (p : Nat × Core) => decide (s.tsid p.1 = x.tsid)
  let toPage (e : WEntry) : Bool := match e.k with
    | .store ps _ _ _ => decide (e.tsid = x.tsid) && piecesIn ps page
    | _ => false
  let a : ShootDie :=
    { die := d, page := page, frames := pf.2
      loads := mine.flatMap fun (p : Nat × Core) => (p.2.loads.filter fun (l : Load) => piecesIn l.pieces page).map fun (l : Load) => (p.1, l.tag, (p.2.tag l.tag).gen.toNat)
      stores := here.flatMap fun (p : Nat × Core) => (p.2.wb.filter toPage).map fun (e : WEntry) => (p.1, e.serial)
      colls := (s.insts.filter fun (i : Inst) => i.members.any fun (m : Member) =>
        decide (m.u / 128 = d ∧ m.tsid = x.tsid) && !m.done && rangesMeet (m.buf, m.count * m.size) page).map fun (i : Inst) => i.id
      copies := (s.dieAt d).copyq.flatMap fun (c : Copy) => match c.dst with
        | .glob t va => if t = x.tsid then (c.buf.filter fun b => rangesMeet (va + b.1, b.2.2.length) page).map fun b => (c.id, b.1) else []
        | _ => [] }
  let drop (l : List TlbEnt) : List TlbEnt := l.filter fun e => !e.covers x.tsid x.va
  let ofPage (n : Nat) : Bool := rangesMeet (n * 4096, 4096) page
  let s := s.updDie d fun y => { y with
    l2tlb := drop y.l2tlb
    known := drop y.known
    walks := y.walks.map fun (w : Walk) => if w.tsid = x.tsid ∧ ofPage (w.va / 4096) then { w with level := 4, root := w.root.map fun _ => s.rootOf d w.tsid } else w }
  let s := s.updAll (here.map fun (p : Nat × Core) => p.1) fun c => { c with
    tlb := drop c.tlb, denied := c.denied.filter fun n => !(decide (n.1 = x.tsid) && ofPage n.2.1) }
  let s := s.updAll ((here.filter fun (p : Nat × Core) => p.2.wb.any fun e => toPage e && !e.released).map fun (p : Nat × Core) => p.1) fun c => { c with ckNext := true }
  { s with shoots := s.shoots.map fun (y : Shoot) =>
      if y.id = x.id then { y with dies := y.dies.filter (fun n => !decide (n = d)), active := a :: y.active } else y }

/-- Step 2 is over at a die. -/
def State.shootSettled (s : State) (a : ShootDie) : Bool :=
  a.loads.all (fun l => !((s.coreAt l.1).loads.any fun (x : Load) => decide (x.tag = l.2.1 ∧ ((s.coreAt l.1).tag x.tag).gen.toNat = l.2.2))) &&
  a.stores.all (fun e => !((s.coreAt e.1).wb.any fun (x : WEntry) => decide (x.serial = e.2))) &&
  a.copies.all (fun p => !((s.dieAt a.die).copyq.any fun (c : Copy) => decide (c.id = p.1) && c.buf.any fun b => decide (b.1 = p.2))) &&
  a.colls.all fun n => !(s.insts.any fun (i : Inst) => decide (i.id = n) && i.abort.isNone && i.members.any fun (m : Member) => !m.done)

/-- Steps 3 to 5 at a die: pins, L1 lines of the page, whatever address they were filled by, and tag-table entries. -/
def State.shootFinish (s : State) (x : Shoot) (a : ShootDie) : State :=
  let hit (line : Nat) : Bool := a.frames.any fun f => decide (f.1 ≤ line * 128 ∧ line * 128 < f.1 + f.2)
  let y := s.dieAt a.die
  let lost := (y.pins.filter fun p => hit p.1).flatMap fun p => p.2
  let s := s.updDie a.die fun z => { z with
    pins := z.pins.filter fun p => !hit p.1 }
  let keep (l : List L1Line) : List L1Line :=
    l.filter fun z => !((decide (z.tsid = x.tsid) && rangesMeet (z.va, z.bytes.length) a.page) || a.frames.any fun f => rangesMeet (z.pa, z.bytes.length) f)
  let s := s.updAll ((s.cores.filter fun (p : Nat × Core) => decide (p.1 / 128 = a.die)).map fun (p : Nat × Core) => p.1) fun c => { c with
    l1 := keep c.l1, l1i := keep c.l1i
    tagTab := Tbl.mapV (fun (e : TagEnt) => if rangesMeet (e.key, 64 * e.len) a.page then { e with s := true } else e) c.tagTab }
  { s with shoots := s.shoots.map fun (z : Shoot) =>
      if z.id = x.id then { z with
        active := z.active.filter fun (b : ShootDie) => !decide (b.die = a.die)
        lost := z.lost ++ lost.eraseDups.map fun n => a.die * 128 + n } else z }

/-- A die takes shootdowns one at a time, in order of arrival (R291). -/
def State.shootTurn (s : State) (x : Shoot) (d : Nat) : Bool :=
  (s.shoots.takeWhile fun (y : Shoot) => !decide (y.id = x.id)).all fun (y : Shoot) =>
    !y.dies.contains d && !y.active.any fun (a : ShootDie) => decide (a.die = d)

/-- A shootdown proceeds at every die as far as it can; with every die finished, PIN_LOST is set and its `TLBINV` may retire
(R208). -/
def State.shootProceed (s : State) (x : Shoot) : State :=
  let s := x.dies.foldl (fun s d => if s.shootTurn x d then s.shootBegin x d else s) s
  let now := match s.shoots.find? fun (y : Shoot) => decide (y.id = x.id) with
    | some y => y
    | none => x
  let s := now.active.foldl (fun s a => if s.shootSettled a then s.shootFinish x a else s) s
  match s.shoots.find? fun (y : Shoot) => decide (y.id = x.id) with
  | some y =>
    if y.dies.isEmpty && y.active.isEmpty then
      State.updAt (State.updAll { s with shoots := s.shoots.filter fun (z : Shoot) => !decide (z.id = x.id) } y.lost fun c => { c with pinLost := c.pinLost || !c.pinWrote }) x.u
        fun c => if c.shoot = .flying x.id then { c with shoot := .applied } else c
    else s
  | none => s

/-! ## Walks (R286, R287) -/

/-- A walk that has started ends: a leaf fills the L2 TLB and the L1 TLB of every requester; what the walk denies, its
requesters learn. The next walk starts. -/
def State.endWalk (s : State) (d : Nat) (w : Walk) (table : Nat) : State :=
  let s := (s.updDie d fun x => { x with walks := x.walks.filter fun (y : Walk) => !decide (y.id = w.id) }).startWalks d
  let note (n : Nat) (c : Core) : Core := { c with denied := (w.tsid, w.va / 4096, n) :: c.denied }
  match s.walkFrom d w.tsid w.va w.level table with
  | .ok e => (s.l2Fill d e).updAll w.us fun c => note 2 { c with tlb := tlbPut 192 c.tlb e }
  | .error e => s.updAll w.us (note (errDenial e))

/-! ## Interrupts and doorbells (R458) -/

/-- `WAITI`: the implicit checkpoint, then an unmasked pending source. -/
def waiti (s : State) : Eff State := do
  need (decide (s.core.irqPend &&& s.core.irqMask ≠ 0)) (.wait .plain true false)
  s.needCk

/-- `DBELL`: withheld, a release. -/
def dbell (s : State) (r : BitVec 6) (ea : Bool) : Eff State := do
  let v ← srcS s r ea
  need (v.getLsbD 63) (illegalOperand s)
  s.withhold [.doorbell (unitOfId v)] s.core.pendingMask 0

/-! ## Meanings -/

/-- CWB (R277, R458). -/
def execCwb (f : SysR) (s : State) : Host.Outcome State Fault Refusal := run (.cwb f) s fun s => cwb s f

/-- IINV (R277, R458). -/
def execIinv (f : SysR) (s : State) : Host.Outcome State Fault Refusal := run (.iinv f) s fun s => iinv s f

/-- FBAR (R277, R458): what was fetched before it is discarded. -/
def execFbar (s : State) : Host.Outcome State Fault Refusal := run .fbar s fun s => .ok (s.upd fun c => { c with ifetch := [] })

/-- TLBINV (R289, R458). -/
def execTlbinv (f : SysR) (s : State) : Host.Outcome State Fault Refusal := run (.tlbinv f) s fun s => tlbinv s f

/-- TLBINVA (R458). -/
def execTlbinva (s : State) : Host.Outcome State Fault Refusal := run .tlbinva s fun s => .ok (s.upd fun c => { c with tlb := [] })

/-- TLBWR (R458). -/
def execTlbwr (f : SysR) (s : State) : Host.Outcome State Fault Refusal := run (.tlbwr f) s fun s => tlbwr s f

/-- TLBPROBE (R458). -/
def execTlbprobe (f : SysR) (s : State) : Host.Outcome State Fault Refusal := run (.tlbprobe f) s fun s => tlbprobe s f

/-- PMFCR (R458). -/
def execPmfcr (f : CrK) (s : State) : Host.Outcome State Fault Refusal := run (.pmfcr f) s fun s => moveFromCr s f.r f.crn.toNat

/-- PMTCR (R458). -/
def execPmtcr (f : CrK) (s : State) : Host.Outcome State Fault Refusal := run (.pmtcr f) s fun s => moveToCr s f.r f.e f.crn.toNat

/-- WAITI (R458). -/
def execWaiti (s : State) : Host.Outcome State Fault Refusal := run .waiti s waiti

/-- DBELL (R458). -/
def execDbell (r : BitVec 6) (ea : Bool) (s : State) : Host.Outcome State Fault Refusal := run (.dbell r ea) s fun s => dbell s r ea

/-- SHOOTDOWN_COMPLETE (R290): shootdown `u`. -/
def execShootdownComplete (s : State) : Host.Outcome State Fault Refusal :=
  match s.shoots.find? fun (x : Shoot) => decide (x.id = s.ev.u) with
  | some x => happen s true (s.shootProceed x)
  | none => happen s false s

/-- PAGE_WALK_COMPLETE (R287): walk `k` of die `u`, which has started. -/
def execPageWalkComplete (s : State) : Host.Outcome State Fault Refusal :=
  match (s.dieAt s.ev.u).walks.find? fun (w : Walk) => decide (w.id = s.ev.k) with
  | some w => match w.at with
    | some t => happen s true (s.endWalk s.ev.u w t)
    | none => happen s false s
  | none => happen s false s

end Sys2Proof.Machine
end

