-- ==== Sys2Proof/Machine/Vector.lean ====
section
/-! DEFINITION. The vector-slot instructions on registers and predicates (R147 to R164); those on tiles and result queues stand in Matrix. -/

namespace Sys2Proof.Machine

/-! ## Elements -/

/-- The floating-point result of an exact value with the conditions of forming it (R147). -/
def fpTo (s : State) (f : VWord) (v : Fv × Fl) : Nat × Fl :=
  let r := (fmtOf f.typ.toNat).round (roundCtl s f) v.1
  (r.1, v.2 ||| r.2)

/-- A floating-point element as a value, flushed in exposed mode (R59). -/
def fpOf (s : State) (f : VWord) (x : Nat) : Fv := (fmtOf f.typ.toNat).read s.pre.exposed x

/-- Elementwise arithmetic (R147): `iop` on integers and `fop` on floating-point values, with their latencies. -/
def varith (s : State) (f : VWord) (u : Use) (li lf : Nat) (iop : Int → Int → Int → Int) (fop : Fv → Fv → Fv → Fv × Fl) : Eff State :=
  let t := f.typ.toNat
  let w := typeW t
  elementwise s f u 0 (if typeIsFp t then lf else li) 1 fun a b c i =>
    let x := elem w a i
    let y := elem w b i
    let z := elem w c i
    if typeIsFp t then fpTo s f (fop (fpOf s f x) (fpOf s f y) (fpOf s f z))
    else (intTo t f.sat (iop (intOf t x) (intOf t y) (intOf t z)), 0)

def useA : Use := { a := true }
def useAB : Use := { a := true, b := true }
def useABC : Use := { a := true, b := true, c := true }

/-- |x| of a value that is no NaN (R147). -/
def Fv.abs : Fv → Fv
  | .nan => .nan
  | .inf _ => .inf false
  | .fin _ m e => .fin false m e

/-- Elementwise operation on bit patterns (R148, R151): `op` takes the width. -/
def vbits (s : State) (f : VWord) (u : Use) (op : Nat → Nat → Nat → Nat) : Eff State :=
  let w := typeW f.typ.toNat
  elementwise s f u 0 2 1 fun a b _ i => (op w (elem w a i) (elem w b i) % 2 ^ w, 0)

/-- Conversion of one element from type src to type dst (R155, R56). -/
def convert (c : RoundCtl) (dst src x : Nat) : Nat × Fl :=
  if typeIsFp dst then
    (fmtOf dst).round c (if typeIsFp src then (fmtOf src).read c.flush x else Fv.ofInt false (intOf src x) 0)
  else if typeIsFp src then
    let r := Fv.toInt c.rm (intLo dst) (intHi dst) ((fmtOf src).read c.flush x)
    (intTo dst false r.1, r.2)
  else (intTo dst (c.sat && decide (typeW dst ≤ typeW src)) (intOf src x), 0)

/-- `VWIDEN`, `VWIDEN4`: q destinations; element j of VA is element j / q of register j mod q (R155). -/
def widen (s : State) (f : VWord) (q : Nat) : Eff State :=
  repeats s f 4 1 fun r => do
    let dst := f.typ.toNat
    let src := f.imm.toNat % 16
    let a ← r.src true (f.va.toNat + r.k) f.ea
    let part (p : Nat) := (List.range (typeN dst)).map fun i => convert (roundCtl s f) dst src (elem (typeW src) a.val (q * i + p))
    let ps := (List.range q).map part
    .ok { outs := (List.range q).map fun p => (f.vd.toNat + q * r.k + p, vecOf (typeW dst) ((part p).map Prod.fst))
          taint := a.taint, reads := a.reads
          fl := ps.foldl (fun z l => l.foldl (fun z x => z ||| x.2) z) 0 }

/-- `VNARROW`, `VNARROW4`: q sources (R155). -/
def narrow (s : State) (f : VWord) (q : Nat) : Eff State :=
  repeats s f 4 1 fun r => do
    let dst := f.typ.toNat
    let src := f.imm.toNat % 16
    let vs ← (List.range q).mapM fun p => r.src true (f.va.toNat + q * r.k + p) f.ea
    let es := (List.range (typeN dst)).map fun j =>
      convert (roundCtl s f) dst src (elem (typeW src) ((vs.map Src.val).getD (j % q) 0) (j / q))
    .ok { outs := [(f.vd.toNat + r.k, vecOf (typeW dst) (es.map Prod.fst))]
          taint := vs.foldl (fun z x => z ||| x.taint) 0, reads := vs.flatMap Src.reads
          fl := es.foldl (fun z x => z ||| x.2) 0 }

/-- `VZIP`, `VUNZIP`: the pair VD, VD + 1 from the elements of VA and VB (R161). -/
def pairwise (s : State) (f : VWord) (pick : List Nat → List Nat → List Nat × List Nat) : Eff State :=
  repeats s f 3 1 fun r => do
    let w := typeW f.typ.toNat
    let a ← r.src true (f.va.toNat + r.k) f.ea
    let b ← r.src true (f.vb.toNat + r.k) f.eb
    let p := pick (elems w (4096 / w) a.val) (elems w (4096 / w) b.val)
    .ok { outs := [(f.vd.toNat + 2 * r.k, vecOf w p.1), (f.vd.toNat + 2 * r.k + 1, vecOf w p.2)]
          taint := a.taint ||| b.taint, reads := a.reads ++ b.reads }

/-- a0, b0, a1, b1, … -/
def interleave : List Nat → List Nat → List Nat
  | x :: a, y :: b => x :: y :: interleave a b
  | _, _ => []

/-- The elements of even and of odd index. -/
def split2 : List Nat → List Nat × List Nat
  | x :: y :: t => let r := split2 t; (x :: r.1, y :: r.2)
  | _ => ([], [])

/-- A predicate result with latency 2 (R152). -/
def predResult (s : State) (d : BitVec 6) (v : PReg) (t : Taint) : Eff State := do
  destOk s (.p d.toNat)
  .ok (s.result (.p d.toNat) v.toNat t 2 0 true)

def pred2 (s : State) (f : VWord) (op : PReg → PReg → PReg) : Eff State := do
  let a ← predOf s true (f.va.setWidth 3)
  let b ← predOf s true (f.vb.setWidth 3)
  predResult s f.vd (op a.1 b.1) (a.2 ||| b.2)

def pred1 (s : State) (f : VWord) (op : PReg → PReg) : Eff State := do
  let a ← predOf s true (f.va.setWidth 3)
  predResult s f.vd (op a.1) a.2

/-- A vector comparison of two elements (R83, R150, R58). -/
def vcmpHolds (s : State) (f : VWord) (x y : Nat) : Bool :=
  let t := f.typ.toNat
  let c := f.imm.toNat
  if typeIsFp t then
    let a := fpOf s f x
    let b := fpOf s f y
    let un := a.isNan || b.isNan
    match c with
    | 0 => Fv.eq a b
    | 1 => !Fv.eq a b
    | 2 => Fv.lt a b
    | 3 => !un && !Fv.lt a b
    | 4 => !un && !Fv.lt b a
    | 5 => Fv.lt b a
    | _ => un
  else
    let a := intOf t x
    let b := intOf t y
    match c with
    | 0 => decide (a = b)
    | 1 => decide (a ≠ b)
    | 2 => decide (a < b)
    | 3 => decide (b ≤ a)
    | 4 => decide (a ≤ b)
    | 5 => decide (b < a)
    | 10 => decide (x &&& y ≠ 0)
    | _ => decide (x &&& y = 0)

/-- `VCMP` (R150): every bit of an active element is its result; the bits of the others are kept. -/
def vcmp (s : State) (f : VWord) : Eff State := do
  let w := typeW f.typ.toNat
  let r : Rep := { s := s }
  let a ← r.src true f.va.toNat f.ea
  let b ← r.srcB true f w
  let p ← predOf s f.pen f.pg
  let old ← predOf s f.pen (f.vd.setWidth 3)
  let g := w / 8
  let whole (i : Nat) : Nat :=
    if activeIn p.1 w i then (if vcmpHolds s f (elem w a.val i) (elem w b.val i) then 2 ^ g - 1 else 0)
    else old.1.toNat / 2 ^ (g * i) % 2 ^ g
  predResult s f.vd (BitVec.ofNat 512 (packElems g ((List.range (4096 / w)).map whole)))
    (a.taint ||| b.taint ||| p.2 ||| old.2)

/-- A reduction (R158, R66, R67): a long-latency producer of a scalar register. -/
def reduce (s : State) (f : VWord) (op : RedOp) : Eff State := do
  let t := f.typ.toNat
  let w := typeW t
  let a ← (Rep.src { s := s } true f.va.toNat f.ea)
  let p ← predOf s f.pen f.pg
  destOk s (.s f.vd.toNat)
  let flush := s.pre.exposed
  let act (i : Nat) := activeIn p.1 w i
  let es := (List.range (4096 / w)).map fun i => (act i, elem w a.val i)
  let r : DWord × Fl :=
    if typeIsFp t then
      let leaf (e : Bool × Nat) : Nat :=
        if e.1 then (if t = 12 then e.2 else (Fmt.f32.round {} ((fmtOf t).read flush e.2)).1) else op.fpIdent .f32
      let x := treeReduce (op.fpRound .f32 flush) (op.fpIdent .f32) (es.map leaf)
      (BitVec.ofNat 64 x.1, x.2)
    else
      let uns := !typeSigned t
      let leaf (e : Bool × Nat) : BitVec 32 := if e.1 then BitVec.ofInt 32 (intOf t e.2) else op.intIdent uns
      let x := treeReduce (op.intRound uns) (op.intIdent uns) (es.map leaf)
      (if uns then x.1.setWidth 64 else x.1.signExtend 64, 0)
  .ok ((s.produce (.s f.vd.toNat) r.1.toNat (a.taint ||| p.2) (5 + treeDepth (4096 / w)) r.2 true).upd fun c =>
    { c with vxFree := s.now + 2 })

/-- `VBPACK` (R156). -/
def bfpPack (s : State) (f : VWord) : Eff State :=
  repeats s f 6 4 fun r => do
    let src := f.imm.toNat % 16
    let m := f.imm.toNat / 16
    let a ← r.src true (f.va.toNat + r.k) f.ea
    let xs := (elems (typeW src) (typeN src) a.val).map fun x => (fmtOf src).read s.pre.exposed x
    let bs := (chunks 16 xs.length xs).map fun b => bfpQuantise b m (Rm.ofCode f.rm.toNat)
    .ok { outs := [(f.vd.toNat + r.k, vecOf m (bs.flatMap fun b => b.2.1)), (f.vc.toNat + r.k, vecOf 8 (bs.map fun b => b.1))]
          taint := a.taint, reads := a.reads, fl := bs.foldl (fun z b => z ||| b.2.2) 0 }

/-- `VBUNPK` (R157): element i of a block field of m-bit mantissas is the i-th m-bit field of VA. -/
def bfpUnpack (s : State) (f : VWord) : Eff State :=
  let m := f.imm.toNat / 16
  elementwise s f { a := true, c := true } 0 6 4 fun a _ c i => fpTo s f (bfpRead m (elem m a i) (elem 8 c (i / 16)), 0)

/-- A special function (R163). -/
def special (s : State) (f : VWord) (op : Sp) : Eff State :=
  let t := f.typ.toNat
  elementwise s f useA 0 8 2 fun a _ _ i => op.eval (fmtOf t) (roundCtl s f) (elem (typeW t) a i)

/-- `VDOT4` (R149). -/
def dot4 (s : State) (f : VWord) : Eff State :=
  let byteOf (u : Bool) (x : VReg) (j : Nat) : Int := if u then (elem 8 x j : Int) else sintN 8 (elem 8 x j)
  elementwise s f useABC 0 4 1 fun a b c i =>
    let sum := (List.range 4).foldl (fun z j =>
      z + byteOf (f.imm.getLsbD 0) a (4 * i + j) * byteOf (f.imm.getLsbD 1) b (4 * i + j)) (intOf f.typ.toNat (elem 32 c i))
    (intTo f.typ.toNat f.sat sum, 0)

/-- `VSEL` (R151). -/
def vselect (s : State) (f : VWord) : Eff State := do
  let w := typeW f.typ.toNat
  let q ← predOf s true (f.vc.setWidth 3)
  elementwise s f useAB q.2 2 1 fun a b _ i => (if activeIn q.1 w i then elem w a i else elem w b i, 0)

/-- `VPERM` (R159). -/
def vpermute (s : State) (f : VWord) : Eff State :=
  let w := typeW f.typ.toNat
  elementwise s f useAB 0 3 1 fun a b _ i =>
    let x := elem w b i
    (elem w a (if w = 8 then 256 * (i / 256) + x % 256 else x % (4096 / w)), 0)

/-- `VROT` (R160). -/
def vrotate (s : State) (f : VWord) : Eff State := do
  let w := typeW f.typ.toNat
  let n := 4096 / w
  let c ← if f.bs then (srcS s f.vb f.eb).map fun x => x.toNat % n else .ok f.imm.toNat
  elementwise s f useA (if f.bs then taintS s f.vb else 0) 3 1 fun a _ _ i => (elem w a ((i + c) % n), 0)

/-- `VBCST` (R162). -/
def vbroadcast (s : State) (f : VWord) : Eff State :=
  let w := typeW f.typ.toNat
  if f.bs then elementwise s f { b := true } 0 3 1 fun _ b _ i => (elem w b i, 0)
  else elementwise s f useA 0 3 1 fun a _ _ _ => (elem w a f.imm.toNat, 0)

/-- `VMOVS` (R162). -/
def vmoveS (s : State) (f : VWord) : Eff State := do
  let t := f.typ.toNat
  let w := typeW t
  let a ← (Rep.src { s := s } true f.va.toNat f.ea)
  dstS s f.vd
  let x := elem w a.val f.imm.toNat
  let v := if !typeIsFp t && typeSigned t then sextN w x else BitVec.ofNat 64 x
  .ok (s.result (.s f.vd.toNat) v.toNat a.taint 3 0 true)

/-- `VINS` (R162). -/
def vinsert (s : State) (f : VWord) : Eff State :=
  repeats s f 3 1 fun r => do
    let w := typeW f.typ.toNat
    let x ← srcS s f.vb f.eb
    let old ← r.src true (f.vd.toNat + r.k) false
    let es := (List.range (4096 / w)).map fun i => if i = f.imm.toNat then x.toNat % 2 ^ w else elem w old.val i
    .ok { outs := [(f.vd.toNat + r.k, vecOf w es)], taint := old.taint ||| taintS s f.vb, reads := old.reads }

/-- `PSET` (R152). -/
def pset (s : State) (f : VWord) : Eff State :=
  match f.imm.toNat with
  | 0 => predResult s f.vd 0 0
  | 1 => predResult s f.vd (BitVec.allOnes 512) 0
  | _ => do
    let v ← srcS s f.vb f.eb
    predResult s f.vd (BitVec.ofNat 512 (2 ^ Min.min v.toNat 512 - 1)) (taintS s f.vb)

/-- `PCNT` (R152). -/
def pcount (s : State) (f : VWord) : Eff State := do
  let a ← predOf s true (f.va.setWidth 3)
  destOk s (.s f.vd.toNat)
  .ok (s.produce (.s f.vd.toNat) ((List.range 512).filter fun i => a.1.getLsbD i).length a.2 3 0 true)

/-! ## Meanings -/

/-- VADD (R147). -/
def execVadd (f : VWord) (s : State) : Host.Outcome State Fault Refusal :=
  run (.vadd f) s fun s => varith s f useAB 2 4 (fun a b _ => a + b) (fun a b _ => Fv.add (Rm.ofCode f.rm.toNat) a b)

/-- VSUB (R147). -/
def execVsub (f : VWord) (s : State) : Host.Outcome State Fault Refusal :=
  run (.vsub f) s fun s => varith s f useAB 2 4 (fun a b _ => a - b) (fun a b _ => Fv.add (Rm.ofCode f.rm.toNat) a b.neg)

/-- VMUL (R147). -/
def execVmul (f : VWord) (s : State) : Host.Outcome State Fault Refusal :=
  run (.vmul f) s fun s => varith s f useAB 3 4 (fun a b _ => a * b) (fun a b _ => Fv.mul a b)

/-- VMULH (R147). -/
def execVmulh (f : VWord) (s : State) : Host.Outcome State Fault Refusal :=
  run (.vmulh f) s fun s => varith s f useAB 3 4 (fun a b _ => a * b / ((2 ^ typeW f.typ.toNat : Nat) : Int)) (fun a b _ => Fv.mul a b)

/-- VFMA (R147). -/
def execVfma (f : VWord) (s : State) : Host.Outcome State Fault Refusal :=
  run (.vfma f) s fun s => varith s f useABC 3 4 (fun a b c => a * b + c) (fun a b c => Fv.fma (Rm.ofCode f.rm.toNat) a b c)

/-- VFMS (R147). -/
def execVfms (f : VWord) (s : State) : Host.Outcome State Fault Refusal :=
  run (.vfms f) s fun s => varith s f useABC 3 4 (fun a b c => a * b - c) (fun a b c => Fv.fma (Rm.ofCode f.rm.toNat) a b c.neg)

/-- VFNMA (R147). -/
def execVfnma (f : VWord) (s : State) : Host.Outcome State Fault Refusal :=
  run (.vfnma f) s fun s => varith s f useABC 3 4 (fun a b c => -(a * b) + c) (fun a b c => Fv.fma (Rm.ofCode f.rm.toNat) a.neg b c)

/-- VABS (R147). -/
def execVabs (f : VWord) (s : State) : Host.Outcome State Fault Refusal :=
  run (.vabs f) s fun s => varith s f useA 2 2 (fun a _ _ => (a.natAbs : Int)) (fun a _ _ => (a.abs, 0))

/-- VNEG (R147). -/
def execVneg (f : VWord) (s : State) : Host.Outcome State Fault Refusal :=
  run (.vneg f) s fun s => varith s f useA 2 2 (fun a _ _ => -a) (fun a _ _ => (a.neg, 0))

/-- VMIN (R147). -/
def execVmin (f : VWord) (s : State) : Host.Outcome State Fault Refusal :=
  run (.vmin f) s fun s => varith s f useAB 2 4 (fun a b _ => if a ≤ b then a else b) (fun a b _ => (a.min b, 0))

/-- VMAX (R147). -/
def execVmax (f : VWord) (s : State) : Host.Outcome State Fault Refusal :=
  run (.vmax f) s fun s => varith s f useAB 2 4 (fun a b _ => if a ≤ b then b else a) (fun a b _ => (a.max b, 0))

/-- VCLAMP (R147). -/
def execVclamp (f : VWord) (s : State) : Host.Outcome State Fault Refusal :=
  run (.vclamp f) s fun s => varith s f useABC 2 4 (fun a b c => let x := if a ≤ b then b else a
      if x ≤ c then x else c) (fun a b c => ((a.max b).min c, 0))

/-- VSHL (R148). -/
def execVshl (f : VWord) (s : State) : Host.Outcome State Fault Refusal :=
  run (.vshl f) s fun s => vbits s f useAB fun w a b => if b < w then a * 2 ^ b else 0

/-- VSHR (R148). -/
def execVshr (f : VWord) (s : State) : Host.Outcome State Fault Refusal :=
  run (.vshr f) s fun s => vbits s f useAB fun w a b => if b < w then a / 2 ^ b else 0

/-- VSAR (R148). -/
def execVsar (f : VWord) (s : State) : Host.Outcome State Fault Refusal :=
  run (.vsar f) s fun s => vbits s f useAB fun w a b =>
    if b < w then ((BitVec.ofNat w a).sshiftRight b).toNat else if a < 2 ^ (w - 1) then 0 else 2 ^ w - 1

/-- VDOT4 (R149). -/
def execVdot4 (f : VWord) (s : State) : Host.Outcome State Fault Refusal :=
  run (.vdot4 f) s fun s => dot4 s f

/-- VCMP (R150). -/
def execVcmp (f : VWord) (s : State) : Host.Outcome State Fault Refusal :=
  run (.vcmp f) s fun s => vcmp s f

/-- VSEL (R151). -/
def execVsel (f : VWord) (s : State) : Host.Outcome State Fault Refusal :=
  run (.vsel f) s fun s => vselect s f

/-- VAND (R151). -/
def execVand (f : VWord) (s : State) : Host.Outcome State Fault Refusal :=
  run (.vand f) s fun s => vbits s f useAB fun _ a b => a &&& b

/-- VOR (R151). -/
def execVor (f : VWord) (s : State) : Host.Outcome State Fault Refusal :=
  run (.vor f) s fun s => vbits s f useAB fun _ a b => a ||| b

/-- VXOR (R151). -/
def execVxor (f : VWord) (s : State) : Host.Outcome State Fault Refusal :=
  run (.vxor f) s fun s => vbits s f useAB fun _ a b => a ^^^ b

/-- VNOT (R151). -/
def execVnot (f : VWord) (s : State) : Host.Outcome State Fault Refusal :=
  run (.vnot f) s fun s => vbits s f useA fun w a _ => 2 ^ w - 1 - a

/-- VMOV (R151). -/
def execVmov (f : VWord) (s : State) : Host.Outcome State Fault Refusal :=
  run (.vmov f) s fun s => vbits s f useA fun _ a _ => a

/-- PAND (R152). -/
def execPand (f : VWord) (s : State) : Host.Outcome State Fault Refusal :=
  run (.pand f) s fun s => pred2 s f (· &&& ·)

/-- POR (R152). -/
def execPor (f : VWord) (s : State) : Host.Outcome State Fault Refusal :=
  run (.por f) s fun s => pred2 s f (· ||| ·)

/-- PXOR (R152). -/
def execPxor (f : VWord) (s : State) : Host.Outcome State Fault Refusal :=
  run (.pxor f) s fun s => pred2 s f (· ^^^ ·)

/-- PNOT (R152). -/
def execPnot (f : VWord) (s : State) : Host.Outcome State Fault Refusal :=
  run (.pnot f) s fun s => pred1 s f (~~~ ·)

/-- PMOV (R152). -/
def execPmov (f : VWord) (s : State) : Host.Outcome State Fault Refusal :=
  run (.pmov f) s fun s => pred1 s f id

/-- PCNT (R152). -/
def execPcnt (f : VWord) (s : State) : Host.Outcome State Fault Refusal :=
  run (.pcnt f) s fun s => pcount s f

/-- PSET (R152). -/
def execPset (f : VWord) (s : State) : Host.Outcome State Fault Refusal :=
  run (.pset f) s fun s => pset s f

/-- VIOTA (R153). -/
def execViota (f : VWord) (s : State) : Host.Outcome State Fault Refusal :=
  run (.viota f) s fun s => elementwise s f {} 0 2 1 fun _ _ _ i => (i % 2 ^ typeW f.typ.toNat, 0)

/-- VCVT (R154). -/
def execVcvt (f : VWord) (s : State) : Host.Outcome State Fault Refusal :=
  run (.vcvt f) s fun s => elementwise s f useA 0 4 1 fun a _ _ i =>
    convert (roundCtl s f) f.typ.toNat (f.imm.toNat % 16) (elem (typeW f.typ.toNat) a i)

/-- VWIDEN (R154). -/
def execVwiden (f : VWord) (s : State) : Host.Outcome State Fault Refusal :=
  run (.vwiden f) s fun s => widen s f 2

/-- VWIDEN4 (R154). -/
def execVwiden4 (f : VWord) (s : State) : Host.Outcome State Fault Refusal :=
  run (.vwiden4 f) s fun s => widen s f 4

/-- VNARROW (R154). -/
def execVnarrow (f : VWord) (s : State) : Host.Outcome State Fault Refusal :=
  run (.vnarrow f) s fun s => narrow s f 2

/-- VNARROW4 (R154). -/
def execVnarrow4 (f : VWord) (s : State) : Host.Outcome State Fault Refusal :=
  run (.vnarrow4 f) s fun s => narrow s f 4

/-- VBPACK (R156). -/
def execVbpack (f : VWord) (s : State) : Host.Outcome State Fault Refusal :=
  run (.vbpack f) s fun s => bfpPack s f

/-- VBUNPK (R157). -/
def execVbunpk (f : VWord) (s : State) : Host.Outcome State Fault Refusal :=
  run (.vbunpk f) s fun s => bfpUnpack s f

/-- VRSUM (R158). -/
def execVrsum (f : VWord) (s : State) : Host.Outcome State Fault Refusal :=
  run (.vrsum f) s fun s => reduce s f .add

/-- VRMIN (R158). -/
def execVrmin (f : VWord) (s : State) : Host.Outcome State Fault Refusal :=
  run (.vrmin f) s fun s => reduce s f .min

/-- VRMAX (R158). -/
def execVrmax (f : VWord) (s : State) : Host.Outcome State Fault Refusal :=
  run (.vrmax f) s fun s => reduce s f .max

/-- VPERM (R159). -/
def execVperm (f : VWord) (s : State) : Host.Outcome State Fault Refusal :=
  run (.vperm f) s fun s => vpermute s f

/-- VROT (R160). -/
def execVrot (f : VWord) (s : State) : Host.Outcome State Fault Refusal :=
  run (.vrot f) s fun s => vrotate s f

/-- VZIP (R161). -/
def execVzip (f : VWord) (s : State) : Host.Outcome State Fault Refusal :=
  run (.vzip f) s fun s => pairwise s f fun a b =>
    let c := interleave a b
    (c.take a.length, c.drop a.length)

/-- VUNZIP (R161). -/
def execVunzip (f : VWord) (s : State) : Host.Outcome State Fault Refusal :=
  run (.vunzip f) s fun s => pairwise s f fun a b => split2 (a ++ b)

/-- VBCST (R162). -/
def execVbcst (f : VWord) (s : State) : Host.Outcome State Fault Refusal :=
  run (.vbcst f) s fun s => vbroadcast s f

/-- VBCSTI (R162). -/
def execVbcsti (f : VWord) (lit : BitVec 32) (s : State) : Host.Outcome State Fault Refusal :=
  run (.vbcsti f lit) s fun s => elementwise s f {} 0 3 1 fun _ _ _ _ => (lit.toNat % 2 ^ typeW f.typ.toNat, 0)

/-- VMOVS (R162). -/
def execVmovs (f : VWord) (s : State) : Host.Outcome State Fault Refusal :=
  run (.vmovs f) s fun s => vmoveS s f

/-- VINS (R162). -/
def execVins (f : VWord) (s : State) : Host.Outcome State Fault Refusal :=
  run (.vins f) s fun s => vinsert s f

/-- VEXP2 (R163). -/
def execVexp2 (f : VWord) (s : State) : Host.Outcome State Fault Refusal :=
  run (.vexp2 f) s fun s => special s f .exp2

/-- VLOG2 (R163). -/
def execVlog2 (f : VWord) (s : State) : Host.Outcome State Fault Refusal :=
  run (.vlog2 f) s fun s => special s f .log2

/-- VRCP (R163). -/
def execVrcp (f : VWord) (s : State) : Host.Outcome State Fault Refusal :=
  run (.vrcp f) s fun s => special s f .rcp

/-- VRSQ (R163). -/
def execVrsq (f : VWord) (s : State) : Host.Outcome State Fault Refusal :=
  run (.vrsq f) s fun s => special s f .rsq

/-- VTANH (R163). -/
def execVtanh (f : VWord) (s : State) : Host.Outcome State Fault Refusal :=
  run (.vtanh f) s fun s => special s f .tanh

/-- VSIGM (R163). -/
def execVsigm (f : VWord) (s : State) : Host.Outcome State Fault Refusal :=
  run (.vsigm f) s fun s => special s f .sigm

end Sys2Proof.Machine
end

