-- ==== Sys2Proof/Machine/Dispatch.lean ====
section
/-! DEFINITION. The dispatch: one arm per constructor of Instr, each a call of its meaning. -/

namespace Sys2Proof.Machine

def exec (i : Instr) (s : State) : Host.Outcome State Fault Refusal :=
  match i with
  | .add a => Sys2Proof.Machine.execAdd a s
  | .sub a => Sys2Proof.Machine.execSub a s
  | .mul a => Sys2Proof.Machine.execMul a s
  | .mulh a => Sys2Proof.Machine.execMulh a s
  | .div a => Sys2Proof.Machine.execDiv a s
  | .rem a => Sys2Proof.Machine.execRem a s
  | .addi a => Sys2Proof.Machine.execAddi a s
  | .rsbi a => Sys2Proof.Machine.execRsbi a s
  | .muli a => Sys2Proof.Machine.execMuli a s
  | .min a => Sys2Proof.Machine.execMin a s
  | .max a => Sys2Proof.Machine.execMax a s
  | .and a => Sys2Proof.Machine.execAnd a s
  | .or a => Sys2Proof.Machine.execOr a s
  | .xor a => Sys2Proof.Machine.execXor a s
  | .andn a => Sys2Proof.Machine.execAndn a s
  | .orn a => Sys2Proof.Machine.execOrn a s
  | .andi a => Sys2Proof.Machine.execAndi a s
  | .ori a => Sys2Proof.Machine.execOri a s
  | .xori a => Sys2Proof.Machine.execXori a s
  | .shl a => Sys2Proof.Machine.execShl a s
  | .shr a => Sys2Proof.Machine.execShr a s
  | .sar a => Sys2Proof.Machine.execSar a s
  | .rol a => Sys2Proof.Machine.execRol a s
  | .ror a => Sys2Proof.Machine.execRor a s
  | .shli a => Sys2Proof.Machine.execShli a s
  | .shri a => Sys2Proof.Machine.execShri a s
  | .sari a => Sys2Proof.Machine.execSari a s
  | .rori a => Sys2Proof.Machine.execRori a s
  | .popc a => Sys2Proof.Machine.execPopc a s
  | .clz a => Sys2Proof.Machine.execClz a s
  | .cmp a => Sys2Proof.Machine.execCmp a s
  | .cmpi a => Sys2Proof.Machine.execCmpi a s
  | .cmpp a => Sys2Proof.Machine.execCmpp a s
  | .cmppi a => Sys2Proof.Machine.execCmppi a s
  | .sel a => Sys2Proof.Machine.execSel a s
  | .cmov a => Sys2Proof.Machine.execCmov a s
  | .lea a => Sys2Proof.Machine.execLea a s
  | .bfx a => Sys2Proof.Machine.execBfx a s
  | .bfxs a => Sys2Proof.Machine.execBfxs a s
  | .bfxi a => Sys2Proof.Machine.execBfxi a s
  | .bfxsi a => Sys2Proof.Machine.execBfxsi a s
  | .bfi a => Sys2Proof.Machine.execBfi a s
  | .bfii a => Sys2Proof.Machine.execBfii a s
  | .movi a b => Sys2Proof.Machine.execMovi a b s
  | .movl a b => Sys2Proof.Machine.execMovl a b s
  | .mfcr a => Sys2Proof.Machine.execMfcr a s
  | .mtcr a => Sys2Proof.Machine.execMtcr a s
  | .tclr a => Sys2Proof.Machine.execTclr a s
  | .tget a => Sys2Proof.Machine.execTget a s
  | .tspill a => Sys2Proof.Machine.execTspill a s
  | .tfill a => Sys2Proof.Machine.execTfill a s
  | .vadd a => Sys2Proof.Machine.execVadd a s
  | .vsub a => Sys2Proof.Machine.execVsub a s
  | .vmul a => Sys2Proof.Machine.execVmul a s
  | .vmulh a => Sys2Proof.Machine.execVmulh a s
  | .vfma a => Sys2Proof.Machine.execVfma a s
  | .vfms a => Sys2Proof.Machine.execVfms a s
  | .vfnma a => Sys2Proof.Machine.execVfnma a s
  | .vabs a => Sys2Proof.Machine.execVabs a s
  | .vneg a => Sys2Proof.Machine.execVneg a s
  | .vmin a => Sys2Proof.Machine.execVmin a s
  | .vmax a => Sys2Proof.Machine.execVmax a s
  | .vshl a => Sys2Proof.Machine.execVshl a s
  | .vshr a => Sys2Proof.Machine.execVshr a s
  | .vsar a => Sys2Proof.Machine.execVsar a s
  | .vclamp a => Sys2Proof.Machine.execVclamp a s
  | .vdot4 a => Sys2Proof.Machine.execVdot4 a s
  | .vcmp a => Sys2Proof.Machine.execVcmp a s
  | .vsel a => Sys2Proof.Machine.execVsel a s
  | .vand a => Sys2Proof.Machine.execVand a s
  | .vor a => Sys2Proof.Machine.execVor a s
  | .vxor a => Sys2Proof.Machine.execVxor a s
  | .vnot a => Sys2Proof.Machine.execVnot a s
  | .vmov a => Sys2Proof.Machine.execVmov a s
  | .pand a => Sys2Proof.Machine.execPand a s
  | .por a => Sys2Proof.Machine.execPor a s
  | .pxor a => Sys2Proof.Machine.execPxor a s
  | .pnot a => Sys2Proof.Machine.execPnot a s
  | .pmov a => Sys2Proof.Machine.execPmov a s
  | .pcnt a => Sys2Proof.Machine.execPcnt a s
  | .pset a => Sys2Proof.Machine.execPset a s
  | .viota a => Sys2Proof.Machine.execViota a s
  | .vcvt a => Sys2Proof.Machine.execVcvt a s
  | .vwiden a => Sys2Proof.Machine.execVwiden a s
  | .vwiden4 a => Sys2Proof.Machine.execVwiden4 a s
  | .vnarrow a => Sys2Proof.Machine.execVnarrow a s
  | .vnarrow4 a => Sys2Proof.Machine.execVnarrow4 a s
  | .vbpack a => Sys2Proof.Machine.execVbpack a s
  | .vbunpk a => Sys2Proof.Machine.execVbunpk a s
  | .vrsum a => Sys2Proof.Machine.execVrsum a s
  | .vrmin a => Sys2Proof.Machine.execVrmin a s
  | .vrmax a => Sys2Proof.Machine.execVrmax a s
  | .vperm a => Sys2Proof.Machine.execVperm a s
  | .vrot a => Sys2Proof.Machine.execVrot a s
  | .vzip a => Sys2Proof.Machine.execVzip a s
  | .vunzip a => Sys2Proof.Machine.execVunzip a s
  | .vbcst a => Sys2Proof.Machine.execVbcst a s
  | .vbcsti a b => Sys2Proof.Machine.execVbcsti a b s
  | .vmovs a => Sys2Proof.Machine.execVmovs a s
  | .vins a => Sys2Proof.Machine.execVins a s
  | .vexp2 a => Sys2Proof.Machine.execVexp2 a s
  | .vlog2 a => Sys2Proof.Machine.execVlog2 a s
  | .vrcp a => Sys2Proof.Machine.execVrcp a s
  | .vrsq a => Sys2Proof.Machine.execVrsq a s
  | .vtanh a => Sys2Proof.Machine.execVtanh a s
  | .vsigm a => Sys2Proof.Machine.execVsigm a s
  | .vrda a => Sys2Proof.Machine.execVrda a s
  | .vwra a => Sys2Proof.Machine.execVwra a s
  | .vpopq a => Sys2Proof.Machine.execVpopq a s
  | .oclaim a => Sys2Proof.Machine.execOclaim a s
  | .orelease a => Sys2Proof.Machine.execOrelease a s
  | .ofill a => Sys2Proof.Machine.execOfill a s
  | .ostat a => Sys2Proof.Machine.execOstat a s
  | .ozero a => Sys2Proof.Machine.execOzero a s
  | .mma a => Sys2Proof.Machine.execMma a s
  | .drain a => Sys2Proof.Machine.execDrain a s
  | .aclr a => Sys2Proof.Machine.execAclr a s
  | .aload a => Sys2Proof.Machine.execAload a s
  | .amov a => Sys2Proof.Machine.execAmov a s
  | .msync a => Sys2Proof.Machine.execMsync a s
  | .mstat a => Sys2Proof.Machine.execMstat a s
  | .ld a => Sys2Proof.Machine.execLd a s
  | .ldx a => Sys2Proof.Machine.execLdx a s
  | .st a => Sys2Proof.Machine.execSt a s
  | .vld a => Sys2Proof.Machine.execVld a s
  | .vst a => Sys2Proof.Machine.execVst a s
  | .vgath a => Sys2Proof.Machine.execVgath a s
  | .vscat a => Sys2Proof.Machine.execVscat a s
  | .pref a => Sys2Proof.Machine.execPref a s
  | .acqr a => Sys2Proof.Machine.execAcqr a s
  | .l2pin a => Sys2Proof.Machine.execL2pin a s
  | .l2unpin a => Sys2Proof.Machine.execL2unpin a s
  | .spld a => Sys2Proof.Machine.execSpld a s
  | .spst a => Sys2Proof.Machine.execSpst a s
  | .vspld a => Sys2Proof.Machine.execVspld a s
  | .vspst a => Sys2Proof.Machine.execVspst a s
  | .ralloc a => Sys2Proof.Machine.execRalloc a s
  | .rfree a => Sys2Proof.Machine.execRfree a s
  | .stlook a => Sys2Proof.Machine.execStlook a s
  | .stfill a => Sys2Proof.Machine.execStfill a s
  | .stevict a => Sys2Proof.Machine.execStevict a s
  | .sdset a => Sys2Proof.Machine.execSdset a s
  | .atadd a => Sys2Proof.Machine.execAtadd a s
  | .atmin a => Sys2Proof.Machine.execAtmin a s
  | .atmax a => Sys2Proof.Machine.execAtmax a s
  | .atxch a => Sys2Proof.Machine.execAtxch a s
  | .atcas a => Sys2Proof.Machine.execAtcas a s
  | .cpy a => Sys2Proof.Machine.execCpy a s
  | .cpyr a => Sys2Proof.Machine.execCpyr a s
  | .cpys a => Sys2Proof.Machine.execCpys a s
  | .cfill a => Sys2Proof.Machine.execCfill a s
  | .csend a => Sys2Proof.Machine.execCsend a s
  | .cqsend a => Sys2Proof.Machine.execCqsend a s
  | .chopen a => Sys2Proof.Machine.execChopen a s
  | .chclose a => Sys2Proof.Machine.execChclose a s
  | .sluice a => Sys2Proof.Machine.execSluice a s
  | .slstat a => Sys2Proof.Machine.execSlstat a s
  | .slabort a => Sys2Proof.Machine.execSlabort a s
  | .dtload a => Sys2Proof.Machine.execDtload a s
  | .cwait a => Sys2Proof.Machine.execCwait a s
  | .cstat a => Sys2Proof.Machine.execCstat a s
  | .fpost a b c => Sys2Proof.Machine.execFpost a b c s
  | .fset a b c => Sys2Proof.Machine.execFset a b c s
  | .fwait a b c d => Sys2Proof.Machine.execFwait a b c d s
  | .fget a b => Sys2Proof.Machine.execFget a b s
  | .lset a b c => Sys2Proof.Machine.execLset a b c s
  | .lwait a b => Sys2Proof.Machine.execLwait a b s
  | .qpush a b c d => Sys2Proof.Machine.execQpush a b c d s
  | .qpop a b c => Sys2Proof.Machine.execQpop a b c s
  | .bar a b => Sys2Proof.Machine.execBar a b s
  | .fence a => Sys2Proof.Machine.execFence a s
  | .xfence a b => Sys2Proof.Machine.execXfence a b s
  | .pbr a b => Sys2Proof.Machine.execPbr a b s
  | .pbrl a b => Sys2Proof.Machine.execPbrl a b s
  | .pbrs a b c => Sys2Proof.Machine.execPbrs a b c s
  | .br a b c => Sys2Proof.Machine.execBr a b c s
  | .call a b c d => Sys2Proof.Machine.execCall a b c d s
  | .ret a b c => Sys2Proof.Machine.execRet a b c s
  | .loop a b c => Sys2Proof.Machine.execLoop a b c s
  | .trap a => Sys2Proof.Machine.execTrap a s
  | .bkpt a => Sys2Proof.Machine.execBkpt a s
  | .sysc a => Sys2Proof.Machine.execSysc a s
  | .cwb a => Sys2Proof.Machine.execCwb a s
  | .iinv a => Sys2Proof.Machine.execIinv a s
  | .tlbinv a => Sys2Proof.Machine.execTlbinv a s
  | .tlbwr a => Sys2Proof.Machine.execTlbwr a s
  | .tlbprobe a => Sys2Proof.Machine.execTlbprobe a s
  | .pmfcr a => Sys2Proof.Machine.execPmfcr a s
  | .pmtcr a => Sys2Proof.Machine.execPmtcr a s
  | .ctxswSave a => Sys2Proof.Machine.execCtxswSave a s
  | .ctxswRestore a => Sys2Proof.Machine.execCtxswRestore a s
  | .ctxswStop a => Sys2Proof.Machine.execCtxswStop a s
  | .dbell a b => Sys2Proof.Machine.execDbell a b s
  | .block a b => Sys2Proof.Machine.execBlock a b s
  | .op a => Sys2Proof.Machine.execOp a s
  | .egbLoop a => Sys2Proof.Machine.execEgbLoop a s
  | .endloop a => Sys2Proof.Machine.execEndloop a s
  | .egbBr a => Sys2Proof.Machine.execEgbBr a s
  | .brc a => Sys2Proof.Machine.execBrc a s
  | .egbCall a => Sys2Proof.Machine.execEgbCall a s
  | .egbRet a => Sys2Proof.Machine.execEgbRet a s
  | .gend a => Sys2Proof.Machine.execGend a s
  | .capbeg a => Sys2Proof.Machine.execCapbeg a s
  | .capend a => Sys2Proof.Machine.execCapend a s
  | .replay a => Sys2Proof.Machine.execReplay a s
  | .hset a => Sys2Proof.Machine.execHset a s
  | .hadd a => Sys2Proof.Machine.execHadd a s
  | .hmul a => Sys2Proof.Machine.execHmul a s
  | .hdiv a => Sys2Proof.Machine.execHdiv a s
  | .hmin a => Sys2Proof.Machine.execHmin a s
  | .hmax a => Sys2Proof.Machine.execHmax a s
  | .hld a => Sys2Proof.Machine.execHld a s
  | .hdef a => Sys2Proof.Machine.execHdef a s
  | .hfree a => Sys2Proof.Machine.execHfree a s
  | .hreshape a => Sys2Proof.Machine.execHreshape a s
  | .hshard a => Sys2Proof.Machine.execHshard a s
  | .halias a => Sys2Proof.Machine.execHalias a s
  | .chload a => Sys2Proof.Machine.execChload a s
  | .chloadOff a => Sys2Proof.Machine.execChloadOff a s
  | .param a => Sys2Proof.Machine.execParam a s
  | .egbStep a => Sys2Proof.Machine.execEgbStep a s
  | .waith a => Sys2Proof.Machine.execWaith a s
  | .signal a => Sys2Proof.Machine.execSignal a s
  | .csload a => Sys2Proof.Machine.execCsload a s
  | .pattr a => Sys2Proof.Machine.execPattr a s
  | .pshape a => Sys2Proof.Machine.execPshape a s
  | .phref a => Sys2Proof.Machine.execPhref a s
  | .phdesc a => Sys2Proof.Machine.execPhdesc a s
  | .psetext a => Sys2Proof.Machine.execPsetext a s
  | .plout a => Sys2Proof.Machine.execPlout a s
  | .presid a => Sys2Proof.Machine.execPresid a s
  | .psweep a => Sys2Proof.Machine.execPsweep a s
  | .prestore a => Sys2Proof.Machine.execPrestore a s
  | .pregion a => Sys2Proof.Machine.execPregion a s
  | .pswait a => Sys2Proof.Machine.execPswait a s
  | .tclrC => Sys2Proof.Machine.execTclrC s
  | .suspend => Sys2Proof.Machine.execSuspend s
  | .modeEx => Sys2Proof.Machine.execModeEx s
  | .modeIl => Sys2Proof.Machine.execModeIl s
  | .done => Sys2Proof.Machine.execDone s
  | .yield => Sys2Proof.Machine.execYield s
  | .tret => Sys2Proof.Machine.execTret s
  | .fbar => Sys2Proof.Machine.execFbar s
  | .tlbinva => Sys2Proof.Machine.execTlbinva s
  | .waiti => Sys2Proof.Machine.execWaiti s
  | .fillComplete => Sys2Proof.Machine.execFillComplete s
  | .matrixStart => Sys2Proof.Machine.execMatrixStart s
  | .drainRowDelivery => Sys2Proof.Machine.execDrainRowDelivery s
  | .loadBind => Sys2Proof.Machine.execLoadBind s
  | .producerWriteback => Sys2Proof.Machine.execProducerWriteback s
  | .storePerform => Sys2Proof.Machine.execStorePerform s
  | .copyPerform => Sys2Proof.Machine.execCopyPerform s
  | .landingUnitArrival => Sys2Proof.Machine.execLandingUnitArrival s
  | .flagPostArrival => Sys2Proof.Machine.execFlagPostArrival s
  | .qpushArrival => Sys2Proof.Machine.execQpushArrival s
  | .contributionArrival => Sys2Proof.Machine.execContributionArrival s
  | .memberCompletion => Sys2Proof.Machine.execMemberCompletion s
  | .abortTokenArrival => Sys2Proof.Machine.execAbortTokenArrival s
  | .waitLimitExpiry => Sys2Proof.Machine.execWaitLimitExpiry s
  | .deadlineExpiry => Sys2Proof.Machine.execDeadlineExpiry s
  | .shootdownComplete => Sys2Proof.Machine.execShootdownComplete s
  | .pageWalkComplete => Sys2Proof.Machine.execPageWalkComplete s
  | .trapEntry => Sys2Proof.Machine.execTrapEntry s
  | .recordTake => Sys2Proof.Machine.execRecordTake s
  | .agePromotion => Sys2Proof.Machine.execAgePromotion s
  | .pointFire => Sys2Proof.Machine.execPointFire s
  | .pointComplete => Sys2Proof.Machine.execPointComplete s
  | .preemptBoundExpiry => Sys2Proof.Machine.execPreemptBoundExpiry s
  | .contextSave => Sys2Proof.Machine.execContextSave s
  | .operatorIssue => Sys2Proof.Machine.execOperatorIssue s
  | .operatorComplete => Sys2Proof.Machine.execOperatorComplete s
  | .blockCommit => Sys2Proof.Machine.execBlockCommit s
  | .glaunchWrite => Sys2Proof.Machine.execGlaunchWrite s
  | .gpatchWrite => Sys2Proof.Machine.execGpatchWrite s
  | .gstatFaultClear => Sys2Proof.Machine.execGstatFaultClear s
  | .cctlOffline => Sys2Proof.Machine.execCctlOffline s
  | .cctlOnline => Sys2Proof.Machine.execCctlOnline s
  | .cctlRestart => Sys2Proof.Machine.execCctlRestart s
  | .dsvcDrain => Sys2Proof.Machine.execDsvcDrain s
  | .dsvcReenable => Sys2Proof.Machine.execDsvcReenable s
  | .spvWarnClear => Sys2Proof.Machine.execSpvWarnClear s
  | .traceEnable => Sys2Proof.Machine.execTraceEnable s
  | .traceDisable => Sys2Proof.Machine.execTraceDisable s
  | .erxtailWrite => Sys2Proof.Machine.execErxtailWrite s
  | .etxtailWrite => Sys2Proof.Machine.execEtxtailWrite s
  | .ringEnable => Sys2Proof.Machine.execRingEnable s
  | .ringStop => Sys2Proof.Machine.execRingStop s
  | .estatClr => Sys2Proof.Machine.execEstatClr s
  | .frameReceive => Sys2Proof.Machine.execFrameReceive s
  | .frameTransmit => Sys2Proof.Machine.execFrameTransmit s
  | .registerWrite => Sys2Proof.Machine.execRegisterWrite s
  | .hostBar2Access => Sys2Proof.Machine.execHostBar2Access s
  | .powerOnReset => Sys2Proof.Machine.execPowerOnReset s
  | .dieReset => Sys2Proof.Machine.execDieReset s
  | .attestationRequest => Sys2Proof.Machine.execAttestationRequest s
  | .firmwareUpdate => Sys2Proof.Machine.execFirmwareUpdate s
  | .laneRetrain => Sys2Proof.Machine.execLaneRetrain s
  | .rowSparing => Sys2Proof.Machine.execRowSparing s
  | .flitRetry => Sys2Proof.Machine.execFlitRetry s
  | .linkRetryLimit => Sys2Proof.Machine.execLinkRetryLimit s
  | .thermalTrip => Sys2Proof.Machine.execThermalTrip s
  | .stackSparesExhausted => Sys2Proof.Machine.execStackSparesExhausted s
  | .tileWriteComplete => Sys2Proof.Machine.execTileWriteComplete s
  | .emptyBundle => Sys2Proof.Machine.execEmptyBundle s
  | .illegalWord => Sys2Proof.Machine.execIllegalWord s

end Sys2Proof.Machine
end

