-- ==== Sys2Proof/Machine/Turns.lean ====
section
/-! DEFINITION. Turns: which agent moves next and what its move is (R41, R76, R435, R474), and the order of what happens in one cycle (R305, R310, R368, R433). -/

namespace Sys2Proof.Machine

/-- A stop ends the slots at once; one that is deferred lets the later slots stop the group first. -/
def stopsHere : Option Stop → Bool
  | some e => !e.deferred
  | none => false

/-- A slot whose accesses come behind a fence of its group: scratchpad, global, copy and collective accesses, and fills. -/
def accesses (slot : Nat) (i : Instr) : Bool := decide (slot = 4 ∨ slot = 5) || match i with
  | .ofill _ => true
  | _ => false

/-- An uninitialised read or an uncorrectable error, which what precedes the slot may still change (R226, R470). -/
def Stop.ofData : Stop → Bool
  | .trap c _ => decide (c = 0x0D ∨ c = 0x0B)
  | _ => false

/-- A slot behind a fence executes once the fence is passed; what stops it on the state before the group stops the group (log 79). -/
def runLater (s : State) (slot bpc : Nat) (i : Instr) : Host.Outcome State Fault Refusal :=
  match exec i (s.prior.upd fun c => { c with slot := slot, bpc := bpc, sig := none }) with
  | .next t => match t.core.sig with
    | some e => .next (if e.ofData then s.leave (.late slot bpc i) else s.upd fun c => { c with sig := some e })
    | none => .next (s.leave (.late slot bpc i))
  | .fault f => .fault f
  | .refused r => .refused r

/-- Execute the slots of a group in program order up to the first that stops it (R76, R435). -/
def runSlots (gpc : Nat) (g : List Bundle) (s : State) : List (SlotWord × Instr) → Host.Outcome State Fault Refusal
  | [] => .next s
  | (w, i) :: t =>
    let bpc := bundleAddr gpc g w.slot
    match (if s.core.after.any After.fences && accesses w.slot i then runLater s w.slot bpc i
        else exec i (s.upd fun c => { c with slot := w.slot, bpc := bpc })) with
    | .next s' => if stopsHere s'.core.sig then .next s' else runSlots gpc g s' t
    | .fault f => .fault f
    | .refused r => .refused r

/-- A group that leaves its task with the matrix state held raises the illegal-operand trap of its `YIELD` or `SUSPEND` (R178, R456;
log 93). -/
def State.leavesHeld (t : State) : Option Stop :=
  if !t.core.matrixHeld then none
  else if t.core.after.contains .yield then some (.trap 0x03 7)
  else if t.core.after.contains .suspend then some (.trap 0x03 6) else none

/-- A task that resumes because its wait's limit has passed: its group raises the limit trap at once (R303). -/
def State.limitPassed (s : State) : Option Stop :=
  match s.core.timedOut, s.core.held with
  | true, .timed kind ix tgt _ => some (limitTrap s kind ix tgt)
  | _, _ => none

/-- Issue a decoded group: its checkpoint, its slots, its end; a stop acts on the state from before the slots. A device register
that it accesses gives it a checkpoint more (`must`). -/
def issueSlots (s : State) (g : List Bundle) (ws : List (SlotWord × Instr)) (must : Bool) : Host.Outcome State Fault Refusal :=
  let is := ws.map fun p => p.2
  if s.unitBusy is || ((must || is.any once) && s.mmaFirst is) then .next (s.endStopped stall)
  else match s.groupCheckpoint g is must false with
    | none => .next (s.endStopped stall)
    | some base => match base.preemptNow with
      | some t => .next t
      | none => match base.limitPassed with
      | some e => .next (base.endStopped e)
      | none => match runSlots base.core.gpc g { base with groupCore := base.core, groupDie := base.dieAt (dieOf base.cur) } ws with
        | .next t => match t.core.sig with
          | some e => .next (((if e.forces then s.groupCheckpoint g is must true else none).getD base).endStopped e)
          | none => .next (match t.leavesHeld with
            | some e => base.endStopped e
            | none => t.endGroup g (ws.map fun p => p.1))
        | .fault f => .fault f
        | .refused r => .refused r

def issueDecoded (s : State) (g : List Bundle) (ws : List (SlotWord × Instr)) : Host.Outcome State Fault Refusal :=
  match issueSlots s g ws false with
  | .next t => if t.core.sig = some .checkpoint && t.core.holding then issueSlots s g ws true else .next t
  | .fault f => .fault f
  | .refused r => .refused r

/-- The group at the address of the unit in progress, from its fetch to its end. -/
def executeGroup (s : State) : Host.Outcome State Fault Refusal :=
  let s := s.beginGroup
  match s.fetchGroup with
  | .error e => .next (s.endStopped e)
  | .ok (g, s) =>
    let s := s.placeGroup g
    if s.lineBubble then .next s.later
    else
      let s := s.upd fun c => { c with redirected := false }
      match s.decodeGroup g with
      | .error e => .next (s.endStopped e)
      | .ok ws => issueDecoded s g ws

/-- A slot behind a fence executes as the group's next (R76): its stop holds it, or is the group's trap. -/
def runLate (s : State) (slot bpc : Nat) (i : Instr) (rest : List After) : Host.Outcome State Fault Refusal :=
  let base := s.upd fun c => { c with inGroup := true, slot := slot, bpc := bpc, sig := none, after := [], ckAfter := false }
  match exec i { base with groupCore := base.core, groupDie := base.dieAt (dieOf base.cur) } with
  | .next t => match t.core.sig with
    | none =>
      let rest := if t.core.ckAfter && !rest.contains .ck then After.ck.into rest else rest
      .next (State.finish (State.upd { t with groupCore := {}, groupDie := {} } fun c => { c with inGroup := false }) rest)
    | some (.trap cause info) => .next (s.stopGroup (.trap cause info))
    | some (.copyFault k info) => .next (s.stopGroup (.copyFault k info))
    | some (.walk tsid va) => .next (s.startWalk tsid va)
    | some _ => .next s
  | .fault f => .fault f
  | .refused r => .refused r

/-- The rest of a group that waits: its late slots, and what must still happen to it. -/
def issueRest (s : State) : Host.Outcome State Fault Refusal :=
  match s.core.after with
  | .late slot bpc i :: rest => runLate s slot bpc i rest
  | l => .next (s.finish l)

/-- Issue the group at the address of the unit in progress; it stalls while its packets would overflow the trace unit's staging
(R431). -/
def issueGroup (s : State) : Host.Outcome State Fault Refusal :=
  match executeGroup s with
  | .next t => .next (if t.core.stagingFits then t else s.beginGroup.endStopped (.wait .trace false false))
  | .fault f => .fault f
  | .refused r => .refused r

/-! ## The order within a cycle -/

/-- A unit that runs and has not issued in the present cycle. -/
def State.yetToIssue (s : State) (u : Nat) : Bool :=
  decide ((s.coreAt u).run = .running) && decide ((s.coreAt u).notBefore ≤ s.now)

/-- A `REPLAY` is accepted after the `GPATCH` writes of its cycle, which any unit may make (R285, R368). -/
def flipComes (s : State) (i : Instr) : Bool :=
  match i with
  | .replay _ => s.cores.any fun p => s.yetToIssue p.1
  | _ => false

/-- An event waits for what a unit issues in its cycle: a post and a landing for their target (R433), the end of a shootdown for the
`STFILL` of the cores of its dies (R250). -/
def State.targetIssues (s : State) (i : Instr) (a : EvArgs) : Bool :=
  match i with
  | .flagPostArrival => s.posts.any fun x => decide (x.id = a.u) && s.yetToIssue x.target
  | .landingUnitArrival => s.units.any fun x => decide (x.id = a.u) && x.counter.isSome && s.yetToIssue x.u
  | .shootdownComplete => s.shoots.any fun x => decide (x.id = a.u) &&
      x.active.any fun b => s.cores.any fun p => decide (p.1 / 128 = b.die) && s.yetToIssue p.1
  | _ => false

/-- What an event made of a state comes later in the cycle: a post or a landing at a core after the core's own `FSET` or `LSET`
(R433); a `GPATCH` write in a cycle in which the context has accepted a word in the next one (R368), and so an engine's access to a bank
that the core's access has used (R480) and an allocation after an `RALLOC`, which else would have come first (R250). -/
def State.comesLater (s t : State) : Bool :=
  (s.cores.any fun p => p.2.allocNow && decide ((t.coreAt p.1).grans ≠ p.2.grans)) ||
  (s.cores.any fun p => s.yetToIssue p.1 && decide ((t.coreAt p.1).live.flag ≠ p.2.live.flag ∨ (t.coreAt p.1).lc ≠ p.2.lc)) ||
  (s.cores.any fun p => (t.coreAt p.1).engineBanks.any fun b => p.2.coreBanks.contains b && !p.2.engineBanks.contains b) ||
  s.dies.any fun p => p.2.ctxs.any fun c =>
    !c.2.patch && (t.ctxAt p.1 c.1).patch && decide (s.now < (s.coreAt (p.1 * 128 + 96 + c.1)).notBefore)

/-- Events by which one agent reaches another. -/
def reaches (i : Instr) : Bool :=
  match i with
  | .flagPostArrival => true
  | .landingUnitArrival => true
  | .copyPerform => true
  | .fillComplete => true
  | .operatorIssue => true
  | .memberCompletion => true
  | .abortTokenArrival => true
  | .gpatchWrite => true
  | .registerWrite => true
  | _ => false

/-- A context accepts its next word (R343, R101). -/
def acceptWord (s : State) (d ctx : Nat) : Host.Outcome State Fault Refusal :=
  let x := s.ctxAt d ctx
  if x.st ≠ .running ∨ x.pre ≠ .none ∨ x.stopping then .next s
  else if x.pc % 8 ≠ 0 then .next (s.graphFault d ctx 0x01 x.pc 0 0 0)
  else match s.egbWord d ctx with
    | .error e => .next (s.graphFault d ctx 0x0A e.2 0 0 (match e.1 with
        | .reason k => (xlInfo e.2 k 0).toNat % 65536
        | _ => 0))
    | .ok (w, ts) => match decodeEgb w ts with
      | none => exec .illegalWord { s with ev := { u := d, k := ctx, v := BitVec.ofNat 64 x.pc } }
      | some i => if flipComes s i then .next s else if wordRefsClear w ts then exec i s else .next (s.graphFault d ctx 0x02 x.pc (w.extractLsb' 46 10).toNat 0 0)

/-- The next move of a unit: a group, the end of a task, the rest of a group that waits, or a word. -/
def issueUnit (s : State) (u : Nat) : Host.Outcome State Fault Refusal :=
  let s := { s with cur := u }
  if !unitExists u then .fault (.noSuchUnit u)
  else if 96 ≤ u % 128 then acceptWord s (dieOf u) (u % 128 - 96)
  else match s.core.run with
    | .ending => .next (s.finishEnd u)
    | .running =>
      let s := s.upd fun c => c.arrive s.now
      match s.builtinTurn u with
      | some t => .next t
      | none =>
      match s.stopRequested u with
      | some t => .next t
      | none =>
        if s.core.after ≠ [] then
          match s.withdrawBar with
          | some t => .next t
          | none => match issueRest s with
            | .next t => .next (if t.core.stagingFits then t else s.upd fun c => { c with holding := true, held := .trace })
            | .fault f => .fault f
            | .refused r => .refused r
        else match s.preemptBetween with
          | some t => .next t
          | none => issueGroup s
    | _ => .next s

/-- Instructions that are hardware events or actions from outside: they have no words (R5, R115, R343). -/
def isEvent (i : Instr) : Bool := (encode i).isNone

/-- Remove element i of a list. -/
def dropAt {α : Type} (l : List α) (i : Nat) : List α := l.eraseIdx i

/-- A unit has issued: its next group issues in a later cycle (R474), and a group that waits is not tried again at once. -/
def State.issued (t : State) (u : Nat) : State :=
  State.updAt { t with tried := if (t.coreAt u).holding then u :: t.tried else t.tried.filter fun x => !decide (x = u) } u
    fun c => { c with notBefore := max c.notBefore (t.now + 1) }

/-- A push reaches its receiver: a cycle after it was sent and after what the receiver issues in the cycle, its pop first (R305,
R310). An entry that is applied completes its group in the same turn, which so has passed every point at which it can trap
(R307): a group that waits keeps the entry back, and one that traps withdraws it. -/
def pushTurn (s t : State) (x : Push) : Host.Outcome State Fault Refusal :=
  if s.now ≤ x.sentAt || s.yetToIssue x.dst then .next s
  else if (t.coreAt x.src).push ≠ .applied then .next t
  else match issueUnit t x.src with
    | .next r =>
      if (r.coreAt x.src).sig = none then .next (r.issued x.src)
      else if (r.coreAt x.src).push = .applied then .next s
      else
        let w := State.updAt { s with pushes := s.pushes.filter fun (y : Push) => !decide (y.id = x.id) } x.src fun c => { c with push := .none }
        match issueUnit w x.src with
        | .next r => .next (r.issued x.src)
        | .fault f => .fault f
        | .refused r => .refused r
    | .fault f => .fault f
    | .refused r => .refused r

/-- An event that would overfill the staging of a core's trace unit waits for it (R431). -/
def State.stagedOr (s t : State) : State := if t.cores.all fun p => p.2.stagingFits then t else s

/-- An event in its place in the cycle; one that comes later changes nothing yet. -/
def occur (s : State) (i : Instr) (a : EvArgs) : Host.Outcome State Fault Refusal :=
  if isEvent i then
    match exec i { s with ev := a, cur := a.u } with
    | .next t => match i, s.pushes.find? fun (x : Push) => decide (x.id = a.u) with
      | .qpushArrival, some x => pushTurn s t x
      | _, _ => .next (if s.targetIssues i a || (reaches i && s.comesLater t) then s else s.stagedOr t)
    | .fault f => .fault f
    | .refused r => .refused r
  else .next s

/-- One turn. A unit that issues first lets the cycles pass that its last group takes (R474, R482). -/
def doTurn (s : State) : Turn → Host.Outcome State Fault Refusal
  | .issue u => match issueUnit (State.engineDue (if s.now < (s.coreAt u).notBefore then s.advance ((s.coreAt u).notBefore - s.now) else s) u) u with
    | .next t => .next (t.issued u)
    | .fault f => .fault f
    | .refused r => .refused r
  | .event i a =>
    match occur s i a with
    | .next t => .next { t with tried := [] }
    | .fault f => .fault f
    | .refused r => .refused r
  | .tick n => .next ({ s with tried := [] }.advance n)
  | .evict u what i => .next (match what with
      | 0 => s.updAt u fun c => { c with l1 := dropAt c.l1 i }
      | 1 => s.updAt u fun c => { c with l1i := dropAt c.l1i i }
      | 2 => s.updAt u fun c => { c with ifetch := dropAt c.ifetch i }
      | 3 => s.updAt u fun c => { c with tlb := dropAt c.tlb i }
      | _ => s.updDie (dieOf u) fun x => { x with l2tlb := dropAt x.l2tlb i })
  | .prefetch u n => .next { s.prefetchBlock u n with cur := s.cur }
  | .fill d t va => .next (if va < 2 ^ 56 && !(s.dieAt d).l2tlb.any (fun e => e.covers t va) then s.walkFor d t va [] else s)
  | .walkStep d n => .next (s.stepWalk d n)
  | .bank u n => .next (s.updAt u fun c => c.bankThese [n])
  | .upset u kind i => .next (if unitExists u then { s.upset u kind i with tried := [] } else s)
  | .late n => .next (match s.late[n]? with
      | some x => { s.writeLate (fun y => decide (y.copy.u = x.copy.u) && (s.late.take (n + 1)).contains y) with tried := [] }
      | none => s)
  | .hostReg p o v => .next (if v.isSome && s.comesLater (s.hostReg p o v) then s else { s.hostReg p o v with tried := [] })
  | .irq u host => .next { s.outsideIrq u host with tried := [] }
  | .stage u n => .next (State.updAt { s with tried := [] } u fun c => c.writeStaged n)

/-- A unit that can issue: it runs or ends a task, and its last try did not wait. -/
def canIssue (s : State) (p : Nat × Core) : Bool :=
  (decide (p.2.run = .running) || decide (p.2.run = .ending)) && !s.tried.contains p.1 && decide (p.2.notBefore ≤ s.now)

/-- The events that can happen now: what is in flight at the cores and dies (log 7). -/
def pendingEvents (s : State) : List Turn :=
  let ev (i : Instr) (a : EvArgs) : Turn := .event i a
  (s.cores.flatMap fun (p : Nat × Core) =>
    (p.2.loads.map fun l => ev .loadBind { u := p.1, k := l.tag }) ++
    (p.2.prods.map fun x => ev .producerWriteback { u := p.1, k := x.id }) ++
    (if p.2.spq.isEmpty then [] else [.bank p.1 0]) ++
    (if p.2.staged.isEmpty then [] else [.stage p.1 64]) ++
    ((p.2.wb.filter fun e => e.released).map fun e => ev .storePerform { u := p.1, k := e.serial }) ++
    (p.2.fills.take 1).map (fun f => ev .fillComplete { u := p.1, k := f.slot }) ++
    ((p.2.mxq.filter fun e => e.started).map fun e => ev .tileWriteComplete { u := p.1, k := e.id }) ++
    (if p.2.mxq.any fun e => !e.started then [ev .matrixStart { u := p.1 }] else []) ++
    (p.2.draining.map fun x => ev .drainRowDelivery { u := p.1, k := x.id }) ++
    (if p.2.holding then [ev .waitLimitExpiry { u := p.1 }] else []) ++
    (if p.2.stopReq = 1 then [ev .preemptBoundExpiry { u := p.1 }] else []) ++
    (p.2.resume.map fun x => ev .deadlineExpiry { u := p.1, k := x.1 })) ++
  (s.dies.flatMap fun (p : Nat × Die) =>
    (p.2.walks.map fun w => ev .pageWalkComplete { u := p.1, k := w.id }) ++
    (p.2.copyq.map fun c => ev .copyPerform { u := p.1, k := c.id }) ++
    (p.2.sweeps.flatMap fun w =>
      (w.2.finishing.map fun l => ev .pointComplete { u := p.1, k := w.1, m := l }) ++ [ev .pointFire { u := p.1, k := w.1 }]) ++
    (((computeUnits p.1).filter fun u => decide ((s.coreAt u).run = .idle) &&
        ((p.2.roleq.any fun q => !q.2.isEmpty) || p.2.ctxs.any (fun c => c.2.spillLen.any fun n => decide (0 < n.2)) || Tbl.anyV (fun (x : ResumePos) => x.ready) (s.coreAt u).resume)).map fun u => ev .recordTake { u := u }) ++
    (p.2.roleq.flatMap fun q => (List.range q.2.length).map fun k => ev .agePromotion { u := p.1, k := q.1, m := k }) ++
    (if p.1 % 4 = 0 then [ev .frameTransmit { u := p.1 / 4 }] else []) ++
    (p.2.ctxs.map fun c => ev .contextSave { u := p.1, k := c.1 }) ++
    (p.2.ctxs.flatMap fun c => c.2.blocks.flatMap fun b =>
      (List.range b.entries.length).flatMap fun e =>
        [ev .operatorIssue { u := p.1, k := c.1, m := b.serial, n := e },
         ev .operatorComplete { u := p.1, k := c.1, m := b.serial, n := e },
         ev .blockCommit { u := p.1, k := c.1, m := b.serial }])) ++
  (s.posts.map fun x => ev .flagPostArrival { u := x.id }) ++
  (s.pushes.map fun x => ev .qpushArrival { u := x.id }) ++
  (s.units.map fun x => ev .landingUnitArrival { u := x.id }) ++
  (s.insts.flatMap fun x => (List.range x.members.length).flatMap fun m =>
    [ev .contributionArrival { u := x.id * 2048 + m }, ev .memberCompletion { u := x.id, k := m },
     ev .abortTokenArrival { u := x.id * 2048 + m }]) ++
  (s.shoots.map fun x => ev .shootdownComplete { u := x.id }) ++ (if s.late.isEmpty then [] else [.late 0])

/-- The model's own order where the tape is empty (log 7): a unit that can issue, a context that can accept, the first
event in flight that changes the state, else a cycle passes. -/
def autoTurn (s : State) : Turn :=
  match s.cores.find? (canIssue s) with
  | some p => .issue p.1
  | none =>
    let happens (t : Turn) : Bool :=
      match t with
      | .event i a => match occur s i a with
        | .next t => decide ({ t with cur := s.cur, ev := s.ev } ≠ s)
        | _ => true
      | _ => true
    match (pendingEvents s).find? happens with
    | some t => t
    | none => match s.dies.findSome? fun (p : Nat × Die) =>
        (p.2.ctxs.find? fun c => decide (c.2.st = .running) && !s.tried.contains (p.1 * 128 + 96 + c.1) &&
            decide ((s.coreAt (p.1 * 128 + 96 + c.1)).notBefore ≤ s.now)).map fun c => p.1 * 128 + 96 + c.1 with
      | some u => .issue u
      | none => .tick 1

end Sys2Proof.Machine
end

