-- ==== Sys2Proof/Machine/Step.lean ====
section
/-! DEFINITION. The step, and the placing of one instruction. -/

namespace Sys2Proof.Machine

/-- The step: the first turn of the tape, or the model's own choice where the tape is empty. -/
def step (s : State) : Host.Outcome State Fault Refusal :=
  match s.turns with
  | t :: rest => doTurn { s with turns := rest } t
  | [] => doTurn s (autoTurn s)

/-! ## Placing one instruction (log 8) -/

/-- Address at which `withFetchWord` places a group or a word. -/
def placeAt : Nat := 0x10000

/-- Presence mask of a bundle with one slot. -/
def presence : Slot → Nat
  | .sa => 0x01
  | .vx => 0x04
  | .mx => 0x08
  | .ms => 0x10
  | .pms => 0x10
  | .cp => 0x20
  | .sy => 0x40
  | .br => 0x80

/-- A page of package 0 that the unit's L1 TLB maps to itself with every permission. -/
def placePage : TlbEnt := { tsid := 0, vpage := placeAt / 4096, size := 0, pa := placeAt, r := true, w := true, x := true, dev := false }

/-- s with a word where the next step fetches: the next turn is the issue of core 0 of die 0 (of plan routine 0 for a
plan operation, of context 0 for a graph word), which runs, with the bundle that holds the word at its address. -/
def State.withFetchWord (s : State) (nbits w : Nat) : State :=
  let x := w % 2 ^ nbits
  let slot := tableSlot nbits w
  let egb := decide (32 < nbits) && decide ((decodeSlot slot (BitVec.ofNat 64 x) 0 0).instr? = none)
  let bundle := toBytes 4 (0xA0100000 + presence slot) ++ toBytes (nbits / 8) x
  if egb then
    let s := { s with turns := [.issue 96], mem := Memory.writeN s.mem placeAt (toBytes 8 x) }
    s.updDie 0 fun y =>
      let c := Tbl.getD y.ctxs 0 {}
      { y with
        l2tlb := placePage :: y.l2tlb
        ctxs := Tbl.set y.ctxs 0 { c with st := .running, pre := .none, stopping := false, pc := placeAt } }
  else if slot = .pms then
    let s := { s with turns := [.issue 80] }
    (s.updDie 0 fun y =>
      let c := Tbl.getD y.ctxs 0 {}
      { y with ctxs := Tbl.set y.ctxs 0 { c with bank0 := { c.bank0 with code := Memory.writeN c.bank0.code 0 bundle } } }).updAt 80 fun c =>
      { c with run := .running, pc := 0, planRun := true, planCtx := 0, planBlk := 0, after := [], holding := false }
  else
    let s := { s with turns := [.issue 0], mem := Memory.writeN s.mem placeAt bundle }
    s.updAt 0 fun c =>
      { c with
        run := .running, pc := placeAt, task := some { r := { code := placeAt }, id := 0 }
        tlb := placePage :: c.tlb, l1i := [], ifetch := [], stopReq := 0, after := [], holding := false }

end Sys2Proof.Machine
end

