-- ==== Sys2Proof/Safety.lean ====
section
/-! DEFINITION. The terms the statements use: the canonical memory, a slot that decoding accepts, registers that can be read or written now. -/

namespace Sys2Proof.Machine

/-- The canonical form of the pod's memory (log 4). -/
def State.memOk (s : State) : Bool := Memory.wf s.mem

/-- The unit in progress issues bundles, and the decode checks of R77 let it execute i. -/
def Accepts (s : State) (i : Instr) : Prop := s.issues = true ∧ guard i s = .ok ()

/-- A register can be read or written now: exposed mode, or it is full and not pending (R78, R111, R112, R475). -/
def Readable (s : State) (r : RegName) : Prop := s.pre.exposed = true ∨ (s.pending r = false ∧ s.pre.fullOf r = true)

/-- The value of a scalar register before the group (R76). -/
def State.sv (s : State) (n : BitVec 6) : DWord := (s.pre.sReg n.toNat).val

/-- The unit in progress finds the byte of memory as it was in every address outside a range. -/
def SameOutside (s t : State) (a n : Nat) : Prop := ∀ x, x < a ∨ a + n ≤ x → Memory.read t.mem x = Memory.read s.mem x

end Sys2Proof.Machine
end

