-- ==== Sys2Proof/Certificates/Slice0/Obligations.lean ====
section
/-! DEFINITION. The statements for the provers, each a Prop that formalises rules of the manual. Helper definitions restate a rule's table or arithmetic in its own terms. -/

namespace Sys2Proof.Machine

/-! ## Scalar slot -/

/-- Bits of an operation: 32 with `.w` (R124). -/
def wide (w : Bool) : Nat := if w then 32 else 64

/-- A register's low 32 or 64 bits as a mathematical integer (R124 `opnd`). -/
def exactOperand (x : DWord) (w u : Bool) : Int :=
  let y := x.toNat % 2 ^ wide w
  if u || decide (y < 2 ^ (wide w - 1)) then (y : Int) else (y : Int) - (2 ^ wide w : Nat)

/-- A mathematical result as 64 bits (R124 `res`): wrapped, and with `.w` extended from bit 31. -/
def wrapped (r : Int) (w u : Bool) : DWord :=
  let y := (r % (2 ^ wide w : Nat)).toNat
  if u || decide (y < 2 ^ (wide w - 1)) then BitVec.ofNat 64 y else BitVec.ofNat 64 (2 ^ 64 - 2 ^ wide w + y)

/-- Destination, sources and exact result of the instructions of R126, by operation. -/
def arithRule : Instr → Option (ArithR × (Int → Int → Int))
  | .add f => some (f, fun a b => a + b)
  | .sub f => some (f, fun a b => a - b)
  | .mul f => some (f, fun a b => a * b)
  | .mulh f => some (f, fun a b => (a * b) / (2 ^ wide f.w : Nat))
  | .min f => some (f, fun a b => if b < a then b else a)
  | .max f => some (f, fun a b => if b < a then a else b)
  | _ => none

/-- Latency of a scalar instruction (R477): 3 for products, else 1. -/
def scalarLatency : Instr → Nat
  | .mul _ | .mulh _ | .muli _ => 3
  | _ => 1

/-- Result of an immediate instruction of R128 on its source. -/
def immRule : Instr → Option (ImmI × (DWord → DWord → DWord))
  | .addi f => some (f, fun a i => BitVec.ofNat 64 (a.toNat + i.toNat))
  | .rsbi f => some (f, fun a i => BitVec.ofInt 64 ((i.toNat : Int) - a.toNat))
  | .muli f => some (f, fun a i => BitVec.ofNat 64 (a.toNat * i.toNat))
  | .andi f => some (f, fun a i => a &&& i)
  | .ori f => some (f, fun a i => a ||| i)
  | .xori f => some (f, fun a i => a ^^^ i)
  | _ => none

/-- Bit i of the result of a logic, shift or rotate instruction on n-bit operands: a and b bit by bit, c the count (R130). -/
def logicRule : Instr → Option (LogicR × (Nat → (Nat → Bool) → (Nat → Bool) → Nat → Nat → Bool))
  | .and f => some (f, fun _ a b _ i => a i && b i)
  | .or f => some (f, fun _ a b _ i => a i || b i)
  | .xor f => some (f, fun _ a b _ i => a i != b i)
  | .andn f => some (f, fun _ a b _ i => a i && !b i)
  | .orn f => some (f, fun _ a b _ i => a i || !b i)
  | .shl f => some (f, fun _ a _ c i => decide (c ≤ i) && a (i - c))
  | .shr f => some (f, fun n a _ c i => decide (i + c < n) && a (i + c))
  | .sar f => some (f, fun n a _ c i => a (min (i + c) (n - 1)))
  | .rol f => some (f, fun n a _ c i => a ((i + n - c) % n))
  | .ror f => some (f, fun n a _ c i => a ((i + c) % n))
  | _ => none

/-- The same of the shifts by an immediate, at 64 bits (R131). -/
def shiftRule : Instr → Option (ShiftI × ((Nat → Bool) → Nat → Nat → Bool))
  | .shli f => some (f, fun a c i => decide (c ≤ i) && a (i - c))
  | .shri f => some (f, fun a c i => decide (i + c < 64) && a (i + c))
  | .sari f => some (f, fun a c i => a (min (i + c) 63))
  | .rori f => some (f, fun a c i => a ((i + c) % 64))
  | _ => none

/-- A comparison code on two 64-bit values (R83), by their unsigned and signed readings. -/
def compares (c : Nat) (a b : DWord) : Prop :=
  match c with
  | 0 => a.toNat = b.toNat
  | 1 => a.toNat ≠ b.toNat
  | 2 => exactOperand a false false < exactOperand b false false
  | 3 => exactOperand b false false ≤ exactOperand a false false
  | 4 => exactOperand a false false ≤ exactOperand b false false
  | 5 => exactOperand b false false < exactOperand a false false
  | 6 => a.toNat < b.toNat
  | 7 => b.toNat ≤ a.toNat
  | 8 => a.toNat ≤ b.toNat
  | 9 => b.toNat < a.toNat
  | 10 => ∃ i, a.getLsbD i = true ∧ b.getLsbD i = true
  | 11 => ∀ i, (a.getLsbD i && b.getLsbD i) = false
  | _ => False

/-- Operands of a comparison: source, other source if it is a register, code, value of b. -/
def compareRule (s : State) : Instr → Option (RegName × BitVec 6 × List (BitVec 6) × Nat × DWord)
  | .cmp f => some (.s f.d.toNat, f.a, [f.b], f.cond.toNat, s.sv f.b)
  | .cmpi f => some (.s f.d.toNat, f.a, [], f.cond.toNat, f.imm.signExtend 64)
  | .cmpp f => some (.p f.p.toNat, f.a, [f.b], f.cond.toNat, s.sv f.b)
  | .cmppi f => some (.p f.p.toNat, f.a, [], f.cond.toNat, f.imm.signExtend 64)
  | _ => none

/-- What a true or false comparison writes: 1 or 0, or every bit of a predicate (R132). -/
def compareValue (d : RegName) (b : Bool) : Nat :=
  match d with
  | .p _ => if b then 2 ^ 512 - 1 else 0
  | _ => if b then 1 else 0

/-- Bit i of a field extraction (R134). -/
def extractBit (x : DWord) (ofs wid : Nat) (sgn : Bool) (i : Nat) : Bool :=
  let y (k : Nat) : Bool := decide (k < wid ∧ ofs + k ≤ 63) && x.getLsbD (ofs + k)
  if i < wid then y i else sgn && decide (0 < wid) && y (wid - 1)

/-- Bit i of a field insertion (R134). -/
def insertBit (d v : DWord) (ofs wid : Nat) (i : Nat) : Bool :=
  if ofs ≤ i ∧ i < ofs + wid then v.getLsbD (i - ofs) else d.getLsbD i

/-- Destination, sources and result bits of the bit-field instructions (R134). -/
def fieldRule (s : State) : Instr → Option (BitVec 6 × List (BitVec 6) × (Nat → Bool))
  | .bfx f => some (f.d, [f.a, f.b], extractBit (s.sv f.a) ((s.sv f.b).toNat % 64) ((s.sv f.b).toNat / 64 % 64) false)
  | .bfxs f => some (f.d, [f.a, f.b], extractBit (s.sv f.a) ((s.sv f.b).toNat % 64) ((s.sv f.b).toNat / 64 % 64) true)
  | .bfxi f => some (f.d, [f.a], extractBit (s.sv f.a) f.ofs.toNat f.wid.toNat false)
  | .bfxsi f => some (f.d, [f.a], extractBit (s.sv f.a) f.ofs.toNat f.wid.toNat true)
  | .bfi f => some (f.d, [f.a, f.b, f.d], insertBit (s.sv f.d) (s.sv f.a) ((s.sv f.b).toNat % 64) ((s.sv f.b).toNat / 64 % 64))
  | .bfii f => some (f.d, [f.a, f.d], insertBit (s.sv f.d) (s.sv f.a) f.ofs.toNat f.wid.toNat)
  | _ => none

/-- Union of the masks of scalar sources (R117). -/
def srcTaint (s : State) (l : List (BitVec 6)) : Taint := l.foldl (fun m n => m ||| (s.pre.sReg n.toNat).taint) 0

end Sys2Proof.Machine

open Sys2Proof Sys2Proof.Machine

/-- R126: `ADD`, `SUB`, `MUL`, `MULH`, `MIN` and `MAX` complete with the exact result wrapped and the union of the masks. -/
def Obligations.ScalarArithmetic : Prop :=
  ∀ (s : State) (i : Instr) (f : ArithR) (op : Int → Int → Int), arithRule i = some (f, op) → Accepts s i →
    Readable s (.s f.a.toNat) → Readable s (.s f.b.toNat) → Readable s (.s f.d.toNat) →
    exec i s = .next (s.result (.s f.d.toNat)
      (wrapped (op (exactOperand (s.sv f.a) f.w f.u) (exactOperand (s.sv f.b) f.w f.u)) f.w f.u).toNat (srcTaint s [f.a, f.b]) (scalarLatency i) 0)

/-- R127: `DIV` and `REM` are long-latency producers of the truncated quotient and the remainder with the sign of a. -/
def Obligations.Division : Prop :=
  ∀ (s : State) (f : ArithR) (rem : Bool),
    let i : Instr := if rem then .rem f else .div f
    let a := exactOperand (s.sv f.a) f.w f.u
    let b := exactOperand (s.sv f.b) f.w f.u
    Accepts s i → Readable s (.s f.a.toNat) → Readable s (.s f.b.toNat) → Readable s (.s f.d.toNat) →
    let n := if f.w then 20 else 36
    let start := max s.now s.core.divFree
    ∃ q r : Int, (b = 0 → q = -1 ∧ r = a) ∧ (b ≠ 0 → a = b * q + r ∧ r.natAbs < b.natAbs ∧ (r ≠ 0 → (0 < r ↔ 0 < a))) ∧
      exec i s = .next ((s.produce (.s f.d.toNat) (wrapped (if rem then r else q) f.w f.u).toNat (srcTaint s [f.a, f.b])
        (start - s.now + n) 0).upd fun c => { c with divFree := start + n })

/-- R128, R129: the immediate instructions and `LEA`. -/
def Obligations.ImmediateAndLea : Prop :=
  (∀ (s : State) (i : Instr) (f : ImmI) (op : DWord → DWord → DWord), immRule i = some (f, op) → Accepts s i →
    Readable s (.s f.a.toNat) → Readable s (.s f.d.toNat) →
    exec i s = .next (s.result (.s f.d.toNat) (op (s.sv f.a) (f.imm.signExtend 64)).toNat (srcTaint s [f.a]) (scalarLatency i) 0)) ∧
  (∀ (s : State) (f : LeaR), Accepts s (.lea f) → Readable s (.s f.a.toNat) → Readable s (.s f.b.toNat) → Readable s (.s f.d.toNat) →
    exec (.lea f) s = .next (s.result (.s f.d.toNat)
      (((s.sv f.a).toNat + (s.sv f.b).toNat * 2 ^ f.sh.toNat) % 2 ^ 64) (srcTaint s [f.a, f.b]) 1 0))

/-- R130, R131: logic, shifts and rotates bit by bit, `POPC` and `CLZ`. -/
def Obligations.LogicAndShifts : Prop :=
  (∀ (s : State) (i : Instr) (f : LogicR) (op : Nat → (Nat → Bool) → (Nat → Bool) → Nat → Nat → Bool), logicRule i = some (f, op) →
    Accepts s i → Readable s (.s f.a.toNat) → Readable s (.s f.b.toNat) → Readable s (.s f.d.toNat) →
    ∃ v : DWord, exec i s = .next (s.result (.s f.d.toNat) v.toNat (srcTaint s [f.a, f.b]) 1 0) ∧
      ∀ k, k < 64 → v.getLsbD k = op (wide f.w) (s.sv f.a).getLsbD (s.sv f.b).getLsbD ((s.sv f.b).toNat % wide f.w) (min k (wide f.w - 1))) ∧
  (∀ (s : State) (i : Instr) (f : ShiftI) (op : (Nat → Bool) → Nat → Nat → Bool), shiftRule i = some (f, op) →
    Accepts s i → Readable s (.s f.a.toNat) → Readable s (.s f.d.toNat) →
    ∃ v : DWord, exec i s = .next (s.result (.s f.d.toNat) v.toNat (srcTaint s [f.a]) 1 0) ∧
      ∀ k, k < 64 → v.getLsbD k = op (s.sv f.a).getLsbD f.c.toNat k) ∧
  (∀ (s : State) (f : UnaryR), Readable s (.s f.a.toNat) → Readable s (.s f.d.toNat) →
    (Accepts s (.popc f) → exec (.popc f) s = .next (s.result (.s f.d.toNat)
      ((List.range 64).countP fun k => (s.sv f.a).getLsbD k) (srcTaint s [f.a]) 1 0)) ∧
    (Accepts s (.clz f) → ∃ n, n ≤ 64 ∧ exec (.clz f) s = .next (s.result (.s f.d.toNat) n (srcTaint s [f.a]) 1 0) ∧
      (∀ k, 64 - n ≤ k → (s.sv f.a).getLsbD k = false) ∧ (n < 64 → (s.sv f.a).getLsbD (63 - n) = true)))

/-- R132, R133: the comparisons, `SEL` and `CMOV`. -/
def Obligations.CompareAndSelect : Prop :=
  (∀ (s : State) (i : Instr) (d : RegName) (a : BitVec 6) (bs : List (BitVec 6)) (c : Nat) (b : DWord), compareRule s i = some (d, a, bs, c, b) →
    Accepts s i → Readable s (.s a.toNat) → (∀ n ∈ bs, Readable s (.s n.toNat)) → Readable s d →
    ∃ r : Bool, (r = true ↔ compares c (s.sv a) b) ∧ exec i s = .next (s.result d (compareValue d r) (srcTaint s (a :: bs)) 1 0)) ∧
  (∀ (s : State) (f : SelR), Accepts s (.sel f) → Readable s (.s f.a.toNat) → Readable s (.s f.b.toNat) → Readable s (.p f.p.toNat) →
    Readable s (.s f.d.toNat) → exec (.sel f) s = .next (s.result (.s f.d.toNat)
      (if (s.pre.pReg f.p.toNat).val.getLsbD 0 then s.sv f.a else s.sv f.b).toNat
      (srcTaint s [f.a, f.b] ||| (s.pre.pReg f.p.toNat).taint) 1 0)) ∧
  (∀ (s : State) (f : BinR), Accepts s (.cmov f) → Readable s (.s f.a.toNat) → Readable s (.s f.b.toNat) → Readable s (.s f.d.toNat) →
    exec (.cmov f) s = .next (s.result (.s f.d.toNat) (if s.sv f.b = 0 then s.sv f.d else s.sv f.a).toNat (srcTaint s [f.a, f.b, f.d]) 1 0))

/-- R134, R135: the bit-field instructions bit by bit, `MOVI` and `MOVL`. -/
def Obligations.FieldsAndConstants : Prop :=
  (∀ (s : State) (i : Instr) (d : BitVec 6) (l : List (BitVec 6)) (bit : Nat → Bool), fieldRule s i = some (d, l, bit) → Accepts s i →
    (∀ n ∈ l, Readable s (.s n.toNat)) → Readable s (.s d.toNat) →
    ∃ v : DWord, exec i s = .next (s.result (.s d.toNat) v.toNat (srcTaint s l) 1 0) ∧ ∀ k, k < 64 → v.getLsbD k = bit k) ∧
  (∀ (s : State) (d : BitVec 6), Readable s (.s d.toNat) →
    (∀ imm : BitVec 18, Accepts s (.movi d imm) →
      exec (.movi d imm) s = .next (s.result (.s d.toNat) (wrapped imm.toInt false false).toNat 0 1 0)) ∧
    (∀ lit : BitVec 64, Accepts s (.movl d lit) → exec (.movl d lit) s = .next (s.result (.s d.toNat) lit.toNat 0 1 0)))

namespace Sys2Proof.Machine

/-! ## Frames, control registers and taint -/

/-- t differs from s at most in the unit in progress: memory, dies, other units and everything else are as before. -/
def OnlyCore (s t : State) : Prop := t = { s with cores := t.cores } ∧ ∀ u, u ≠ s.cur → t.coreAt u = s.coreAt u

/-- A result of the vector slot, issued before the group, is still to be written (R60): a long-latency producer's, a `VPOPQ` among
them, or a fixed-latency one. -/
def fpPending (s : State) : Bool := (s.prior.core.prods.any fun p => p.vx) || s.prior.core.pipe.any fun w => w.vx

/-- What a delayed write does to a register set: its register, if it has one, takes the value, its full bit stays, its taint follows
unless the issue has given it (R112), and the flags are ORed in (R111, R60). -/
def delayed (r : Regs) (w : PipeWrite) : Regs :=
  { (match w.dest with
     | some d => r.put d w.val (r.fullOf d) (if w.il then r.taintOf d else w.taint)
     | none => r) with fp := r.fp ||| w.fp }

/-- CORE_ID of a unit (R205): number within the package, package, die, quad and core, or core number on a control core. -/
def coreIdRule (pkg u : Nat) : Nat :=
  let die := u / 128 % 32
  let n := u % 128
  if 72 ≤ n ∧ n < 74 then 2 ^ 63 + (2 * die + (n - 72)) * 2 ^ 32 + pkg * 2 ^ 22 + die * 2 ^ 17 + (n - 72) * 2 ^ 10
  else (72 * die + n) * 2 ^ 32 + pkg * 2 ^ 22 + die * 2 ^ 17 + n / 4 * 2 ^ 12 + n % 4 * 2 ^ 10

/-- The privileged opcodes and moves of privileged registers (R204, R458), with the register number that their trap reports. -/
def privilegedForm : Instr → Option Nat
  | .tlbinv _ | .tlbinva | .tlbwr _ | .tlbprobe _ | .ctxswSave _ | .ctxswRestore _ | .ctxswStop _ | .dbell _ _ | .tret | .waiti => some 0
  | .pmfcr f | .pmtcr f => some f.crn.toNat
  | .mfcr f | .mtcr f =>
    if (0x100 ≤ f.crn.toNat ∧ f.crn.toNat ≤ 0x105) ∨ (0x110 ≤ f.crn.toNat ∧ f.crn.toNat ≤ 0x113) then some f.crn.toNat else none
  | _ => none

/-- Instructions that read a control register, and those that write one (R136, R458). -/
def crRead : Instr → Option CrK
  | .mfcr f => some f
  | .pmfcr f => some f
  | _ => none

def crWrite : Instr → Option CrK
  | .mtcr f => some f
  | .pmtcr f => some f
  | _ => none

end Sys2Proof.Machine

/-- R60, R109, R111, R112, R113, R475: what a fixed-latency result changes and what it leaves (the frame of every instruction whose
next state is given as a result): it enters the pipe, due at t + L, and in interlocked mode its destination has its taint from the
issue; and when the write is applied, with the flags, in the shadow set too where it is from before the checkpoint. The first clause
(a register of a plan routine has its result for the next group), the pipe as the form in which a pending result stands, and the shadow
set's share of a write are the model's choice (log 15). -/
def Obligations.ResultFrame : Prop :=
  (∀ (s : State) (d : RegName) (v L : Nat) (m : Taint) (fp : BitVec 5) (vx : Bool),
    let t := s.result d v m L fp vx
    OnlyCore s t ∧
    (isPlan s.cur = true →
      t.core = { s.core with live := t.core.live } ∧
      t.core.live = { s.core.live with s := t.core.live.s, v := t.core.live.v, p := t.core.live.p } ∧
      (∀ n, t.core.live.sReg n = if d = .s n ∧ n ≠ 0 then ⟨BitVec.ofNat 64 v, true, m⟩ else s.core.live.sReg n) ∧
      (∀ n, t.core.live.vReg n = if d = .v n then ⟨BitVec.ofNat 4096 v, true, m⟩ else s.core.live.vReg n) ∧
      (∀ n, t.core.live.pReg n = if d = .p n then ⟨BitVec.ofNat 512 v, true, m⟩ else s.core.live.pReg n)) ∧
    (isPlan s.cur = false →
      t.core = { s.core with live := t.core.live, pipe := s.core.pipe ++
        [{ due := s.now + L, sent := s.now, dest := if d = .s 0 then none else some d, val := v
           taint := if s.pre.exposed then m else 0, fp := fp, il := !s.pre.exposed, vx := vx }] } ∧
      (s.pre.exposed = true → t.core.live = s.core.live) ∧
      (s.pre.exposed = false →
        t.core.live = { s.core.live with s := t.core.live.s, v := t.core.live.v, p := t.core.live.p } ∧
        (∀ n, t.core.live.sReg n = if d = .s n ∧ n ≠ 0 then { s.core.live.sReg n with taint := m } else s.core.live.sReg n) ∧
        (∀ n, t.core.live.vReg n = if d = .v n then { s.core.live.vReg n with taint := m } else s.core.live.vReg n) ∧
        (∀ n, t.core.live.pReg n = if d = .p n then { s.core.live.pReg n with taint := m } else s.core.live.pReg n)))) ∧
  (∀ (c : Core) (w : PipeWrite) (now : Nat), c.pipe = [w] →
    (now < w.due → c.settlePipe now = c) ∧
    (w.due ≤ now →
      let t := c.settlePipe now
      t.pipe = [] ∧ t.live = delayed c.live w ∧ t.shadow.regs = (if w.preCk then delayed c.shadow.regs w else c.shadow.regs) ∧
      t = { c with live := t.live, shadow := { c.shadow with regs := t.shadow.regs }, pipe := [] }))

/-- R77, R78, R92, R111, R112: the slot checks: a privileged form at level 0 of a compute core, an instruction of compute cores or a
decoding copy on a control core, and a word with a reserved field set trap; in interlocked mode a scalar source or destination with a
result still to be written waits, an empty source stops its group, with its empty-action bit 1 by the trap 0x05, else by a wait, and an
empty destination waits. That DEC = 1 makes every copy opcode illegal on a control core, before the fields of the word are judged, is
the model's choice (log 73). Every instruction and event answers a next state, or names a unit that
does not exist. -/
def Obligations.SlotChecks : Prop :=
  (∀ (s : State) (i : Instr) (n : Nat), privilegedForm i = some n → s.issues = true → isCompute s.cur = true → s.core.tlevel = 0 →
    ∃ t, exec i s = .next t ∧ (t.coreAt s.cur).sig = some (.trap 0x04 (BitVec.ofNat 64 (s.core.slot + n * 65536)))) ∧
  (∀ (s : State) (i : Instr), computeOnly i = true ∨ copyDec i = true → s.issues = true → isControl s.cur = true →
    ∃ t, exec i s = .next t ∧ (t.coreAt s.cur).sig = some
      (.trap 0x02 (BitVec.ofNat 64 (s.core.slot + opcodeOf i * 256 + if computeOnly i then 65536 else 0)))) ∧
  (∀ (s : State) (i : Instr) (c : Slot) (w : BitVec 64) (l0 l1 : BitVec 32), encode i = some (.slot c w l0 l1) → c ≠ .pms → i.wf = false →
    s.issues = true → isCompute s.cur = true → privilegedForm i = none →
    ∃ t, exec i s = .next t ∧ (t.coreAt s.cur).sig = some (.trap 0x03 (BitVec.ofNat 64 s.core.slot))) ∧
  (∀ (s : State) (i : Instr), (∃ t, exec i s = .next t) ∨ ∃ u, exec i s = .fault (.noSuchUnit u)) ∧
  (∀ (s : State) (i : Instr) (f : ArithR) (op : Int → Int → Int), arithRule i = some (f, op) → Accepts s i → s.pre.exposed = false →
    let ready (n : BitVec 6) : Prop := s.pending (.s n.toNat) = false ∧ (s.pre.sReg n.toNat).full = true
    let stops (e : Stop) : Prop := ∃ t, exec i s = .next t ∧ (t.coreAt s.cur).sig = some e
    (s.pending (.s f.a.toNat) = true → stops (.wait .plain false false)) ∧
    (s.pending (.s f.a.toNat) = false → (s.pre.sReg f.a.toNat).full = false →
      stops (if f.e then .trap 0x05 (BitVec.ofNat 64 (s.core.slot + f.a.toNat * 256)) else .wait .regs false false)) ∧
    (ready f.a → s.pending (.s f.b.toNat) = true → stops (.wait .plain false false)) ∧
    (ready f.a → s.pending (.s f.b.toNat) = false → (s.pre.sReg f.b.toNat).full = false →
      stops (if f.f then .trap 0x05 (BitVec.ofNat 64 (s.core.slot + f.b.toNat * 256)) else .wait .regs false false)) ∧
    (ready f.a → ready f.b → s.pending (.s f.d.toNat) = true → stops (.wait .plain false false)) ∧
    (ready f.a → ready f.b → s.pending (.s f.d.toNat) = false → (s.pre.sReg f.d.toNat).full = false →
      stops (.wait .regs false false)))

/-- R136, R60, R76, R114, R117, R123, R196, R197, R204 to R211, R429, R431, R458: `MFCR` and `PMFCR` put a control register's value and
taint, as before the group, into a scalar register with latency 2; `MTCR` and `PMTCR` write one under its access codes, a read-only one
keeps its value, and in a group the write comes after the group. -/
def Obligations.ControlRegisters : Prop :=
  (∀ (s : State) (i : Instr) (f : CrK), crRead i = some f → Accepts s i → Readable s (.s f.r.toNat) →
    (f.crn.toNat = 0x002 → s.pre.exposed = true ∨ fpPending s = false) →
    ∃ v m, exec i s = .next (s.result (.s f.r.toNat) v m 2 0) ∧
      let n := f.crn.toNat
      let c := s.prior.core
      let word (w : TWord) : Prop := v = w.val.toNat ∧ m = w.taint
      let plain (x : Nat) : Prop := v = x % 2 ^ 64 ∧ m = 0
      (0x018 ≤ n → n < 0x020 → word (s.pre.bReg (n - 0x018))) ∧
      (0x040 ≤ n → n < 0x080 → v = (Tbl.getD s.pre.sd (n - 0x040) {}).val.toNat ∧
        ∀ j, m.getLsbD j = true ↔ ∃ k, k < 4 ∧ (Tbl.getD s.pre.sd ((n - 0x040) / 4 * 4 + k) {}).taint.getLsbD j = true) ∧
      (0x080 ≤ n → n < 0x0A0 → word (Tbl.getD s.pre.ck (n - 0x080) {})) ∧
      (0x0A0 ≤ n → n < 0x0B0 → word (Tbl.getD s.pre.cl (n - 0x0A0) {})) ∧
      (n = 0x002 → plain s.pre.fp.toNat) ∧ (n = 0x003 → plain c.spv.toNat) ∧ (n = 0x020 → plain (s.now - (s.prior.dieAt (s.cur / 128)).since)) ∧
      (n = 0x100 → plain c.trecPc.toNat) ∧ (n = 0x101 → plain c.trecCause.toNat) ∧ (n = 0x104 → plain c.trecInfo.toNat) ∧
      (n = 0x105 → plain c.trecCkpt.toNat) ∧ (n = 0x110 → plain c.tlevel) ∧ (n = 0x111 → plain c.tvec1) ∧
      (n = 0x112 → plain c.tvec2) ∧ (n = 0x113 → plain c.tscratch.toNat) ∧ (n = 0x200 → plain c.ptBase) ∧
      (n = 0x202 → plain c.irqPend.toNat) ∧ (n = 0x203 → plain c.irqMask.toNat) ∧
      (∀ k, c.task = some k → (n = 0x006 → plain k.r.coord.toNat) ∧ (n = 0x007 → plain k.r.frame) ∧ (n = 0x008 → plain k.r.join) ∧
        (n = 0x004 → plain (s.prior.ctxAt (s.cur / 128) k.r.ctx).desc.agelim) ∧
        (n = 0x005 → plain (k.r.ctx * 2 ^ 8 + k.r.rclass * 2 ^ 6 + k.r.role * 2 ^ 4 + k.r.sweep)) ∧
        (n = 0x021 → plain (s.prior.ctxAt (s.cur / 128) k.r.ctx).step.toNat)) ∧
      (c.task = none → n ∈ [0x004, 0x005, 0x006, 0x007, 0x008, 0x021] → plain 0) ∧
      (n = 0x000 → (s.cur / 128 / 32 ∈ s.fabric → plain (coreIdRule (s.cur / 128 / 32) s.cur)) ∧
        (s.cur / 128 / 32 ∉ s.fabric → plain (coreIdRule 0 s.cur))) ∧
      (n = 0x010 → m = 0 ∧ v < 2 ^ 64 ∧ ∀ j, j < 16 → v.testBit j = s.pre.ct.getLsbD j ∧
        v.testBit (16 + j) = decide ((c.tag j).st = .pending) ∧ v.testBit (32 + j) = decide ((c.tag j).st = .bound) ∧
        v.testBit (48 + j) = (c.tag j).hold) ∧
      (n = 0x011 → m = 0 ∧ v < 2 ^ 48 ∧ ∀ j, j < 16 → v / 8 ^ j % 8 = (c.tag j).gen.toNat) ∧
      (n = 0x030 → plain (if c.pinLost then 1 else 0)) ∧
      (0x0C0 ≤ n → n < 0x0C8 → plain (Tbl.getD c.pmc (n - 0x0C0) 0).toNat) ∧
      (0x0C8 ≤ n → n < 0x0D0 → plain (Tbl.getD c.pmsel (n - 0x0C8) 0).toNat) ∧
      (n = 0x0D0 → plain c.traceCtl.toNat) ∧
      (n = 0x0D1 → plain ((if c.traceStopped then 2 ^ 15 else 0) + (if c.traceWrapped then 2 ^ 14 else 0) + c.traceW % 2 ^ 14)) ∧
      (n = 0x102 → plain c.trecOp.toNat) ∧ (n = 0x103 → plain c.trecTile.toNat) ∧
      (n = 0x201 → plain (s.prior.dieAt (s.cur / 128)).partition)) ∧
  (∀ (s : State) (i : Instr) (f : CrK), crWrite i = some f → Accepts s i → Readable s (.s f.r.toNat) → s.core.inGroup = false →
    ∃ t, exec i s = .next t ∧
      let n := f.crn.toNat
      let v := s.sv f.r
      let m := (s.pre.sReg f.r.toNat).taint
      let c := s.core
      (n ≠ 0x201 → OnlyCore s t) ∧
      (0x018 ≤ n → n < 0x020 → t.core = { c with live := t.core.live, dynB := t.core.dynB, bWrote := t.core.bWrote } ∧
        ∀ k, t.core.live.bReg k = if k = n - 0x018 then ⟨v &&& 0xFFFFFFFFFFFFFFFC#64, m⟩ else c.live.bReg k) ∧
      (0x080 ≤ n → n < 0x0A0 → t.core = { c with live := { c.live with ck := t.core.live.ck } } ∧
        ∀ k, Tbl.getD t.core.live.ck k {} = if k = n - 0x080 then ⟨v, m⟩ else Tbl.getD c.live.ck k {}) ∧
      (0x0A0 ≤ n → n < 0x0B0 → t.core = { c with live := { c.live with cl := t.core.live.cl } } ∧
        ∀ k, Tbl.getD t.core.live.cl k {} = if k = n - 0x0A0 then ⟨v, m⟩ else Tbl.getD c.live.cl k {}) ∧
      (n = 0x002 → t.core = { c with live := { c.live with fp := t.core.live.fp } } ∧
        ∀ k, k < 5 → t.core.live.fp.getLsbD k = (c.live.fp.getLsbD k && !v.getLsbD k)) ∧
      (n = 0x003 → t.core = { c with spv := t.core.spv } ∧ t.core.spv.getLsbD 0 = v.getLsbD 0 ∧
        ∀ k, 0 < k → k < 64 → t.core.spv.getLsbD k = (c.spv.getLsbD k && !v.getLsbD 1)) ∧
      (n = 0x111 → t.core = { c with tvec1 := v.toNat / 4 * 4 }) ∧ (n = 0x112 → t.core = { c with tvec2 := v.toNat / 4 * 4 }) ∧
      (n = 0x113 → t.core = { c with tscratch := v }) ∧
      (n = 0x201 → t = { s with dies := t.dies } ∧ (t.dieAt (s.cur / 128)).partition = v.toNat % 256) ∧
      (n = 0x202 → t.core = { c with irqPend := t.core.irqPend } ∧ ∀ k, k < 6 → t.core.irqPend.getLsbD k = (c.irqPend.getLsbD k && !v.getLsbD k)) ∧
      (n = 0x203 → t.core = { c with irqMask := t.core.irqMask } ∧ ∀ k, k < 6 → t.core.irqMask.getLsbD k = v.getLsbD k) ∧
      (n ∈ [0x000, 0x004, 0x005, 0x006, 0x007, 0x008, 0x010, 0x011, 0x020, 0x021, 0x0D1, 0x100, 0x101, 0x102, 0x103, 0x104, 0x105, 0x110] → t = s) ∧
      (0x040 ≤ n → n < 0x080 → t = s) ∧
      (n = 0x200 → t.core = { c with ptBase := v.toNat / 2 ^ 12 % 2 ^ 40 * 2 ^ 12 }) ∧
      (n = 0x030 → t.core = { c with pinLost := c.pinLost && !v.getLsbD 0, pinWrote := c.pinWrote || v.getLsbD 0 }) ∧
      (0x0C0 ≤ n → n < 0x0C8 →
        t.core = { c with pmc := t.core.pmc, pmcNow := t.core.pmcNow, ovfNow := t.core.ovfNow, pmsel := t.core.pmsel } ∧
        (∀ k, Tbl.getD t.core.pmc k 0 = if k = n - 0x0C0 then v + BitVec.ofNat 64 (Tbl.getD c.pmcNow k 0) else Tbl.getD c.pmc k 0) ∧
        (∀ k, k ≠ n - 0x0C0 → Tbl.getD t.core.pmsel k 0 = Tbl.getD c.pmsel k 0) ∧
        ∀ j, (Tbl.getD t.core.pmsel (n - 0x0C0) 0).getLsbD j = (if j = 62 then
            decide (2 ^ 64 ≤ v.toNat + Tbl.getD c.pmcNow (n - 0x0C0) 0) ||
              (!c.ovfNow.contains (n - 0x0C0) && (Tbl.getD c.pmsel (n - 0x0C0) 0).getLsbD 62)
          else (Tbl.getD c.pmsel (n - 0x0C0) 0).getLsbD j)) ∧
      (0x0C8 ≤ n → n < 0x0D0 → t.core = { c with pmsel := t.core.pmsel } ∧
        (∀ k, k ≠ n - 0x0C8 → Tbl.getD t.core.pmsel k 0 = Tbl.getD c.pmsel k 0) ∧
        ∀ j, (Tbl.getD t.core.pmsel (n - 0x0C8) 0).getLsbD j = (if j = 62 then (Tbl.getD c.pmsel (n - 0x0C8) 0).getLsbD 62 && !v.getLsbD 62
          else decide (j = 63 ∨ j < 8) && v.getLsbD j)) ∧
      (n = 0x0D0 →
        let sync : List Byte := 0x10#8 :: ((List.range 8).map fun k => BitVec.ofNat 8 (c.pc / 256 ^ k)) ++
          (List.range 6).map fun k => BitVec.ofNat 8 ((s.now - (s.dieAt (s.cur / 128)).since) % 2 ^ 48 / 256 ^ k)
        (v.getLsbD 0 = c.traceCtl.getLsbD 0 → t.core = { c with traceCtl := v.setWidth 3 }) ∧
        (v.getLsbD 0 = true → c.traceCtl.getLsbD 0 = false → t.core = { c with
          traceCtl := v.setWidth 3, traceW := 0, traceStopped := false, traceWrapped := false, staged := sync, atoms := [], sinceSync := 0, dynB := [] }) ∧
        (v.getLsbD 0 = false → c.traceCtl.getLsbD 0 = true →
          t.core.traceCtl = v.setWidth 3 ∧ t.core.staged = [] ∧
          (c.traceStopped = false → c.staged = [] → c.atoms = [] → c.sinceSync < 1024 → c.traceW + 1 < 16384 →
            t.core = { c with traceCtl := v.setWidth 3, traceBuf := Memory.write c.traceBuf c.traceW 0xFF#8
                              traceW := c.traceW + 1, sinceSync := c.sinceSync + 1 })))) ∧
  (∀ (s : State) (i : Instr) (f : CrK), crWrite i = some f → Accepts s i → Readable s (.s f.r.toNat) →
    (s.core.inGroup = true → exec i s = .next (s.upd fun c => { c with crw := Tbl.set c.crw f.crn.toNat (s.sv f.r, (s.pre.sReg f.r.toNat).taint) })) ∧
    (s.core.inGroup = false → exec i s = .next (s.writeCr f.crn.toNat (s.sv f.r) (s.pre.sReg f.r.toNat).taint))) ∧
  (∀ (s : State) (n : Nat) (v : DWord) (m : Taint), s.core.crw = [(n, v, m)] →
    s.writeCrs = (s.upd fun c => { c with crw := [] }).writeCr n v m)

/-- R76, R120, R137: the taint moves: `TCLR` and `TCLR.C` clear a mask, a result due by then included, `TGET` reads masks, `TSPILL` makes a token and sets holds,
`TFILL` gives a value back the tags of its token that still have it (R119: one that its own group has freed or retired it does not name). -/
def Obligations.TaintMoves : Prop :=
  (∀ (s : State) (d : BitVec 6), Accepts s (.tclr d) → ∃ t, exec (.tclr d) s = .next t ∧ OnlyCore s t ∧
    t.core = { s.core with
      live := { s.core.live with s := t.core.live.s }
      pipe := s.core.pipe.map fun w => if w.due ≤ s.now + 1 ∧ w.dest = some (.s d.toNat) then { w with taint := 0 } else w } ∧
    ∀ n, t.core.live.sReg n = if n = d.toNat ∧ n ≠ 0 then { s.core.live.sReg n with taint := 0 } else s.core.live.sReg n) ∧
  (∀ s : State, Accepts s .tclrC → exec .tclrC s = .next (s.live fun r => { r with ct := 0 })) ∧
  (∀ (s : State) (f : UnaryR), Accepts s (.tget f) → Readable s (.s f.d.toNat) →
    exec (.tget f) s = .next (s.result (.s f.d.toNat)
      ((s.pre.sReg f.a.toNat).taint.toNat + s.pre.ct.toNat * 2 ^ 16 + s.prior.core.pendingMask.toNat * 2 ^ 32) 0 1 0)) ∧
  (∀ (s : State) (f : UnaryR), Accepts s (.tspill f) → Readable s (.s f.d.toNat) →
    let m := (s.pre.sReg f.a.toNat).taint
    ∃ (v : DWord) (t : State), exec (.tspill f) s = .next t ∧
      t = (s.result (.s f.d.toNat) v.toNat 0 1 0).upd (fun c => { c with tags := t.core.tags }) ∧
      (∀ j, j < 16 → v.toNat / 2 ^ (4 * j) % 16 = if m.getLsbD j then 8 + (s.prior.core.tag j).gen.toNat else 0) ∧
      ∀ j, t.core.tag j = if m.getLsbD j then { s.core.tag j with hold := true } else s.core.tag j) ∧
  (∀ (s : State) (f : BinR), Accepts s (.tfill f) → Readable s (.s f.a.toNat) → Readable s (.s f.b.toNat) → Readable s (.s f.d.toNat) →
    ∃ m : Taint, exec (.tfill f) s = .next (s.result (.s f.d.toNat) (s.sv f.a).toNat (srcTaint s [f.a, f.b] ||| m) 1 0) ∧
      ∀ j, j < 16 → (m.getLsbD j = true ↔
        8 + (s.prior.core.tag j).gen.toNat = (s.sv f.b).toNat / 2 ^ (4 * j) % 16 ∧ (s.prior.core.tag j).st ≠ .free ∧
        8 + (s.core.tag j).gen.toNat = (s.sv f.b).toNat / 2 ^ (4 * j) % 16 ∧ (s.core.tag j).st ≠ .free))

namespace Sys2Proof.Machine

/-! ## Vector slot: repetitions (R144, R146, R477, R478) -/

/-- The register whose element i of width w is g i (R139). -/
def lanes (w : Nat) (g : Nat → Nat) : VReg := vecOf w ((List.range (4096 / w)).map g)

/-- One vector instruction: the registers that repetition k reads and writes, the scalars and predicates it reads, and what
repetition k writes where the vector file is as given, with the conditions it raises. -/
structure RepRule where
  f : VWord
  lat : Nat
  occ : Nat := 1
  scal : List (BitVec 6) := []
  preds : List (BitVec 3) := []
  reads : Nat → List Nat
  dests : Nat → List Nat
  outs : (Nat → VReg) → Nat → List VReg × Fl

/-- The vector file a repetition sees (R144): value and taint of each register. -/
abbrev VFile := Nat → VReg × Taint

/-- A repetition that has been done: its number, its writes, their taint and its conditions. -/
structure RepDone where
  k : Nat
  outs : List (Nat × VReg)
  taint : Taint
  fl : Fl

/-- What repetition k does: the union of the taints it reads goes to each result (R117, R143). -/
def RepRule.one (r : RepRule) (s : State) (file : VFile) (k : Nat) : RepDone :=
  let o := r.outs (fun m => (file m).1) k
  { k := k, outs := (r.dests k).zip o.1, fl := o.2
    taint := (r.reads k).foldl (fun z m => z ||| (file m).2) 0 ||| srcTaint s r.scal |||
      r.preds.foldl (fun z p => z ||| (s.pre.pReg p.toNat).taint) 0 }

/-- Repetitions k to k + n − 1: each reads what the earlier ones wrote (R144). -/
def RepRule.run (r : RepRule) (s : State) : Nat → Nat → VFile → List RepDone
  | 0, _, _ => []
  | n + 1, k, file =>
    let d := r.one s file k
    d :: r.run s n (k + 1) (d.outs.foldl (fun z w m => if m = w.1 then (w.2, d.taint) else z m) file)

/-- A repetition reads what an earlier one writes (R478). -/
def RepRule.chained (r : RepRule) : Bool :=
  (List.range (r.f.rpt.toNat + 1)).any fun k => (List.range k).any fun j => (r.reads k).any fun m => (r.dests j).contains m

/-- The next state: repetition k's results with latency k × p + L, p being L for a chain and else 1 (R477, R478). -/
def RepRule.next (r : RepRule) (s : State) : State :=
  let p := if r.chained then r.lat else 1
  ((r.run s (r.f.rpt.toNat + 1) 0 fun m => ((s.pre.vReg m).val, (s.pre.vReg m).taint)).foldl (fun t d =>
      (d.outs.foldl (fun (a : State × Fl) w => (a.1.result (.v w.1) w.2.toNat d.taint (d.k * p + r.lat) a.2 true, 0)) (t, d.fl)).1) s).upd
    fun c => { c with vxFree := s.now + r.f.rpt.toNat * p + r.occ }

/-- Every register an instruction reads or writes can be read or written now. -/
def RepRule.ready (r : RepRule) (s : State) : Prop :=
  (∀ k, k ≤ r.f.rpt.toNat → ∀ m ∈ r.reads k ++ r.dests k, Readable s (.v m)) ∧
  (∀ n ∈ r.scal, Readable s (.s n.toNat)) ∧ ∀ n ∈ r.preds, Readable s (.p n.toNat)

/-- The template of R146: element i from sources a, b (a scalar in every element with BS = 1) and c; an inactive element
keeps its old value (R143). -/
def laneRule (s : State) (f : VWord) (a b c : Bool) (lat occ : Nat) (scal : List (BitVec 6)) (preds : List (BitVec 3))
    (fn : VReg → VReg → VReg → Nat → Nat × Fl) : RepRule :=
  let w := typeW f.typ.toNat
  let act (i : Nat) : Bool := !f.pen || (s.pre.pReg f.pg.toNat).val.getLsbD (w * i / 8)
  { f := f, lat := lat, occ := occ
    scal := scal ++ if b && f.bs then [f.vb] else []
    preds := preds ++ if f.pen then [f.pg] else []
    reads := fun k => (if a then [f.va.toNat + k] else []) ++ (if b && !f.bs then [f.vb.toNat + k] else []) ++
      (if c then [f.vc.toNat + k] else []) ++ if f.pen then [f.vd.toNat + k] else []
    dests := fun k => [f.vd.toNat + k]
    outs := fun file k =>
      let res := fn (file (f.va.toNat + k)) (if f.bs then lanes w fun _ => (s.sv f.vb).toNat % 2 ^ w else file (f.vb.toNat + k)) (file (f.vc.toNat + k))
      ([lanes w fun i => if act i then (res i).1 else elem w (file (f.vd.toNat + k)) i],
        ((List.range (4096 / w)).filter act).foldl (fun z i => z ||| (res i).2) 0) }

/-- An integer element's value: a signed type for an even code (R79). -/
def laneInt (t x : Nat) : Int := if t % 2 = 0 ∧ 2 ^ (typeW t - 1) ≤ x then (x : Int) - (2 ^ typeW t : Nat) else x

/-- An exact integer as an element: its low w bits, or with SAT the nearest end of the type's range (R56, R147). -/
def fitInt (t : Nat) (sat : Bool) (v : Int) : Nat :=
  let lo : Int := if t % 2 = 0 then -(2 ^ (typeW t - 1) : Nat) else 0
  let hi : Int := if t % 2 = 0 then (2 ^ (typeW t - 1) : Nat) - 1 else (2 ^ typeW t : Nat) - 1
  ((if sat then max lo (min hi v) else v) % (2 ^ typeW t : Nat)).toNat

/-- Sources b and c, latency on integers, and the exact integer function of the arithmetic of R147. -/
def vectorInt : Instr → Option (VWord × Bool × Bool × Nat × (Int → Int → Int → Int))
  | .vadd f => some (f, true, false, 2, fun a b _ => a + b)
  | .vsub f => some (f, true, false, 2, fun a b _ => a - b)
  | .vmul f => some (f, true, false, 3, fun a b _ => a * b)
  | .vmulh f => some (f, true, false, 3, fun a b _ => (a * b) / (2 ^ typeW f.typ.toNat : Nat))
  | .vfma f => some (f, true, true, 3, fun a b c => a * b + c)
  | .vfms f => some (f, true, true, 3, fun a b c => a * b - c)
  | .vfnma f => some (f, true, true, 3, fun a b c => -(a * b) + c)
  | .vabs f => some (f, false, false, 2, fun a _ _ => max a (-a))
  | .vneg f => some (f, false, false, 2, fun a _ _ => -a)
  | .vmin f => some (f, true, false, 2, fun a b _ => min a b)
  | .vmax f => some (f, true, false, 2, fun a b _ => max a b)
  | .vclamp f => some (f, true, true, 2, fun a b c => min (max a b) c)
  | _ => none

/-- Sources b and c, latency on floating point, and the exact value with its conditions (R57, R58, R147). -/
def vectorFp : Instr → Option (VWord × Bool × Bool × Nat × (Fv → Fv → Fv → Fv × Fl))
  | .vadd f => some (f, true, false, 4, fun a b _ => Fv.add (Rm.ofCode f.rm.toNat) a b)
  | .vsub f => some (f, true, false, 4, fun a b _ => Fv.add (Rm.ofCode f.rm.toNat) a b.neg)
  | .vmul f => some (f, true, false, 4, fun a b _ => Fv.mul a b)
  | .vfma f => some (f, true, true, 4, fun a b c => Fv.fma (Rm.ofCode f.rm.toNat) a b c)
  | .vfms f => some (f, true, true, 4, fun a b c => Fv.fma (Rm.ofCode f.rm.toNat) a b c.neg)
  | .vfnma f => some (f, true, true, 4, fun a b c => Fv.fma (Rm.ofCode f.rm.toNat) a.neg b c)
  | .vabs f => some (f, false, false, 2, fun a _ _ => (if a.isNeg then a.neg else a.abs, 0))
  | .vneg f => some (f, false, false, 2, fun a _ _ => (a.neg, 0))
  | .vmin f => some (f, true, false, 4, fun a b _ => (a.min b, 0))
  | .vmax f => some (f, true, false, 4, fun a b _ => (a.max b, 0))
  | .vclamp f => some (f, true, true, 4, fun a b c => ((a.max b).min c, 0))
  | _ => none

/-- A floating-point result of a vector word: rounded once under its RM and SAT (R55). -/
def roundLane (s : State) (f : VWord) (t : Nat) (v : Fv × Fl) : Nat × Fl :=
  let r := (fmtOf t).round { rm := Rm.ofCode f.rm.toNat, sat := f.sat, flush := s.pre.exposed } v.1
  (r.1, v.2 ||| r.2)

/-- The logic, shift, selection, broadcast and permutation instructions, element by element (R148, R149, R151, R153, R159,
R160, R162). -/
def vectorMove (s : State) : Instr → Option RepRule
  | .vand f => some (laneRule s f true true false 2 1 [] [] fun a b _ i => (elem (typeW f.typ.toNat) (a &&& b) i, 0))
  | .vor f => some (laneRule s f true true false 2 1 [] [] fun a b _ i => (elem (typeW f.typ.toNat) (a ||| b) i, 0))
  | .vxor f => some (laneRule s f true true false 2 1 [] [] fun a b _ i => (elem (typeW f.typ.toNat) (a ^^^ b) i, 0))
  | .vnot f => some (laneRule s f true false false 2 1 [] [] fun a _ _ i => (elem (typeW f.typ.toNat) (~~~a) i, 0))
  | .vmov f => some (laneRule s f true false false 2 1 [] [] fun a _ _ i => (elem (typeW f.typ.toNat) a i, 0))
  | .vshl f => some (laneRule s f true true false 2 1 [] [] fun a b _ i =>
      let w := typeW f.typ.toNat
      (elem w a i * 2 ^ elem w b i % 2 ^ w, 0))
  | .vshr f => some (laneRule s f true true false 2 1 [] [] fun a b _ i => (elem (typeW f.typ.toNat) a i / 2 ^ elem (typeW f.typ.toNat) b i, 0))
  | .vsar f => some (laneRule s f true true false 2 1 [] [] fun a b _ i =>
      let w := typeW f.typ.toNat
      let x := elem w a i
      let v : Int := if 2 ^ (w - 1) ≤ x then (x : Int) - (2 ^ w : Nat) else x
      ((v / (2 ^ elem w b i : Nat) % (2 ^ w : Nat)).toNat, 0))
  | .vdot4 f => some (laneRule s f true true true 4 1 [] [] fun a b c i =>
      let byte (t : Nat) (x : VReg) (j : Nat) : Int := laneInt t (elem 8 x (4 * i + j))
      let ta := if f.imm.getLsbD 0 then 3 else 2
      let tb := if f.imm.getLsbD 1 then 3 else 2
      (fitInt f.typ.toNat f.sat (laneInt f.typ.toNat (elem 32 c i) + byte ta a 0 * byte tb b 0 + byte ta a 1 * byte tb b 1 +
        byte ta a 2 * byte tb b 2 + byte ta a 3 * byte tb b 3), 0))
  | .vsel f => some (laneRule s f true true false 2 1 [] [f.vc.setWidth 3] fun a b _ i =>
      let w := typeW f.typ.toNat
      (elem w (if (s.pre.pReg (f.vc.toNat % 8)).val.getLsbD (w * i / 8) then a else b) i, 0))
  | .viota f => some (laneRule s f false false false 2 1 [] [] fun _ _ _ i => (i % 2 ^ typeW f.typ.toNat, 0))
  | .vperm f => some (laneRule s f true true false 3 1 [] [] fun a b _ i =>
      let w := typeW f.typ.toNat
      let x := elem w b i
      (elem w a (if w = 8 then 256 * (i / 256) + x % 256 else x % (4096 / w)), 0))
  | .vrot f => some (laneRule s f true false false 3 1 (if f.bs then [f.vb] else []) [] fun a _ _ i =>
      let w := typeW f.typ.toNat
      (elem w a ((i + if f.bs then (s.sv f.vb).toNat % (4096 / w) else f.imm.toNat) % (4096 / w)), 0))
  | .vbcst f => some (
      if f.bs then laneRule s f false true false 3 1 [] [] fun _ b _ i => (elem (typeW f.typ.toNat) b i, 0)
      else laneRule s f true false false 3 1 [] [] fun a _ _ _ => (elem (typeW f.typ.toNat) a f.imm.toNat, 0))
  | .vbcsti f lit => some (laneRule s f false false false 3 1 [] [] fun _ _ _ _ => (lit.toNat % 2 ^ typeW f.typ.toNat, 0))
  | .vins f => some
      { f := f, lat := 3, scal := [f.vb], reads := fun k => [f.vd.toNat + k], dests := fun k => [f.vd.toNat + k]
        outs := fun file k =>
          let w := typeW f.typ.toNat
          ([lanes w fun i => if i = f.imm.toNat then (s.sv f.vb).toNat % 2 ^ w else elem w (file (f.vd.toNat + k)) i], 0) }
  | .vzip f => some
      { f := f, lat := 3, reads := fun k => [f.va.toNat + k, f.vb.toNat + k], dests := fun k => [f.vd.toNat + 2 * k, f.vd.toNat + 2 * k + 1]
        outs := fun file k =>
          let w := typeW f.typ.toNat
          let c (j : Nat) : Nat := elem w (file (if j % 2 = 0 then f.va.toNat + k else f.vb.toNat + k)) (j / 2)
          ([lanes w c, lanes w fun i => c (4096 / w + i)], 0) }
  | .vunzip f => some
      { f := f, lat := 3, reads := fun k => [f.va.toNat + k, f.vb.toNat + k], dests := fun k => [f.vd.toNat + 2 * k, f.vd.toNat + 2 * k + 1]
        outs := fun file k =>
          let w := typeW f.typ.toNat
          let n := 4096 / w
          let c (j : Nat) : Nat := if j < n then elem w (file (f.va.toNat + k)) j else elem w (file (f.vb.toNat + k)) (j - n)
          ([lanes w fun i => c (2 * i), lanes w fun i => c (2 * i + 1)], 0) }
  | _ => none

/-- One element converted from type src to type dst (R56, R155). -/
def convertLane (s : State) (f : VWord) (dst src x : Nat) : Nat × Fl :=
  if typeIsFp dst then roundLane s f dst (if typeIsFp src then (fmtOf src).read s.pre.exposed x else Fv.ofInt false (laneInt src x) 0, 0)
  else if typeIsFp src then
    let r := Fv.toInt (Rm.ofCode f.rm.toNat) (if dst % 2 = 0 then -(2 ^ (typeW dst - 1) : Nat) else 0)
      (if dst % 2 = 0 then (2 ^ (typeW dst - 1) : Nat) - 1 else (2 ^ typeW dst : Nat) - 1) ((fmtOf src).read s.pre.exposed x)
    (fitInt dst false r.1, r.2)
  else (fitInt dst (f.sat && decide (typeW dst ≤ typeW src)) (laneInt src x), 0)

/-- `VWIDEN` and `VWIDEN4`: element j of VA goes to element j / q of register VD + j mod q (R155). -/
def widenRule (s : State) (f : VWord) (q : Nat) : RepRule :=
  let dst := f.typ.toNat
  let src := f.imm.toNat % 16
  { f := f, lat := 4, reads := fun k => [f.va.toNat + k], dests := fun k => (List.range q).map fun p => f.vd.toNat + q * k + p
    outs := fun file k =>
      let e (j : Nat) : Nat × Fl := convertLane s f dst src (elem (typeW src) (file (f.va.toNat + k)) j)
      ((List.range q).map fun p => lanes (typeW dst) fun i => (e (q * i + p)).1,
        (List.range (q * (4096 / typeW dst))).foldl (fun z j => z ||| (e j).2) 0) }

/-- `VNARROW` and `VNARROW4`: element j of VD comes from element j / q of register VA + j mod q (R155). -/
def narrowRule (s : State) (f : VWord) (q : Nat) : RepRule :=
  let dst := f.typ.toNat
  let src := f.imm.toNat % 16
  { f := f, lat := 4, reads := fun k => (List.range q).map fun p => f.va.toNat + q * k + p, dests := fun k => [f.vd.toNat + k]
    outs := fun file k =>
      let e (j : Nat) : Nat × Fl := convertLane s f dst src (elem (typeW src) (file (f.va.toNat + q * k + j % q)) (j / q))
      ([lanes (typeW dst) fun j => (e j).1], (List.range (4096 / typeW dst)).foldl (fun z j => z ||| (e j).2) 0) }

/-- The conversions and special functions (R154 to R157, R163). -/
def vectorConvert (s : State) : Instr → Option RepRule
  | .vcvt f => some (laneRule s f true false false 4 1 [] [] fun a _ _ i =>
      convertLane s f f.typ.toNat (f.imm.toNat % 16) (elem (typeW f.typ.toNat) a i))
  | .vwiden f => some (widenRule s f 2)
  | .vwiden4 f => some (widenRule s f 4)
  | .vnarrow f => some (narrowRule s f 2)
  | .vnarrow4 f => some (narrowRule s f 4)
  | .vbpack f => some
      { f := f, lat := 6, occ := 4, reads := fun k => [f.va.toNat + k], dests := fun k => [f.vd.toNat + k, f.vc.toNat + k]
        outs := fun file k =>
          let src := f.imm.toNat % 16
          let m := f.imm.toNat / 16
          let w := typeW src
          let block (b : Nat) := bfpQuantise ((List.range 16).map fun i =>
            (fmtOf src).read s.pre.exposed (elem w (file (f.va.toNat + k)) (16 * b + i))) m (Rm.ofCode f.rm.toNat)
          let bs := (List.range (4096 / w / 16)).map block
          ([vecOf m (bs.flatMap fun b => b.2.1), vecOf 8 (bs.map fun b => b.1)], bs.foldl (fun z b => z ||| b.2.2) 0) }
  | .vbunpk f => some (laneRule s f true false true 6 4 [] [] fun a _ c i =>
      let m := f.imm.toNat / 16
      roundLane s f f.typ.toNat (bfpRead m (elem m a i) (elem 8 c (i / 16)), 0))
  | .vexp2 f => some (special s f .exp2)
  | .vlog2 f => some (special s f .log2)
  | .vrcp f => some (special s f .rcp)
  | .vrsq f => some (special s f .rsq)
  | .vtanh f => some (special s f .tanh)
  | .vsigm f => some (special s f .sigm)
  | _ => none
where
  special (s : State) (f : VWord) (op : Sp) : RepRule :=
    laneRule s f true false false 8 2 [] [] fun a _ _ i =>
      op.eval (fmtOf f.typ.toNat) { rm := Rm.ofCode f.rm.toNat, sat := f.sat, flush := s.pre.exposed } (elem (typeW f.typ.toNat) a i)

end Sys2Proof.Machine

/-- R143, R144, R146, R147: the elementwise arithmetic on integer types, in every repetition and under predication. That a result
whose elements are all inactive takes the taint of the sources too is the model's choice (log 74). -/
def Obligations.VectorInteger : Prop :=
  ∀ (s : State) (i : Instr) (f : VWord) (b c : Bool) (lat : Nat) (op : Int → Int → Int → Int),
    vectorInt i = some (f, b, c, lat, op) → typeIsFp f.typ.toNat = false → Accepts s i →
    let w := typeW f.typ.toNat
    let t := f.typ.toNat
    let r := laneRule s f true b c lat 1 [] [] fun x y z k =>
      (fitInt t f.sat (op (laneInt t (elem w x k)) (laneInt t (elem w y k)) (laneInt t (elem w z k))), 0)
    r.ready s → exec i s = .next (r.next s)

/-- R55, R57, R58, R147: the elementwise arithmetic on floating-point types: the exact value, rounded once. That `VABS` and `VNEG`
flush a subnormal in exposed mode (log 34), `.sat` on an exact infinity (log 67) and the taint of a result whose elements are all
inactive (log 74) are the model's choice. -/
def Obligations.VectorFloatingPoint : Prop :=
  ∀ (s : State) (i : Instr) (f : VWord) (b c : Bool) (lat : Nat) (op : Fv → Fv → Fv → Fv × Fl),
    vectorFp i = some (f, b, c, lat, op) → typeIsFp f.typ.toNat = true → Accepts s i →
    let t := f.typ.toNat
    let val (x : VReg) (k : Nat) : Fv := (fmtOf t).read s.pre.exposed (elem (typeW t) x k)
    let r := laneRule s f true b c lat 1 [] [] fun x y z k => roundLane s f t (op (val x k) (val y k) (val z k))
    r.ready s → exec i s = .next (r.next s)

/-- R148, R149, R151, R153, R159 to R162: the logic, shift, selection, permutation and broadcast instructions. That a predicated result
whose elements are all inactive takes the taint of the sources too is the model's choice (log 74). -/
def Obligations.VectorMoves : Prop :=
  ∀ (s : State) (i : Instr) (r : RepRule), vectorMove s i = some r → Accepts s i → r.ready s → exec i s = .next (r.next s)

/-- R154 to R157, R163, R164: the conversions, block floating point and the special functions. The taint of a predicated result whose
elements are all inactive (log 74), SAT of a widening conversion (log 35) and `VEXP2` below -149 (log 2) are the model's choice. -/
def Obligations.VectorConversions : Prop :=
  ∀ (s : State) (i : Instr) (r : RepRule), vectorConvert s i = some r → Accepts s i → r.ready s → exec i s = .next (r.next s)

namespace Sys2Proof.Machine

/-! ## Predicates, comparisons, reductions, lines and queue rows -/

/-- A predicate before the group, named in bits [2:0] of a field (R152). -/
def State.pv (s : State) (n : BitVec 6) : PReg := (s.pre.pReg (n.toNat % 8)).val

def predsTaint (s : State) (l : List (BitVec 6)) : Taint := l.foldl (fun z n => z ||| (s.pre.pReg (n.toNat % 8)).taint) 0

/-- Sources and result bits of the predicate instructions of R152. -/
def predRule (s : State) : Instr → Option (VWord × List (BitVec 6) × (Nat → Bool))
  | .pand f => some (f, [f.va, f.vb], fun k => (s.pv f.va).getLsbD k && (s.pv f.vb).getLsbD k)
  | .por f => some (f, [f.va, f.vb], fun k => (s.pv f.va).getLsbD k || (s.pv f.vb).getLsbD k)
  | .pxor f => some (f, [f.va, f.vb], fun k => (s.pv f.va).getLsbD k != (s.pv f.vb).getLsbD k)
  | .pnot f => some (f, [f.va], fun k => !(s.pv f.va).getLsbD k)
  | .pmov f => some (f, [f.va], fun k => (s.pv f.va).getLsbD k)
  | _ => none

/-- Element i of a vector word is active (R140, R143). -/
def active (s : State) (f : VWord) (i : Nat) : Prop :=
  f.pen = false ∨ (s.pre.pReg f.pg.toNat).val.getLsbD (typeW f.typ.toNat * i / 8) = true

/-- Element i of the source of a vector word with one vector source VA. -/
def laneA (s : State) (f : VWord) (i : Nat) : Nat := elem (typeW f.typ.toNat) (s.pre.vReg f.va.toNat).val i

/-- Element i of source b: VB, or the low bits of a scalar (R146). -/
def laneB (s : State) (f : VWord) (i : Nat) : Nat :=
  if f.bs then (s.sv f.vb).toNat % 2 ^ typeW f.typ.toNat else elem (typeW f.typ.toNat) (s.pre.vReg f.vb.toNat).val i

/-- `VCMP` on integers (R83, R150). -/
def compareInt (c : Nat) (t x y : Nat) : Prop :=
  let a := laneInt t x
  let b := laneInt t y
  match c with
  | 0 => a = b
  | 1 => a ≠ b
  | 2 => a < b
  | 3 => b ≤ a
  | 4 => a ≤ b
  | 5 => b < a
  | 10 => x &&& y ≠ 0
  | _ => x &&& y = 0

/-- `VCMP` on floating point: `.ne` and `.un` alone are true where an operand is NaN (R58, R150). -/
def compareFp (c : Nat) (a b : Fv) : Prop :=
  let un := a.isNan = true ∨ b.isNan = true
  match c with
  | 0 => ¬un ∧ a.lt b = false ∧ b.lt a = false
  | 1 => un ∨ a.lt b = true ∨ b.lt a = true
  | 2 => ¬un ∧ a.lt b = true
  | 3 => ¬un ∧ a.lt b = false
  | 4 => ¬un ∧ b.lt a = false
  | 5 => ¬un ∧ b.lt a = true
  | _ => un

/-- The reductions by operation. -/
def reduceRule : Instr → Option (VWord × RedOp)
  | .vrsum f => some (f, .add)
  | .vrmin f => some (f, .min)
  | .vrmax f => some (f, .max)
  | _ => none

/-- Element (row, column) of a tile that index i of a line names (R165). -/
def lineElem (dir x i : Nat) : Nat × Nat :=
  if dir = 0 then (x, i) else if dir = 1 then (i, x) else if dir = 2 then (i, (i + x) % 128) else (i, (128 + x - i) % 128)

/-- No line move waits in the matrix queue. -/
def NoLines (c : Core) : Prop := ∀ e ∈ c.mxq, e.op.isLine = false

end Sys2Proof.Machine

/-- R150, R152: the predicate instructions, `PSET`, `PCNT` and `VCMP`, bit by bit. The taint of a `VCMP` whose elements are all inactive
is the model's choice (log 74). -/
def Obligations.PredicatesAndCompares : Prop :=
  (∀ (s : State) (i : Instr) (f : VWord) (l : List (BitVec 6)) (bit : Nat → Bool), predRule s i = some (f, l, bit) → Accepts s i →
    (∀ n ∈ l, Readable s (.p (n.toNat % 8))) → Readable s (.p f.vd.toNat) →
    ∃ v : PReg, exec i s = .next (s.result (.p f.vd.toNat) v.toNat (predsTaint s l) 2 0 true) ∧ ∀ k, k < 512 → v.getLsbD k = bit k) ∧
  (∀ (s : State) (f : VWord), Accepts s (.pset f) → (f.imm.toNat = 2 → Readable s (.s f.vb.toNat)) → Readable s (.p f.vd.toNat) →
    ∃ v : PReg, exec (.pset f) s = .next (s.result (.p f.vd.toNat) v.toNat (if f.imm.toNat = 2 then srcTaint s [f.vb] else 0) 2 0 true) ∧
      ∀ k, k < 512 → v.getLsbD k = (if f.imm.toNat = 0 then false else if f.imm.toNat = 1 then true else decide (k < (s.sv f.vb).toNat))) ∧
  (∀ (s : State) (f : VWord), Accepts s (.pcnt f) → Readable s (.p (f.va.toNat % 8)) → Readable s (.s f.vd.toNat) →
    exec (.pcnt f) s = .next (s.produce (.s f.vd.toNat) ((List.range 512).countP fun k => (s.pv f.va).getLsbD k) (predsTaint s [f.va]) 3 0 true)) ∧
  (∀ (s : State) (f : VWord), Accepts s (.vcmp f) → Readable s (.v f.va.toNat) →
    (if f.bs then Readable s (.s f.vb.toNat) else Readable s (.v f.vb.toNat)) → (f.pen = true → Readable s (.p f.pg.toNat)) →
    Readable s (.p f.vd.toNat) →
    ∃ v : PReg, ∃ m : Taint, exec (.vcmp f) s = .next (s.result (.p f.vd.toNat) v.toNat m 2 0 true) ∧
      m = ((s.pre.vReg f.va.toNat).taint ||| (if f.bs then srcTaint s [f.vb] else (s.pre.vReg f.vb.toNat).taint) |||
        (if f.pen then (s.pre.pReg f.pg.toNat).taint ||| (s.pre.pReg f.vd.toNat).taint else 0)) ∧
      ∀ k, k < 512 →
        let t := f.typ.toNat
        let i := 8 * k / typeW t
        let fv (x : Nat) : Fv := (fmtOf t).read s.pre.exposed x
        (active s f i → (v.getLsbD k = true ↔
          if typeIsFp t then compareFp f.imm.toNat (fv (laneA s f i)) (fv (laneB s f i)) else compareInt f.imm.toNat t (laneA s f i) (laneB s f i))) ∧
        (¬active s f i → v.getLsbD k = (s.pre.pReg f.vd.toNat).val.getLsbD k))

/-- R158, R66: a reduction is a long-latency producer: the wrapped sum, or the smallest or largest, of the active elements; on
floating point the tree of R66, with each inactive leaf the identity. -/
def Obligations.Reductions : Prop :=
  ∀ (s : State) (i : Instr) (f : VWord) (op : RedOp), reduceRule i = some (f, op) → Accepts s i → Readable s (.v f.va.toNat) →
    (f.pen = true → Readable s (.p f.pg.toNat)) → Readable s (.s f.vd.toNat) →
    let t := f.typ.toNat
    let n := 4096 / typeW t
    let m := (s.pre.vReg f.va.toNat).taint ||| (if f.pen then (s.pre.pReg f.pg.toNat).taint else 0)
    ∃ (v : DWord) (fl : BitVec 5), exec i s = .next ((s.produce (.s f.vd.toNat) v.toNat m
        (5 + (if n = 1024 then 10 else if n = 512 then 9 else if n = 256 then 8 else 7)) fl true).upd fun c => { c with vxFree := s.now + 2 }) ∧
      (typeIsFp t = false → fl = 0 ∧ ∃ r : Int, v = wrapped r true (decide (t % 2 = 1)) ∧
        match op with
        | .add => r = ((List.range n).map fun k => if !f.pen || (s.pre.pReg f.pg.toNat).val.getLsbD (typeW t * k / 8)
            then laneInt t (laneA s f k) else 0).sum
        | .min => (∀ k, k < n → active s f k → r ≤ laneInt t (laneA s f k)) ∧
            ((∃ k, k < n ∧ active s f k ∧ r = laneInt t (laneA s f k)) ∨
              (∀ k, k < n → ¬active s f k) ∧ r = if t % 2 = 1 then 2 ^ 32 - 1 else 2 ^ 31 - 1)
        | .max => (∀ k, k < n → active s f k → laneInt t (laneA s f k) ≤ r) ∧
            ((∃ k, k < n ∧ active s f k ∧ r = laneInt t (laneA s f k)) ∨
              (∀ k, k < n → ¬active s f k) ∧ r = if t % 2 = 1 then 0 else -(2 ^ 31))) ∧
      (typeIsFp t = true →
        let leaf (k : Nat) : Nat := if !f.pen || (s.pre.pReg f.pg.toNat).val.getLsbD (typeW t * k / 8) then
            (if t = 12 then laneA s f k else (Fmt.f32.round {} ((fmtOf t).read s.pre.exposed (laneA s f k))).1) else op.fpIdent .f32
        let r := treeReduce (op.fpRound .f32 s.pre.exposed) (op.fpIdent .f32) ((List.range n).map leaf)
        v = BitVec.ofNat 64 r.1 ∧ fl = r.2)

/-- R162, R165 to R169, R470: `VMOVS`, the line moves `VRDA` and `VWRA`, and `VPOPQ`. A line move is performed at once where nothing
queued names its tile; else it waits in the matrix queue. That TREC_INFO is 0 for a row error (log 37), and that a `VPOPQ` of an empty
queue waits while fewer instructions wait for it than rows are promised, else takes the queue fault (log 45), are the model's choice. -/
def Obligations.LinesAndRows : Prop :=
  (∀ (s : State) (f : VWord), Accepts s (.vmovs f) → Readable s (.v f.va.toNat) → Readable s (.s f.vd.toNat) →
    let t := f.typ.toNat
    let x := laneA s f f.imm.toNat
    exec (.vmovs f) s = .next (s.result (.s f.vd.toNat) (BitVec.ofInt 64 (if typeIsFp t then (x : Int) else laneInt t x)).toNat
      (s.pre.vReg f.va.toNat).taint 3 0 true)) ∧
  (∀ (s : State) (f : VWord), Accepts s (.vrda f) → (f.pen = true → Readable s (.p f.pg.toNat)) → Readable s (.v f.vd.toNat) →
    NoLines s.core → (∀ p ∈ s.core.prods, p.id < s.core.nextId) →
    let tile := f.va.toNat % 4
    let m := if f.pen then (s.pre.pReg f.pg.toNat).taint ||| (s.pre.vReg f.vd.toNat).taint else 0
    let old := (s.pre.vReg f.vd.toNat).val
    let line : VReg := lanes 32 fun i =>
      if !f.pen || (s.pre.pReg f.pg.toNat).val.getLsbD (4 * i) then
        s.core.acc tile (lineElem (f.va.toNat / 4) f.imm.toNat i).1 (lineElem (f.va.toNat / 4) f.imm.toNat i).2
      else elem 32 old i
    let p : Producer := { id := s.core.nextId, dest := .v f.vd.toNat, val := 0, taint := m, waiting := true, vx := true
                          exposed := s.pre.exposed, sent := s.now, minDue := s.now + 6, lag := 4 }
    ∃ t, exec (.vrda f) s = .next t ∧ OnlyCore s t ∧
      t.core = { s.core with live := t.core.live, prods := t.core.prods, pipe := t.core.pipe, mxq := t.core.mxq, nextId := s.core.nextId + 2 } ∧
      t.core.live = (if s.pre.exposed then s.core.live else s.core.live.put (.v f.vd.toNat) old.toNat false m) ∧
      ((∀ e ∈ s.core.mxq, tile ∉ e.op.tiles) → t.core.mxq = s.core.mxq ∧
        (s.pre.exposed = false → t.core.pipe = s.core.pipe ∧ t.core.prods = s.core.prods ++ [{ p with val := line.toNat, waiting := false }]) ∧
        (s.pre.exposed = true → t.core.prods = s.core.prods ∧
          t.core.pipe = s.core.pipe ++ [{ due := s.now + 6, sent := s.now, dest := some (.v f.vd.toNat), val := line.toNat, taint := m, vx := true }])) ∧
      ((∃ e ∈ s.core.mxq, tile ∈ e.op.tiles) → t.core.pipe = s.core.pipe ∧ t.core.prods = s.core.prods ++ [p] ∧
        ∃ e, t.core.mxq = s.core.mxq ++ [e] ∧ e.op.tiles = [tile] ∧ e.op.isLine = true)) ∧
  (∀ (s : State) (f : VWord), Accepts s (.vwra f) → (f.pen = true → Readable s (.p f.pg.toNat)) → Readable s (.v f.vb.toNat) → NoLines s.core →
    let tile := f.vd.toNat % 4
    ∃ t, exec (.vwra f) s = .next t ∧ OnlyCore s t ∧
      ((∀ e ∈ s.core.mxq, tile ∉ e.op.tiles) →
        t.core = { s.core with tiles := t.core.tiles, live := { s.core.live with live := t.core.live.live },
                               shadow := { s.core.shadow with tileHit := t.core.shadow.tileHit }, nextId := t.core.nextId } ∧
        t.core.live.live.getLsbD tile = true ∧
        (t.core.shadow.tileHit = (s.core.shadow.tileHit || s.core.shadow.regs.live.getLsbD tile)) ∧
        (∀ i, i < 128 → (!f.pen || (s.pre.pReg f.pg.toNat).val.getLsbD (4 * i)) = true →
          t.core.acc tile (lineElem (f.vd.toNat / 4) f.imm.toNat i).1 (lineElem (f.vd.toNat / 4) f.imm.toNat i).2 =
            elem 32 (s.pre.vReg f.vb.toNat).val i) ∧
        (∀ r j, r < 128 → j < 128 → (∀ i, i < 128 → (!f.pen || (s.pre.pReg f.pg.toNat).val.getLsbD (4 * i)) = true →
            lineElem (f.vd.toNat / 4) f.imm.toNat i ≠ (r, j)) → t.core.acc tile r j = s.core.acc tile r j)) ∧
      ((∃ e ∈ s.core.mxq, tile ∈ e.op.tiles) → ∃ e, t.core = { s.core with mxq := s.core.mxq ++ [e], nextId := s.core.nextId + 1 } ∧
        e.op.tiles = [tile] ∧ e.op.isLine = true)) ∧
  (∀ (s : State) (f : VWord), Accepts s (.vpopq f) → Readable s (.v f.vd.toNat) →
    let q := f.va.toNat
    let c := s.core
    let head := Tbl.getD c.live.rqHead q 0
    let tail := Tbl.getD c.live.rqTail q 0
    let waits := (c.prods.filter fun p => p.waiting && decide (p.fromRq = some q)).length
    (head < tail → s.core.rowsBad.contains (q * 2 ^ 32 + head) = true → ∃ t, exec (.vpopq f) s = .next t ∧ (t.coreAt s.cur).sig = some (.trap 0x0B 0)) ∧
    (head < tail → s.core.rowsBad.contains (q * 2 ^ 32 + head) = false → exec (.vpopq f) s = .next ((s.live fun r => { r with rqHead := Tbl.set r.rqHead q (head + 1) }).produce
      (.v f.vd.toNat) (Tbl.getD c.rows (q * 2 ^ 32 + head) 0).toNat 0 2 0 true)) ∧
    (tail ≤ head → waits < Tbl.getD c.promised q 0 → ∃ t, exec (.vpopq f) s = .next t ∧ OnlyCore s t ∧
      t.core = { c with live := t.core.live, prods := t.core.prods, nextId := c.nextId + 1 } ∧
      t.core.live = (if s.pre.exposed then c.live else c.live.put (.v f.vd.toNat) (s.pre.valOf (.v f.vd.toNat)) false 0) ∧
      t.core.prods = c.prods ++ [{ id := c.nextId, dest := .v f.vd.toNat, val := 0, waiting := true, vx := true, fromRq := some q
                                   exposed := s.pre.exposed, sent := s.now, minDue := s.now + 2, lag := 2 }]) ∧
    (tail ≤ head → Tbl.getD c.promised q 0 ≤ waits → ∃ t info, exec (.vpopq f) s = .next t ∧ (t.coreAt s.cur).sig = some (.trap 0x10 info)))

namespace Sys2Proof.Machine

/-! ## Matrix slot -/

/-- Code of a slot's state (R183). -/
def slotCode : OpSt → Nat
  | .free => 0
  | .claimed => 1
  | .filling => 2
  | .ready => 3
  | .faulted => 4

/-- The running task holds slot n (R176). -/
def Holds (s : State) (n : Nat) : Prop := ∃ t, s.core.task = some t ∧ (s.core.opSlot n).owner = some t.id

/-- The slot may be refilled (R176): held, no release pending, not Filling, and no queued `MMA` whose checks are due names it. -/
def Refillable (s : State) (n : Nat) : Prop :=
  Holds s n ∧ (s.core.opSlot n).relpend = false ∧ (s.core.opSlot n).st ≠ .filling ∧
    ∀ e ∈ s.core.mxq, e.checked = false → n ∈ e.op.slots → n ∈ e.fills

/-- Word w of stream register sd as a group reads it (R196). -/
def streamWord (s : State) (sd w : Nat) : DWord := (Tbl.getD s.pre.sd (4 * sd + w) {}).val

/-- Matrix instructions that enter the queue, with their operation. -/
def queuedRule (s : State) : Instr → Option MxOp
  | .aclr f => some (.aclr f.acc.toNat)
  | .aload f => some (.aload f.acc.toNat (s.pre.vReg f.sr.toNat).val)
  | .amov f => some (.amov f.acc.toNat f.acc2.toNat)
  | _ => none

/-- An operation is in the queue of a unit behind everything before it: the unit differs only by that, and by the line moves
whose turn has come. -/
def Queued (s t : State) (e : MxEnt) : Prop :=
  OnlyCore s t ∧ t.core = ({ s.core with mxq := s.core.mxq ++ [e], nextId := s.core.nextId + 1 } : Core).settleTiles s.now

/-- A slot that an `MMA` may name at issue (R188): held, and Ready or Filling. -/
def Usable (s : State) (n : Nat) : Prop := Holds s n ∧ ((s.core.opSlot n).st = .ready ∨ (s.core.opSlot n).st = .filling)

/-- The queue entry of an instruction that acts at its issue, or of a fill: it keeps its place among the matrix instructions (R479). -/
def PlaceTaken (s t : State) (op : MxOp) : Prop := Queued s t { id := s.core.nextId, pc := s.core.gpc, op := op }

/-- Cycles from the start of an instruction that uses the array until the array is free, and until its tile is written (R479). -/
def arrayTimes (c : Core) : MxOp → Nat × Nat
  | .mma _ a b _ _ _ _ =>
    let x := c.opSlot a
    let y := c.opSlot b
    let n := (if x.zero && y.zero then 1 else planes (if y.zero then x.fmt else y.fmt)) * commonK x y
    (n, n + 8)
  | .aload _ _ => (128, 128)
  | .amov _ _ => (64, 64)
  | _ => (0, 0)

/-- R187: the formats of two Ready slots can be multiplied and their K agree. -/
def PairFits (a b : OpSlot) : Prop :=
  (a.kind = 2 ∨ b.kind = 2 → (a.kind = 2 ∨ a.kind = 3) ∧ (b.kind = 2 ∨ b.kind = 3)) ∧ (a.zero = true ∨ b.zero = true ∨ a.k = b.k)

end Sys2Proof.Machine

/-- R176, R182, R183, R192, R479: `OCLAIM`, `ORELEASE` and `OZERO`, which take a place in the queue, and `OSTAT` and `MSTAT`, which read
the state from before the group. That the first three act at their issue (log 94) and that `OZERO` sets FCAUSE to 0 (log 75) are the
model's choice. -/
def Obligations.OperandSlots : Prop :=
  ∀ (s : State) (f : MWord), s.core.mxWaiting < 4 →
    let n := f.oa.toNat
    let x := s.core.opSlot n
    (Accepts s (.oclaim f) → ∀ t, s.core.task = some t →
      (x.st = .free → ∃ r, exec (.oclaim f) s = .next r ∧ PlaceTaken (s.upd fun c => c.setSlot n { st := .claimed, owner := some t.id }) r .claim) ∧
      (x.st ≠ .free → x.owner = some t.id → ∃ r, exec (.oclaim f) s = .next r ∧
        PlaceTaken (s.upd fun c => c.setSlot n { x with relpend := false, relCk := false, relPoint := false }) r .claim) ∧
      (x.st ≠ .free → x.owner ≠ some t.id → ∃ r, exec (.oclaim f) s = .next r ∧ (r.coreAt s.cur).sig = some (.suspend 5 n 0 none))) ∧
    (Accepts s (.orelease f) →
      (Holds s n → x.relpend = false → ∃ r, exec (.orelease f) s = .next r ∧
        PlaceTaken (s.upd fun c => c.setSlot n { x with relpend := true, relPoint := false, relCk := false }) r .claim) ∧
      (Holds s n → x.relpend = true → ∃ r, exec (.orelease f) s = .next r ∧ PlaceTaken (s.upd fun c => c.setSlot n x) r .claim) ∧
      (¬Holds s n → ∃ r, exec (.orelease f) s = .next r ∧ PlaceTaken s r .claim)) ∧
    (Accepts s (.ozero f) → Refillable s n → s.core.mmaHolds n = false → ∃ t r, exec (.ozero f) s = .next r ∧ OnlyCore s t ∧ PlaceTaken t r .claim ∧
      t.core = { s.core with slots := t.core.slots, shadow := { s.core.shadow with slotHit := t.core.shadow.slotHit } } ∧
      (t.core.shadow.slotHit = (s.core.shadow.slotHit || s.core.shadow.ready.contains n)) ∧
      ∀ k, t.core.opSlot k = if k = n then { x with st := .ready, zero := true, fmt := 0, rows := 128, k := 128, fcause := 0, el := [], exps := [] }
        else s.core.opSlot k) ∧
    (Accepts s (.ostat f) → Readable s (.s f.sr.toNat) →
      let r := s.prior
      let x := r.core.opSlot n
      x.fmt < 16 → x.rows ≤ 128 → x.k ≤ 128 → x.fcause < 256 →
      ∃ v : DWord, exec (.ostat f) s = .next (s.produce (.s f.sr.toNat) v.toNat 0 2 0) ∧
        v.toNat % 8 = slotCode x.st ∧ v.getLsbD 3 = x.relpend ∧ (v.getLsbD 4 = true ↔ Holds r n) ∧ v.getLsbD 5 = r.core.mmaReads n ∧
        v.toNat / 2 ^ 28 % 16 = (if x.zero then 7 else x.fmt) ∧ v.toNat / 2 ^ 32 % 256 = x.rows ∧ v.toNat / 2 ^ 40 % 256 = x.k ∧
        v.toNat / 2 ^ 48 = x.fcause) ∧
    (Accepts s (.mstat f) → Readable s (.s f.sr.toNat) →
      let r := s.prior
      (∀ q, q < 4 → r.core.occupancy r.core.live q ≤ 256) →
      ∃ v : DWord, exec (.mstat f) s = .next (s.produce (.s f.sr.toNat) v.toNat 0 2 0) ∧
        (∀ k, k < 4 → (v.getLsbD k = true ↔ (∃ e ∈ r.core.mxq, k ∈ e.op.tiles) ∨ ∃ d ∈ r.core.draining, d.acc = k)) ∧
        (∀ k, k < 16 → (v.getLsbD (4 + k) = true ↔ (r.core.opSlot k).st = .filling)) ∧
        (∀ q, q < 4 → v.toNat / 2 ^ (20 + 9 * q) % 512 = r.core.occupancy r.core.live q) ∧
        (∀ k, k < 4 → v.getLsbD (56 + k) = r.core.live.live.getLsbD k) ∧
        (v.getLsbD 60 = true ↔ ∃ k, k < 16 ∧ Holds r k ∧ (r.core.opSlot k).st = .faulted))

/-- R184, R194, R198, R200, R479: `OFILL` copies its stream words and base into a fill, which takes its place in the queue, and its slot is
Filling. The base of a decoding fill, read as bytes of the scratchpad (log 38), and FMT, ROWS and K kept while the slot is Filling (log
75) are the model's choice. -/
def Obligations.FillIssue : Prop :=
  ∀ (s : State) (f : MWord), Accepts s (.ofill f) → Readable s (.s f.sr.toNat) → s.core.mxWaiting < 4 →
    let n := f.oa.toNat
    let w (i : Nat) := streamWord s f.sd.toNat i
    let sh := shapeOf (w 0) (w 1) (w 2)
    let base := (s.sv f.sr).toNat
    Refillable s n → shapeOk (w 0) (w 1) (w 2) (w 3) f.mfmt.toNat = true →
    (f.dec = false → sh.aligned base = true ∧ ∀ a ∈ sh.addrs base, 0 ≤ a ∧ a < (spadBytes : Nat)) →
    (f.dec = true → f.dt.toNat ∉ s.prior.core.dtBusy ∧ sh.aligned 0 = true ∧ base < spadBytes) →
    ∃ t r, exec (.ofill f) s = .next r ∧ OnlyCore s t ∧ PlaceTaken t r (.fill n) ∧
      t.core = { s.core with slots := t.core.slots, shadow := { s.core.shadow with slotHit := t.core.shadow.slotHit }, fills := t.core.fills } ∧
      (∀ k, t.core.opSlot k = if k = n then { s.core.opSlot n with st := .filling, fcause := 0 } else s.core.opSlot k) ∧
      t.core.fills = s.core.fills ++ [{ slot := n, w0 := w 0, w1 := w 1, w2 := w 2, base := base, mfmt := f.mfmt.toNat
                                        dec := if f.dec then some f.dt.toNat else none, warn := s.core.spv.getLsbD 0, exposed := s.pre.exposed
                                        afterDt := f.dec && s.core.dtBusy.contains f.dt.toNat }]

/-- R173, R188 to R191: `MMA`, `DRAIN`, `ACLR`, `ALOAD` and `AMOV` enter the matrix queue in program order; `MSYNC` passes once
nothing is in flight; an overfull result queue is the queue fault, and a Faulted slot the operand-fill fault. -/
def Obligations.MatrixQueue : Prop :=
  ∀ (s : State) (f : MWord), s.core.mxWaiting < 4 →
    let a := f.oa.toNat
    let b := f.ob.toNat
    (Accepts s (.mma f) → Usable s a → Usable s b →
      ((s.core.opSlot a).st = .ready → (s.core.opSlot b).st = .ready → PairFits (s.core.opSlot a) (s.core.opSlot b)) →
      ∃ t e, exec (.mma f) s = .next t ∧ OnlyCore s t ∧
        t.core = Core.count (Core.settleTiles { s.core with mxq := s.core.mxq ++ [e], nextId := s.core.nextId + 1 } s.now) 0x0C 1 ∧
        e.op = .mma f.acc.toNat a b f.na f.nb f.ad s.pre.exposed ∧ e.id = s.core.nextId ∧ e.pc = s.core.gpc ∧ e.started = false ∧
        (e.checked = true ↔ (s.core.opSlot a).st = .ready ∧ (s.core.opSlot b).st = .ready) ∧
        (∀ n, n ∈ e.fills ↔ (n = a ∨ n = b) ∧ (s.core.opSlot n).st = .filling)) ∧
    (Accepts s (.mma f) → (s.core.opSlot a).st = .faulted → ∃ t, exec (.mma f) s = .next t ∧
      (t.coreAt s.cur).sig = some (.trap 0x11 (BitVec.ofNat 64 (a + (s.core.opSlot a).fcause * 256)))) ∧
    (Accepts s (.drain f) →
      let q := f.rq.toNat
      let rows := if f.mfmt.toNat < 2 then 64 else if f.mfmt.toNat < 5 then 32 else 128
      (s.core.occupancy s.core.live q + rows ≤ 256 → ∃ t, exec (.drain f) s = .next t ∧
        Queued (s.upd fun c => { c with promised := Tbl.set c.promised q (Tbl.getD c.promised q 0 + rows) }) t
          { id := s.core.nextId, pc := s.core.gpc, op := .drain f.acc.toNat q f.mfmt.toNat f.rz f.sat f.scale.toInt s.pre.exposed }) ∧
      (256 < s.core.occupancy s.core.live q + rows → ∃ t info, exec (.drain f) s = .next t ∧ (t.coreAt s.cur).sig = some (.trap 0x10 info))) ∧
    (Accepts s (.msync f) → s.core.fills = [] → s.core.draining = [] → (∀ e ∈ s.core.mxq, e.op.isLine = true ∨ e.op = .claim) →
      exec (.msync f) s = .next s) ∧
    (∀ i op, queuedRule s i = some op → (∀ g, i = .aload g → Readable s (.v g.sr.toNat)) → Accepts s i →
      ∃ t, exec i s = .next t ∧ Queued s t { id := s.core.nextId, pc := s.core.gpc, op := op }) ∧
    (∀ (c : Core) (now : Nat), NoLines c → c.settleTiles now = c)

/-- R64, R65, R176, R184, R187 to R190, R268, R470, R479: what the matrix engine does as its instructions start and end, each in its
cycle: fills, whose elements each read the scratchpad with some of the stores still on their way, products, tile writes and the delivery
of drained rows. That an `MMA` in flight keeps a fill of its slot from ending, and the bytes that count for B of a fill to BFP, are the
model's choice (log 94). -/
def Obligations.MatrixEngine : Prop :=
  (∀ (s : State) (f : Fill) (rest : List Fill), unitExists s.ev.u = true → (s.coreAt s.ev.u).fills = f :: rest → f.slot = s.ev.k → s.ev.m = 0 →
    (∃ n, f.due = some n ∧ n ≤ s.now) → (s.coreAt s.ev.u).mmaHolds f.slot = false → ((s.coreAt s.ev.u).opSlot f.slot).relpend = false →
    ∃ t, exec .fillComplete s = .next t ∧
      let c := s.coreAt s.ev.u
      let c' := t.coreAt s.ev.u
      c'.fills = rest ∧ (∀ e ∈ c'.mxq, f.slot ∉ e.fills) ∧ (∀ k, k ≠ f.slot → c'.opSlot k = c.opSlot k) ∧
      ((c'.opSlot f.slot).st = .ready ∨ (c'.opSlot f.slot).st = .faulted) ∧
      let sh := shapeOf f.w0 f.w1 f.w2
      let valid := ∀ a ∈ sh.addrs f.base, (Tbl.get? c.spad (a.toNat / 4)).isSome = true
      let bad := ∃ a ∈ sh.addrs f.base, a.toNat / 8 ∈ c.spadBad
      (f.dec = none → f.got = [] → valid → ¬bad → ∃ rd : Nat → Int → Nat,
        (∀ i a, ∃ k, k ≤ c.spq.length ∧ rd i a = ((c.bank k).spadByte a.toNat).toNat) ∧
        c'.opSlot f.slot = (fillSlot (c.opSlot f.slot) sh f.mfmt f.base rd).1) ∧
      (f.dec = none → f.got = [] → valid → bad → c'.opSlot f.slot = { c.opSlot f.slot with st := .faulted, fcause := 0x04 }) ∧
      (f.dec = none → f.warn = false → f.got = [] → c.spq = [] → ¬valid →
        c'.opSlot f.slot = { c.opSlot f.slot with st := .faulted, fcause := 0x01 })) ∧
  (∀ (s : State) (e : MxEnt), unitExists s.ev.u = true →
    let c := s.coreAt s.ev.u
    ((∀ x ∈ c.mxq, x.checked = false → x.fills ≠ []) → c.startable s.now [] c.mxq = some e → e.op.usesArray = true →
      c.arrayFree ≤ s.now ∧ ∃ t, exec .matrixStart s = .next t ∧ (t.coreAt s.ev.u).arrayFree = s.now + (arrayTimes c e.op).1 ∧
        (t.coreAt s.ev.u).mxq = c.mxq.map fun x => if x.id = e.id then { x with started := true, due := s.now + (arrayTimes c e.op).2 } else x) ∧
    ((∀ x ∈ c.mxq, x.checked = false → x.fills ≠ []) → c.startable s.now [] c.mxq = some e → ∀ a, e.op = .aclr a →
      ∃ t, exec .matrixStart s = .next t ∧
        (t.coreAt s.ev.u).mxq = c.mxq.map fun x => if x.id = e.id then { x with started := true, due := s.now + 1 } else x) ∧
    ((∀ x ∈ c.mxq, x.checked = false → x.fills ≠ []) → c.startable s.now [] c.mxq = some e → e.op = .claim →
      ∃ t, exec .matrixStart s = .next t ∧ (t.coreAt s.ev.u) = { c with mxq := c.mxq.filter fun x => !decide (x.id = e.id) }) ∧
    ((∀ x ∈ c.mxq, x.checked = false → x.fills ≠ []) → c.startable s.now [] c.mxq = some e → ∀ n f rest, e.op = .fill n → c.fills = f :: rest →
      f.slot = n ∧ f.due = none ∧ ∃ t k, exec .matrixStart s = .next t ∧
        (t.coreAt s.ev.u) = { c with mxq := c.mxq.filter fun x => !decide (x.id = e.id), fills := { f with due := some (s.now + k) } :: rest } ∧
        let sh := shapeOf f.w0 f.w1 f.w2
        let plain := (sh.rows * sh.cols * mfmtBits (if f.mfmt = 8 then sh.sfmt else f.mfmt) + 2047) / 2048 + 12
        let coded := (leNat (c.spadRead f.base 4) + 31) / 32 + 20
        k = if f.dec.isSome then max plain coded else plain) ∧
    ((∀ x ∈ c.mxq, x.checked = false → x.fills ≠ []) → c.startable s.now [] c.mxq = some e → NoLines c →
      ∀ a rq mfmt rz sat sc ex, e.op = .drain a rq mfmt rz sat sc ex →
      ∃ t d, exec .matrixStart s = .next t ∧ (t.coreAt s.ev.u).draining = c.draining ++ [d] ∧ d.acc = a ∧ d.rq = rq ∧ d.id = e.id ∧ d.due = s.now + 6 ∧
        (t.coreAt s.ev.u).mxq = (c.mxq.filter fun x => !decide (x.id = e.id)) ∧
        ∀ k, k < 128 / drainPack mfmt → ∃ r, d.rows[k]? = some r ∧ ∀ j, j < 128 * drainPack mfmt →
          elem (32 / drainPack mfmt) r.1 j = (drainElem mfmt rz sat ex sc (c.acc a (drainPack mfmt * k + j / 128) (j % 128))).1 % 2 ^ (32 / drainPack mfmt))) ∧
  (∀ (s : State) (e : MxEnt), unitExists s.ev.u = true →
    let c := s.coreAt s.ev.u
    duePart s.now [] c.mxq = some e → e.id = s.ev.k → NoLines c →
    ∃ t, exec .tileWriteComplete s = .next t ∧
      let c' := t.coreAt s.ev.u
      c'.mxq = (c.mxq.filter fun x => !decide (x.id = e.id)) ∧
      (∀ a x y na nb ad ex, e.op = .mma a x y na nb ad ex → a < 4 →
        let p := c.opSlot x
        let q := c.opSlot y
        c'.live.live.getLsbD a = true ∧
        ∀ i j, i < 128 → j < 128 → c'.acc a i j =
          if i < p.rows ∧ j < q.rows then
            (if p.kind = 2 ∨ q.kind = 2 then
              (mmaElementInt (BitVec.ofNat 32 (c.acc a i j)) ad ((List.range (commonK p q)).map fun k => (p.int na i k, q.int nb j k))).toNat
            else mmaElement (c.acc a i j) ad ex (if p.kind = 1 ∨ q.kind = 1 then 16 else 8)
              ((List.range (commonK p q)).map fun k => (p.value q.fmt na ex i k, q.value p.fmt nb ex j k))) % 2 ^ 32
          else c.acc a i j) ∧
      (∀ a, e.op = .aclr a → a < 4 → c'.live.live.getLsbD a = false ∧ ∀ i j, c'.acc a i j = 0) ∧
      (∀ a v, e.op = .aload a v → a < 4 → c'.live.live.getLsbD a = true ∧ ∀ i j, i < 128 → j < 128 → c'.acc a i j = elem 32 v j) ∧
      (∀ a b, e.op = .amov a b → a < 4 → b < 4 → ∀ i j, i < 128 → j < 128 → c'.acc a i j = c.acc b i j)) ∧
  (∀ (s : State) (d : Draining) (row : VReg) (fl : BitVec 5) (rest : List (VReg × BitVec 5)), unitExists s.ev.u = true →
    let c := s.coreAt s.ev.u
    (c.draining.find? fun x => decide (x.id = s.ev.k)) = some d → (c.draining.find? fun x => decide (x.rq = d.rq)) = some d →
    d.due ≤ s.now → d.rows = (row, fl) :: rest → (∀ p ∈ c.prods, ¬(p.waiting = true ∧ p.fromRq = some d.rq)) →
    ∃ t, exec .drainRowDelivery s = .next t ∧
      let c' := t.coreAt s.ev.u
      let tail := Tbl.getD c.live.rqTail d.rq 0
      Tbl.getD c'.rows (d.rq * 2 ^ 32 + tail) 0 = row ∧ Tbl.getD c'.live.rqTail d.rq 0 = tail + 1 ∧
      (rest ≠ [] → (c'.draining.find? fun x => decide (x.id = d.id)) = some { d with rows := rest, due := s.now + 1 }) ∧
      (rest = [] → ∀ x ∈ c'.draining, x.id ≠ d.id) ∧
      Tbl.getD c'.promised d.rq 0 = Tbl.getD c.promised d.rq 0 - 1 ∧ c'.live.fp = c.live.fp ||| fl)

namespace Sys2Proof.Machine

/-! ## Memory slot: global accesses -/

/-- Effective address (R233): base + (index << SH) + DISP × size, modulo 2^64. -/
def address (s : State) (f : MemWord) (size : Nat) : Nat :=
  (((s.sv f.base).toNat + (s.sv f.idx).toNat * 2 ^ f.sh.toNat + f.disp.toInt * size : Int) % 2 ^ 64).toNat

/-- Bytes of a scalar access (R235). -/
def memBytes (f : MemWord) : Nat := 2 ^ f.sz.toNat

/-- Base and index can be read. -/
def AddressReady (s : State) (f : MemWord) : Prop := Readable s (.s f.base.toNat) ∧ Readable s (.s f.idx.toNat)

/-- An address of the unit in progress translates for an access of this kind to memory at pa, whose home answers (R214, R215,
R284 to R286, R470): 0 reads, 1 writes, 2 both. -/
def Reaches (s : State) (va kind pa : Nat) : Prop :=
  va < 2 ^ 56 ∧ ∃ e, ((s.core.tlb ++ (s.dieAt (dieOf s.cur)).l2tlb).find? fun x => x.covers (s.tsid s.cur) va) = some e ∧
    e.allows kind = true ∧ e.dev = false ∧ pa = e.pa + va % pageBytes e.size ∧ s.homeOk (dieOf s.cur) pa = true ∧
    s.poisoned pa = false ∧ (kind = 1 ∨ s.core.l1Bad pa = false)

/-- Not every load tag is Pending (R115). -/
def TagFree (s : State) : Prop := ∃ j, j < 16 ∧ (s.core.tag j).st ≠ .pending

/-- A load of these pieces has issued (R110, R115, R119): it holds a Pending tag, which its empty destination's taint names beside the
kept tags that are still in use; nothing else of the registers' values, and no memory, has changed. -/
def LoadIssued (s t : State) (d : RegName) (keep : Taint) (l : Load) : Prop :=
  OnlyCore s t ∧ t.core.loads = s.core.loads ++ [l] ∧ l.dest = d ∧ l.tag < 16 ∧ (t.core.tag l.tag).st = .pending ∧
  (d ≠ .s 0 → t.core.live.fullOf d = false ∧ ∀ j, j < 16 →
    ((t.core.live.taintOf d).getLsbD j = true ↔ j = l.tag ∨ keep.getLsbD j = true ∧ (t.core.tag j).st ≠ .free)) ∧
  (∀ r, r ≠ d → t.core.live.valOf r = s.core.live.valOf r ∧ t.core.live.fullOf r = s.core.live.fullOf r) ∧
  t.core.live.flag = s.core.live.flag ∧ t.core.live.fp = s.core.live.fp ∧ t.core.wb = s.core.wb ∧
  (t.core.pipe.map fun w => { w with taint := 0 }) = s.core.pipe.map (fun w => { w with taint := 0 }) ∧
  (t.core.prods.map fun p => { p with taint := 0 }) = s.core.prods.map (fun p => { p with taint := 0 })

/-- A store has entered the withholding buffer (R219, R442): no memory and no register has changed. -/
def StoreIssued (s t : State) (e : WEntry) : Prop :=
  OnlyCore s t ∧ t.core = { s.core with tlb := t.core.tlb, wb := s.core.wb ++ [e], nextSerial := t.core.nextSerial } ∧ e.released = false

/-- The buffer has room for n entries (R442). -/
def BufferRoom (s : State) (n : Nat) : Prop := s.core.wbUsed + n ≤ 64

/-- The checkpoint that the instruction needs has been taken, or outside a group can be taken (R220, R440). -/
def CanCheckpoint (s : State) : Prop := s.core.ckDone = true ∨ s.core.inGroup = false ∧ s.core.mmaUnchecked = false

/-- Cycle before which a load does not bind (R475, R477): its least latency after its issue, that of an L1 hit where the core holds every
piece, in its L1 or its withholding buffer. -/
def Load.first (c : Core) (l : Load) : Nat :=
  l.sent + if l.pieces.all fun p =>
      (!l.beyond && c.l1.any fun x => decide (x.pa = p.pa / 128 * 128 ∧ l.minFill ≤ x.fill)) ||
      (List.range p.len).all fun i => (Tbl.get? l.fwd (p.off + i)).isSome
    then l.least else max l.least l.far

/-- What an access performed at issue waits for has happened (R116, R255, R261). -/
def Settled (s : State) (ps : List Piece) (m : Taint) (release : Bool) : Prop :=
  (m ||| s.pre.ct) &&& s.core.pendingMask = 0 ∧ s.core.overlapping ps = 0 ∧ s.core.acqWaits = 0 ∧
  (release = true → s.core.pendingMask = 0) ∧
  ∀ e ∈ s.core.wb, ∀ qs data r w, e.k = .store qs data r w → release = false ∧ piecesMeet ps qs = false

/-- The scalar loads with their extension (R235). -/
def loadRule : Instr → Option (MemWord × Bool)
  | .ld f => some (f, false)
  | .ldx f => some (f, true)
  | _ => none

/-- The atomics with the new value from old, v and c of w bits, `uns` comparing unsigned (R238). -/
def atomicRule : Instr → Option (MemWord × Bool × (Nat → Bool → Nat → Nat → Nat → Nat))
  | .atadd f => some (f, false, fun w _ old v _ => (old + v) % 2 ^ w)
  | .atmin f => some (f, false, fun w u old v _ => if laneKey w u v < laneKey w u old then v else old)
  | .atmax f => some (f, false, fun w u old v _ => if laneKey w u old < laneKey w u v then v else old)
  | .atxch f => some (f, false, fun _ _ _ v _ => v)
  | .atcas f => some (f, true, fun _ _ old v c => if old = c then v else old)
  | _ => none
where
  laneKey (w : Nat) (u : Bool) (x : Nat) : Int := if u then x else if 2 ^ (w - 1) ≤ x then (x : Int) - (2 ^ w : Nat) else x

/-- Predicate bits of a memory word: all ones where PEN is 0. -/
def memPred (s : State) (f : MemWord) : PReg := if f.pen then (s.pre.pReg f.pg.toNat).val else BitVec.allOnes 512

/-- The pieces of a vector access at a: its 64-byte units with an active byte (R236). -/
def vectorUnits (s : State) (f : MemWord) (a : Nat) : List (Nat × Nat × Nat) :=
  ((List.range 8).filter fun k => decide ((memPred s f).toNat / 2 ^ (64 * k) % 2 ^ 64 ≠ 0)).map fun k => (64 * k, a + 64 * k, 64)

/-- The active elements of a gather or scatter, by byte offset and address (R237). -/
def elementList (s : State) (f : MemWord) : List (Nat × Nat) :=
  let n := memBytes f
  ((List.range (512 / n)).filter fun i => (memPred s f).getLsbD (n * i)).map fun i =>
    (i * n, effAddr (s.sv f.base) (BitVec.ofNat 64 (elem (8 * n) (s.pre.vReg f.idx.toNat).val i)) f.sh f.disp n)

end Sys2Proof.Machine

/-- R110, R115, R233, R235, R477: `LD` and `LDX` of memory issue a load, 4 cycles on an L1 hit and at least 30 else; of a plan routine they
read at once (R375). That a load performed at the L2 is held to no more than the latency of an L2 hit is the model's choice (log 15). -/
def Obligations.ScalarLoad : Prop :=
  ∀ (s : State) (i : Instr) (f : MemWord) (sext : Bool), loadRule i = some (f, sext) → Accepts s i → AddressReady s f →
    let n := memBytes f
    let a := address s f n
    (a % n = 0 → isPlan s.cur = false → Readable s (.s f.dr.toNat) → TagFree s → ∀ pa, Reaches s a 0 pa →
      ∃ t l, exec i s = .next t ∧ LoadIssued s t (.s f.dr.toNat) 0 l ∧ l.size = n ∧ l.sext = sext ∧ l.pieces = [⟨0, a, pa, n⟩] ∧
        l.fixed = none ∧ l.acq = f.ord.getLsbD 0 ∧ l.sent = s.now ∧ l.least = 4 ∧ (l.acq = false → l.far = 30 ∧ l.beyond = false)) ∧
    (a < 2 ^ 56 → a % n = 0 → isPlan s.cur = true → ∀ pa, s.enginePa (dieOf s.cur) (s.tsid s.cur) a 0 = .ok pa →
      exec i s = .next (s.result (.s f.dr.toNat)
        (if sext then sextN (8 * n) (leNat (Memory.readN s.mem pa n)) else BitVec.ofNat 64 (leNat (Memory.readN s.mem pa n))).toNat 0 1 0)) ∧
    (a < 2 ^ 56 → a % n ≠ 0 → ∃ t, exec i s = .next t ∧ (t.coreAt s.cur).sig = some (.trap 0x09 (BitVec.ofNat 64 a))) ∧
    (2 ^ 56 ≤ a → isPlan s.cur = false → ∃ t info, exec i s = .next t ∧ (t.coreAt s.cur).sig = some (.trap 0x08 info)) ∧
    (2 ^ 56 ≤ a → isPlan s.cur = true → ∃ t k, exec i s = .next t ∧ (t.coreAt s.cur).sig = some (.trap (0x10A + k * 65536) (BitVec.ofNat 64 a)))

/-- R219, R235, R442: `ST` to memory enters the withholding buffer with the value's low bytes; of a plan routine it stores at
once, and changes those bytes alone (R375). -/
def Obligations.ScalarStore : Prop :=
  ∀ (s : State) (f : MemWord), Accepts s (.st f) → AddressReady s f → Readable s (.s f.dr.toNat) →
    let n := memBytes f
    let a := address s f n
    let v := s.sv f.dr
    (a % n = 0 → isPlan s.cur = false → BufferRoom s 1 → ∀ pa, Reaches s a 1 pa →
      ∃ t e data, exec (.st f) s = .next t ∧ StoreIssued s t e ∧
        e.k = .store [⟨0, a, pa, n⟩] data (f.ord.getLsbD 1) (decide (2 < f.scope.toNat)) ∧
        data.length = n ∧ ∀ k, k < n → Tbl.get? data k = some (BitVec.ofNat 8 (v.toNat / 256 ^ k))) ∧
    (a < 2 ^ 56 → a % n = 0 → isPlan s.cur = true → s.memOk = true → ∀ pa, s.enginePa (dieOf s.cur) (s.tsid s.cur) a 1 = .ok pa →
      ∃ t, exec (.st f) s = .next t ∧ t = { s with mem := t.mem } ∧ SameOutside s t pa n ∧
        ∀ k, k < n → Memory.read t.mem (pa + k) = BitVec.ofNat 8 (v.toNat / 256 ^ k)) ∧
    (a < 2 ^ 56 → a % n ≠ 0 → ∃ t, exec (.st f) s = .next t ∧ (t.coreAt s.cur).sig = some (.trap 0x09 (BitVec.ofNat 64 a)))

/-- R143, R236, R237: the vector loads and stores, gathers and scatters. Of a predicated access only the 64-byte units or the
elements that are active are translated. A scatter stores at once, and changes those bytes alone. -/
def Obligations.VectorAccess : Prop :=
  ∀ (s : State) (f : MemWord), (f.pen = true → Readable s (.p f.pg.toNat)) →
    let a := address s f 512
    let d := f.dr.toNat
    let keep := if f.pen then (s.pre.vReg d).taint ||| (s.pre.pReg f.pg.toNat).taint else 0
    let n := memBytes f
    (Accepts s (.vld f) → AddressReady s f → a < 2 ^ 56 → a % 64 = 0 → Readable s (.v d) → TagFree s →
      ∀ ps r, s.pieces 0 (vectorUnits s f a) = .ok (ps, r) → ∃ t l, exec (.vld f) s = .next t ∧ LoadIssued s t (.v d) keep l ∧
        l.size = 512 ∧ l.pieces = ps ∧ l.fixed = none ∧ l.sent = s.now ∧ l.least = 4) ∧
    (Accepts s (.vst f) → AddressReady s f → a < 2 ^ 56 → a % 64 = 0 → Readable s (.v d) →
      ∀ ps r, s.pieces 1 (vectorUnits s f a) = .ok (ps, r) → BufferRoom s ps.length →
        (ps = [] → exec (.vst f) s = .next r) ∧
        (ps ≠ [] → ∃ t e data, exec (.vst f) s = .next t ∧ StoreIssued s t e ∧
          e.k = .store ps data (f.ord.getLsbD 1) (decide (2 < f.scope.toNat)) ∧
          ∀ k, k < 512 → Tbl.get? data k = if (memPred s f).getLsbD k then some (BitVec.ofNat 8 ((s.pre.vReg d).val.toNat / 256 ^ k)) else none)) ∧
    (Accepts s (.vgath f) → Readable s (.s f.base.toNat) → Readable s (.v f.idx.toNat) → Readable s (.v d) → TagFree s →
      ∀ ps r, s.elements 0 n (elementList s f) = .ok (ps, r) → ∃ t l, exec (.vgath f) s = .next t ∧ LoadIssued s t (.v d) keep l ∧
        l.size = 512 ∧ l.pieces = ps ∧ l.fixed = none ∧ l.sent = s.now ∧ l.least = 8) ∧
    (Accepts s (.vscat f) → Readable s (.s f.base.toNat) → Readable s (.v f.idx.toNat) → Readable s (.v d) → s.memOk = true → CanCheckpoint s →
      ∀ ps r, s.elements 1 n (elementList s f) = .ok (ps, r) →
        Settled s ps ((s.pre.sReg f.base.toNat).taint ||| (s.pre.vReg f.idx.toNat).taint ||| (s.pre.vReg d).taint |||
          (if f.pen then (s.pre.pReg f.pg.toNat).taint else 0)) false →
        ∃ t, exec (.vscat f) s = .next t ∧
          (∀ x, (∀ q ∈ ps, x < q.pa ∨ q.pa + n ≤ x) → Memory.read t.mem x = Memory.read s.mem x) ∧
          (∀ before q after k, ps = before ++ q :: after → k < n → (∀ q' ∈ after, q.pa + k < q'.pa ∨ q'.pa + n ≤ q.pa + k) →
            Memory.read t.mem (q.pa + k) = BitVec.ofNat 8 ((s.pre.vReg d).val.toNat / 256 ^ (q.off + k))))

/-- R220, R238: an atomic reads, modifies and writes its bytes alone, at issue, and its old value is a load's. -/
def Obligations.Atomics : Prop :=
  ∀ (s : State) (i : Instr) (f : MemWord) (cas : Bool) (new : Nat → Bool → Nat → Nat → Nat → Nat), atomicRule i = some (f, cas, new) →
    Accepts s i → Readable s (.s f.base.toNat) → Readable s (.s f.dr.toNat) → (cas = true → Readable s (.s f.idx.toNat)) → s.memOk = true →
    let n := memBytes f
    let a := (s.sv f.base).toNat
    let low (x : DWord) : Nat := x.toNat % 2 ^ (8 * n)
    let m := srcTaint s (if cas then [f.base, f.dr, f.idx] else [f.base, f.dr])
    let value (pa : Nat) : Nat := new (8 * n) f.u (leNat (Memory.readN s.mem pa n)) (low (s.sv f.dr)) (low (s.sv f.idx))
    (a % n = 0 → isPlan s.cur = false → TagFree s → CanCheckpoint s → ∀ pa, Reaches s a 2 pa → Settled s [⟨0, a, pa, n⟩] m (f.ord.getLsbD 1) →
      ∃ t l, exec i s = .next t ∧ SameOutside s t pa n ∧ leNat (Memory.readN t.mem pa n) = value pa ∧
        t.core.loads.getLast? = some l ∧ l.dest = .s f.dr.toNat ∧ l.size = n ∧ l.fixed = some (leNat (Memory.readN s.mem pa n)) ∧
        l.sent = s.now ∧ (f.scope.toNat ≤ 2 → l.least = 40) ∧
        (f.dr ≠ 0 → (t.core.live.sReg f.dr.toNat).full = false)) ∧
    (a < 2 ^ 56 → a % n = 0 → isPlan s.cur = true → ∀ pa, s.enginePa (dieOf s.cur) (s.tsid s.cur) a 2 = .ok pa →
      ∃ r, exec i s = .next (r.result (.s f.dr.toNat) (leNat (Memory.readN s.mem pa n) % 2 ^ 64) 0 1 0) ∧ r = { s with mem := r.mem } ∧
        SameOutside s r pa n ∧ leNat (Memory.readN r.mem pa n) = value pa) ∧
    (a < 2 ^ 56 → a % n ≠ 0 → ∃ t, exec i s = .next t ∧ (t.coreAt s.cur).sig = some (.trap 0x09 (BitVec.ofNat 64 a)))

/-- R110, R115, R257, R475: a load binds and a long-latency result is written, neither before its latency has passed, and a withheld store
is performed: its bytes alone change. -/
def Obligations.PendingEffects : Prop :=
  ∀ s : State, unitExists s.ev.u = true →
    let c := s.coreAt s.ev.u
    (∀ l, (c.loads.find? fun x => decide (x.tag = s.ev.k)) = some l → l.waits = 0 → s.ev.m = 0 → s.now < l.first c →
      exec .loadBind s = .next s) ∧
    (∀ l, (c.loads.find? fun x => decide (x.tag = s.ev.k)) = some l → l.waits = 0 → l.cancelled = false → s.ev.m = 0 → l.first c ≤ s.now →
      ∃ t, exec .loadBind s = .next t ∧ t.mem = s.mem ∧
        let c' := t.coreAt s.ev.u
        (c'.tag l.tag).st = .bound ∧ (∀ x ∈ c'.loads, x.tag ≠ l.tag) ∧ (l.dest ≠ .s 0 → c'.live.fullOf l.dest = true) ∧
        (∀ r, r ≠ l.dest → c'.live.valOf r = c.live.valOf r ∧ c'.live.fullOf r = c.live.fullOf r ∧ c'.live.taintOf r = c.live.taintOf r) ∧
        (∀ v, l.fixed = some v → l.sext = false → ∀ k, l.dest = .s k → k ≠ 0 → (c'.live.sReg k).val.toNat = v % 2 ^ 64) ∧
        (∀ p, l.fixed = none → l.pieces = [p] → p.off = 0 → p.len = l.size → l.fwd = [] → s.memOk = true →
          (∀ x ∈ c.l1, x.pa ≠ p.pa / 128 * 128) → ∀ k, l.dest = .s k → k ≠ 0 →
          (c'.live.sReg k).val = if l.sext then sextN (8 * l.size) (leNat (Memory.readN s.mem p.pa l.size))
            else BitVec.ofNat 64 (leNat (Memory.readN s.mem p.pa l.size)))) ∧
    (∀ p, (c.prods.find? fun x => decide (x.id = s.ev.k)) = some p → s.now < p.minDue → exec .producerWriteback s = .next s) ∧
    (∀ p, (c.prods.find? fun x => decide (x.id = s.ev.k)) = some p → p.waiting = false → p.exposed = false → p.minDue ≤ s.now →
      ∃ t, exec .producerWriteback s = .next t ∧
        let c' := t.coreAt s.ev.u
        c'.live = { c.live.put p.dest p.val true (c.live.taintOf p.dest) with fp := c.live.fp ||| p.fp } ∧
        c'.prods = (c.prods.filter fun x => !decide (x.id = p.id)) ∧
        t = s.updAt s.ev.u fun x => { x with live := c'.live, prods := c'.prods, shadow := { x.shadow with regs := c'.shadow.regs } }) ∧
    (∀ e ps data rel wide, (c.wb.find? fun x => decide (x.serial = s.ev.k)) = some e → e.k = .store ps data rel wide → e.released = true →
      e.waits = 0 → (∀ x ∈ c.wb, x.serial < e.serial → e.mayPass x = true) → s.memOk = true → s.ev.m = 0 →
      ∃ t, exec .storePerform s = .next t ∧ (t.coreAt s.ev.u).wb = (c.wb.filter fun x => !decide (x.serial = e.serial)) ∧
        (t.coreAt s.ev.u).live = c.live ∧
        (∀ x, (∀ p ∈ ps, x < p.pa ∨ p.pa + p.len ≤ x) → Memory.read t.mem x = Memory.read s.mem x) ∧
        (∀ a pa bs, ps = [⟨0, a, pa, bs.length⟩] → data = (List.range bs.length).zip bs → Memory.readN t.mem pa bs.length = bs))

namespace Sys2Proof.Machine

/-! ## Memory slot: the scratchpad, regions, the tag table, caches and pins -/

/-- The bytes from a lie in granules that the task may reach (R224), and a is aligned for the access (R233). -/
def SpadReady (s : State) (a size : Nat) : Prop :=
  a % min size 64 = 0 ∧ a + size ≤ spadBytes ∧ ∀ x, a ≤ x → x < a + size → s.granReach (x / 4096) = true

/-- The scratchpad word of a byte is valid (R225). -/
def WordValid (c : Core) (a : Nat) : Prop := (Tbl.get? c.spad (a / 4)).isSome = true

/-- No byte of the list stands in a scratchpad word with an uncorrectable error (R470). -/
def NoError (c : Core) (l : Nat → Prop) : Prop := ∀ a, l a → a / 8 ∉ c.spadBad

/-- No engine uses, in this cycle, a bank that n bytes from a lie in (R222, R480). -/
def BanksFree (s : State) (a n : Nat) : Prop := ∀ x, a ≤ x → x < a + n → x / 64 % 24 ∉ s.prior.core.engineBanks

/-- r is s but for the banks of n bytes from a, which its core uses in this cycle (R480). -/
def UsesBanks (s r : State) (a n : Nat) : Prop :=
  OnlyCore s r ∧ r.core = { s.core with coreBanks := r.core.coreBanks } ∧
  ∀ b, b ∈ r.core.coreBanks ↔ b ∈ s.core.coreBanks ∨ ∃ x, a ≤ x ∧ x < a + n ∧ b = x / 64 % 24

/-- First address and end of a range clipped at 2^56 (R240). -/
def rangeOf (s : State) (f : MemWord) : Nat × Nat :=
  (min (s.sv f.base).toNat (2 ^ 56), min ((s.sv f.base).toNat + (s.sv f.idx).toNat) (2 ^ 56))

end Sys2Proof.Machine

/-- R222, R225, R226, R242, R262, R268, R470, R480: the scratchpad loads and stores, byte by byte: a store waits for its banks, and a load
of the core reads what its stores have written; an unreachable byte, a word that nothing has written and an uncorrectable error trap;
both wait for an earlier acquire, and while an engine uses a bank of theirs. That an uninitialised word is reported before an
uncorrectable error is the model's choice (log 37). -/
def Obligations.Scratchpad : Prop :=
  ∀ (s : State) (f : MemWord), AddressReady s f →
    let n := memBytes f
    let a := address s f n
    let b := address s f 512
    let p := memPred s f
    let d := f.dr.toNat
    let m := srcTaint s [f.base, f.idx]
    let c := s.core.banked
    (Accepts s (.spld f) → SpadReady s a n → Readable s (.s d) →
      (s.core.acqWaits ≠ 0 → ∃ t, exec (.spld f) s = .next t ∧ (t.coreAt s.cur).sig = some (.wait .plain false false)) ∧
      (s.core.acqWaits = 0 → ¬BanksFree s a n → ∃ t, exec (.spld f) s = .next t ∧ (t.coreAt s.cur).sig = some (.wait .plain false false)) ∧
      (s.core.acqWaits = 0 → BanksFree s a n → (∀ k, k < n → WordValid c (a + k)) → NoError c (fun x => a ≤ x ∧ x < a + n) →
        ∃ r v, UsesBanks s r a n ∧ exec (.spld f) s = .next (r.produce (.s d) v m 3 0) ∧ ∀ k, k < n → v / 256 ^ k % 256 = (c.spadByte (a + k)).toNat) ∧
      (s.core.acqWaits = 0 → BanksFree s a n → (∀ k, k < n → WordValid c (a + k)) → ¬NoError c (fun x => a ≤ x ∧ x < a + n) →
        ∃ t info, exec (.spld f) s = .next t ∧ (t.coreAt s.cur).sig = some (.trap 0x0B info)) ∧
      (s.core.acqWaits = 0 → BanksFree s a n → s.core.spv.getLsbD 0 = false → (∃ k, k < n ∧ ¬WordValid c (a + k)) →
        ∃ t info, exec (.spld f) s = .next t ∧ (t.coreAt s.cur).sig = some (.trap 0x0D info))) ∧
    (Accepts s (.spld f) → a % n = 0 → spadBytes < a + n →
      ∃ t, exec (.spld f) s = .next t ∧ (t.coreAt s.cur).sig = some (.trap 0x0C (BitVec.ofNat 64 a))) ∧
    (Accepts s (.spst f) → SpadReady s a n → Readable s (.s d) → s.core.acqWaits = 0 → ¬BanksFree s a n →
      ∃ t, exec (.spst f) s = .next t ∧ (t.coreAt s.cur).sig = some (.wait .plain false false)) ∧
    (Accepts s (.spst f) → SpadReady s a n → Readable s (.s d) → s.core.acqWaits = 0 → BanksFree s a n →
      ∃ r t w, UsesBanks s r a n ∧ exec (.spst f) s = .next t ∧ OnlyCore r t ∧ t.core = { r.core with spq := s.core.spq ++ [w] } ∧
        (∀ k, k < n → t.core.banked.spadByte (a + k) = BitVec.ofNat 8 ((s.sv f.dr).toNat / 256 ^ k) ∧ WordValid t.core.banked (a + k)) ∧
        ∀ x, x < a ∨ a + n ≤ x → t.core.banked.spadByte x = c.spadByte x) ∧
    (Accepts s (.vspld f) → SpadReady s b 512 → Readable s (.v d) → (f.pen = true → Readable s (.p f.pg.toNat)) → s.core.acqWaits = 0 → BanksFree s b 512 →
      (∀ k, k < 512 → p.getLsbD k = true → WordValid c (b + k)) → NoError c (fun x => b ≤ x ∧ x < b + 512 ∧ p.getLsbD (x - b) = true) →
      ∃ r v, UsesBanks s r b 512 ∧ exec (.vspld f) s = .next (r.produce (.v d) v
          (m ||| if f.pen then (s.pre.vReg d).taint ||| (s.pre.pReg f.pg.toNat).taint else 0) 4 0) ∧
        ∀ k, k < 512 → v / 256 ^ k % 256 = if p.getLsbD k then (c.spadByte (b + k)).toNat else (s.pre.vReg d).val.toNat / 256 ^ k % 256) ∧
    (Accepts s (.vspst f) → SpadReady s b 512 → Readable s (.v d) → (f.pen = true → Readable s (.p f.pg.toNat)) → s.core.acqWaits = 0 → BanksFree s b 512 →
      ∃ r t l, UsesBanks s r b 512 ∧ exec (.vspst f) s = .next t ∧ OnlyCore r t ∧ t.core = { r.core with spq := s.core.spq ++ l } ∧
        ∀ x, t.core.banked.spadByte x = if b ≤ x ∧ x < b + 512 ∧ p.getLsbD (x - b) = true
          then BitVec.ofNat 8 ((s.pre.vReg d).val.toNat / 256 ^ (x - b)) else c.spadByte x)

/-- R223, R243, R245: `RALLOC` takes the lowest run of Free granules, or answers all ones; `RFREE` records the release of a
region of the task, and traps on anything else. -/
def Obligations.Regions : Prop :=
  ∀ (s : State) (f : MemWord), Readable s (.s f.base.toNat) →
    let z := (s.sv f.base).toNat
    let n := (z + 4095) / 4096
    let run (g : Nat) : Prop := g + n ≤ 384 ∧ ∀ i, i < n → Tbl.get? s.core.grans (g + i) = none
    let m := srcTaint s [f.base]
    (Accepts s (.ralloc f) → Readable s (.s f.dr.toNat) →
      (∀ g k, 0 < z → s.core.task = some k → run g → (∀ h, h < g → ¬run h) →
        ∃ t, exec (.ralloc f) s = .next (t.produce (.s f.dr.toNat) (4096 * g) m 6 0) ∧ OnlyCore s t ∧
          t.core = { s.core with grans := t.core.grans, spad := t.core.spad, spq := [], spadBad := s.core.banked.spadBad, allocNow := true } ∧
          (∀ i, Tbl.get? t.core.grans i = if g ≤ i ∧ i < g + n then some (.task k.id g false) else Tbl.get? s.core.grans i) ∧
          ∀ w, Tbl.get? t.core.spad w = if g * 1024 ≤ w ∧ w < (g + n) * 1024 then none else Tbl.get? s.core.banked.spad w) ∧
      ((z = 0 ∨ ∀ g, ¬run g) → exec (.ralloc f) s = .next (s.produce (.s f.dr.toNat) (2 ^ 64 - 1) m 6 0))) ∧
    (Accepts s (.rfree f) →
      (∀ k ck, s.core.task = some k → z % 4096 = 0 → Tbl.get? s.core.grans (z / 4096) = some (.task k.id (z / 4096) ck) →
        ∃ t, exec (.rfree f) s = .next t ∧ OnlyCore s t ∧ t.core = { s.core with freeing := t.core.freeing } ∧
          ∀ g, g ∈ t.core.freeing ↔ g ∈ s.core.freeing ∨ g = z / 4096) ∧
      (z % 4096 ≠ 0 → ∃ t, exec (.rfree f) s = .next t ∧ (t.coreAt s.cur).sig = some (.trap 0x0C (s.sv f.base))))

/-- R199, R227, R229, R246 to R248: the tag table and `SDSET`. -/
def Obligations.TagTableAndStreams : Prop :=
  ∀ (s : State) (f : MemWord), Readable s (.s f.base.toNat) →
    let k := s.sv f.base
    let w := s.sv f.dr
    (Accepts s (.stlook f) → Readable s (.s f.dr.toNat) →
      (∀ n e, (n, e) ∈ s.core.tagTab → e.key = k.toNat → (∀ x ∈ s.core.tagTab, x.2.key = k.toNat → x = (n, e)) →
        exec (.stlook f) s = .next (s.result (.s f.dr.toNat)
          ((e.s.toNat * 2 ^ 62 + e.d.toNat * 2 ^ 61 + e.len * 2 ^ 39 + e.spaddr * 2 ^ 8 + n) % 2 ^ 64) (srcTaint s [f.base]) 1 0)) ∧
      (∀ n, n < 256 → (∀ x ∈ s.core.tagTab, x.2.key ≠ k.toNat) → Tbl.get? s.core.tagTab n = none →
        (∀ j, j < n → (Tbl.get? s.core.tagTab j).isSome = true) →
        exec (.stlook f) s = .next (s.result (.s f.dr.toNat) (2 ^ 63 + n) (srcTaint s [f.base]) 1 0))) ∧
    (Accepts s (.stfill f) → Readable s (.s f.dr.toNat) →
      bits w 63 62 = 0 → bits w 60 54 = 0 → bits w 38 29 = 0 → bits w 13 8 = 0 → bits k 63 56 = 0 → bits k 5 0 = 0 →
      0 < bits w 53 39 → bits w 53 39 ≤ 24576 → bits w 28 8 + 64 * bits w 53 39 ≤ spadBytes →
      ∃ t, exec (.stfill f) s = .next t ∧ OnlyCore s t ∧ t.core = { s.core with tagTab := t.core.tagTab } ∧
        Tbl.get? t.core.tagTab (bits w 7 0) = some { d := w.getLsbD 61, key := k.toNat, spaddr := bits w 28 8, len := bits w 53 39 } ∧
        (∀ x ∈ t.core.tagTab, x.2.key = k.toNat → x.1 = bits w 7 0)) ∧
    (Accepts s (.stevict f) → k.toNat < 256 →
      (Tbl.get? s.core.tagTab k.toNat = none → exec (.stevict f) s = .next s) ∧
      (∀ e, Tbl.get? s.core.tagTab k.toNat = some e → e.d = false → ∃ t, exec (.stevict f) s = .next t ∧ OnlyCore s t ∧
        t.core = { s.core with tagTab := t.core.tagTab } ∧ Tbl.get? t.core.tagTab k.toNat = none ∧
        ∀ n, n ≠ k.toNat → Tbl.get? t.core.tagTab n = Tbl.get? s.core.tagTab n) ∧
      (∀ e, Tbl.get? s.core.tagTab k.toNat = some e → e.d = true → e.s = true → ∃ t, exec (.stevict f) s = .next t ∧
        (t.coreAt s.cur).sig = some (.trap 0x08 (BitVec.ofNat 64 (256 + k.toNat)))) ∧
      (∀ e ok q, Tbl.get? s.core.tagTab k.toNat = some e → e.d = true → e.s = false →
        s.writable (e.key / 4096) (pageCount e.key (e.key + 64 * e.len)) = .ok (ok, q) →
        (ok = true → exec (.stevict f) s = .next (q.upd fun c => { c with tagTab := Tbl.del c.tagTab k.toNat })) ∧
        (ok = false → ∃ t, exec (.stevict f) s = .next t ∧ (t.coreAt s.cur).sig = some (.trap 0x08 (BitVec.ofNat 64 (256 + k.toNat)))))) ∧
    (Accepts s (.sdset f) → (∀ i, i < f.sz.toNat → Readable s (.s (f.base.toNat + i))) →
      ∃ t, exec (.sdset f) s = .next t ∧ OnlyCore s t ∧ t.core = { s.core with live := { s.core.live with sd := t.core.live.sd } } ∧
        ∀ j, Tbl.getD t.core.live.sd j {} =
          if 4 * f.dr.toNat + f.sh.toNat ≤ j ∧ j < 4 * f.dr.toNat + f.sh.toNat + f.sz.toNat
          then ⟨(s.pre.sReg (f.base.toNat + (j - (4 * f.dr.toNat + f.sh.toNat)))).val, (s.pre.sReg (f.base.toNat + (j - (4 * f.dr.toNat + f.sh.toNat)))).taint⟩
          else Tbl.getD s.core.live.sd j {})

/-- R216, R221, R239 to R241, R286: `PREF` changes no more than the L1 and, by its translation, the TLBs, and fetches the line of a page
that they map; `ACQR` drops the lines of a range, at the address of their fill or by another mapping to memory that a TLB holds; `L2PIN`
sets this core's bit of every line of a range, and `L2UNPIN` clears it. Lines that the range names by another mapping are dropped as log
69 reads R240: the model's choice. -/
def Obligations.CachesAndPins : Prop :=
  ∀ (s : State) (f : MemWord), AddressReady s f →
    let r := rangeOf s f
    let bit := s.cur % 128
    (Accepts s (.pref f) → ∃ t, exec (.pref f) s = .next t ∧ t = { s with cores := t.cores, dies := t.dies, seq := t.seq } ∧
      (∀ u, u ≠ s.cur → t.coreAt u = s.coreAt u) ∧ (∀ d, d ≠ dieOf s.cur → t.dieAt d = s.dieAt d) ∧
      (let d := t.dieAt (dieOf s.cur)
       d = { s.dieAt (dieOf s.cur) with l2tlb := d.l2tlb, known := d.known }) ∧ t.core = { s.core with l1 := t.core.l1, tlb := t.core.tlb } ∧
      (f.sz = 1 → t.core.l1 = s.core.l1) ∧
      (f.sz ≠ 1 → ∀ pa, Reaches s (address s f 128) 0 pa → ∃ l ∈ t.core.l1, l.pa = pa / 128 * 128 ∧
        ((∀ x ∈ s.core.l1, x.pa ≠ pa / 128 * 128) → l.bytes = Memory.readN s.mem (pa / 128 * 128) 128))) ∧
    (Accepts s (.acqr f) → s.core.pendingMask = 0 → ∃ t, exec (.acqr f) s = .next t ∧ OnlyCore s t ∧
      t.core = { s.core with l1 := t.core.l1 } ∧ (∀ l ∈ t.core.l1, l ∈ s.core.l1) ∧
      ∀ l ∈ t.core.l1, ¬(l.tsid = s.tsid s.cur ∧ l.va < r.2 ∧ r.1 < l.va + 128 ∧ r.1 < r.2) ∧
        ∀ e ∈ s.core.tlb ++ (s.dieAt (dieOf s.cur)).l2tlb, e.tsid = s.tsid s.cur → e.dev = false → e.pa ≤ l.pa → l.pa < e.pa + pageBytes e.size →
          let va := e.vpage * pageBytes e.size + (l.pa - e.pa)
          ¬(va < r.2 ∧ r.1 < va + 128 ∧ r.1 < r.2)) ∧
    (Accepts s (.acqr f) → s.core.pendingMask ≠ 0 → ∃ t, exec (.acqr f) s = .next t ∧ (t.coreAt s.cur).sig = some (.wait .plain false false)) ∧
    (Accepts s (.l2pin f) → ∀ ls q, s.pinLines r.1 r.2 (r.1 / 4096) (pageCount r.1 r.2) = .ok (ls, q) →
      ((s.dieAt (dieOf s.cur)).pins.filter fun p => !p.2.isEmpty).length +
        (ls.filter fun x => (Tbl.getD (s.dieAt (dieOf s.cur)).pins x []).isEmpty).eraseDups.length ≤ pinLimit →
      ∃ t, exec (.l2pin f) s = .next t ∧ t.mem = s.mem ∧ t.core.live = s.core.live ∧
        (∀ n ∈ ls, bit ∈ Tbl.getD (t.dieAt (dieOf s.cur)).pins n []) ∧
        ∀ n k, k ∈ Tbl.getD (t.dieAt (dieOf s.cur)).pins n [] ↔ k ∈ Tbl.getD (s.dieAt (dieOf s.cur)).pins n [] ∨ n ∈ ls ∧ k = bit) ∧
    (Accepts s (.l2unpin f) →
      ∃ t, exec (.l2unpin f) s = .next t ∧ t = { s with dies := t.dies } ∧
        ∀ n k, k ∈ Tbl.getD (t.dieAt (dieOf s.cur)).pins n [] ↔
          k ∈ Tbl.getD (s.dieAt (dieOf s.cur)).pins n [] ∧
            ¬(k = bit ∧ n ∈ s.unpinLines (dieOf s.cur) (s.tsid s.cur) r.1 r.2 (r.1 / 4096) (pageCount r.1 r.2)))

namespace Sys2Proof.Machine

/-! ## Copies and channels -/

/-- The bytes [a, a + len) of the scratchpad lie in granules that the task may reach (R224, R391). -/
def SpadRange (s : State) (a len : Nat) : Prop := ∀ x, a ≤ x → x < a + len → x < spadBytes ∧ s.granReach (x / 4096) = true

/-- Tracker of copy staging register n of the running task (R389). -/
def tracker (s : State) (n : Nat) : CkTrack := Tbl.getD s.core.trk.ck n {}

/-- Number of the running task. -/
def taskNumber (s : State) : Nat := (s.core.task.map fun t => t.id).getD 0

/-- Global address and scratchpad address of a copy word with displacement (R391). -/
def copyGlobal (s : State) (n : Nat) (f : CpWord) : Nat := bits (ckWord s n 0) 55 0 + f.off.toNat * 64
def copyLocal (s : State) (n : Nat) (f : CpWord) : Nat := bits (ckWord s n 1) 20 0 + f.off.toNat * 64

/-- The entry of channel ch whose sender is this core (R398). -/
def Sends (s : State) (ch : Nat) (e : ChanEnt) : Prop := s.chan (dieOf s.cur) s.taskCtx ch = some e ∧ e.sender = s.cur

/-- What a copy instruction names: its word, its command, its staging taint, whether it is withheld, and when it is legal. -/
def copyRule (s : State) : Instr → Option (CpWord × Copy × Taint × Bool × Prop)
  | .cpy f =>
    let n := f.stg.toNat
    let len := bits (ckWord s n 1) 55 32
    let g : Side := .glob (s.tsid s.cur) (copyGlobal s n f)
    let l : Side := .spad s.cur (copyLocal s n f)
    let out := decide (bits (ckWord s n 3) 11 10 ≠ 0)
    some (f, { base n with
        len := len, flag := if f.fe then some (s.cur, f.fl.toNat) else none
        src := if out then l else g, dst := if out then g else l, dec := if f.dec then some f.dt.toNat else none },
      stageTaint s.pre.ck n, out,
      isControl s.cur = false ∧ wordsOk s n [0, 1, 3] = true ∧ (f.dec = true → out = false ∧ f.dt.toNat ∉ s.prior.core.dtBusy) ∧ SpadRange s (copyLocal s n f) len)
  | .cpyr f =>
    let n := f.stg.toNat
    let w := ckWord s n 2
    let len := bits (ckWord s n 1) 55 32
    let da := bits w 20 0 + f.off.toNat * 64
    let fmt := bits (ckWord s n 3) 15 12
    let e := if fmt = 1 ∨ fmt = 2 then 2 else 4
    let u := (bits w 63 54 * 32 + bits w 53 49) * 128 + bits w 48 42
    some (f, { base n with
        len := len, src := .spad s.cur (copyLocal s n f), dst := .spad u da, remote := true, flag := if f.fe then some (u, f.fl.toNat) else none
        acc := if f.acw then some fmt else none, lc := if f.le then some f.lc.toNat else none },
      stageTaint s.pre.ck n, true,
      wordsOk s n [1, 2, 3] = true ∧ (f.acw = true → len % e = 0 ∧ copyLocal s n f % e = 0 ∧ da % e = 0) ∧
        (f.le = true → len % 64 = 0 ∧ da % 64 = 0) ∧ SpadRange s (copyLocal s n f) len)
  | .cpys f =>
    let n := f.stg.toNat
    some (f, { base n with
        len := bits (ckWord s n 1) 55 32, src := .glob (s.tsid s.cur) (copyGlobal s n f), dst := .glob (s.tsid s.cur) (copyGlobal s (n + 1) f)
        flag := if f.fe then some (s.cur, f.fl.toNat) else none },
      stageTaint s.pre.ck n ||| stageTaint s.pre.ck (n + 1), true, n % 2 = 0 ∧ wordsOk s n [0, 1] = true ∧ wordsOk s (n + 1) [0] = true)
  | .cfill f =>
    let n := f.stg.toNat
    let len := bits (ckWord s n 1) 55 32
    let out := decide (bits (ckWord s n 3) 11 10 ≠ 0)
    some (f, { base n with
        len := len, src := .bytes (toBytes 8 (s.sv f.sr).toNat), flag := if f.fe then some (s.cur, f.fl.toNat) else none
        dst := if out then .glob (s.tsid s.cur) (copyGlobal s n f) else .spad s.cur (copyLocal s n f) },
      stageTaint s.pre.ck n ||| srcTaint s [f.sr], out,
      Readable s (.s f.sr.toNat) ∧ wordsOk s n [1, 3] = true ∧ (out = true → wordsOk s n [0] = true) ∧
        (out = false → isControl s.cur = false ∧ SpadRange s (copyLocal s n f) len))
  | _ => none
where
  base (n : Nat) : Copy := { u := s.cur, task := taskNumber s, ck := n, warn := s.core.spv.getLsbD 0 }

/-- The command has issued: counted in its tracker, and withheld until a checkpoint releases it, or in its die's queue (R388,
R389, R442); no memory and no register has changed. -/
def CopyIssued (s t : State) (c : Copy) (m : Taint) (withheld : Bool) : Prop :=
  t.mem = s.mem ∧ t.core.live = s.core.live ∧
  (tracker t c.ck).out = (tracker s c.ck).out + (if c.tracked then 1 else 0) ∧ (tracker t c.ck).err = (tracker s c.ck).err ∧
  (withheld = true → t.dies = s.dies ∧ ∃ e, t.core.wb = s.core.wb ++ [e] ∧ e.k = .copy { c with waits := 0 } ∧ e.released = false) ∧
  (withheld = false → t.core.wb = s.core.wb ∧ (t.dieAt (dieOf s.cur)).copyq = (s.dieAt (dieOf s.cur)).copyq ++
    [{ c with id := (s.dieAt (dieOf s.cur)).nextCopy, waits := (m ||| s.pre.ct) &&& s.core.pendingMask }])

/-- A send of channel ch, whose entry at the sender is e, has been counted: SENDIX has advanced (R401). -/
def Sent (s t : State) (ch : Nat) (e : ChanEnt) : Prop :=
  t = { s with dies := t.dies } ∧ (∀ d, d ≠ dieOf s.cur → t.dieAt d = s.dieAt d) ∧
  ∀ k, Tbl.get? (t.ctxAt (dieOf s.cur) s.taskCtx).chans k =
    if k = ch then some { e with sendIx := (e.sendIx + 1) % 65536 } else Tbl.get? (s.ctxAt (dieOf s.cur) s.taskCtx).chans k

/-- A command can issue: its tracker can count it, and the buffer or the queue has room (R388, R389, R442). -/
def CopyRoom (s : State) (n : Nat) (tracked withheld : Bool) : Prop :=
  (tracked = true → (tracker s n).out < 65535) ∧ (withheld = true → BufferRoom s 1) ∧
  (withheld = false → (s.dieAt (dieOf s.cur)).copyq.length < 256)

end Sys2Proof.Machine

/-- R388, R389, R392 to R395: `CPY`, `CPYR`, `CPYS` and `CFILL` issue their command. -/
def Obligations.CopyIssue : Prop :=
  ∀ (s : State) (i : Instr) (f : CpWord) (c : Copy) (m : Taint) (w : Bool) (legal : Prop), copyRule s i = some (f, c, m, w, legal) →
    Accepts s i → legal → CopyRoom s f.stg.toNat true w → ∃ t, exec i s = .next t ∧ CopyIssued s t c m w

/-- R396, R397, R389: `DTLOAD` issues its command, no fill and no command from before its group using the slot; `CWAIT` waits while commands are outstanding, raises the copy fault on a
recorded error and else passes; `CSTAT` reads the tracker. -/
def Obligations.CopyWaits : Prop :=
  ∀ (s : State) (f : CpWord),
    let n := f.stg.toNat
    let x := tracker s n
    (Accepts s (.dtload f) → wordsOk s n [0] = true → CopyRoom s n true false → f.dt.toNat ∉ s.prior.core.dtBusy →
      (∀ y ∈ s.prior.core.fills, y.dec ≠ some f.dt.toNat) → (∀ y ∈ (s.prior.dieAt (dieOf s.cur)).copyq, y.u = s.cur → y.dec ≠ some f.dt.toNat) →
      ∃ t, exec (.dtload f) s = .next t ∧ f.dt.toNat ∈ t.core.dtBusy ∧
        CopyIssued s t { u := s.cur, task := taskNumber s, ck := n, warn := s.core.spv.getLsbD 0, len := 272
                         src := .glob (s.tsid s.cur) (bits (ckWord s n 0) 55 0), dst := .bytes [], dtload := some f.dt.toNat }
          (stageTaint s.pre.ck n) false) ∧
    (Accepts s (.cwait f) →
      (x.out ≠ 0 → ∃ t b, exec (.cwait f) s = .next t ∧ (t.coreAt s.cur).sig = some (.wait .plain b false)) ∧
      (x.out = 0 → x.err = true → ∃ t, exec (.cwait f) s = .next t ∧
        (t.coreAt s.cur).sig = some (.copyFault n (BitVec.ofNat 64 (x.code * 2 ^ 56 + x.addr % 2 ^ 56)))) ∧
      (x.out = 0 → x.err = false → ∃ t, exec (.cwait f) s = .next t ∧ t = { s with cores := t.cores, seq := s.seq + 1 } ∧
        (∀ u, u ≠ s.cur → t.coreAt u = s.coreAt u) ∧ t.core = { s.core with l1Floor := s.seq + 1 })) ∧
    (Accepts s (.cstat f) → Readable s (.s f.sr.toNat) → exec (.cstat f) s = .next (s.produce (.s f.sr.toNat)
      ((x.code * 2 ^ 56 + x.out * 2 ^ 40 + x.err.toNat) % 2 ^ 64) 0 4 0))

/-- R400 to R403, R415, R470: `CSEND` and `CQSEND` send a tile to the landing slot SENDIX mod DEPTH of their channel, and SENDIX advances; a
row with an error ends a `CQSEND` where it is read; `CHOPEN` and `CHCLOSE` set the open bit at the receiver; any other core meets the
queue fault. That no rollback takes SENDIX back (log 83) and that a `CQSEND` waits for promised rows that are not yet there (log 81) are
the model's choice. -/
def Obligations.ChannelSends : Prop :=
  ∀ (s : State) (f : CpWord),
    let n := f.stg.toNat
    let ch := f.ch.toNat
    let q := f.rq.toNat
    (Accepts s (.csend f) → ∀ e, Sends s ch e → wordsOk s n [1] = true → bits (ckWord s n 1) 55 32 = e.tileBytes → copyLocal s n f % 64 = 0 →
      SpadRange s (copyLocal s n f) e.tileBytes → CopyRoom s n true true → ∃ r t, exec (.csend f) s = .next t ∧ Sent r t ch e ∧
        CopyIssued s r { u := s.cur, task := taskNumber s, ck := n, warn := s.core.spv.getLsbD 0, len := e.tileBytes
                         src := .spad s.cur (copyLocal s n f), dst := .slot e.receiver s.taskCtx ch (e.sendIx % e.depth), remote := true } (stageTaint s.pre.ck n) true) ∧
    (Accepts s (.cqsend f) → ∀ e, Sends s ch e → e.tileBytes % 512 = 0 →
      let r := e.tileBytes / 512
      let head := Tbl.getD s.core.live.rqHead q 0
      head + r ≤ Tbl.getD s.core.live.rqTail q 0 → r ≤ s.core.occupancy s.core.live q →
      CopyRoom s 0 false true →
      let bad (i : Nat) : Prop := i < r ∧ q * 2 ^ 32 + head + i ∈ s.core.rowsBad
      ∃ y t x b, exec (.cqsend f) s = .next t ∧ Sent y t ch e ∧ y.dies = s.dies ∧ ((∀ i, ¬bad i) → b = none) ∧
        (∀ i, bad i → (∀ j, j < i → ¬bad j) → b = some (512 * i)) ∧ Tbl.getD t.core.live.rqHead q 0 = head + r ∧ t.core.wb = s.core.wb ++ [x] ∧
        x.k = .copy { u := s.cur, task := taskNumber s, ck := 0, warn := s.core.spv.getLsbD 0, tracked := false, len := e.tileBytes
                      src := .bytes ((List.range r).flatMap fun i => vecBytes (Tbl.getD s.core.rows (q * 2 ^ 32 + head + i) 0))
                      dst := .slot e.receiver s.taskCtx ch (e.sendIx % e.depth), remote := true, badFrom := b }) ∧
    (∀ (b : Bool) (i : Instr), i = (if b then .chopen f else .chclose f) → Accepts s i →
      (∀ e, s.chan (dieOf s.cur) s.taskCtx ch = some e → e.receiver = s.cur → ∃ t, exec i s = .next t ∧ t = { s with dies := t.dies } ∧
        Tbl.get? (t.ctxAt (dieOf s.cur) s.taskCtx).chans ch = some { e with isOpen := b }) ∧
      ((∀ e, s.chan (dieOf s.cur) s.taskCtx ch = some e → e.receiver ≠ s.cur) → ∃ t info, exec i s = .next t ∧
        (t.coreAt s.cur).sig = some (.trap 0x10 info))) ∧
    (∀ i, i = .csend f ∨ i = .cqsend f → Accepts s i → (i = .csend f → wordsOk s n [1] = true) → (∀ e, ¬Sends s ch e) →
      ∃ t info, exec i s = .next t ∧ (t.coreAt s.cur).sig = some (.trap 0x10 info))

namespace Sys2Proof.Machine

/-- Nothing of a command has been done: no byte read, no unit written or on its way. -/
def Fresh (s : State) (c : Copy) : Prop :=
  c.rpos = 0 ∧ c.carry = [] ∧ c.buf = [] ∧ c.fails = none ∧ ∀ x ∈ s.units, x.copy.id ≠ c.id

/-- The running task's tracker of a command. -/
def trackerOf (t : State) (c : Copy) : CkTrack := Tbl.getD (t.coreAt c.u).trk.ck c.ck {}

/-- Offsets at which a command's source begins an aligned 64-byte block (R254). -/
def blockStart (va o : Nat) : Prop := o = 0 ∨ (va + o) % 64 = 0

/-- The byte at an offset of a command's source: of memory through translation, of a pattern, of a scratchpad whose words are valid
and hold no error, and whose stores have been performed (R226, R268, R391, R395). -/
def sourceByte (s : State) (c : Copy) (k : Nat) (b : Byte) : Prop :=
  match c.src with
  | .glob tsid va => ∃ pa, s.enginePa (dieOf c.u) tsid (va + k) 0 = .ok pa ∧ Memory.read s.mem pa = b
  | .bytes bs => bs.getD (k % bs.length) 0 = b
  | .spad u a => (s.coreAt u).spq = [] ∧ WordValid (s.coreAt u) (a + k) ∧ (a + k) / 8 ∉ (s.coreAt u).spadBad ∧ (s.coreAt u).spadByte (a + k) = b
  | .slot _ _ _ _ => False

/-- The pages of a command's source up to offset n keep their translation while it is read: the L2 TLB has them, or one block holds them
all (R254, R286). -/
def SteadySource (s : State) (c : Copy) (n : Nat) : Prop :=
  match c.src with
  | .glob tsid va => n ≤ 64 - va % 64 ∨ ∀ k, k < n → ((s.dieAt (dieOf c.u)).l2tlb.any fun e => e.covers tsid (va + k)) = true
  | _ => True

end Sys2Proof.Machine

/-- R254, R269, R388 to R395, R421, R470: a command is performed whole: into its own core's scratchpad it writes its bytes alone and is
counted off its tracker, to another it sends them in units on their way, none across an aligned 64-byte boundary; the first failing
address is recorded in the tracker; a landing unit writes or accumulates its bytes and counts, and the last one completes its command; an
accumulation onto a word with an error ends it. That a unit which no post or counter announces may be written after its landing, until a
release of its core, is the model's choice (log 100). -/
def Obligations.CopyPerformed : Prop :=
  (∀ (s : State) (c : Copy) (u a : Nat),
    ((s.dieAt s.ev.u).copyq.find? fun x => decide (x.id = s.ev.k)) = some c → s.ev.m = 0 → dieOf c.u = s.ev.u → s.copyReady c = true →
    c.dtload = none → c.dec = none → c.dst = .spad u a → c.tracked = true → c.flag = none → Fresh s c →
    ((s.coreAt c.u).task.map fun t => t.id) = some c.task →
    (c.remote = false → u = c.u → SteadySource s c c.len → ∀ byte : Nat → Byte, (∀ k, k < c.len → sourceByte s c k (byte k)) →
      ∃ t, exec .copyPerform s = .next t ∧ t.mem = s.mem ∧
      (t.dieAt s.ev.u).copyq = ((s.dieAt s.ev.u).copyq.filter fun y => !decide (y.id = c.id)) ∧
      (trackerOf t c).out = (trackerOf s c).out - 1 ∧ (trackerOf t c).err = (trackerOf s c).err ∧
      (∀ x, x < a ∨ a + c.len ≤ x → (t.coreAt c.u).spadByte x = (s.coreAt c.u).spadByte x) ∧
      ∀ k, k < c.len → (t.coreAt c.u).spadByte (a + k) = byte k) ∧
    (c.remote = false → u = c.u → ∀ tsid va o e, c.src = .glob tsid va → o < c.len → blockStart va o → (o = 0 ∨ SteadySource s c o) →
      s.enginePa (dieOf c.u) tsid (va + o) 0 = .error e →
      (∀ p, p < o → blockStart va p → ∃ pa, s.enginePa (dieOf c.u) tsid (va + p) 0 = .ok pa) → ∃ t, exec .copyPerform s = .next t ∧ t.mem = s.mem ∧
      (trackerOf t c).out = (trackerOf s c).out - 1 ∧ (trackerOf t c).err = true ∧
      ((trackerOf s c).err = false → (trackerOf t c).code = errCode e ∧ (trackerOf t c).addr = va + o) ∧
      ((trackerOf s c).err = true → (trackerOf t c).code = (trackerOf s c).code ∧ (trackerOf t c).addr = (trackerOf s c).addr) ∧
      ∀ x, x < a ∨ a + c.len ≤ x → (t.coreAt c.u).spadByte x = (s.coreAt c.u).spadByte x) ∧
    (c.remote = true → 0 < c.len → s.copyDst c = none → SteadySource s c c.len →
      (∀ fmt, c.acc = some fmt → a % (if fmt = 1 ∨ fmt = 2 then 2 else 4) = 0) → ∀ byte : Nat → Byte, (∀ k, k < c.len → sourceByte s c k (byte k)) →
      ∃ t, exec .copyPerform s = .next t ∧ t.mem = s.mem ∧ trackerOf t c = trackerOf s c ∧
      (∀ x ∈ t.units, x ∉ s.units → x.copy.id = c.id ∧ x.u = u ∧ x.counter = c.lc ∧ 0 < x.bytes.length ∧
        x.addr / 64 = (x.addr + x.bytes.length - 1) / 64) ∧
      ∀ k, k < c.len → ∃ x ∈ t.units, x ∉ s.units ∧ x.addr ≤ a + k ∧ a + k < x.addr + x.bytes.length ∧ x.bytes.getD (a + k - x.addr) 0 = byte k)) ∧
  (∀ (s : State) (x : Unit64), (s.units.find? fun y => decide (y.id = s.ev.u)) = some x →
    (s.ev.flag = true → x.counter = none → x.copy.flag = none → x.u ≠ x.copy.u → (∃ v a, x.copy.dst = .spad v a) → x.copy.acc = none →
      ∃ t, exec .landingUnitArrival s = .next t ∧ t.mem = s.mem ∧ t.late = s.late ++ [x] ∧
        ∀ b, (t.coreAt x.u).spadByte b = (s.coreAt x.u).spadByte b) ∧
    (∀ fmt, x.copy.acc = some fmt → (∃ k, k < x.bytes.length ∧ (x.addr + k) / 8 ∈ (s.coreAt x.u).spadBad) → x.copy.stopped = false →
      x.copy.tracked = true → ((s.coreAt x.copy.u).task.map fun t => t.id) = some x.copy.task →
      (∀ y ∈ (s.dieAt (dieOf x.copy.u)).copyq, y.id ≠ x.copy.id) → ∃ t, exec .landingUnitArrival s = .next t ∧ t.mem = s.mem ∧
        (∀ y ∈ t.units, ∃ z ∈ s.units, z.id = y.id ∧ z.bytes = y.bytes) ∧ (∀ b, (t.coreAt x.u).spadByte b = (s.coreAt x.u).spadByte b) ∧
        (trackerOf t x.copy).out = (trackerOf s x.copy).out - 1 ∧ (trackerOf t x.copy).err = true ∧
        ((trackerOf s x.copy).err = false → (trackerOf t x.copy).code = 0x06)) ∧
    (s.ev.flag = false → (∀ y ∈ s.late, y.copy.u ≠ x.copy.u) →
      (∀ fmt, x.copy.acc = some fmt → ∀ k, k < x.bytes.length → (x.addr + k) / 8 ∉ (s.coreAt x.u).spadBad) →
    ∃ t, exec .landingUnitArrival s = .next t ∧ t.mem = s.mem ∧
      (t.units.map fun y => y.id) = ((s.units.filter fun y => !decide (y.id = x.id)).map fun y => y.id) ∧
      (∀ b, b < x.addr ∨ x.addr + x.bytes.length ≤ b → (t.coreAt x.u).spadByte b = (s.coreAt x.u).spadByte b) ∧
      (x.copy.acc = none → ∀ k, k < x.bytes.length → (t.coreAt x.u).spadByte (x.addr + k) = x.bytes.getD k 0) ∧
      (∀ fmt, x.copy.acc = some fmt → let e := if fmt = 1 ∨ fmt = 2 then 2 else 4
        x.bytes.length % e = 0 → ∀ k, k < x.bytes.length / e →
        leNat ((t.coreAt x.u).spadRead (x.addr + e * k) e) = accumulate fmt (leNat ((s.coreAt x.u).spadRead (x.addr + e * k) e))
          (leNat ((x.bytes.drop (e * k)).take e)) % 256 ^ e) ∧
      (∀ m, x.counter = some m → (∀ y ∈ s.units, y.id ≠ x.id → y.copy.id = x.copy.id → y.off / 64 ≠ x.off / 64) →
        (∀ y ∈ (s.dieAt (dieOf x.copy.u)).copyq, y.id = x.copy.id → ∀ b ∈ y.buf, b.1 / 64 ≠ x.off / 64) → ((t.coreAt x.u).lcAt m).count = min 0xFFFFF (((s.coreAt x.u).lcAt m).count + 1)) ∧
      (x.copy.tracked = true → x.copy.flag = none → x.copy.stopped = false → ((s.coreAt x.copy.u).task.map fun t => t.id) = some x.copy.task →
        (∀ y ∈ s.units, y.id ≠ x.id → y.copy.id ≠ x.copy.id) → (∀ y ∈ (s.dieAt (dieOf x.copy.u)).copyq, y.id ≠ x.copy.id) →
        trackerOf t x.copy = { trackerOf s x.copy with out := (trackerOf s x.copy).out - 1 }))) ∧
  (∀ (s : State) (x : Unit64), s.late = [x] → x.copy.acc = none → (s.settle x.copy.u).late = [] ∧
    (x.u ≠ x.copy.u → ∀ k, k < x.bytes.length → ((s.settle x.copy.u).coreAt x.u).spadByte (x.addr + k) = x.bytes.getD k 0) ∧
    ∀ u, u ≠ x.copy.u → (s.settle u).late = s.late)

namespace Sys2Proof.Machine

/-! ## Collectives -/

/-- The member that a `SLUICE` of collective staging register n starts (R203, R406). -/
def sluiceMember (s : State) (f : CpWord) : Member :=
  let w (i : Nat) : DWord := (Tbl.getD s.pre.cl (4 * f.stg.toNat + i) {}).val
  { u := s.cur, task := taskNumber s, cl := f.stg.toNat, w0 := w 0, w1 := w 1, w2 := w 2, w3 := w 3, tsid := s.tsid s.cur
    flag := if f.fe then some f.fl.toNat else none }

end Sys2Proof.Machine

/-- R389, R406, R410, R411: `SLUICE` and `SLABORT` are withheld, an illegal `SLUICE` traps, and `SLSTAT` reads the state of the
instance that the tracker names: withheld, live, or as its member ended. What `SLSTAT` reads of a member that has ended (log 63), and
that a withheld `SLABORT` keeps the tracker it was issued with (log 89), are the model's choice. -/
def Obligations.CollectiveIssue : Prop :=
  ∀ (s : State) (f : CpWord),
    let n := f.stg.toNat
    let m := sluiceMember s f
    let x := Tbl.getD s.core.trk.cl n {}
    let mine (y : Member) : Prop := y.isNamed s.cur (taskNumber s) n x = true
    let withheld : Prop := ∃ e ∈ s.core.wb, ∃ y w, e.k = .sluice y w ∧ mine y
    (Accepts s (.sluice f) → m.illegal = false → BufferRoom s 1 → ∃ t e, exec (.sluice f) s = .next t ∧ OnlyCore s t ∧
      t.core = { s.core with wb := s.core.wb ++ [e], nextSerial := t.core.nextSerial, trk := t.core.trk } ∧ e.k = .sluice m x ∧ e.released = false ∧
      Tbl.getD t.core.trk.cl n {} = { valid := true, part := (s.dieAt (dieOf s.cur)).partition, group := bits m.w2 47 32
                                      step := bits m.w3 63 32, buf := bits m.w0 55 0 }) ∧
    (Accepts s (.sluice f) → (3 < bits m.w3 3 0 ∨ bits m.w3 9 8 = 3 ∨ 4 < bits m.w3 7 4 ∨ bits m.w0 55 0 % 64 ≠ 0 ∨ bits m.w1 31 0 = 0) →
      ∃ t info, exec (.sluice f) s = .next t ∧ (t.coreAt s.cur).sig = some (.trap 0x03 info)) ∧
    (Accepts s (.slabort f) → BufferRoom s 1 → ∃ t e, exec (.slabort f) s = .next t ∧ OnlyCore s t ∧
      t.core = { s.core with wb := s.core.wb ++ [e], nextSerial := t.core.nextSerial } ∧ e.k = .slabort (taskNumber s) n x ∧ e.released = false) ∧
    (Accepts s (.slstat f) → Readable s (.s f.sr.toNat) → ∃ st cause arrived, exec (.slstat f) s = .next (s.produce (.s f.sr.toNat)
        (st * 2 ^ 56 + cause * 2 ^ 48 + arrived % 65536 * 2 ^ 32 + if x.valid then x.step else 0) 0 4 0) ∧
      (x.valid = false → st = 0 ∧ cause = 0 ∧ arrived = 0) ∧ (x.valid = true → withheld → st = 1 ∧ cause = 0 ∧ arrived = 0) ∧
      (x.valid = true → ¬withheld → ∀ i ∈ s.insts, ∀ y ∈ i.members, i.part = x.part → mine y → y.done = false →
        (∀ j ∈ s.insts, ∀ z ∈ j.members, j.part = x.part → mine z → j = i ∧ z = y) → arrived = i.arrived ∧
        (i.abort = none → cause = 0 ∧ st = if i.committed then 3 else 2) ∧
        (∀ c, i.abort = some c → cause = c ∧ st = if c = 1 ∨ c = 2 ∨ c = 7 then 6 else 5)) ∧
      (x.valid = true → ¬withheld → (∀ j ∈ s.insts, ∀ z ∈ j.members, j.part = x.part → mine z → z.done = true) →
        ∀ e, (s.memberEnds.find? fun e => e.m.isNamed s.cur (taskNumber s) n x && decide (e.part = x.part)) = some e →
        arrived = e.arrived ∧ cause = e.cause ∧ st = if e.state = 1 then 4 else if e.state = 2 then 5 else 6))

/-- R274, R405, R407 to R409, R411: a contribution is counted and stored, the last one commits; a member takes its elements and, once every
member has its own, its record; a failed read and an abort reach every member. -/
def Obligations.CollectiveProgress : Prop :=
  (∀ (s : State) (i : Inst) (m f : Member) (rest : List Member), (s.insts.find? fun x => decide (x.id = s.ev.u / 2048)) = some i →
    i.members[s.ev.u % 2048]? = some m → i.members = f :: rest → i.committed = false → i.abort = none → m.contrib = none →
    (2 ≤ m.kind → i.members.length = m.nmem) →
    (∀ xs, s.contribution i m = .ok xs → ∃ t j, exec .contributionArrival s = .next t ∧ t.mem = s.mem ∧ j ∈ t.insts ∧ j.id = i.id ∧
      j.arrived = i.arrived + 1 ∧ (j.members[s.ev.u % 2048]?).bind Member.contrib = some xs ∧
      (j.committed = true ↔ i.arrived + 1 = f.nmem) ∧
      (f.kind = 2 → j.committed = true → j.results = (List.range f.nmem).flatMap fun p =>
        ((j.members.find? fun x => decide (j.position x = p)).bind Member.contrib).getD [])) ∧
    (∀ c, s.contribution i m = .error c → ∃ t j, exec .contributionArrival s = .next t ∧ j ∈ t.insts ∧ j.id = i.id ∧ j.abort = some c)) ∧
  (∀ (s : State) (i : Inst) (m : Member), (s.insts.find? fun x => decide (x.id = s.ev.u)) = some i → i.members[s.ev.k]? = some m →
    i.committed = true → m.done = false →
    let p := (i.members.filter fun x => decide (x.lo < m.lo)).length
    let n := m.count / m.nmem
    let first := if m.kind = 1 then p * n else 0
    let xs := if m.kind = 1 then (i.results.drop (p * n)).take n else if m.kind = 3 ∧ p = 0 then [] else i.results
    let len := if m.kind = 1 then n else if m.kind = 3 ∧ p = 0 then 0 else m.count
    let base := m.buf + first * m.size
    (m.put = false → ∀ w, s.engineWrite m.die m.tsid base (xs.flatMap (toBytes m.size)) = .ok w →
      ∃ t j, exec .memberCompletion s = .next t ∧ t.mem = w.mem ∧ j ∈ t.insts ∧ j.id = i.id ∧
        j.members[s.ev.k]? = some { m with put := true }) ∧
    (m.put = false → ∀ e, s.engineWrite m.die m.tsid base (xs.flatMap (toBytes m.size)) = .error e →
      ∃ t j c, exec .memberCompletion s = .next t ∧ t.mem = s.mem ∧ j ∈ t.insts ∧ j.id = i.id ∧ (c = 3 ∨ c = 4) ∧
        j.members[s.ev.k]? = some { m with put := true, bad := c }) ∧
    (m.put = true → (∀ y ∈ i.members, y.put = true) → ∃ t, exec .memberCompletion s = .next t ∧
      t.mem = (s.deliverRecord m (if m.bad = 0 then recordBytes 1 0 i.step base (len * m.size) i.group 0xFFFFFFFF i.ovf i.nv
        else recordBytes 3 m.bad i.step m.buf 0 i.group 0xFFFFFFFF i.ovf i.nv)).mem ∧
      ∀ j ∈ t.insts, j.id = i.id → (j.members[s.ev.k]?).map Member.done = some true) ∧
    (m.put = true → (∃ y ∈ i.members, y.put = false) → exec .memberCompletion s = .next s)) ∧
  (∀ (s : State) (i : Inst) (m : Member) (c : Nat), (s.insts.find? fun x => decide (x.id = s.ev.u / 2048)) = some i →
    i.members[s.ev.u % 2048]? = some m → i.abort = some c → m.done = false →
      ∃ t, exec .abortTokenArrival s = .next t ∧
        t.mem = (s.deliverRecord m (recordBytes (if c = 1 ∨ c = 2 ∨ c = 7 then 3 else 2) c i.step m.buf 0 i.group i.agreed false false)).mem ∧
        ∀ j ∈ t.insts, j.id = i.id → (j.members[s.ev.u % 2048]?).map Member.done = some true)

namespace Sys2Proof.Machine

/-! ## Sync slot -/

/-- The slot stops its group: what stopped it is left behind at its unit. -/
def Stops (s : State) (i : Instr) (e : Stop) : Prop := ∃ t, exec i s = .next t ∧ (t.coreAt s.cur).sig = some e

/-- The limit of a LIM field in cycles (R93, R306). -/
def cycleLimit (lim : BitVec 5) : Option Nat := if lim.toNat = 31 then none else some (16 * 2 ^ lim.toNat)

/-- The deadline of the group at a unit, a 48-bit cycle, passed in an earlier cycle (R303, R310). -/
def Expired (s : State) (u : Nat) : Prop :=
  ∃ d, (s.coreAt u).deadline = some d ∧ 1 ≤ (s.cycle48 (dieOf u) + 2 ^ 48 - d) % 2 ^ 48 ∧ (s.cycle48 (dieOf u) + 2 ^ 48 - d) % 2 ^ 48 < 2 ^ 47

/-- A wait that stalls in place, being a `BAR` or of a task that may not suspend, has stood beyond its limit (R178, R303, R425). -/
def Overdue (s : State) (kind : Nat) : Prop :=
  Expired s s.cur ∧ s.core.holding = true ∧ (kind = 8 ∨ s.prior.core.maySuspend = false)

/-- `TREC_INFO` of the wait-limit trap (R428). -/
def waitLimitInfo (wait ix count target : Nat) : DWord :=
  BitVec.ofNat 64 (wait * 2 ^ 60 + ix * 2 ^ 48 + count % 2 ^ 16 * 2 ^ 32 + target % 2 ^ 16 * 2 ^ 16)

/-- `TREC_INFO` of the queue fault of a channel (R309), with DEPTH and the indices that its receiver holds. -/
def QueueInfo (s : State) (u cls kind ch : Nat) (info : DWord) : Prop :=
  let ctx := (s.coreAt u).ofTask fun r => r.ctx
  ∃ depth p q, info = BitVec.ofNat 64 (cls * 2 ^ 62 + kind * 2 ^ 60 + ch * 2 ^ 48 + depth * 2 ^ 32 + p * 2 ^ 16 + q) ∧
    ∀ e x, s.chan (dieOf u) ctx ch = some e → s.chanAtReceiver e ctx ch = some x → depth = e.depth ∧ p = x.pushIx ∧ q = x.popIx

/-- Flag k of unit u now counts v, every other register is as before, and a waiting record that v satisfies is ready (R302). -/
def FlagBecomes (s t : State) (u k v : Nat) : Prop :=
  (∀ j, Core.flag (t.coreAt u).live j = if j = k then v else Core.flag (s.coreAt u).live j) ∧
  (t.coreAt u).live = { (s.coreAt u).live with flag := (t.coreAt u).live.flag } ∧
  ∀ n p, Tbl.get? (s.coreAt u).resume n = some p → p.ending = none → p.r.wkind = 1 → p.r.wix = k → p.r.wtgt ≤ v →
    ∃ q, Tbl.get? (t.coreAt u).resume n = some q ∧ q.ready = true

/-- The core that a value in the layout of `CORE_ID` names (R424): package, die, and quad and core, or a control core. -/
def namedUnit (v : DWord) : Nat :=
  (v.toNat / 2 ^ 22 % 2 ^ 10 * 32 + v.toNat / 2 ^ 17 % 32) * 128 +
    (if v.getLsbD 63 then 72 + v.toNat / 2 ^ 10 % 4 else v.toNat / 2 ^ 12 % 32 * 4 + v.toNat / 2 ^ 10 % 4)

/-- The acquire of a satisfied wait or a fence (R262, R266, R269): later loads use no older L1 line. -/
def Acquired (s t : State) : Prop :=
  t = { s with cores := t.cores, seq := s.seq + 1 } ∧ (∀ u, u ≠ s.cur → t.coreAt u = s.coreAt u) ∧ t.core = { s.core with l1Floor := s.seq + 1 }

/-- Every access of the unit on a path (R253) is performed (R267). -/
def PathQuiet (s : State) (path : Nat) : Prop :=
  let copies (p : Copy → Prop) : Prop := (∀ x ∈ (s.dieAt (dieOf s.cur)).copyq, x.u = s.cur → p x) ∧ ∀ x ∈ s.units, x.copy.u = s.cur → x.copy.stopped = false → p x.copy
  match path with
  | 0 => s.core.pendingMask = 0 ∧ ∀ e ∈ s.core.wb, ∀ a b c d, e.k ≠ .store a b c d
  | 1 => (copies fun x => x.dec ≠ none) ∧ ∀ e ∈ s.core.wb, ∀ x, e.k = .copy x → x.dec ≠ none
  | 2 => ∀ f ∈ s.core.fills, f.dec ≠ none
  | 3 => (∀ e ∈ s.core.wb, (∀ m w, e.k ≠ .sluice m w) ∧ ∀ a b c, e.k ≠ .slabort a b c) ∧ ∀ i ∈ s.insts, ∀ m ∈ i.members, m.u = s.cur → m.inserted = none → m.done = true
  | _ => (copies fun x => x.dec = none) ∧ ∀ f ∈ s.core.fills, f.dec = none

/-- The group takes a further checkpoint as it completes, or has just taken it (R220, R307). -/
def CheckpointFollows (s t : State) : Prop :=
  if s.core.inGroup then t.core.ckAfter = true else t.core.shadow.addr = s.core.pc ∧ t.core.shadow.regs = t.core.live

/-- The state of a task that leaves its core by `SUSPEND` or `YIELD`, after its checkpoint (R300). -/
def State.leaving (s : State) : State := ((s.ckHere 0x06).upd fun c => { c with waitCk := true }).upd fun c => { c with after := [] }

/-- What a `BAR` orders has been performed: at a scope beyond the core every load has bound and no store is left (R270, R427). -/
def BarSettled (s : State) (n : Nat) : Prop := n = 0 ∨ s.core.pendingMask = 0 ∧ ∀ e ∈ s.core.wb, ∀ a b c d, e.k ≠ .store a b c d

/-- A completed `BAR` has passed: nothing of it stands, and at a scope beyond the core it has acquired (R270, R427). -/
def BarPassed (s t : State) (n : Nat) : Prop :=
  t.core.barDone = false ∧ t.core.barArrived = none ∧ t.core.after = [] ∧ t.core.holding = false ∧ t.core.live = s.core.live ∧
  (n = 0 → t.seq = s.seq) ∧ (n ≠ 0 → t.seq = s.seq + 1 ∧ t.core.l1Floor = s.seq + 1)

/-- A `BAR` waits in place with its limit (R306, R427). -/
def BarWaits (s t : State) (n : Nat) (lim : BitVec 5) : Prop :=
  t.core.after = [.bar n (cycleLimit lim)] ∧ t.core.holding = true ∧ t.core.held = .timed 8 n 0 t.core.deadline ∧
  t.core.deadline = (if s.core.deadline.isSome then s.core.deadline
    else (cycleLimit lim).map fun k => (s.cycle48 (dieOf s.cur) + k) % 2 ^ 48)

/-- A task that executes alone in its group can leave its core for position k: no MMA is unchecked, every register is full and nothing
is pending, and its save frame has been written, which makes the state w (R300, R301). -/
def CanLeave (s : State) (k : Nat) (tk : Task) (w : State) : Prop :=
  s.core.inGroup = false ∧ s.core.task = some tk ∧ s.core.waitCk = false ∧ s.core.mmaUnchecked = false ∧ s.core.still = true ∧
  s.leaving.writeRuns (dieOf s.cur) tk.r.ctx (frameAddr (s.ctxAt (dieOf s.cur) tk.r.ctx).desc.savebase (s.cur % 128) k)
    s.core.live.frameRuns = .ok w

/-- It has left: the core is idle, and position k holds its record with ST st, ready, to resume at the next group (R295, R300). -/
def LeavesCore (s t w : State) (st k : Nat) (tk : Task) : Prop :=
  t.mem = w.mem ∧ t.core.task = none ∧ t.core.run = .idle ∧ ∃ p, Tbl.get? t.core.resume k = some p ∧ p.ready = true ∧ p.id = tk.id ∧
    p.r = { tk.r with st := st, enq := w.cycle48 (dieOf s.cur), saveix := k, rpc := s.core.pc, wkind := 0, wix := 0, wtgt := 0, timedOut := false
                      dlv := s.core.deadline.isSome, dline := s.core.deadline.getD 0 }

end Sys2Proof.Machine

/-- R418 to R420, R424, R426: `FPOST` to the own core, `FSET` and `FGET`; a post to another core is withheld, and its arrival adds
to the live and the shadow count, or is discarded and counted. -/
def Obligations.Flags : Prop :=
  (∀ (s : State) (k : BitVec 5) (r : BitVec 6) (ea : Bool), Readable s (.s r.toNat) →
    let n := k.toNat
    let u := if r = 0 then s.cur else namedUnit (s.sv r)
    let c := if Core.flag s.core.live n = 65535 then s.core.count 0x16 1 else s.core
    (Accepts s (.fpost k r ea) → ((s.sv r).getLsbD 63 = false → (s.sv r).toNat / 2 ^ 12 % 32 < 18) →
      (u = s.cur → ∃ t, exec (.fpost k r ea) s = .next t ∧ OnlyCore s t ∧
        t.core = { c with live := t.core.live, resume := t.core.resume } ∧ FlagBecomes s t u n (min 65535 (Core.flag s.core.live n + 1))) ∧
      (u ≠ s.cur → BufferRoom s 1 → ∃ t e, exec (.fpost k r ea) s = .next t ∧ StoreIssued s t e ∧ e.k = .post u n ∧ e.waits = s.core.pendingMask)) ∧
    (Accepts s (.fset k r ea) → ∃ t, exec (.fset k r ea) s = .next t ∧ OnlyCore s t ∧
      t.core = { s.core with live := t.core.live, resume := t.core.resume } ∧ FlagBecomes s t s.cur n ((s.sv r).toNat % 65536)) ∧
    (Accepts s (.fget k r) → exec (.fget k r) s = .next (s.produce (.s r.toNat) (Core.flag s.pre n) 0 2 0))) ∧
  (∀ (s : State) (x : Post), (s.posts.find? fun y => decide (y.id = s.ev.u)) = some x →
    let w : State := { s with posts := s.posts.filter fun y => !decide (y.id = x.id) }
    (s.postReaches x.src x.target = false → exec .flagPostArrival s = .next (w.countAt x.src 0x15 1)) ∧
    (s.postReaches x.src x.target = true → ∃ t, exec .flagPostArrival s = .next t ∧ t = { w with cores := t.cores } ∧
      (∀ u, u ≠ x.target → t.coreAt u = s.coreAt u) ∧
      FlagBecomes s t x.target x.flag (min 65535 (Core.flag (s.coreAt x.target).live x.flag + 1)) ∧
      ∀ j, Core.flag (t.coreAt x.target).shadow.regs j = if j = x.flag then min 65535 (Core.flag (s.coreAt x.target).shadow.regs j + 1)
        else Core.flag (s.coreAt x.target).shadow.regs j))

/-- R302, R303, R421, R425, R426, R428: `FWAIT` and `LWAIT` pass where their condition holds, acquire, and else wait or trap at their limit;
`LSET` arms a counter, posts at once with TARGET 0, and frees its landing slot; the expiry of a limit: a core that stalls takes the
wait's trap, and a suspended record becomes ready with TO. That a limit counts as passed from the cycle after its deadline (log 82), and
that ARRIVED of the `BAR` record counts the core's own arrival (log 20), are the model's choice. -/
def Obligations.Waits : Prop :=
  (∀ (s : State) (k : BitVec 5) (r : BitVec 6) (ea : Bool) (lim : BitVec 5), Accepts s (.fwait k r ea lim) → Readable s (.s r.toNat) →
    let i : Instr := .fwait k r ea lim
    let n := Core.flag s.pre k.toNat
    let t := (s.sv r).toNat % 65536
    (s.core.timedOut = false → t ≤ n → ∃ x, exec i s = .next x ∧ Acquired s x) ∧
    (s.core.timedOut = false → n < t → ¬Overdue s 1 → Stops s i (.suspend 1 k.toNat t (cycleLimit lim))) ∧
    (s.core.timedOut = true ∨ n < t ∧ Overdue s 1 → Stops s i (.trap 0x13 (waitLimitInfo 1 k.toNat (Core.flag s.core.live k.toNat) t)))) ∧
  (∀ (s : State) (m : BitVec 6) (lim : BitVec 5), Accepts s (.lwait m lim) →
    let i : Instr := .lwait m lim
    let x := s.core.lcAt m.toNat
    (s.core.timedOut = false → x.posted = true → ∃ t, exec i s = .next t ∧ Acquired s t) ∧
    (s.core.timedOut = false → x.posted = false → ¬Overdue s 2 → Stops s i (.suspend 2 m.toNat 0 (cycleLimit lim))) ∧
    (s.core.timedOut = true ∨ x.posted = false ∧ Overdue s 2 → Stops s i (.trap 0x13 (waitLimitInfo 2 m.toNat x.count x.target)))) ∧
  (∀ (s : State) (m : BitVec 6) (r : BitVec 6) (ea : Bool), Accepts s (.lset m r ea) → Readable s (.s r.toNat) → CanCheckpoint s →
    let v := (s.sv r).toNat
    ∃ t, exec (.lset m r ea) s = .next t ∧ t = { s with cores := t.cores, dies := t.dies } ∧ CheckpointFollows s t ∧
      (∀ k, k ≠ m.toNat → t.core.lcAt k = s.core.lcAt k) ∧
      t.core.lcAt m.toNat = { s.core.lcAt m.toNat with count := 0, target := v % 2 ^ 20, fl := v / 2 ^ 24 % 32, fe := v.testBit 29
                                                       posted := decide (v % 2 ^ 20 = 0) } ∧
      ((s.core.lcAt m.toNat).slot = none → t.dies = s.dies) ∧
      (∀ ctx ch k e, (s.core.lcAt m.toNat).slot = some (ctx, ch, k) → s.chan (dieOf s.cur) ctx ch = some e →
        t.chan (dieOf s.cur) ctx ch = some { e with full := e.full.filter fun n => !decide (n = k) }) ∧
      ∀ j, Core.flag t.core.live j = if v % 2 ^ 20 = 0 ∧ v.testBit 29 = true ∧ j = v / 2 ^ 24 % 32 then min 65535 (Core.flag s.core.live j + 1)
        else Core.flag s.core.live j) ∧
  (∀ s : State, unitExists s.ev.u = true →
    let u := s.ev.u
    let c := s.coreAt u
    let here : State := { s with cur := u }
    let at_ : State := here.upd fun x => { x.endWait (s.cycle48 (dieOf u)) with denied := [] }
    (∀ kind ix tgt lim, c.held = .timed kind ix tgt lim → c.run = .running → c.holding = true → (c.push = .none ∨ c.push = .full) →
      here.waitOver kind ix tgt = false → Overdue here kind →
      (kind = 1 → exec .waitLimitExpiry s = .next (at_.takeTrap 0x13 (waitLimitInfo 1 ix (Core.flag c.live ix) tgt) 0)) ∧
      (kind = 2 → exec .waitLimitExpiry s = .next (at_.takeTrap 0x13 (waitLimitInfo 2 ix (c.lcAt ix).count (c.lcAt ix).target) 0)) ∧
      (kind = 8 → exec .waitLimitExpiry s = .next (at_.takeTrap 0x13
        (waitLimitInfo 3 ix (s.weirArrived u ix) (s.weirMembers u ix).length) 0)) ∧
      (kind = 3 ∨ kind = 4 → ∃ info, exec .waitLimitExpiry s = .next (at_.takeTrap 0x10 info 0) ∧ QueueInfo s u (kind - 2) 2 ix info)) ∧
    (∀ p, Tbl.get? c.resume s.ev.k = some p → p.r.dlv = true → p.ready = false → p.ending = none →
      1 ≤ (s.cycle48 (dieOf u) + 2 ^ 48 - p.r.dline) % 2 ^ 48 → (s.cycle48 (dieOf u) + 2 ^ 48 - p.r.dline) % 2 ^ 48 < 2 ^ 47 →
      let q : ResumePos := { p with ready := true, r := { p.r with timedOut := true, enq := s.cycle48 (dieOf u) } }
      exec .deadlineExpiry s = .next (s.updAt u fun x => { x with resume := Tbl.set x.resume s.ev.k q })))

/-- R303 to R305, R307, R309: `QPUSH` sends its entry once and completes when the receiver has applied it; `QPOP` takes the oldest
entry; a full, an empty or a foreign channel and a limit that has expired stop them; the receiver applies a push where it has room. That a push stays on its way while the receiver's table
does not hold the channel (log 21), and that a limit counts as passed from the cycle after its deadline (log 82), are the model's
choice. -/
def Obligations.ChannelQueues : Prop :=
  (∀ (s : State) (ch : BitVec 8) (r : BitVec 6) (ea : Bool) (lim : BitVec 5), Accepts s (.qpush ch r ea lim) →
    let i : Instr := .qpush ch r ea lim
    let n := ch.toNat
    (s.core.timedOut = true → ∃ info, Stops s i (.trap 0x10 info) ∧ QueueInfo s s.cur 1 2 n info) ∧
    (s.core.timedOut = false → ∀ e, Sends s n e → Readable s (.s r.toNat) →
      (CanCheckpoint s → s.core.push = .applied → ∃ t, exec i s = .next t ∧ OnlyCore s t ∧ t.core.live = s.core.live ∧ CheckpointFollows s t) ∧
      (s.core.push = .none → CanCheckpoint s → Stops s i (.push n (s.sv r))) ∧
      (s.core.push = .none → s.core.inGroup = false → s.core.mmaUnchecked = false →
        ∃ t, exec i s = .next t ∧ t.core.push = .flying s.nextNet ∧ t.pushes = s.pushes ++
          [{ id := s.nextNet, src := s.cur, dst := e.receiver, ctx := s.taskCtx, ch := n, val := s.sv r, e0 := e.e0, e1 := e.e1, sentAt := s.now }]) ∧
      (∀ x, s.core.push = .full → s.chanAtReceiver e s.taskCtx n = some x → x.depth ≤ x.count → ¬Expired s s.cur → CanCheckpoint s →
        Stops s i (.suspend 3 n 0 (cycleLimit lim)))) ∧
    (s.core.timedOut = false → (∀ e, ¬Sends s n e) → ∃ info, Stops s i (.trap 0x10 info) ∧ QueueInfo s s.cur 1 3 n info)) ∧
  (∀ (s : State) (ch : BitVec 8) (r : BitVec 6) (lim : BitVec 5), Accepts s (.qpop ch r lim) → isPlan s.cur = false →
    let i : Instr := .qpop ch r lim
    let n := ch.toNat
    (s.core.timedOut = true → ∃ info, Stops s i (.trap 0x10 info) ∧ QueueInfo s s.cur 2 2 n info) ∧
    (s.core.timedOut = false → ∀ e, s.chan (dieOf s.cur) s.taskCtx n = some e → e.receiver = s.cur → e.isOpen = true → Readable s (.s r.toNat) →
      CanCheckpoint s →
      (e.pushIx ≠ e.popIx → ∃ t, exec i s = .next t ∧ t = { s with cores := t.cores, dies := t.dies } ∧
        CheckpointFollows s t ∧ t.chan (dieOf s.cur) s.taskCtx n = some { e with popIx := (e.popIx + 1) % 65536 } ∧
        let v := (Tbl.getD e.ring (e.popIx % e.depth) 0).toNat
        (s.pre.exposed = false → ∃ p ∈ t.core.prods, p.dest = .s r.toNat ∧ p.val = v ∧ p.taint = 0) ∧
        (s.pre.exposed = true → ∃ w ∈ t.core.pipe, w.due = s.now + 3 ∧ w.dest = (if r = 0 then none else some (.s r.toNat)) ∧ w.val = v ∧ w.taint = 0)) ∧
      (e.pushIx = e.popIx → ¬Expired s s.cur → Stops s i (.suspend 4 n 0 (cycleLimit lim)))) ∧
    (s.core.timedOut = false → (∀ e, s.chan (dieOf s.cur) s.taskCtx n = some e → e.receiver ≠ s.cur ∨ e.isOpen = false) →
      ∃ info, Stops s i (.trap 0x10 info) ∧ QueueInfo s s.cur 2 3 n info)) ∧
  (∀ (s : State) (x : Push), (s.pushes.find? fun y => decide (y.id = s.ev.u)) = some x →
    let gone : State := { s with pushes := s.pushes.filter fun y => !decide (y.id = x.id) }
    ((∀ c e, c = x.ctx ∨ c < 4 → s.chan (dieOf x.dst) c x.ch = some e → ¬(e.e0 = x.e0 ∧ e.e1 = x.e1)) → exec .qpushArrival s = .next s) ∧
    (∀ e, s.chan (dieOf x.dst) x.ctx x.ch = some e → e.e0 = x.e0 → e.e1 = x.e1 →
      ((s.coreAt x.src).push ≠ .flying x.id → exec .qpushArrival s = .next gone) ∧
      ((s.coreAt x.src).push = .flying x.id → ∃ t, exec .qpushArrival s = .next t ∧ t = { gone with cores := t.cores, dies := t.dies } ∧
        (e.count < e.depth → t.chan (dieOf x.dst) x.ctx x.ch = some { e with ring := Tbl.set e.ring (e.pushIx % e.depth) x.val
                                                                             pushIx := (e.pushIx + 1) % 65536 }) ∧
        (e.depth ≤ e.count → t.dies = s.dies) ∧ (t.coreAt x.src).push = if e.count < e.depth then .applied else .full)))

/-- R220, R270, R306, R422, R427: a `BAR` stands behind the accesses of its group; it arrives at its weir once they are performed, the last
arrival completes the round at every member, and a completed `BAR` passes and acquires. That the accesses of its own group are released
under the checkpoint before the group, so that they are performed while it waits (log 80), is the model's choice; its limit is that of
`Waits` (log 20, log 82). -/
def Obligations.Barrier : Prop :=
  ∀ (s : State) (sc : BitVec 3) (lim : BitVec 5), Accepts s (.bar sc lim) →
    let i : Instr := .bar sc lim
    let n := sc.toNat
    let ms := s.weirMembers s.cur n
    let rest := ∀ v ∈ ms, v ≠ s.cur → (s.coreAt v).barArrived = some n ∧ (s.coreAt v).weirCtx = s.core.weirCtx
    (s.core.inGroup = true → s.core.ckDone = true → ∃ t, exec i s = .next t ∧ OnlyCore s t ∧ t.core = { s.core with after := t.core.after } ∧
      ∀ a, a ∈ t.core.after ↔ a ∈ s.core.after ∨ a = .bar n (cycleLimit lim)) ∧
    (s.core.inGroup = true → s.core.ckDone = false → Stops s i .checkpoint) ∧
    (s.core.inGroup = false → s.core.mmaUnchecked = false →
      (s.core.barDone = true → s.core.barArrived = none → ∃ t, exec i s = .next t ∧ BarPassed s t n) ∧
      (s.core.barDone = false → s.core.barArrived = none → ¬BarSettled s n → ∃ t, exec i s = .next t ∧ BarWaits s t n lim ∧
        t.core.barArrived = none ∧ t.core.barDone = false) ∧
      (s.core.barDone = false → s.core.barArrived = none → BarSettled s n → ¬rest → ∃ t, exec i s = .next t ∧ BarWaits s t n lim ∧
        t.core.barArrived = some n ∧ t.core.barDone = false ∧ (s.late = [] → ∀ v, v ≠ s.cur → t.coreAt v = s.coreAt v)) ∧
      (s.core.barDone = false → s.core.barArrived = none → BarSettled s n → rest → s.cur ∈ ms → ∃ t, exec i s = .next t ∧ BarPassed s t n ∧
        ∀ v ∈ ms, v ≠ s.cur → (t.coreAt v).barDone = true ∧ (t.coreAt v).barArrived = none))

/-- R76, R261, R266 to R268, R427: `FENCE` and `XFENCE` pass once what they order is performed: what stood before the group stops it, after a
checkpoint where an entry is withheld, and accesses of its own group are waited for as it completes; `SUSPEND` leaves the core with a
record that is ready, or has no effect where no position is free. That a fence waits for every entry of the withholding buffer (log 19),
and that its group's own accesses are waited for as it completes (log 79), are the model's choice. -/
def Obligations.FencesAndSuspend : Prop :=
  (∀ (s : State) (sc : BitVec 3), Accepts s (.fence sc) →
    let i : Instr := .fence sc
    let p := s.prior.core
    let quiet (c : Core) : Prop := c.wb = [] ∧ c.pendingMask = 0
    (sc.toNat = 0 → exec i s = .next (s.upd fun c => { c with acqWaits := c.acqWaits ||| c.pendingMask })) ∧
    (0 < sc.toNat → quiet p → quiet s.core → ∃ t, exec i s = .next t ∧ Acquired (s.settle s.cur) t) ∧
    (0 < sc.toNat → quiet p → ¬quiet s.core → ∃ t, exec i s = .next t ∧ OnlyCore s t ∧ t.core = { s.core with after := t.core.after } ∧
      .fence ∈ t.core.after) ∧
    (0 < sc.toNat → (∃ e ∈ p.wb, e.released = false) → Stops s i (.wait .plain true false)) ∧
    (0 < sc.toNat → (∀ e ∈ p.wb, e.released = true) → ¬quiet p → Stops s i (.wait .plain false false))) ∧
  (∀ (s : State) (pa pb : BitVec 3), Accepts s (.xfence pa pb) →
    let i : Instr := .xfence pa pb
    let quiet (s : State) : Prop := PathQuiet s pa.toNat ∧ PathQuiet s pb.toNat
    (quiet s.prior → quiet s → (pa = 0 ∨ pb = 0) → ∃ t, exec i s = .next t ∧ Acquired (s.settle s.cur) t) ∧
    (quiet s.prior → quiet s → pa ≠ 0 → pb ≠ 0 → exec i s = .next s) ∧
    (quiet s.prior → ¬quiet s → ∃ t, exec i s = .next t ∧ OnlyCore s t ∧ t.core = { s.core with after := t.core.after } ∧
      .xfence pa.toNat pb.toNat ∈ t.core.after) ∧
    (¬quiet s.prior → ∃ b, Stops s i (.wait .plain b false))) ∧
  (∀ s : State, Accepts s .suspend →
    ((∀ n, n < 16 → (Tbl.get? s.core.resume n).isSome = true) → exec .suspend s = .next s) ∧
    (∀ k, Tbl.free s.core.resume 16 = some k → s.core.tlevel = 0 →
      (s.core.inGroup = true → s.core.after = [] → exec .suspend s = .next (s.upd fun c => { c with after := [.suspend] })) ∧
      (∀ tk w, CanLeave s k tk w → ∃ t, exec .suspend s = .next t ∧ LeavesCore s t w 1 k tk)))

namespace Sys2Proof.Machine

/-! ## Branch slot -/

/-- The registers that a condition reads (R94). -/
def conditionReg (c : BitVec 8) : Option RegName :=
  match c.toNat / 64 with
  | 0 => none
  | 3 => some (.p (c.toNat % 8))
  | _ => some (.s (c.toNat % 64))

/-- The condition of a branch (R94): always, a register that is or is not zero, or a test of a predicate's bits. -/
def condition (s : State) (c : BitVec 8) : Prop :=
  let v := (s.pre.sReg (c.toNat % 64)).val
  let p := (s.pre.pReg (c.toNat % 8)).val
  match c.toNat / 64, c.toNat / 16 % 4 with
  | 0, _ => True
  | 1, _ => v ≠ 0
  | 2, _ => v = 0
  | _, 0 => p.getLsbD 0 = true
  | _, 1 => ∃ i, i < 512 ∧ p.getLsbD i = true
  | _, 2 => ∀ i, i < 512 → p.getLsbD i = true
  | _, _ => ∀ i, p.getLsbD i = false

/-- Its taint (R118). -/
def conditionTaint (s : State) (c : BitVec 8) : Taint :=
  match conditionReg c with
  | none => 0
  | some r => s.pre.taintOf r

/-- t differs from s at most in the fields of its unit that a branch writes: registers, fetch and trace. -/
def OnlyFetch (s t : State) : Prop :=
  OnlyCore s t ∧ t.core = { s.core with
    live := t.core.live, pipe := t.core.pipe, pc := t.core.pc, redirected := t.core.redirected, notBefore := t.core.notBefore
    dynB := t.core.dynB, bWrote := t.core.bWrote, staged := t.core.staged, atoms := t.core.atoms, sinceSync := t.core.sinceSync }

/-- Fetch goes on at b[n] as it was before the group, or as before (R76, R454). -/
def Fetches (s t : State) (n : Nat) (taken : Prop) : Prop :=
  (taken → t.core.pc = (s.pre.bReg n).val.toNat ∧ t.core.redirected = true ∧ s.now + 1 ≤ t.core.notBefore) ∧
  (¬taken → t.core.pc = s.core.pc ∧ t.core.redirected = s.core.redirected ∧ t.core.notBefore = s.core.notBefore)

/-- b[n] has the value and mask given, and the other branch-target registers are as before. -/
def TargetSet (s t : State) (n : Nat) (v : DWord) (m : Taint) : Prop :=
  ∀ k, t.core.live.bReg k = if k = n then ⟨v, m⟩ else s.core.live.bReg k

/-- The call-class instructions with their cause (R434, R457). -/
def callRule : Instr → Option (Nat × BitVec 16)
  | .trap imm => some (0x18, imm)
  | .sysc imm => some (0x19, imm)
  | .bkpt imm => some (0x1A, imm)
  | _ => none

/-- The class of a cause that rolls its core back (R434): neither emulation nor call. -/
def FaultClass (cause : Nat) : Prop := cause ≠ 0x02 ∧ cause ≠ 0x18 ∧ cause ≠ 0x19 ∧ cause ≠ 0x1A

/-- What a control instruction leaves to its group's completion: it joins those of its rank and before, in front of those of a
later one (R76): the fences, the checkpoint after the group, the mode, the departures, a suspension last. -/
def Leaves (s : State) (i : Instr) (a : After) : Prop :=
  ∀ l e, s.core.after = l ++ e → (∀ x ∈ l, x.rank ≤ a.rank) → (∀ x ∈ e, a.rank < x.rank) →
    exec i s = .next (s.upd fun c => { c with after := l ++ a :: e })

/-- Every register of a unit is full and none is pending (R111, R112, R455): a result of an earlier group has been written by the
cycle of this one, and one of an instruction executed alone, or of its group, by the cycle after it. -/
def Complete (c : Core) (now : Nat) : Prop :=
  c.live.allFull = true ∧ (c.live.exposed = true ∨ ∀ w ∈ c.pipe, w.due ≤ if c.inGroup = true then now else now + 1)

/-- A `DONE` of a task may end it: nothing is pending, unchecked or promised (R452). -/
def MayEnd (c : Core) : Prop := c.pendingMask = 0 ∧ c.mmaUnchecked = false ∧ ∀ q, q < 4 → Tbl.getD c.promised q 0 = 0

/-- Bit 2 of `IRQ_PEND` is set at both control cores of a die (R437, R447). -/
def Alerted (t : State) (d : Nat) : Prop := ∀ k, k = 72 ∨ k = 73 → (t.coreAt (d * 128 + k)).irqPend.getLsbD 2 = true

end Sys2Proof.Machine

/-- R94, R114, R118, R454: the instructions that set a branch target, and the branches: where fetch continues, the link of a call,
the count of a loop, a result of latency 1 (as `ResultFrame` says), and the taint they add to CT. That EA has no effect on a condition
without a scalar register is the model's choice (log 101). -/
def Obligations.Branches : Prop :=
  (∀ (s : State) (bt : BitVec 3) (off : BitVec 21) (lit : DWord) (r : BitVec 6) (ea : Bool),
    let set (i : Instr) (v : DWord) (m : Taint) : Prop := ∃ t, exec i s = .next t ∧ OnlyFetch s t ∧ TargetSet s t bt.toNat v m ∧
      t.core.live = { s.core.live with b := t.core.live.b } ∧ t.core.pc = s.core.pc ∧ t.core.pipe = s.core.pipe
    (Accepts s (.pbr bt off) → s.core.bpc % 4 = 0 → set (.pbr bt off) (BitVec.ofInt 64 (s.core.bpc + 4 * off.toInt)) 0) ∧
    (Accepts s (.pbrl bt lit) → set (.pbrl bt lit) lit 0) ∧
    (Accepts s (.pbrs bt r ea) → Readable s (.s r.toNat) → set (.pbrs bt r ea) (s.sv r &&& 0xFFFFFFFFFFFFFFFC#64) (s.pre.sReg r.toNat).taint)) ∧
  (∀ (s : State) (bt lt : BitVec 3) (cond : BitVec 8) (ea : Bool), (∀ r, conditionReg cond = some r → Readable s r) →
    let ct := s.core.live.ct ||| (conditionTaint s cond ||| (s.pre.bReg bt.toNat).taint)
    (∀ i, i = .br bt cond ea ∨ i = .ret bt cond ea → Accepts s i → ∃ t, exec i s = .next t ∧ OnlyFetch s t ∧
      Fetches s t bt.toNat (condition s cond) ∧ t.core.live = { s.core.live with ct := ct } ∧ t.core.pipe = s.core.pipe) ∧
    (Accepts s (.call bt cond lt ea) → ∃ t, exec (.call bt cond lt ea) s = .next t ∧ OnlyFetch s t ∧
      Fetches s t bt.toNat (condition s cond) ∧ t.core.live = { s.core.live with ct := ct, b := t.core.live.b } ∧ t.core.pipe = s.core.pipe ∧
      (condition s cond → TargetSet s t lt.toNat (BitVec.ofNat 64 s.core.npc) 0) ∧ (¬condition s cond → t.core.live.b = s.core.live.b))) ∧
  (∀ (s : State) (bt : BitVec 3) (r : BitVec 6) (ea : Bool), Accepts s (.loop bt r ea) → Readable s (.s r.toNat) →
    let x := s.sv r
    let m := (s.pre.sReg r.toNat).taint
    ∃ t, exec (.loop bt r ea) s = .next t ∧ OnlyFetch s t ∧ Fetches s t bt.toNat (1 < x.toNat) ∧
      let q := s.result (.s r.toNat) (x - 1).toNat m 1 0
      t.core.live = { s.core.live with ct := s.core.live.ct ||| (m ||| (s.pre.bReg bt.toNat).taint), s := t.core.live.s } ∧
      (x = 0 → t.core.live.s = s.core.live.s ∧ t.core.pipe = s.core.pipe) ∧
      (x ≠ 0 → t.core.live.s = q.core.live.s ∧ t.core.pipe = q.core.pipe))

/-- R111, R447, R452, R455 to R457: `MODE`, the ends of a task, a routine and a handler, `YIELD`, the call-class instructions and
`TRET`, each alone in its group; beside other slots the effect follows the group. The model's choices: that `MODE` lets a result pass
that is written in the cycle after the group (log 15), that the checkpoint of `TRET` is that of the group it returns to too, in a cycle
of its own (log 92), and that `YIELD` is judged on the matrix state as its group's earlier slots leave it (log 93). -/
def Obligations.ModesAndEnds : Prop :=
  ∀ s : State,
    let w := s.upd fun c => { c with after := [] }
    (∀ b : Bool, let i : Instr := if b then .modeEx else .modeIl
      Accepts s i →
      (s.core.inGroup = false → Complete s.core s.now → ∃ t, exec i s = .next t ∧ OnlyCore s t ∧
        t.core = { s.core with live := { s.core.live with exposed := b }, after := [], holding := false }) ∧
      (Complete s.prior.core s.now → s.core.inGroup = true → Leaves s i (.mode b)) ∧
      (¬Complete s.prior.core s.now → Stops s i (.wait .plain false false))) ∧
    (∀ i a, (i = .done ∧ a = .done) ∨ (∃ imm cause, callRule i = some (cause, imm) ∧ a = .call cause (imm.setWidth 64)) ∨ (i = .tret ∧ a = .tret) →
      Accepts s i → s.core.inGroup = true → Leaves s i a) ∧
    (Accepts s .done → s.core.inGroup = false → isCompute s.cur = true →
      (s.core.tlevel = 0 → MayEnd s.core →
        ∃ t, exec .done s = .next t ∧ OnlyCore s t ∧ t.core.run = .ending ∧ t.core.endKind = 0 ∧ t.core.endTo = .idle ∧
          t.core.live = s.core.live ∧ t.core.shadow.regs = s.core.live ∧ t.core.shadow.addr = s.core.pc ∧ ∀ e ∈ t.core.wb, e.released = true) ∧
      (s.core.tlevel = 0 → ¬MayEnd s.core → ∃ t, exec .done s = .next t ∧ OnlyCore s t ∧
        t.core = { s.core with holding := true, held := .plain, after := [.done] }) ∧
      (∀ tk, 0 < s.core.tlevel → s.core.task = some tk → tk.r.rclass = 1 → ∃ t, exec .done s = .next t ∧ t.mem = s.mem ∧
        t.core.run = .ending ∧ t.core.endKind = 1 ∧ t.core.tlevel = 0 ∧ Alerted t (dieOf s.cur)) ∧
      (∀ tk, 0 < s.core.tlevel → s.core.task = some tk → tk.r.rclass ≠ 1 → (tk.r.rclass = 2 → s.boundPassed s.cur = false) →
        ∃ t, exec .done s = .next t ∧
        (t.ctxAt (dieOf s.cur) tk.r.ctx).st = .faulted ∧
        (t.ctxAt (dieOf s.cur) tk.r.ctx).recA = BitVec.ofNat 64 (0x09 * 2 ^ 56 + s.core.trecPc.toNat % 2 ^ 56) ∧
        (t.ctxAt (dieOf s.cur) tk.r.ctx).recB.toNat % 2 ^ 16 = s.core.trecCause.toNat % 256 + 512 ∧ Alerted t (dieOf s.cur))) ∧
    (Accepts s .done → s.core.inGroup = false → isPlan s.cur = true → ∃ t, exec .done s = .next t ∧ t.mem = s.mem ∧
      t.core.planRun = false ∧ t.core.run = .idle ∧
      ∀ b ∈ (s.ctxAt (dieOf s.cur) s.core.planCtx).blocks, b.serial = s.core.planBlk → ∀ e, b.entries[s.core.planEnt]? = some e →
        ∃ b' ∈ (t.ctxAt (dieOf s.cur) s.core.planCtx).blocks, b'.serial = b.serial ∧ b'.entries[s.core.planEnt]? = some { e with planDone := true }) ∧
    (Accepts s .yield →
      ((∀ n, n < 16 → (Tbl.get? s.core.resume n).isSome = true) → exec .yield s = .next s) ∧
      (∀ k, Tbl.free s.core.resume 16 = some k →
        (s.core.inGroup = true → Leaves s .yield .yield) ∧
        (∀ tk x, CanLeave s k tk x → ∃ t, exec .yield s = .next t ∧ LeavesCore s t x 2 k tk))) ∧
    (∀ i cause imm, callRule i = some (cause, imm) → Accepts s i → s.core.inGroup = false → s.core.mmaUnchecked = false →
      exec i s = .next (w.takeTrap cause (imm.setWidth 64) s.core.othersDone)) ∧
    (Accepts s .tret → s.core.inGroup = false → s.core.mmaUnchecked = false → s.core.tlevel = 1 ∨ s.core.tlevel = 2 →
      let rs := if s.core.tlevel = 2 then s.core.ret1 else s.core.ret0
      ∃ t, exec .tret s = .next t ∧ OnlyCore s t ∧ t.core.tlevel = s.core.tlevel - 1 ∧ t.core.pc = rs.ckpt ∧
        t.core.live = { s.core.live with latch := rs.latch, exposed := rs.exposed } ∧
        t.core.shadow.regs = t.core.live ∧ t.core.shadow.addr = rs.ckpt ∧ (∀ e ∈ t.core.wb, e.released = true) ∧
        t.core.ckHere = true ∧ t.core.waitCk = true ∧ s.now + 2 ≤ t.core.notBefore ∧
        (s.core.tlevel = 1 → t.core.records = s.core.records) ∧
        (s.core.tlevel = 2 → rs.recs.length = 6 → t.core.records = rs.recs))

/-- R435 to R438, R447: taking a trap: which handler takes it and at which level, the record, the return state, and the registers by
class; with no handler a task is abandoned, and its point restarts or its context stops, as its class says; and a second trap is a double
fault. That the record of an abandonment has LEVEL 0, and that of a double fault the level of the handler, is the model's choice
(log 41). -/
def Obligations.TrapEntry : Prop :=
  ∀ (s : State) (u cause : Nat) (info : DWord) (done : Nat), isPlan u = false →
    let c := s.coreAt u
    let t := s.trapAt u cause info done
    let c' := t.coreAt u
    let coord : DWord := match c.task with
      | some tk => tk.r.coord
      | none => 0
    let recorded (level ckpt : Nat) : Prop := c'.trecPc = BitVec.ofNat 64 c.gpc ∧
      c'.trecCause = BitVec.ofNat 64 (cause + level * 2 ^ 32 + done * 2 ^ 48) ∧ c'.trecTile = coord ∧ c'.trecInfo = info ∧ c'.trecCkpt = BitVec.ofNat 64 ckpt
    let entered (vec : Nat) : Prop :=
      t = { s with cores := t.cores } ∧ (∀ v, v ≠ u → t.coreAt v = s.coreAt v) ∧ c'.tlevel = c.tlevel + 1 ∧ c'.pc = vec ∧ c'.ckNext = true ∧
      ∃ rs, c'.ret0 = (if c.tlevel = 0 then rs else c.ret0) ∧ c'.ret1 = (if c.tlevel = 0 then c.ret1 else rs) ∧
        rs.recs = (if c.tlevel = 0 then [] else c.records) ∧
        (FaultClass cause → recorded (c.tlevel + 1) c.shadow.addr ∧ c'.live = { c.shadow.regs with exposed := false, latch := [] } ∧
          rs.ckpt = c.shadow.addr ∧ rs.latch = c.shadow.regs.latch ∧ rs.exposed = c.shadow.regs.exposed ∧ ∀ e ∈ c'.wb, e.released = true) ∧
        (¬FaultClass cause → recorded (c.tlevel + 1) c.npc ∧ c'.live = { c.live with exposed := false, latch := [] } ∧
          rs.ckpt = c.npc ∧ rs.latch = c.live.latch ∧ rs.exposed = c.live.exposed ∧ c'.shadow.regs = c.live ∧ c'.shadow.addr = c.npc)
    (c.tlevel = 0 → c.tvec1 ≠ 0 → (FaultClass cause → c.shadow.tileHit = false ∧ c.shadow.slotHit = false) → entered c.tvec1) ∧
    (c.tlevel = 1 → cause = 0x08 → c.tvec2 ≠ 0 → entered c.tvec2) ∧
    (∀ tk, isCompute u = true → c.tlevel = 0 → c.task = some tk → tk.r.rclass = 1 →
      c.tvec1 = 0 ∨ (FaultClass cause ∧ (c.shadow.tileHit = true ∨ c.shadow.slotHit = true)) →
      t.mem = s.mem ∧ recorded 0 c.shadow.addr ∧ c'.run = .ending ∧ c'.endKind = 1 ∧ c'.endTo = .idle ∧ Alerted t (dieOf u)) ∧
    (∀ tk, isCompute u = true → c.tlevel = 0 → c.task = some tk → tk.r.rclass ≠ 1 → (tk.r.rclass = 2 → s.boundPassed u = false) →
      let inPlace : Prop := FaultClass cause ∧ (c.shadow.tileHit = true ∨ c.shadow.slotHit = true)
      let x := t.ctxAt (dieOf u) tk.r.ctx
      let stops (info : Nat) : Prop := x.st = .faulted ∧ x.fault = true ∧ x.recA = BitVec.ofNat 64 (0x09 * 2 ^ 56 + c.gpc % 2 ^ 64 % 2 ^ 56) ∧
        x.recB.toNat % 2 ^ 16 = info ∧ Alerted t (dieOf u)
      (inPlace → stops (cause % 256 + 256)) ∧ (c.tvec1 = 0 → ¬inPlace → stops (cause % 256))) ∧
    (isControl u = true → (c.tlevel = 0 ∧ c.tvec1 = 0) ∨ (c.tlevel = 1 ∧ (cause ≠ 0x08 ∨ c.tvec2 = 0)) ∨ 2 ≤ c.tlevel →
      c'.run = .stopped ∧ c'.trecPc = BitVec.ofNat 64 c.gpc ∧ c'.trecCause = BitVec.ofNat 64 (0x1F + c.tlevel * 2 ^ 32) ∧
      c'.trecInfo = BitVec.ofNat 64 ((if c.tlevel = 0 then 0 else c.trecCause.toNat % 65536) + cause * 65536) ∧
      (t.coreAt (u / 128 * 128 + (if u % 128 = 72 then 73 else 72))).irqPend.getLsbD 2 = true) ∧
    (∀ tk, isCompute u = true → (c.tlevel = 1 ∧ (cause ≠ 0x08 ∨ c.tvec2 = 0)) ∨ 2 ≤ c.tlevel → c.task = some tk → tk.r.rclass = 1 → c.resume = [] →
      c'.run = .ending ∧ c'.endKind = 1 ∧ c'.endTo = .stopped ∧ c'.trecCause = BitVec.ofNat 64 (0x1F + c.tlevel * 2 ^ 32) ∧
      c'.trecInfo = BitVec.ofNat 64 (c.trecCause.toNat % 65536 + cause * 65536) ∧ Alerted t (dieOf u)) ∧
    (∀ tk, isCompute u = true → (c.tlevel = 1 ∧ (cause ≠ 0x08 ∨ c.tvec2 = 0)) ∨ 2 ≤ c.tlevel → c.task = some tk → tk.r.rclass ≠ 1 →
      (tk.r.rclass = 2 → s.boundPassed u = false) → c.resume = [] →
      let x := t.ctxAt (dieOf u) tk.r.ctx
      x.st = .faulted ∧ x.recA = BitVec.ofNat 64 (0x09 * 2 ^ 56 + c.gpc % 2 ^ 56) ∧ x.recB.toNat % 2 ^ 16 = 0x1F ∧ Alerted t (dieOf u))

namespace Sys2Proof.Machine

/-! ## System instructions -/

/-- No global store of the unit is withheld or waits to be performed (R277). -/
def StoresDone (s : State) : Prop := ∀ e ∈ s.core.wb, ∀ a b c d, e.k ≠ .store a b c d

/-- The result word of `TLBPROBE` for an entry (R458). -/
def probeWord (e : TlbEnt) (va : Nat) : Nat :=
  (e.pa + va % pageBytes e.size) / 2 ^ 12 % 2 ^ 40 * 2 ^ 12 + e.size * 2 ^ 7 + (if e.dev then 32 else 0) + (if e.x then 16 else 0) +
    (if e.w then 8 else 0) + (if e.r then 4 else 0) + 1

/-- The entry that `TLBWR` writes (R458): 0 in the reserved bits, a space of R283 and bit 0 set, else illegal. -/
def tlbWord (a e : Nat) (x : TlbEnt) : Prop :=
  e / 2 ^ 55 = 0 ∧ e / 2 ^ 52 % 8 < 6 ∧ e / 2 ^ 9 % 8 = 0 ∧ e / 2 ^ 6 % 2 = 0 ∧ e % 4 = 1 ∧
  x = { tsid := e / 2 ^ 52 % 8, vpage := a / pageBytes (e / 2 ^ 7 % 4), size := e / 2 ^ 7 % 4
        pa := e / 2 ^ 12 % 2 ^ 40 * 2 ^ 12 / pageBytes (e / 2 ^ 7 % 4) * pageBytes (e / 2 ^ 7 % 4)
        r := e.testBit 2, w := e.testBit 3, x := e.testBit 4, dev := e.testBit 5 }

/-- The three rows of `CTXSW` (R458): the operand names the operation. -/
def ctxswRule : Instr → Option SysR
  | .ctxswSave f => some f
  | .ctxswRestore f => some f
  | .ctxswStop f => some f
  | _ => none

/-- `IRQ_PEND` bit 1 is set at both control cores of a die (R334, R458). -/
def Noted (t : State) (d : Nat) : Prop := ∀ k, k = 72 ∨ k = 73 → (t.coreAt (d * 128 + k)).irqPend.getLsbD 1 = true

end Sys2Proof.Machine

/-- R277, R286, R289, R458: the code-visibility and translation instructions, `WAITI` and `DBELL`. Two clauses are the model's choice:
that set reserved bits of an operand of `TLBWR`, or a space above 5 in `TLBINV`, are an illegal operand (log 22), and that the low
address bits of a larger page in the words of `TLBWR` are ignored (log 91). -/
def Obligations.SystemInstructions : Prop :=
  ∀ (s : State) (f : SysR),
    let a := (s.sv f.a).toNat
    let b := (s.sv f.b).toNat
    let ready := Readable s (.s f.a.toNat) ∧ Readable s (.s f.b.toNat)
    let p := s.prior
    let die := p.dieAt (dieOf s.cur)
    (Accepts s (.cwb f) → ready → (StoresDone p → StoresDone s → exec (.cwb f) s = .next s) ∧
      (StoresDone p → ¬StoresDone s → Leaves s (.cwb f) .stores) ∧
      (¬StoresDone p → ∃ k, Stops s (.cwb f) (.wait .plain k false))) ∧
    (Accepts s (.iinv f) → ready → ∃ t, exec (.iinv f) s = .next t ∧ OnlyCore s t ∧ t.core = { s.core with l1i := t.core.l1i } ∧
      ∀ x, x ∈ t.core.l1i ↔ x ∈ s.core.l1i ∧ ¬∃ y, a ≤ y ∧ y < a + b ∧ y < 2 ^ 56 ∧ x.va / 128 * 128 ≤ y ∧ y < x.va / 128 * 128 + 128) ∧
    (Accepts s .fbar → exec .fbar s = .next (s.upd fun c => { c with ifetch := [] })) ∧
    (Accepts s .tlbinva → exec .tlbinva s = .next (s.upd fun c => { c with tlb := [] })) ∧
    (Accepts s (.tlbwr f) → ready → ∀ x, tlbWord a b x → ∃ t, exec (.tlbwr f) s = .next t ∧ t = { s with cores := t.cores, dies := t.dies } ∧
      (∀ u, u ≠ s.cur → t.coreAt u = s.coreAt u) ∧ (∀ d, d ≠ dieOf s.cur → t.dieAt d = s.dieAt d) ∧
      t.dieAt (dieOf s.cur) = { s.dieAt (dieOf s.cur) with known := (t.dieAt (dieOf s.cur)).known } ∧ x ∈ (t.dieAt (dieOf s.cur)).known ∧
      t.core = { s.core with tlb := t.core.tlb } ∧ (t.core.tlb.find? fun e => e.covers x.tsid a) = some x) ∧
    (Accepts s (.tlbwr f) → ready → (∀ x, ¬tlbWord a b x) → Stops s (.tlbwr f) (.trap 0x03 (BitVec.ofNat 64 s.core.slot))) ∧
    (Accepts s (.tlbprobe f) → ready → ∃ v, exec (.tlbprobe f) s = .next (State.produce { s with free := s.free + 1 } (.s f.a.toNat) v 0 4 0) ∧
      (2 ^ 56 ≤ b → v = 0) ∧
      (∀ e, b < 2 ^ 56 → ((p.core.tlb ++ die.l2tlb).find? fun e => e.covers (p.tsid s.cur) b) = some e → v = probeWord e b) ∧
      (b < 2 ^ 56 → (∀ e ∈ p.core.tlb ++ die.l2tlb, e.covers (p.tsid s.cur) b = false) →
        (∀ e, p.walkNow (dieOf s.cur) (p.tsid s.cur) b = .ok e → v = probeWord e b) ∧
        ∀ n, p.walkNow (dieOf s.cur) (p.tsid s.cur) b = .error (.reason n) → v = n * 2 ^ 9)) ∧
    (Accepts s (.tlbinv f) → ready →
      (b < 6 → StoresDone p → p.core.pendingMask = 0 →
        (s.core.inGroup = true → (p.core.shoot = .none ∨ p.core.shoot = .applied) → Leaves s (.tlbinv f) (.shoot b a)) ∧
        (s.core.inGroup = false → s.core.shoot = .applied → ∃ t, exec (.tlbinv f) s = .next t ∧ OnlyCore s t ∧
          t.core = { s.core with shoot := .none, after := [], holding := false }) ∧
        (s.core.inGroup = false → s.core.shoot = .none → ∃ t x, exec (.tlbinv f) s = .next t ∧ t = { s with cores := t.cores, shoots := s.shoots ++ [x], nextNet := t.nextNet } ∧
          t.core = { s.core with shoot := .flying x.id, holding := true, held := .plain, after := [.shoot b a] } ∧ x.u = s.cur ∧ x.tsid = b ∧ x.va = a ∧
          ∀ d, d ∈ x.dies ↔ d / 32 ∈ s.packages ∧ (s.dieAt d).partition = (s.dieAt (dieOf s.cur)).partition)) ∧
      (b < 6 → ¬StoresDone p ∨ p.core.pendingMask ≠ 0 → ∃ k, Stops s (.tlbinv f) (.wait .plain k false)) ∧
      (6 ≤ b → Stops s (.tlbinv f) (.trap 0x03 (BitVec.ofNat 64 s.core.slot)))) ∧
    (Accepts s .waiti → s.core.irqPend &&& s.core.irqMask ≠ 0 → CanCheckpoint s → ∃ t, exec .waiti s = .next t ∧ OnlyCore s t ∧
      t.core.live = s.core.live ∧ (s.core.ckDone = false → t.core.shadow.regs = s.core.pre ∧ t.core.shadow.addr = s.core.gpc)) ∧
    (Accepts s .waiti → s.core.irqPend &&& s.core.irqMask ≠ 0 → s.core.ckDone = false →
      (s.core.inGroup = true → Stops s .waiti .checkpoint) ∧
      (s.core.inGroup = false → s.core.mmaUnchecked = true → Stops s .waiti (.wait .plain false false))) ∧
    (Accepts s .waiti → s.core.irqPend &&& s.core.irqMask = 0 → Stops s .waiti (.wait .plain true false)) ∧
    (∀ (r : BitVec 6) (ea : Bool), Accepts s (.dbell r ea) → Readable s (.s r.toNat) → (s.sv r).getLsbD 63 = true → BufferRoom s 1 →
      ∃ t e, exec (.dbell r ea) s = .next t ∧ StoreIssued s t e ∧ e.k = .doorbell (namedUnit (s.sv r)) ∧ e.waits = s.core.pendingMask)

/-- R287, R290, R327, R334, R448 to R452, R458: `CTXSW`, the levels of a walk, each read at its own moment, and the events that end a
walk, a shootdown, a save, a restore and the bound of a pre-emption. Clauses that are the model's choice: set reserved operand bits of
`CTXSW` are an illegal operand (log 22); the three rows of `CTXSW` are told apart by the operand's value (log 14); what a shootdown
drops from the caches (log 23); a save, and each part of a restore that does not wait, as one event (log 24). -/
def Obligations.ContextsAndTranslation : Prop :=
  (∀ (s : State) (i : Instr) (f : SysR), ctxswRule i = some f → Accepts s i → Readable s (.s f.a.toNat) → Readable s (.s f.b.toNat) →
    let o := (s.sv f.b).toNat
    let d := dieOf s.cur
    let c := o % 4
    let x := s.ctxAt d c
    let legal : Prop := o / 64 = 0 ∧ o / 4 % 4 = 0
    (legal → o / 16 = 0 → x.st = .running → x.pre = .none → ∃ w : State, exec i s = .next (w.result (.s f.a.toNat) 1 0 2 0) ∧ w.mem = s.mem ∧
      (w.ctxAt d c).pre = .pausing ∧ (∀ p ∈ (w.dieAt d).sweeps, p.2.ctx = c → p.2.st ≠ .active) ∧
      ∀ u tk, dieOf u = d → (s.coreAt u).task = some tk → tk.r.ctx = c → (s.coreAt u).run = .running → (w.coreAt u).stopReq ≠ 0) ∧
    (legal → o / 16 = 1 → x.st = .preempted → x.pre = .none →
      exec i s = .next (((s.updCtx d c fun y => { y with pre := .restoring }).restoreCtx d c).result (.s f.a.toNat) 1 0 2 0)) ∧
    (legal → (o / 16 = 0 ∧ x.st = .running) ∨ (o / 16 = 1 ∧ x.st = .preempted) → x.pre ≠ .none →
      exec i s = .next (s.result (.s f.a.toNat) 1 0 2 0)) ∧
    (legal → o / 16 = 2 → x.st ≠ .free → ∃ w : State, exec i s = .next (w.result (.s f.a.toNat) 1 0 2 0) ∧ (w.ctxAt d c).st = .free ∧
      (w.ctxAt d c).blocks = [] ∧ (∀ p ∈ (w.dieAt d).sweeps, p.2.ctx ≠ c) ∧
      (∀ p ∈ (w.dieAt d).roleq, ∀ r ∈ p.2, r.ctx ≠ c) ∧ Noted w d) ∧
    (legal → (o / 16 = 0 ∧ x.st ≠ .running) ∨ (o / 16 = 1 ∧ x.st ≠ .preempted) ∨ (o / 16 = 2 ∧ x.st = .free) →
      exec i s = .next (s.result (.s f.a.toNat) 2 0 2 0)) ∧
    (¬legal ∨ o / 16 = 3 → Stops s i (.trap 0x03 (BitVec.ofNat 64 s.core.slot)))) ∧
  (∀ (s : State) (w : Walk), ((s.dieAt s.ev.u).walks.find? fun x => decide (x.id = s.ev.k)) = some w →
    (w.at = none → exec .pageWalkComplete s = .next s) ∧
    ∀ r, w.at = some r → ∃ t, exec .pageWalkComplete s = .next t ∧ t.mem = s.mem ∧ (∀ y ∈ (t.dieAt s.ev.u).walks, y.id ≠ w.id) ∧
      (∀ e, s.walkFrom s.ev.u w.tsid w.va w.level r = .ok e → e ∈ (t.dieAt s.ev.u).l2tlb ∧ ∀ u ∈ w.us, e ∈ (t.coreAt u).tlb) ∧
      ∀ n, s.walkFrom s.ev.u w.tsid w.va w.level r = .error (.reason n) → (∀ u, (t.coreAt u).tlb = (s.coreAt u).tlb) ∧
        ∀ u ∈ w.us, (t.coreAt u).denied.head? = some (w.tsid, w.va / 4096, n)) ∧
  (∀ (s : State) (d : Nat) (w : Walk) (r : Nat), (s.dieAt d).walks = [w] → w.level ≤ 4 → w.at = some r →
    let t := s.stepWalk d w.id
    t = { s with dies := t.dies } ∧ ∃ y r', (t.dieAt d).walks = [y] ∧ y.id = w.id ∧ y.us = w.us ∧ y.level ≤ w.level ∧ y.at = some r' ∧
      s.walkFrom d w.tsid w.va y.level r' = s.walkFrom d w.tsid w.va w.level r) ∧
  (∀ (s : State) (x : Shoot) (d : Nat), s.shoots = [x] → x.id = s.ev.u → x.dies = [d] → x.active = [] → s.insts = [] → (s.dieAt d).copyq = [] →
    (∀ p ∈ s.cores, p.1 / 128 = d → p.2.loads = [] ∧ p.2.wb = []) → (s.coreAt x.u).shoot = .flying x.id →
    ∃ t, exec .shootdownComplete s = .next t ∧ t.mem = s.mem ∧ t.shoots = [] ∧ (t.coreAt x.u).shoot = .applied ∧
      (∀ e ∈ (t.dieAt d).l2tlb, e.covers x.tsid x.va = false) ∧ ∀ u, dieOf u = d →
        (∀ e ∈ (t.coreAt u).tlb, e.covers x.tsid x.va = false) ∧
        (∀ z ∈ (t.coreAt u).l1 ++ (t.coreAt u).l1i, z.tsid = x.tsid → z.va ≤ x.va → z.va + z.bytes.length ≤ x.va) ∧
        ∀ p ∈ (t.coreAt u).tagTab, p.2.key ≤ x.va → x.va < p.2.key + 64 * p.2.len → p.2.s = true) ∧
  (∀ (s : State) (d c : Nat), s.ev.u = d → s.ev.k = c →
    ((s.ctxAt d c).pre = .pausing → s.saveReady d c = true → match saveSteps d c s with
      | .ok w => exec .contextSave s = .next w ∧ (w.ctxAt d c).st = .preempted ∧ (w.ctxAt d c).pre = .none ∧
        (∀ p ∈ (w.dieAt d).sweeps, p.2.ctx ≠ c) ∧ (∀ k, k < 72 → ∀ p ∈ (w.coreAt (d * 128 + k)).resume, p.2.r.ctx ≠ c) ∧ Noted w d
      | .error w => exec .contextSave s = .next w) ∧
    ((s.ctxAt d c).pre = .pausing → s.saveReady d c = false → exec .contextSave s = .next s) ∧
    ((s.ctxAt d c).pre = .restoring → match restoreSteps d c s with
      | .ok w => exec .contextSave s = .next w ∧ (w.ctxAt d c).pre = .none ∧ Noted w d
      | .error w => exec .contextSave s = .next w)) ∧
  (∀ (s : State) (tk : Task) (w : Sweep), unitExists s.ev.u = true → (s.coreAt s.ev.u).task = some tk → tk.r.rclass = 1 ∨ tk.r.rclass = 2 →
    Tbl.get? (s.dieAt (dieOf s.ev.u)).sweeps tk.r.sweep = some w → w.desc.rdepth ≠ 0 → (s.coreAt s.ev.u).run = .running →
    (s.coreAt s.ev.u).stopReq = 1 → (s.ctxAt (dieOf s.ev.u) tk.r.ctx).pre = .pausing → (s.coreAt s.ev.u).stopSince + 256 * w.desc.rdepth ≤ s.now →
    ∃ t, exec .preemptBoundExpiry s = .next t ∧ t = { s with cores := t.cores } ∧ (∀ u, u ≠ s.ev.u → t.coreAt u = s.coreAt u) ∧
      let c := t.coreAt s.ev.u
      c.run = .ending ∧ c.endKind = 1 ∧ c.endTo = .idle ∧ (∀ p ∈ c.prods, p.dest = .s 0) ∧ (∀ p ∈ c.pipe, p.dest = none) ∧ (∀ e ∈ c.wb, e.released = true) ∧ c.live = (s.coreAt s.ev.u).live)

namespace Sys2Proof.Machine

/-! ## Graph words -/

/-- Die and number of the context whose sequencer the unit in progress is (R332). -/
def ctxDie (s : State) : Nat := dieOf s.cur
def ctxNumber (s : State) : Nat := s.cur % 128 - 96

/-- The context of the sequencer in progress, before the word. -/
def State.ownCtx (s : State) : Ctx := s.ctxAt (ctxDie s) (ctxNumber s)

/-- The unit in progress is a sequencer, and acceptance stands outside a block (R343, R367). -/
def Sequences (s : State) : Prop := unitExists s.cur = true ∧ 96 ≤ s.cur % 128 ∧ s.ownCtx.inBlock = false

/-- The state in which a word with n trailing words acts: the program address stands behind it. -/
def State.pastWord (s : State) (n : Nat) : State := s.updCtx (ctxDie s) (ctxNumber s) fun x => { x with pc := x.pc + 8 * (n + 1) }

/-- The word is accepted, its context is then y, and nothing else has changed. -/
def Accepted (s : State) (i : Instr) (y : Ctx) : Prop :=
  ∃ t, exec i s = .next t ∧ t = { s with cores := t.cores, dies := t.dies } ∧ t.ownCtx = y ∧
    (∀ d c, d ≠ ctxDie s ∨ c ≠ ctxNumber s → t.ctxAt d c = s.ctxAt d c) ∧
    t.dieAt (ctxDie s) = { s.dieAt (ctxDie s) with ctxs := (t.dieAt (ctxDie s)).ctxs } ∧
    (∀ u, u ≠ s.cur → t.coreAt u = s.coreAt u) ∧ t.core = { s.core with holding := false }

/-- The word waits: its context stays before it (R343, R347, R364). -/
def WordWaits (s : State) (i : Instr) : Prop := ∃ t, exec i s = .next t ∧ t.mem = s.mem ∧ t.ownCtx = s.ownCtx ∧ t.core.holding = true

/-- The context stops on a graph fault at the word (R334 to R336). -/
def WordFaults (s : State) (i : Instr) (code opid handle : Nat) : Prop :=
  exec i s = .next (s.graphFault (ctxDie s) (ctxNumber s) code s.ownCtx.pc opid handle 0)

/-- The words that may not stand inside a block (R367). -/
def loneWord : Instr → Bool
  | .block _ _ | .egbLoop _ | .endloop _ | .egbBr _ | .brc _ | .egbCall _ | .egbRet _ | .gend _ | .capbeg _ | .capend _ | .replay _ | .signal _
  | .hset _ | .hadd _ | .hmul _ | .hdiv _ | .hmin _ | .hmax _ | .hld _ | .hdef _ | .hfree _ | .hreshape _ | .hshard _ | .halias _ | .chload _
  | .chloadOff _ | .param _ | .egbStep _ | .waith _ | .csload _ => true
  | _ => false

/-- Value of the shape words (R356): of the registers b and c and the immediate; none is a fault. -/
def shapeRule : Instr → Option (GcWord × (DWord → DWord → Int → Option DWord))
  | .hset g => some (g, fun _ _ i => some (BitVec.ofInt 64 i))
  | .hadd g => some (g, fun b c i => some (BitVec.ofInt 64 (b.toNat + c.toNat + i)))
  | .hmul g => some (g, fun b c _ => some (BitVec.ofNat 64 (b.toNat * c.toNat)))
  | .hdiv g => some (g, fun b c i => if c.toNat = 0 then none else some (BitVec.ofNat 64 (if i % 2 = 1 then (b.toNat + c.toNat - 1) / c.toNat else b.toNat / c.toNat)))
  | .hmin g => some (g, fun b c _ => some (if b.toNat ≤ c.toNat then b else c))
  | .hmax g => some (g, fun b c _ => some (if b.toNat ≤ c.toNat then c else b))
  | _ => none

/-- A shape register (R350). -/
def hreg (x : Ctx) (n : BitVec 5) : DWord := Tbl.getD x.h n.toNat 0

/-- The descriptor words w stand, with their shape registers read, for the well-formed descriptor r (R337). -/
def Resolves (x : Ctx) (w r : List DWord) : Prop := resolveDesc x.h w = some r ∧ descOk r = true

/-- The root of handle n has no pending reader and no pending writer (R345). -/
def HandleQuiet (x : Ctx) (n : Nat) : Prop := ∀ h, x.handle? n = some h → x.counts h = (0, 0)

end Sys2Proof.Machine

/-- R350, R352, R354 to R359, R367: the control words and the shape arithmetic: program address, stacks, captures, registers. -/
def Obligations.GraphControl : Prop :=
  (∀ (s : State) (g : GcWord), Sequences s →
    let x := s.ownCtx
    let nx := x.pc + 8
    let target := ((nx + 8 * g.imm.toInt : Int) % 2 ^ 64).toNat
    let k := g.imm.toNat
    ((hreg x g.ha).toNat = 0 → Accepted s (.egbLoop g) { x with pc := target }) ∧
    ((hreg x g.ha).toNat ≠ 0 → x.loops.length < 8 → Accepted s (.egbLoop g) { x with
      pc := nx, loops := { body := nx, count := (hreg x g.ha).toNat, index := 0, reg := g.hb.toNat } :: x.loops, h := Tbl.set x.h g.hb.toNat 0 }) ∧
    ((hreg x g.ha).toNat ≠ 0 → 8 ≤ x.loops.length → WordFaults s (.egbLoop g) 0x08 0 0) ∧
    (∀ t rest, x.loops = t :: rest →
      (t.index + 1 < t.count → Accepted s (.endloop g) { x with
        pc := t.body, loops := { t with index := t.index + 1 } :: rest, h := Tbl.set x.h t.reg (BitVec.ofNat 64 (t.index + 1)) }) ∧
      (t.count ≤ t.index + 1 → Accepted s (.endloop g) { x with pc := nx, loops := rest })) ∧
    (x.loops = [] → WordFaults s (.endloop g) 0x08 0 0) ∧
    Accepted s (.egbBr g) { x with pc := target } ∧
    (g.cond.toNat < 10 → (compares g.cond.toNat (hreg x g.ha) (hreg x g.hb) → Accepted s (.brc g) { x with pc := target }) ∧
      (¬compares g.cond.toNat (hreg x g.ha) (hreg x g.hb) → Accepted s (.brc g) { x with pc := nx })) ∧
    (x.calls.length < 16 → Accepted s (.egbCall g) { x with pc := target, calls := { ret := nx } :: x.calls }) ∧
    (16 ≤ x.calls.length → WordFaults s (.egbCall g) 0x08 0 0) ∧
    (∀ t rest, x.calls = t :: rest → Accepted s (.egbRet g) { x with pc := t.ret, calls := rest } ∧
      (t.replay = some k → Accepted s (.capend g) { x with pc := t.ret, calls := rest })) ∧
    (x.calls = [] → WordFaults s (.egbRet g) 0x08 0 0) ∧
    Accepted s (.capbeg g) { x with pc := nx, caps := Tbl.set x.caps k { start := nx } } ∧
    ((∀ t rest, x.calls = t :: rest → t.replay ≠ some k) →
      (Tbl.get? x.caps k = none → WordFaults s (.capend g) 0x0C 0 0) ∧
      ∀ e, Tbl.get? x.caps k = some e → Accepted s (.capend g)
        { x with pc := nx, caps := if e.closed then x.caps else Tbl.set x.caps k { e with closed := true, stop := x.pc } }) ∧
    (∀ e, Tbl.get? x.caps k = some e → e.closed = true → x.calls.length < 16 → Accepted s (.replay g)
      { x with pc := e.start, calls := { ret := nx, replay := some k } :: x.calls, actgen := x.actgen != x.patch, patch := false }) ∧
    (∀ e, Tbl.get? x.caps k = some e → e.closed = true → 16 ≤ x.calls.length → ∃ t, exec (.replay g) s = .next t ∧ t.mem = s.mem ∧
      t.ownCtx.st = .faulted ∧ t.ownCtx.recA = BitVec.ofNat 64 (0x08 * 2 ^ 56 + x.pc % 2 ^ 56) ∧
      t.ownCtx.actgen = (x.actgen != x.patch) ∧ t.ownCtx.patch = false ∧ t.ownCtx.calls = x.calls) ∧
    ((∀ e, Tbl.get? x.caps k = some e → e.closed = false) → WordFaults s (.replay g) 0x0C 0 0) ∧
    (x.blocks = [] → Accepted s (.egbStep g) { x with pc := nx, step := x.step + 1 }) ∧
    (x.blocks ≠ [] → WordWaits s (.egbStep g) ∧ WordWaits s (.gend g) ∧ WordWaits s (.signal g)) ∧
    (x.blocks = [] → (∀ p ∈ (s.dieAt (ctxDie s)).sweeps, p.2.ctx ≠ ctxNumber s) → ∃ t, exec (.gend g) s = .next t ∧ t.mem = s.mem ∧
      t.ownCtx.st = .free ∧ t.ownCtx.done = true ∧ (x.done = false → Noted t (ctxDie s)))) ∧
  (∀ (s : State) (i : Instr) (g : GcWord) (fn : DWord → DWord → Int → Option DWord), Sequences s → shapeRule i = some (g, fn) →
    let x := s.ownCtx
    (∀ v, fn (hreg x g.hb) (hreg x g.hc) g.imm.toInt = some v → Accepted s i { x with pc := x.pc + 8, h := Tbl.set x.h g.ha.toNat v }) ∧
    (fn (hreg x g.hb) (hreg x g.hc) g.imm.toInt = none → WordFaults s i 0x06 0 0)) ∧
  (∀ (s : State) (i : Instr), unitExists s.cur = true → 96 ≤ s.cur % 128 → s.ownCtx.inBlock = true → loneWord i = true → WordFaults s i 0x01 0 0)

/-- R360 to R366, R398, R399: the words on handles, parameters, channels, signals and the control store. Two clauses are the model's
choice: that `CSLOAD` waits for the entries bound to the bank it loads, and that an unaligned address is fault 0x10 (log 49); and that
`HDEF` and `HSHARD` check their handle before they wait, and their words after it (log 50). -/
def Obligations.GraphHandles : Prop :=
  ∀ (s : State) (g : GhWord), Sequences s →
    let x := s.ownCtx
    let d := ctxDie s
    let c := ctxNumber s
    let n := g.handle.toNat
    let a := g.aux.toNat
    (x.handle? n = none →
      (∀ w, Resolves x g.trail w → Accepted s (.hdef g)
        { x with pc := x.pc + 104, handles := Tbl.set x.handles n { words := w, root := n, shard := BitVec.ofNat 64 (3 * 2 ^ 61) } }) ∧
      ((∀ w, ¬Resolves x g.trail w) → WordFaults s (.hdef g) 0x07 0 n) ∧
      WordFaults s (.hld g) 0x07 0 n ∧ WordFaults s (.hfree g) 0x07 0 n ∧ WordFaults s (.hreshape g) 0x07 0 n ∧
      WordFaults s (.hshard g) 0x07 0 n ∧ WordFaults s (.waith g) 0x07 0 n) ∧
    (∀ h, x.handle? n = some h →
      (h.pr = 0 ∧ h.pw = 0 → WordFaults s (.hdef g) 0x07 0 n) ∧ (h.pr ≠ 0 ∨ h.pw ≠ 0 → WordWaits s (.hdef g)) ∧
      (¬HandleQuiet x n → WordWaits s (.hfree g) ∧ WordWaits s (.hreshape g) ∧ WordWaits s (.hshard g)) ∧
      (HandleQuiet x n → Accepted s (.hfree g) { x with
        pc := x.pc + 8
        handles := x.handles.filter fun p => !decide (p.1 = n) && !(!h.isAlias && p.2.isAlias && decide (p.2.root = n)) }) ∧
      (∀ w, HandleQuiet x n → Resolves x (h.words.take 1 ++ g.trail) w → shardOk x.desc w h.shard = true →
        Accepted s (.hreshape g) { x with pc := x.pc + 96, handles := Tbl.set x.handles n { h with words := w } }) ∧
      (let v := g.trail.getD 0 0
       HandleQuiet x n → (∀ p ∈ x.handles, p.2.root = h.root → shardOk x.desc p.2.words v = true) → Accepted s (.hshard g) { x with
         pc := x.pc + 16, handles := x.handles.map fun p => if p.2.root = h.root then (p.1, { p.2 with shard := v }) else p }) ∧
      ((x.counts h).2 ≠ 0 → WordWaits s (.hld g) ∧ WordWaits s (.waith g)) ∧
      ((x.counts h).2 = 0 → a / 256 % 16 < 8 → Accepted s (.hld g) { x with
        pc := x.pc + 8
        h := Tbl.set x.h (a % 32) (BitVec.ofNat 64 (
          if a / 256 % 16 = 6 then prodOf ((List.range 6).map (descExt h.words)) else if a / 256 % 16 = 7 then descNdim h.words
          else descExt h.words (a / 256 % 16))) }) ∧
      ((x.counts h).2 = 0 → a % 2 = 0 ∨ (x.counts h).1 = 0 → Accepted s (.waith g) { x with pc := x.pc + 8 })) ∧
    (∀ h w, x.handle? n = none → x.handle? a = some h → HandleQuiet x a → (g.trail.getD 0 0).toNat % 64 = 0 →
      Resolves x ((BitVec.ofNat 64 (descBase h.words) + g.trail.getD 0 0) :: g.trail.drop 1) w →
      Accepted s (.halias g) { x with pc := x.pc + 104, handles := Tbl.set x.handles n { words := w, isAlias := true, root := h.root, shard := h.shard } }) ∧
    (∀ bs, (s.pastWord 0).engineRead d c (x.desc.pbase + x.actgen.toNat * 0x8000 + 8 * n) 8 = .ok bs →
      Accepted s (.param g) { x with pc := x.pc + 8, h := Tbl.set x.h (a % 32) (BitVec.ofNat 64 (leNat bs)) }) ∧
    (∀ (k : GcWord) w, x.blocks = [] → (s.pastWord 0).engineWrite d c (x.desc.sigaddr + 8 * (k.imm.toNat % 256))
        (toBytes 8 (hreg x k.ha).toNat) = .ok w → ∃ t, exec (.signal k) s = .next t ∧ t.mem = w.mem ∧ Noted t d) ∧
    (let e : ChanEnt := { e0 := g.trail.getD 0 0, e1 := g.trail.getD 1 0 }
     x.blocks = [] →
      ((s.pastWord 2).chanOk d c n e = false → WordFaults s (.chload g) 0x0E 0 0) ∧
      ((s.pastWord 2).chanOk d c n e = true → dieOf e.receiver ≠ d ∨ ((s.pastWord 2).unloadChan d c n).landingFree e = true →
        ∃ t, exec (.chload g) s = .next t ∧ t.mem = s.mem ∧ t.ownCtx.pc = x.pc + 24 ∧ Tbl.get? t.ownCtx.chans n = some e ∧
          (dieOf e.receiver = d → ∀ k, k < e.depth → (t.coreAt e.receiver).lcAt (e.lcBase + k) = { target := (e.tileBytes + 63) / 64, slot := some (c, n, k) })) ∧
      ∃ t, exec (.chloadOff g) s = .next t ∧ t.mem = s.mem ∧ t.ownCtx.pc = x.pc + 8 ∧ Tbl.get? t.ownCtx.chans n = none) ∧
    (x.blocks ≠ [] → WordWaits s (.chload g) ∧ WordWaits s (.chloadOff g)) ∧
    (x.bankFree (!x.curBank).toNat = true →
      (∀ b, (s.pastWord 1).loadBank d c (g.trail.getD 0 0).toNat = .ok b → Accepted s (.csload g)
        { x with pc := x.pc + 16, curBank := !x.curBank, bank0 := if x.curBank then b else x.bank0, bank1 := if x.curBank then x.bank1 else b }) ∧
      ((s.pastWord 1).loadBank d c (g.trail.getD 0 0).toNat = .error .bad → WordFaults s (.csload g) 0x10 0 0)) ∧
    (x.bankFree (!x.curBank).toNat = false → WordWaits s (.csload g))

/-- R99, R101, R334 to R336, R343 to R349, R367, R371: `BLOCK` and `OP` accept a block and its entries, whose references count at
their handles; a word that is none stops its context. -/
def Obligations.GraphBlocks : Prop :=
  (∀ (s : State) (nm1 : BitVec 5) (budget : BitVec 16), Sequences s →
    let x := s.ownCtx
    (budget.toNat ≤ 384 → x.blocks.length < 64 → Accepted s (.block nm1 budget) { x with
      pc := x.pc + 8, nextSerial := x.nextSerial + 1
      blocks := x.blocks ++ [{ serial := x.nextSerial, addr := x.pc, budget := budget.toNat, bank := x.curBank.toNat, gen := x.actgen.toNat, left := nm1.toNat + 1 }] }) ∧
    (384 < budget.toNat → WordFaults s (.block nm1 budget) 0x0B 0 0) ∧
    (budget.toNat ≤ 384 → 64 ≤ x.blocks.length → WordWaits s (.block nm1 budget))) ∧
  (∀ (s : State) (w : OpWord) (old : List Block) (b : Block), unitExists s.cur = true → 96 ≤ s.cur % 128 →
    let x := s.ownCtx
    ((x.inBlock = true ∧ x.blocks = old ++ [b]) ∨ (x.inBlock = false ∧ x.blocks.length < 64 ∧ x.blocks = old ∧
      b = { serial := x.nextSerial, addr := x.pc, bank := x.curBank.toNat, gen := x.actgen.toNat, left := 1 })) →
    w.opid.toNat < 0x100 ∨ Tbl.get? (x.bank b.bank).decs w.opid.toNat = none →
    let j := b.entries.length
    (opDefined (x.bank b.bank) w.opid.toNat = false → WordFaults s (.op w) 0x0D w.opid.toNat 0) ∧
    (∀ roots, opDefined (x.bank b.bank) w.opid.toNat = true → x.rootsOf w = .ok roots →
      (blockRules b (x.bank b.bank) w roots j (j + b.left) = false → WordFaults s (.op w) 0x02 w.opid.toNat 0) ∧
      (blockRules b (x.bank b.bank) w roots j (j + b.left) = true → ∃ t, exec (.op w) s = .next t ∧ t = { s with cores := t.cores, dies := t.dies } ∧
        let e : Entry := { opid := w.opid.toNat, cons := w.cons.toNat, refs := w.refs, roots := roots, attrs := w.attrs, addr := x.pc, hregs := x.h }
        t.ownCtx = { x with
          pc := x.pc + 8 * ((w.refs.length + 3) / 4 + w.attrs.length + 1), blocks := old ++ [{ b with entries := b.entries ++ [e], left := b.left - 1 }]
          nextSerial := if x.inBlock then x.nextSerial else x.nextSerial + 1, handles := t.ownCtx.handles } ∧
        ∀ (i : Nat) (r : BitVec 16) (root : Nat) (h : Handle), w.refs[i]? = some r → refKind r ≠ 3 → roots[i]? = some root → x.handle? root = some h →
          t.ownCtx.handle? root = some { h with pr := h.pr + (if refReads r then 1 else 0), pw := h.pw + (if refWrites r then 1 else 0) }))) ∧
  (∀ s : State, s.ev.k < 4 → (s.ctxAt s.ev.u s.ev.k).st = .running → (s.ctxAt s.ev.u s.ev.k).pc = s.ev.v.toNat →
    s.ev.v.toNat % 8 ≠ 0 ∨ (∃ w ts, s.egbWord s.ev.u s.ev.k = .ok (w, ts) ∧ decodeEgb w ts = none) → ∃ t, exec .illegalWord s = .next t ∧
    let y := t.ctxAt s.ev.u s.ev.k
    y.st = .faulted ∧ y.fault = true ∧ y.recA = BitVec.ofNat 64 (0x01 * 2 ^ 56 + s.ev.v.toNat % 2 ^ 56) ∧ y.recB = 0 ∧ y.blocks = [] ∧
      (∀ p ∈ (t.dieAt s.ev.u).sweeps, p.2.ctx ≠ s.ev.k) ∧ (∀ p ∈ (t.dieAt s.ev.u).roleq, ∀ r ∈ p.2, r.ctx ≠ s.ev.k) ∧ Noted t s.ev.u)

namespace Sys2Proof.Machine

/-! ## Plan routines, sweeps and operators -/

/-- The context that the plan routine in progress runs for. -/
def State.routineCtx (s : State) : Ctx := s.ctxAt (dieOf s.cur) s.core.planCtx

/-- The plan routine in progress runs for entry e of block b (R373). -/
def PlansFor (s : State) (b : Block) (e : Entry) : Prop :=
  isPlan s.cur = true ∧ s.routineCtx.block? s.core.planBlk = some b ∧ b.serial = s.core.planBlk ∧ b.entries[s.core.planEnt]? = some e

/-- The operation records in the routine's entry, which is now e; memory, registers and handles are as before. -/
def Records (s : State) (i : Instr) (e : Entry) : Prop :=
  ∃ t, exec i s = .next t ∧ t = { s with dies := t.dies } ∧ t.routineCtx.entry? s.core.planBlk s.core.planEnt = some e ∧
    t.routineCtx.handles = s.routineCtx.handles ∧ t.routineCtx.pc = s.routineCtx.pc

/-- The plan operations that read one word, with what they read; none where a requirement of R376 does not hold. -/
def planReadRule (s : State) (b : Block) (e : Entry) : Instr → Option (MemWord × Option DWord)
  | .pattr f => some (f, e.attrs[(s.sv f.base).toNat]?)
  | .pshape f => some (f, if (s.sv f.base).toNat ≤ 31 then some (Tbl.getD e.hregs (s.sv f.base).toNat 0) else none)
  | .phref f => some (f, (e.refs[(s.sv f.base).toNat]?).map fun (r : BitVec 16) =>
      BitVec.ofNat 64 (r.toNat + (if r.toNat / 2 ^ 14 = 3 then 0 else e.roots.getD (s.sv f.base).toNat 0 % 4096) * 2 ^ 16))
  | .phdesc f => some (f, match e.refs[(s.sv f.base).toNat]? with
      | none => none
      | some r =>
        let w := (s.sv f.idx).toNat
        if r.toNat / 2 ^ 14 = 3 then
          let l := ((b.entries[r.toNat / 128 % 32]?).map fun (p : Entry) => Tbl.getD p.louts (r.toNat % 128) (0, 0)).getD (0, 0)
          some (if w = 0 then l.1 else if w = 1 then l.2 else 0)
        else if w ≤ 14 then some ((handleImage (e.snap[(s.sv f.base).toNat]?)).getD w 0) else none)
  | .pregion f => some (f, some (((if (s.sv f.base).toNat < 72 ∧ (s.coreAt (dieOf s.cur * 128 + (s.sv f.base).toNat)).run ≠ .offline then Tbl.get? b.regions (dieOf s.cur * 128 + (s.sv f.base).toNat) else none).map
      fun (g : Nat) => BitVec.ofNat 64 (4096 * g)).getD (BitVec.allOnes 64)))
  | _ => none

/-- A sweep as the routine in progress asks for it: its own. -/
def State.ownSweep (s : State) (x : Sweep) : Sweep := { x with ctx := s.core.planCtx, blk := s.core.planBlk, ent := s.core.planEnt }

/-- A sweep that the routine makes, with its OLDID, stands in entry id of the die's table and in the routine's entry (R316, R318, R377). -/
def SweepMade (s w : State) (e : Entry) (id old : Nat) (x : Sweep) : Prop :=
  w.mem = s.mem ∧ Tbl.get? (w.dieAt (dieOf s.cur)).sweeps id = some { s.ownSweep x with
    oldId := old, st := if s.routineCtx.pre = .pausing then .paused else .active } ∧
  w.routineCtx.entry? s.core.planBlk s.core.planEnt = some { e with sweeps := e.sweeps ++ [id], made := Tbl.set e.made id id }

/-- The routine asks for the sweep x, as read, and waits for an entry; or, having asked before, waits on (R36, R314). -/
def SweepAsked (s : State) (i : Instr) (x : Sweep) : Prop :=
  Stops s i (.sweep x) ∧ ∃ t, exec i s = .next t ∧ t.core.holding = true ∧
    t.core.want = if s.core.want.isSome then s.core.want else some ((s.dieAt (dieOf s.cur)).nextAsk, x)

/-- Nothing of the spill rings of a die's contexts is left to return (R297). -/
def NoneSpilled (s : State) (d : Nat) : Prop := ∀ p ∈ (s.dieAt d).ctxs, ∀ k, Tbl.getD p.2.spillLen k 0 = 0

/-- The role queues of a die are one for each role and hold that role's records. -/
def QueuesByRole (s : State) (d : Nat) : Prop :=
  ((s.dieAt d).roleq.map fun p => p.1).Nodup ∧ ∀ p ∈ (s.dieAt d).roleq, ∀ r ∈ p.2, r.role = p.1

end Sys2Proof.Machine

/-- R316, R329, R373, R376 to R379: the plan operations: what each reads, records or waits for, and the illegal-operand trap where a
requirement does not hold, which stops the context. -/
def Obligations.PlanOperations : Prop :=
  ∀ (s : State) (b : Block) (e : Entry), PlansFor s b e →
    let x := s.routineCtx
    let illegal (i : Instr) : Prop := Stops s i (.trap 0x03 (BitVec.ofNat 64 s.core.slot)) ∧ ∃ t, exec i s = .next t ∧
      t.routineCtx.st = .faulted ∧ t.routineCtx.recA = BitVec.ofNat 64 (0x09 * 2 ^ 56 + s.core.gpc % 2 ^ 56) ∧ t.routineCtx.recB.toNat % 2 ^ 16 = 3
    (∀ i f v, planReadRule s b e i = some (f, some v) → Accepts s i → exec i s = .next (s.result (.s f.dr.toNat) v.toNat 0 1 0)) ∧
    (∀ i f, planReadRule s b e i = some (f, none) → Accepts s i → illegal i) ∧
    (∀ f : MemWord,
      let j := (s.sv f.base).toNat
      let k := (s.sv f.idx).toNat
      let v := (s.sv f.dr).toNat
      (∀ r, Accepts s (.psetext f) → e.refs[j]? = some r → refWrites r = true → k < descNdim ((e.snap.getD j {}).words) → 1 ≤ v → v < 2 ^ 31 →
        Records s (.psetext f) { e with exts := e.exts ++ [(j, k, v)] }) ∧
      (Accepts s (.psetext f) → (∀ r, e.refs[j]? = some r → refWrites r = false ∨ descNdim ((e.snap.getD j {}).words) ≤ k ∨ v = 0 ∨ 2 ^ 31 ≤ v) →
        illegal (.psetext f)) ∧
      (Accepts s (.plout f) → j < localOuts (x.bank b.bank) e.opid e.refs.length → v % 64 = 0 →
        Records s (.plout f) { e with louts := Tbl.set e.louts j (s.sv f.dr, s.sv f.idx) }) ∧
      (Accepts s (.plout f) → localOuts (x.bank b.bank) e.opid e.refs.length ≤ j ∨ v % 64 ≠ 0 → illegal (.plout f)) ∧
      (∀ r h, Accepts s (.presid f) → e.refs[j]? = some r → refWrites r = true → v / 2 ^ 55 % 2 ^ 8 = 0 → v / 2 ^ 48 % 2 ^ 7 < 72 →
        v / 2 ^ 41 % 2 ^ 7 = 0 → v / 2 ^ 25 % 2 ^ 7 = 0 → v % 2 ^ 16 = 0 → v / 2 ^ 32 % 2 ^ 9 + v / 2 ^ 16 % 2 ^ 9 ≤ 384 →
        x.handle? (refHandle r) = some h → ∃ t, exec (.presid f) s = .next t ∧ t = { s with dies := t.dies } ∧
          t.routineCtx = { x with handles := t.routineCtx.handles } ∧
          ∀ n, t.routineCtx.handle? n = if n = refHandle r then some { h with resident := s.sv f.dr, resBlk := b.serial } else x.handle? n) ∧
      (let d := dieOf s.cur
       let read : Except SweepErr SweepDesc := s.readDesc d s.core.planCtx j
       let saved : Except SweepErr Sweep := s.readFrontier d s.core.planCtx j
       let free := if (s.dieAt d).offline = true then none else Tbl.free (s.dieAt d).sweeps 16
       let made (i : Instr) (id old : Nat) (x : Sweep) : Prop :=
         ∃ w : State, exec i s = .next (w.result (.s f.dr.toNat) id 0 1 0) ∧ SweepMade s w e id old x
       (Accepts s (.psweep f) →
         (∀ y id, s.core.want = none → s.asks d = [] → read = .ok y → free = some id → made (.psweep f) id id { ctx := 0, desc := y }) ∧
         (∀ y, s.core.want = none → read = .ok y → s.asks d ≠ [] ∨ free = none → SweepAsked s (.psweep f) (s.ownSweep { ctx := 0, desc := y })) ∧
         (∀ k x id, s.core.want = some (k, x) → s.ownSweep x = x → x.base ≠ x.desc.points → (∀ n ∈ s.asks d, k ≤ n) → free = some id →
           made (.psweep f) id id x) ∧
         (∀ k x, s.core.want = some (k, x) → (∃ n ∈ s.asks d, n < k) ∨ free = none → SweepAsked s (.psweep f) x) ∧
         (s.core.want = none → j % 64 ≠ 0 → ∃ t, exec (.psweep f) s = .next t ∧ t.routineCtx.st = .faulted ∧
           t.routineCtx.recA = BitVec.ofNat 64 (0x03 * 2 ^ 56 + j % 2 ^ 56))) ∧
       (Accepts s (.prestore f) →
         (∀ y id, s.core.want = none → s.asks d = [] → saved = .ok y → y.base ≠ y.desc.points → free = some id → made (.prestore f) id y.oldId y) ∧
         (∀ y, s.core.want = none → saved = .ok y → s.asks d ≠ [] ∨ free = none → SweepAsked s (.prestore f) (s.ownSweep y)))) ∧
      (Accepts s (.pswait f) →
        (∀ id, Tbl.get? e.made j = some id → id ∉ e.sweeps → exec (.pswait f) s = .next s) ∧
        (∀ id, Tbl.get? e.made j = some id → id ∈ e.sweeps → Stops s (.pswait f) (.wait (.parked false) false false)) ∧
        (Tbl.get? e.made j = none → illegal (.pswait f))))

/-- R39, R42, R298, R303, R312, R313, R318 to R322, R325, R326: records and points: the record a core takes and the task it becomes,
age promotion, the point a sweep fires and its record, and the completion of a point. That a promoted record goes behind the promoted
ones at the head of its queue, and stays where one of its own age stands before it, is the model's choice (log 26). -/
def Obligations.RecordsAndPoints : Prop :=
  (∀ s : State, isCompute s.ev.u = true → unitExists s.ev.u = true → (s.coreAt s.ev.u).run = .idle →
    (s.dieAt (dieOf s.ev.u)).offline = false → NoneSpilled s (dieOf s.ev.u) → QueuesByRole s (dieOf s.ev.u) →
    (∀ i, i < s.ev.u % 128 → s.asksRecord (dieOf s.ev.u * 128 + i) = false) → ∀ x, s.chooseRecord s.ev.u = some x →
    let u := s.ev.u
    let d := dieOf u
    let c := s.coreAt u
    (x ∈ s.candidates u ∧ ∀ y ∈ s.candidates u, s.before d y x = false) ∧
    (x.pos = none → x.r.st = 0 ∨ x.r.st = 3 →
      ∃ t id, exec .recordTake s = .next t ∧ t.mem = s.mem ∧
        Tbl.getD (t.dieAt d).roleq x.r.role [] = (Tbl.getD (s.dieAt d).roleq x.r.role []).eraseIdx x.ix ∧
        let c' := t.coreAt u
        c'.task = some { r := x.r, id := id } ∧ c'.run = .running ∧ c'.pc = x.r.code ∧ c'.tlevel = 0 ∧ c'.ckNext = true ∧ c'.l1 = [] ∧
        c'.live.ct = 0 ∧ c'.live.exposed = false ∧ c'.live.latch = [] ∧ c'.live.sd = [] ∧ c'.live.ck = [] ∧ c'.live.cl = [] ∧
        c'.live.flag = c.live.flag ∧ c'.live.allFull = true ∧ c'.live.named = 0) ∧
    (∀ k p lo vs, x.pos = some k → Tbl.get? c.resume k = some p →
      let base := (s.ctxAt d p.r.ctx).desc.savebase + (16 * (u % 128) + k) * 0x9000
      s.engineRead d p.r.ctx base 0x880 = .ok lo → s.engineRead d p.r.ctx (base + 0x1000) 0x8000 = .ok vs →
      ∃ t, exec .recordTake s = .next t ∧ t.mem = s.mem ∧ (∀ v, v ≠ u → t.coreAt v = s.coreAt v) ∧
        let c' := t.coreAt u
        c'.task = some { r := p.r, id := p.id } ∧ c'.run = .running ∧ c'.pc = p.r.rpc ∧ c'.tlevel = 0 ∧ c'.ckNext = true ∧ c'.trk = p.trk ∧
        c'.timedOut = p.r.timedOut ∧ Tbl.get? c'.resume k = none ∧ c'.shadow.regs = c'.live ∧ c'.live.ct = 0 ∧ c'.live.allFull = true ∧
        (∀ n, 0 < n → n < 64 → (c'.live.sReg n).val = BitVec.ofNat 64 (leNat ((lo.drop (8 * n)).take 8))) ∧
        (∀ n, n < 64 → (c'.live.vReg n).val = BitVec.ofNat 4096 (leNat ((vs.drop (512 * n)).take 512))) ∧
        (∀ n, n < 8 → (c'.live.pReg n).val = BitVec.ofNat 512 (leNat ((lo.drop (0x300 + 64 * n)).take 64))))) ∧
  (∀ (s : State) (front mid rest : List Record) (r y : Record), Tbl.getD (s.dieAt s.ev.u).roleq s.ev.k [] = front ++ (y :: mid) ++ (r :: rest) →
    s.ev.m = front.length + mid.length + 1 → (∀ z ∈ front, s.promoted s.ev.u z = true) → s.promoted s.ev.u y = false → s.promoted s.ev.u r = true →
    ((∀ z ∈ y :: mid, z.enq ≠ r.enq) →
      exec .agePromotion s = .next (s.updDie s.ev.u fun z => { z with roleq := Tbl.set z.roleq s.ev.k (front ++ r :: (y :: mid) ++ rest) })) ∧
    ((∃ z ∈ y :: mid, z.enq = r.enq) → exec .agePromotion s = .next s)) ∧
  (∀ (s : State) (w : Sweep), let d := s.ev.u
    let id := s.ev.k
    s.firing d = some id → Tbl.get? (s.dieAt d).sweeps id = some w → (s.dieAt d).offline = false →
    NoneSpilled s d → (∀ p ∈ (s.dieAt d).sweeps, p.2.finishing = []) → (Tbl.getD (s.dieAt d).roleq w.desc.role []).length < 4096 →
    ∃ t l r w', exec .pointFire s = .next t ∧ t = { s with dies := t.dies } ∧
      (w.st = .active ∧ l < w.desc.points ∧ (Tbl.getD w.win l 0 = 0 ∨ Tbl.getD w.win l 0 = 3) ∧
        ∀ p ∈ w.desc.preds l, p < w.base ∨ Tbl.getD w.win p 0 = 2) ∧
      (l ∈ w.first ∨ w.base ≤ l ∧ (∀ n ∈ w.first, w.eligible n = false) ∧ ∀ l', w.base ≤ l' → l' < l → w.eligible l' = false) ∧
      Tbl.getD (t.dieAt d).roleq w.desc.role [] = Tbl.getD (s.dieAt d).roleq w.desc.role [] ++ [r] ∧
      (r.st = (if Tbl.getD w.win l 0 = 3 then 3 else 0) ∧ r.ctx = w.ctx ∧ r.rclass = w.desc.rclass ∧ r.role = w.desc.role ∧ r.code = w.desc.code ∧
        r.sweep = id ∧ r.frame = w.desc.fbase + l * w.desc.fstride ∧ r.join = w.desc.join ∧ r.enq = s.cycle48 d) ∧
      Tbl.get? (t.dieAt d).sweeps id = some w' ∧ w' = { w with win := w'.win, first := w.first.filter fun n => !decide (n = l) } ∧
      (∀ n, Tbl.getD w'.win n 0 = if n = l then 1 else Tbl.getD w.win n 0) ∧ (t.dieAt d).lastFired = id) ∧
  (∀ (s : State) (w : Sweep), Tbl.get? (s.dieAt s.ev.u).sweeps s.ev.k = some w → s.ev.m ∈ w.finishing →
    ((∃ l, l < w.desc.points ∧ w.complete l = false ∧ l ≠ s.ev.m) → ∃ t w', exec .pointComplete s = .next t ∧ t = { s with dies := t.dies } ∧
      Tbl.get? (t.dieAt s.ev.u).sweeps s.ev.k = some w' ∧ w' = { w with base := w'.base, win := w'.win, finishing := w'.finishing } ∧
      (∀ l, w'.complete l = true ↔ w.complete l = true ∨ l = s.ev.m) ∧ (∀ l, l ∈ w'.finishing ↔ l ∈ w.finishing ∧ l ≠ s.ev.m)) ∧
    ((∀ l, l < w.desc.points → w.complete l = true ∨ l = s.ev.m) → w.base ≤ w.desc.points → s.ev.m < w.desc.points →
      (∀ l, w.desc.points ≤ l → Tbl.getD w.win l 0 ≠ 2) → w.desc.joinen = false →
      ∃ t, exec .pointComplete s = .next t ∧ t = { s with dies := t.dies } ∧ Tbl.get? (t.dieAt s.ev.u).sweeps s.ev.k = none))

/-- R273, R345 to R347, R373: an operator issues and its plan routine starts, an operator completes, and a block commits. -/
def Obligations.Operators : Prop :=
  ∀ (s : State) (b : Block),
    let d := s.ev.u
    let c := s.ev.k
    let x := s.ctxAt d c
    x.block? s.ev.m = some b →
    (∀ e p op rest, b.entries[s.ev.n]? = some e → e.stage = .accepted → x.mayIssue b s.ev.n e = true → x.st = .running → x.pre = .none →
      (s.dieAt d).offline = false → (∀ y ∈ x.blocks, y.allocated = true) → s.issuesAfter d c b s.ev.n = false → 0x100 ≤ e.opid → Tbl.get? (x.bank b.bank).ops e.opid = some op →
      (s.dieAt d).planq = [] → s.freePlans d = p :: rest →
      ∃ t, exec .operatorIssue s = .next t ∧ t.mem = s.mem ∧
        ((t.ctxAt d c).entry? b.serial s.ev.n).map Entry.stage = some .issued ∧
        let k := t.coreAt p
        k.run = .running ∧ k.planRun = true ∧ k.planCtx = c ∧ k.planBlk = b.serial ∧ k.planEnt = s.ev.n ∧ k.pc = op.plan ∧
        (k.live.sReg 1).val = BitVec.ofNat 64 e.opid ∧ (k.live.sReg 2).val = BitVec.ofNat 64 e.attrs.length ∧
        (k.live.sReg 3).val = BitVec.ofNat 64 e.refs.length ∧ (k.live.sReg 4).val = BitVec.ofNat 64 (x.desc.pbase + b.gen * 0x8000) ∧
        (k.live.sReg 5).val = BitVec.ofNat 64 s.ev.n ∧ (k.live.sReg 6).val = BitVec.ofNat 64 e.cons) ∧
    (∀ e, b.entries[s.ev.n]? = some e → x.st = .running → e.stage = .issued → e.planDone = true → e.sweeps = [] → e.colls = [] →
      e.planned = true → e.todo = [] → (e.named refReads).Nodup →
      ∃ t, exec .operatorComplete s = .next t ∧ t = { s with dies := t.dies } ∧
        ((t.ctxAt d c).entry? b.serial s.ev.n).map Entry.stage = some .complete ∧
        ∀ n h, x.handle? n = some h → (t.ctxAt d c).handle? n = some { h with pr := if n ∈ e.named refReads then h.pr - 1 else h.pr }) ∧
    (x.st = .running → b.left = 0 → (∀ e ∈ b.entries, e.stage = .complete ∧ e.exts = []) → (b.entries.flatMap fun e => e.named refWrites).Nodup →
      ∃ t, exec .blockCommit s = .next t ∧ t.mem = s.mem ∧ (t.ctxAt d c).blocks = (x.blocks.filter fun y => !decide (y.serial = b.serial)) ∧
        (∀ n h, x.handle? n = some h → ∃ h', (t.ctxAt d c).handle? n = some h' ∧
          h'.pw = (if n ∈ b.entries.flatMap (fun e => e.named refWrites) then h.pw - 1 else h.pw) ∧ h'.words = h.words ∧ h'.pr = h.pr ∧
          (h.resBlk = b.serial → h'.resident = 0) ∧ (h.resBlk ≠ b.serial → h'.resident = h.resident)) ∧
        ∀ u, u / 128 = d → ∀ g ∈ (t.coreAt u).grans, g.2 ≠ .oper c b.serial)

namespace Sys2Proof.Machine

/-! ## Events from outside the cores -/

/-- The write of `GLAUNCH` of a die (R333): refused without a Free context or on a drained die; else the first Free context runs from
its descriptor's ENTRY, or stops with graph fault 0x0F on a bad one. -/
def Launches (s : State) (i : Instr) (d : Nat) (v : DWord) : Prop :=
  let a := bits v 51 7 * 128
  let w (i : Nat) : DWord := leWord (((s.readMem a 128).drop (8 * i)).take 8)
  ((∀ c, c < 4 → (s.ctxAt d c).st ≠ .free) ∨ (s.dieAt d).drain = true → exec i s = .next (s.updDie d fun x => { x with refused := true })) ∧
  (∀ c, c < 4 → (s.ctxAt d c).st = .free → (∀ k, k < c → (s.ctxAt d k).st ≠ .free) → (s.dieAt d).drain = false → (s.dieAt d).offline = false →
    s.homeOk d a = true → s.poisoned a = false →
    (((CtxDesc.ofWords w).ok w (s.partPackages (s.dieAt d).partition).length = true → ∃ t, exec i s = .next t ∧ t.mem = s.mem ∧ t.cores = s.cores ∧
        (∀ k, k ≠ c → t.ctxAt d k = s.ctxAt d k) ∧ (∀ k, k ≠ d → t.dieAt k = s.dieAt k) ∧
        let x := t.ctxAt d c
        x.st = .running ∧ x.desc = CtxDesc.ofWords w ∧ x.pc = bits (w 0) 55 0 ∧ x.h = [] ∧ x.step = 0 ∧ x.loops = [] ∧ x.calls = [] ∧
          x.caps = [] ∧ x.handles = [] ∧ x.actgen = false ∧ x.patch = false ∧ x.blocks = []) ∧
      (bits (w 0) 63 56 ≠ 1 ∨ bits (w 1) 63 52 ≠ 0 ∨ bits (w 0) 55 0 % 8 ≠ 0 ∨ w 13 ≠ 0 ∨ bits (w 11) 29 20 = 0 →
        ∃ t, exec i s = .next t ∧ (t.ctxAt d c).st = .faulted ∧ (t.ctxAt d c).fault = true ∧ Noted t d ∧
          (t.ctxAt d c).recA = BitVec.ofNat 64 (0x0F * 2 ^ 56 + a))))

/-- A trap that the hardware events of R434 raise. -/
def Cause (k : Nat) : Prop := k ∈ [0x01, 0x02, 0x03, 0x04, 0x05, 0x08, 0x09, 0x0A, 0x0B, 0x0C, 0x0D, 0x0E, 0x10, 0x11, 0x12, 0x13, 0x18, 0x19, 0x1A, 0x1C]

/-- The Ethernet interrupt of port p (R466). -/
def EthNoted (t : State) (p : Nat) : Prop := (t.coreAt (4 * p * 128 + 72)).irqPend.getLsbD 4 = true

/-- Address of descriptor n of a ring (R467). -/
def ringEntry (base cfg : DWord) (n : Nat) : Nat := bits base 55 0 + 16 * (n % 2 ^ bits cfg 4 0)

/-- The control core of package p's die k, number n, in the new image: its start vector (R468). -/
def vectorOf (f : List Byte) (n : Nat) : Nat := leNat ((f.drop (64 + 8 * n)).take 8)

end Sys2Proof.Machine

/-- R5, R45, R71, R206, R332 to R334, R351, R431, R438, R462, R463, R467, R469: a trap of a group in progress, an empty bundle, and the
writes of device registers. Clauses that are the model's choice: a control core that restarts runs from its start vector (log 32); which
context a launch takes and what it clears (log 33); a trap of the group in progress falls between groups (log 61). -/
def Obligations.DeviceRegisters : Prop :=
  ∀ s : State,
    let u := s.ev.u
    let c := s.coreAt u
    let core : Prop := unitExists u = true ∧ (isCompute u = true ∨ isControl u = true)
    let die : Prop := dieExists s.ev.u = true
    let port : Prop := s.ev.u < 8
    (unitExists u = true → u % 128 < 96 → c.run = .running → Cause s.ev.k → exec .trapEntry s = .next ((s.updAt u fun x => x.endWait (s.cycle48 (dieOf u))).trapAt u s.ev.k s.ev.v 0)) ∧
    (unitExists u = true → u % 128 < 96 → c.run = .running → c.after = [] → c.ckNext = false → c.pipe = [] → c.redirected = false → c.stopReq = 0 →
      s.ev.flag = false → ∃ t, exec .emptyBundle s = .next t ∧ t = { s with cores := t.cores, cur := u, groupCore := {}, groupDie := {} } ∧ (∀ k, k ≠ u → t.coreAt k = s.coreAt k) ∧
        (t.coreAt u).pc = c.pc + 4 ∧ (t.coreAt u).live = c.live ∧ (t.coreAt u).wb = c.wb ∧ (t.coreAt u).shadow = c.shadow) ∧
    (die → Launches s .glaunchWrite u s.ev.v) ∧
    (die → s.ev.k = 0 → Launches s .registerWrite u s.ev.v) ∧
    (die → exec .gpatchWrite s = .next (s.updCtx u (s.ev.v.toNat % 4) fun x => { x with patch := true })) ∧
    (die → s.ev.k < 4 → ∃ t, exec .gstatFaultClear s = .next t ∧ t.mem = s.mem ∧ (t.ctxAt u s.ev.k).fault = false ∧
      (t.ctxAt u s.ev.k).st = if (s.ctxAt u s.ev.k).st = .faulted then .free else (s.ctxAt u s.ev.k).st) ∧
    (die → s.ev.k = 0x10 → ∀ k, k < 4 → s.ev.v.getLsbD (8 * k + 2) = true → ∃ t, exec .registerWrite s = .next t ∧ (t.ctxAt u k).done = false) ∧
    (die → u % 32 = 0 → s.ev.k = 0xF010 → ∃ t, exec .registerWrite s = .next t ∧ t = { s with dies := t.dies } ∧
      (t.dieAt u).hwin.toNat = s.ev.v.toNat / 2 ^ 36 % 2 ^ 16 * 2 ^ 36) ∧
    (die → ∀ p, p < 72 → s.ev.k = 0x408000 + 0x10000 * p → exec .registerWrite s = .next (s.updAt (u * 128 + p) fun x => { x with tvec1 := s.ev.v.toNat / 4 * 4 })) ∧
    (die → ∀ n, n < 2 → s.ev.k = 0xC88008 + 0x10000 * n →
      exec .registerWrite s = .next (s.updAt (u * 128 + 72 + n) fun x => { x with tvec2 := s.ev.v.toNat / 4 * 4 })) ∧
    (die → (0x20 ≤ s.ev.k ∧ s.ev.k < 0x60 ∨ 0x10000 ≤ s.ev.k ∧ s.ev.k < 0x10140 ∨ 0x100000 ≤ s.ev.k ∧ s.ev.k < 0x300000 ∨ 0x400000 ≤ s.ev.k ∧ s.ev.k < 0x404000) →
      exec .registerWrite s = .next s) ∧
    (core → c.run = .idle → c.resume = [] → ∃ t, exec .cctlOffline s = .next t ∧ t.mem = s.mem ∧ (t.coreAt u).run = .offline ∧ (t.coreAt u).cctl.getLsbD 1 = true ∧
      ((s.dieAt (dieOf u)).offline = false → (t.dieAt (dieOf u)).replreq = true ∧ ((s.dieAt (dieOf u)).sparing = none → .core u ∈ t.replace))) ∧
    (core → c.run = .offline → ∃ t, exec .cctlOnline s = .next t ∧ t = s.updAt u (fun x => { x with onlinePending := true }) ∧
      (t.coreAt u).cctl.getLsbD 1 = false) ∧
    (core → c.run = .stopped → ∃ t, exec .cctlRestart s = .next t ∧ t.mem = s.mem ∧ (t.coreAt u).tlevel = 0 ∧ (t.coreAt u).live.latch = [] ∧
      (isCompute u = true → (t.coreAt u).run = .idle) ∧ (isControl u = true → s.startVector u ≠ 0 → (t.coreAt u).run = .running ∧ (t.coreAt u).pc = s.startVector u)) ∧
    (core → c.run ≠ .stopped → exec .cctlRestart s = .next (s.updAt u fun x => { x with halted := false, endTo := if x.endTo = .stopped then .idle else x.endTo })) ∧
    (die → exec .dsvcDrain s = .next (s.updDie u fun x => { x with drain := true })) ∧
    (die → ∃ t, exec .dsvcReenable s = .next t ∧ t.mem = s.mem ∧ (t.dieAt u).drain = false ∧ ∀ k, k < 72 → (s.coreAt (u * 128 + k)).onlinePending = true →
      (s.coreAt (u * 128 + k)).run = .offline → (s.dieAt u).drain = true →
      (t.coreAt (u * 128 + k)).run = if (s.coreAt (u * 128 + k)).halted then .stopped else .idle) ∧
    (core → isCompute u = true → ∃ t, exec .spvWarnClear s = .next t ∧ t = { s with cores := t.cores } ∧ (t.coreAt u).spv.getLsbD 0 = c.spv.getLsbD 0 ∧
      (t.coreAt u).spv.getLsbD 1 = false) ∧
    (core → ∃ t, exec .traceEnable s = .next t ∧ t = { s with cores := t.cores } ∧ (t.coreAt u).traceCtl = c.traceCtl ||| 1 ∧
      (c.traceCtl.getLsbD 0 = true → (t.coreAt u).traceW = c.traceW)) ∧
    (core → ∃ t, exec .traceDisable s = .next t ∧ t = { s with cores := t.cores } ∧ (t.coreAt u).traceCtl = c.traceCtl &&& 6 ∧
      (c.traceCtl.getLsbD 0 = true → (t.coreAt u).staged = [])) ∧
    (port → exec .erxtailWrite s = .next (s.updEth u fun e => { e with rxTail := s.ev.v.toNat % 2 ^ 32 }) ∧
      exec .etxtailWrite s = .next (s.updEth u fun e => { e with txTail := s.ev.v.toNat % 2 ^ 32 }) ∧
      exec .estatClr s = .next (s.updEth u fun e => { e with noDesc := 0, tooBig := 0, bad := 0 })) ∧
    (port → s.ev.flag = false → s.ev.k < 32 → ∃ t, exec .ringEnable s = .next t ∧ t = { s with dies := t.dies } ∧
      let old := (s.eth u).rxCfg
      let n := if old.getLsbD 8 then old.toNat % 32 else s.ev.k
      t.eth u = { s.eth u with rxCfg := BitVec.ofNat 64 (n + if 4 ≤ n ∧ n ≤ 16 then 256 else 0) }) ∧
    (port → ∃ t, exec .ringStop s = .next t ∧ t = { s with dies := t.dies } ∧
      (s.ev.flag = false → (t.eth u).rxCfg.getLsbD 8 = false ∧ (t.eth u).rxHead = (s.eth u).rxHead ∧ (t.eth u).txCfg = (s.eth u).txCfg) ∧
      (s.ev.flag = true → (t.eth u).txCfg.getLsbD 8 = false ∧ (t.eth u).txHead = (s.eth u).txHead ∧ (t.eth u).rxCfg = (s.eth u).rxCfg))

/-- R7, R45, R465 to R468, R470 to R473: Ethernet frames, the host port, reset and boot, and degraded operation. Clauses that are the
model's choice: SHA-256 as FIPS 180-4 has it (log 6); what a die reset drops and keeps (log 12); memory keeps its contents over power-on
(log 55); bad frames count while EN is 0 (log 56); host writes that reach nothing are dropped (log 57); both dies of a link report it (log
58); a failing update changes nothing (log 59); the frame check sequence sent is that of IEEE 802.3 (log 98); and a firmware update leaves
the other cores, the resident areas and attestation with the image of power-on (log 99). -/
def Obligations.FramesHostAndService : Prop :=
  (∀ s : State,
    let p := s.ev.u
    let e := s.eth p
    let bs := s.ev.bytes
    let known : Prop := ∀ i, i < 6 → bs.getD i 0 = BitVec.ofNat 8 (e.emac.toNat / 2 ^ (8 * i))
    let a := ringEntry e.rxBase e.rxCfg e.rxHead
    let o := ringEntry e.txBase e.txCfg e.txHead
    p < 8 →
    (s.ev.flag = false ∨ bs.length < 60 ∨ 9212 < bs.length → exec .frameReceive s = .next (s.updEth p fun e => { e with bad := min 0xFFFF (e.bad + 1) })) ∧
    (s.ev.flag = true → 60 ≤ bs.length → bs.length ≤ 9212 →
      (e.rxCfg.getLsbD 8 = false → exec .frameReceive s = .next s) ∧
      (e.rxCfg.getLsbD 8 = true → known ∨ e.emac.getLsbD 49 = true →
        (e.rxHead = e.rxTail → exec .frameReceive s = .next (s.updEth p fun e => { e with noDesc := min 0xFFFF (e.noDesc + 1) })) ∧
        (e.rxHead ≠ e.rxTail → ∀ w, s.engineRead (4 * p) 4 a 16 = .ok w →
          (leNat (w.drop 8) % 65536 < bs.length → exec .frameReceive s = .next (s.updEth p fun e => { e with tooBig := min 0xFFFF (e.tooBig + 1) })) ∧
          (bs.length ≤ leNat (w.drop 8) % 65536 → ∀ t1 t2 : State, s.engineWrite (4 * p) 4 (leNat (w.take 8) % 2 ^ 56) bs = .ok t1 →
            t1.engineWrite (4 * p) 4 (a + 8) (toBytes 8 (2 ^ 63 + bs.length * 2 ^ 16 + leNat (w.drop 8) % 65536)) = .ok t2 →
            ∃ t, exec .frameReceive s = .next t ∧ t.mem = t2.mem ∧ t.eth p = { e with rxHead := (e.rxHead + 1) % 2 ^ 32 } ∧ EthNoted t p)) ∧
        (e.rxHead ≠ e.rxTail → ∀ x, s.engineRead (4 * p) 4 a 16 = .error x → ∃ t, exec .frameReceive s = .next t ∧ t.mem = s.mem ∧
          (t.eth p).faultV = true ∧ (t.eth p).faultA = x.2 % 2 ^ 56 ∧ (t.eth p).rxCfg.getLsbD 8 = false ∧ (t.eth p).rxHead = e.rxHead ∧ EthNoted t p))) ∧
    (e.txCfg.getLsbD 8 = true → e.txHead ≠ e.txTail → ∀ w, s.engineRead (4 * p) 4 o 16 = .ok w →
      let len := leNat (w.drop 8) % 2 ^ 14
      let legal : Prop := leNat (w.take 8) / 2 ^ 56 = 0 ∧ leNat (w.drop 8) / 2 ^ 14 % 2 ^ 47 = 0 ∧ 14 ≤ len ∧ len ≤ 9212
      let batch := leNat (w.drop 8) / 2 ^ 62 % 2
      (∀ f, ∀ t1 : State, legal → s.engineRead (4 * p) 4 (leNat (w.take 8)) len = .ok f →
        s.engineWrite (4 * p) 4 (o + 8) (toBytes 8 (2 ^ 63 + batch * 2 ^ 62 + len)) = .ok t1 →
        ∃ t, exec .frameTransmit s = .next t ∧ t.mem = t1.mem ∧ (batch = 1 → EthNoted t p) ∧
          t.eth p = { e with txHead := (e.txHead + 1) % 2 ^ 32, sent := e.sent ++ [let g := f ++ List.replicate (60 - len) 0; g ++ frameCheck g] }) ∧
      (∀ t1 : State, ¬legal →
        s.engineWrite (4 * p) 4 (o + 8) (toBytes 8 (leNat (w.drop 8) % 2 ^ 61 + 2 ^ 63 + batch * 2 ^ 62 + 2 ^ 61)) = .ok t1 →
        ∃ t, exec .frameTransmit s = .next t ∧ t.mem = t1.mem ∧ t.eth p = { e with txHead := (e.txHead + 1) % 2 ^ 32 } ∧ (batch = 1 → EthNoted t p)))) ∧
  (∀ s : State, s.ev.u < 768 →
    let pa := bits (s.dieAt (s.ev.u * 32)).hwin 51 0 + s.ev.k
    let n := if s.ev.flag then s.ev.bytes.length else s.ev.m
    let reached : Prop := s.ev.k + n ≤ 2 ^ 36 ∧ pa / 2 ^ 42 = s.ev.u ∧ (pa + n - 1) / 2 ^ 37 = pa / 2 ^ 37 ∧ (pa + n - 1) % 2 ^ 37 < 0xC00000000 ∧
      pa / 2 ^ 37 ∉ s.offlineStacks
    (reached → s.ev.flag = true → s.memOk = true → ∃ t, exec .hostBar2Access s = .next t ∧ t = { s with mem := t.mem } ∧ SameOutside s t pa n ∧
      ∀ k, k < n → Memory.read t.mem (pa + k) = s.ev.bytes.getD k 0) ∧
    (reached → s.ev.flag = false → (∀ k, k < n → s.poisoned (pa + k) = false) → ∃ bs, exec .hostBar2Access s =
        .next { s with hostReads := s.hostReads ++ [some bs], free := s.free + n } ∧ bs.length = n ∧ ∀ k, k < n → bs.getD k 0 = Memory.read s.mem (pa + k)) ∧
    (¬reached → exec .hostBar2Access s = .next (if s.ev.flag then s else { s with hostReads := s.hostReads ++ [none] }))) ∧
  (∀ s : State, s.ev.u < 768 →
    let f := Tbl.getD s.flash s.ev.u []
    ∃ t, exec .powerOnReset s = .next t ∧ t.mem = s.mem ∧
      (flashVerifies f = true → Tbl.get? t.image s.ev.u = some (imageOf f) ∧ (∀ q, q ∈ t.packages ↔ q = s.ev.u ∨ q ∈ s.packages) ∧
        (s.packages.Pairwise (· < ·) → t.packages.Pairwise (· < ·)) ∧ s.ev.u ∈ t.fabric ∧
        ∀ n, n < 64 → let x := t.coreAt (s.ev.u * 4096 + n / 2 * 128 + 72 + n % 2)
          (vectorOf f n ≠ 0 → x.run = .running ∧ x.pc = vectorOf f n) ∧ (vectorOf f n = 0 → x.run = .idle)) ∧
      (flashVerifies f = false → Tbl.get? t.image s.ev.u = none ∧ t.bootFailed = s.bootFailed ++ [s.ev.u] ∧
        ∀ d k, d < 32 → k < 128 → (t.coreAt ((s.ev.u * 32 + d) * 128 + k)).run = .idle)) ∧
  (∀ s : State, dieExists s.ev.u = true →
    (∃ t, exec .dieReset s = .next t ∧ t.mem = s.mem ∧ (∀ k, k < 128 → t.coreAt (s.ev.u * 128 + k) = Core.reset (s.ev.u * 128 + k)) ∧
      t.dieAt s.ev.u = { since := s.now } ∧ ∀ d, d ≠ s.ev.u → t.dieAt d = s.dieAt d) ∧
    (∀ f, Tbl.get? s.image (s.ev.u / 32) = some f → s.ev.bytes.length = 32 → exec .attestationRequest s =
      .next { s with answers := s.answers ++ [Config.attestSign s.ev.u (sha256 (s.ev.bytes ++ sha256 f))] }) ∧
    (∀ r, (s.dieAt s.ev.u).sparing = none → s.ev.k = r → exec .rowSparing s = .next (s.updDie s.ev.u fun x => { x with sparing := some r })) ∧
    (∀ r, (s.dieAt s.ev.u).sparing = some r → (∀ x ∈ (s.dieAt s.ev.u).replWait, ∀ k ∈ x.dies, k ≠ s.ev.u → (s.dieAt k).sparing = none) → ∃ t, exec .rowSparing s = .next t ∧ t.mem = s.mem ∧ t.cores = s.cores ∧ (s.ev.u, r) ∈ t.spared ∧
      t.replace = s.replace ++ (s.dieAt s.ev.u).replWait ∧ t.dieAt s.ev.u = { s.dieAt s.ev.u with sparing := none, replWait := [] }) ∧
    ((s.dieAt s.ev.u).offline = false → s.insts = [] → ∃ t, exec .thermalTrip s = .next t ∧ t.mem = s.mem ∧ (t.dieAt s.ev.u).offline = true ∧
      (t.dieAt s.ev.u).replreq = true ∧ ((s.dieAt s.ev.u).sparing = none → .die s.ev.u ∈ t.replace) ∧ ∀ k, k < 74 → t.online (s.ev.u * 128 + k) = false) ∧
    (s.ev.u ∉ s.offlineStacks → ∃ t, exec .stackSparesExhausted s = .next t ∧ t.mem = s.mem ∧ t.offlineStacks = s.offlineStacks ++ [s.ev.u] ∧
      (t.dieAt s.ev.u).replreq = true ∧ ((s.dieAt s.ev.u).sparing = none → .stack s.ev.u ∈ t.replace))) ∧
  (∀ s : State, unitExists s.ev.u = true → isControl s.ev.u = true → s.online s.ev.u = true → (s.coreAt s.ev.u).tlevel = 0 →
    let f := Tbl.getD s.flash (s.ev.u / 4096) []
    (flashVerifies f = false → exec .firmwareUpdate s = .next s) ∧
    (flashVerifies f = true → ∃ t, exec .firmwareUpdate s = .next t ∧ t.mem = s.mem ∧ t.image = s.image ∧ Tbl.get? t.coreImage s.ev.u = some (imageOf f) ∧
      (∀ u, u ≠ s.ev.u → Tbl.get? t.coreImage u = Tbl.get? s.coreImage u) ∧ (∀ u, u ≠ s.ev.u → t.coreAt u = s.coreAt u) ∧
      let v := vectorOf f (s.ev.u / 128 % 32 * 2 + (s.ev.u % 128 - 72))
      (v ≠ 0 → (t.coreAt s.ev.u).run = .running ∧ (t.coreAt s.ev.u).pc = v))) ∧
  (∀ s : State,
    let l := s.ev.u
    let fails := Tbl.getD s.retries l 0
    linkExists l = true →
    exec .laneRetrain s = .next s ∧
    (l ∉ s.offlineLinks → fails < 16 →
      exec .flitRetry s = .next { s with retries := if s.ev.flag then Tbl.set s.retries l (fails + 1) else Tbl.del s.retries l }) ∧
    (l ∉ s.offlineLinks → 16 ≤ fails → ∃ t, exec .linkRetryLimit s = .next t ∧ t.mem = s.mem ∧ t.cores = s.cores ∧ t.offlineLinks = s.offlineLinks ++ [l] ∧
      ∀ d ∈ linkDies l, (t.dieAt d).eclass = (if l % 256 < 84 then 4 else 5) ∧ (t.dieAt d).replreq = true) ∧
    (fails < 16 → exec .linkRetryLimit s = .next s))

namespace Sys2Proof.Machine

/-! ## Decoding, the step and the whole machine -/

/-- A word that decodes to i in a slot, every reserved bit in order. -/
def Reads (s : Slot) (w : BitVec 64) (i : Instr) : Prop := (decodeSlot s w 0 0).instr? = some i

/-- Words with every field zero, on which the examples of the manual set theirs. -/
def zeroV : VWord :=
  { typ := 0, rm := 0, pen := false, pg := 0, rpt := 0, sat := false, ea := false, eb := false, ec := false, bs := false, res := 0
    imm := 0, vd := 0, va := 0, vb := 0, vc := 0 }

def zeroM : MWord :=
  { mfmt := 0, rz := false, sat := false, rq := 0, dt := 0, dec := false, scale := 0, acc2 := 0, res := 0, acc := 0, oa := 0, ob := 0
    na := false, nb := false, ad := false, sr := 0, ea := false, sd := 0 }

def zeroMem : MemWord :=
  { disp := 0, ord := 0, scope := 0, pen := false, pg := 0, ea := false, ed := false, ei := false, u := false, res := 0, dr := 0
    base := 0, idx := 0, sz := 0, sh := 0 }

def zeroCp : CpWord :=
  { off := 0, dt := 0, dec := false, acw := false, sr := 0, ea := false, rq := 0, le := false, res := 0, stg := 0, ch := 0, lc := 0
    fe := false, fl := 0, res0 := false }

/-- The bundle of one explicit slot n without literals, ST 1 and CK 0 (R69, R71). -/
def soloBundle (n : Nat) (w : BitVec 64) : Bundle :=
  { ck := false, st := true, inc := 0, p := 2 ^ n, d := 0, words := [⟨n, w, 0, 0⟩], len := 4 + (slotClass false n).bytes }

/-- The three rows of `CTXSW` share one word; this is the one it decodes to (log 14). -/
def sharedWord : Instr → Bool
  | .ctxswRestore _ => true
  | .ctxswStop _ => true
  | _ => false

end Sys2Proof.Machine

/-- R70 to R96, R376, R423: the decoder gives every well-formed slot instruction back from its words, each operand at every value the
encoding admits. -/
def Obligations.SlotRoundTrip : Prop :=
  ∀ (i : Instr) (c : Slot) (w : BitVec 64) (l0 l1 : BitVec 32), encode i = some (.slot c w l0 l1) → i.wf = true →
    (sharedWord i = false → decodeSlot c w l0 l1 = .ok i ∧ (decodeSlot c w l0 l1).instr? = some i) ∧
    (∀ f : SysR, i = .ctxswRestore f ∨ i = .ctxswStop f → decodeSlot c w l0 l1 = .ok (.ctxswSave f)) ∧
    (c.bytes = 4 → w.toNat < 2 ^ 32)

/-- R97 to R101: the same of the graph words with the words that follow them, and the first word tells how many follow. -/
def Obligations.GraphRoundTrip : Prop :=
  ∀ (i : Instr) (w : BitVec 64) (trail : List (BitVec 64)), encode i = some (.egb w trail) → i.wf = true →
    decodeEgb w trail = some i ∧ egbTrail w = trail.length ∧ (w.extractLsb' 56 8 = 2 → unusedRefsClear (w.extractLsb' 41 5).toNat trail = true)

/-- Words that the manual writes out, and words it turns away: each decodes to the instruction it stands for. -/
def Obligations.DecodeWords : Prop :=
  Reads .sa 0x2E0C223C (.bfxi { d := 3, a := 2, wid := 8, ofs := 60 }) ∧
  Reads .sa 0x3A1C7100 (.tfill { d := 7, a := 7, e := false, b := 8, f := false }) ∧
  Reads .sa 0x010C1040 (.add { d := 3, a := 1, e := false, b := 2, f := false, u := false, w := false }) ∧
  Reads .vx 0xB168000005284188 (.vfma { zeroV with typ := 0xB, pen := true, pg := 3, rpt := 1, vd := 10, va := 4, vb := 6, vc := 8 }) ∧
  Reads .mx 0x08495000 (.mma { zeroM with acc := 1, oa := 2, ob := 5, nb := true }) ∧
  Reads .mx 0x1E0FD00009400000 (.drain { zeroM with mfmt := 1, rz := true, sat := true, rq := 2, scale := 0xFD, acc := 1 }) ∧
  Reads .ms 0x000200000310A018 (.st { zeroMem with disp := 2, dr := 4, base := 10, sz := 3 }) ∧
  Reads .ms 0x00025800010CA2D2 (.ld { zeroMem with disp := 2, ord := 1, scope := 3, dr := 3, base := 10, idx := 11, sz := 2, sh := 2 }) ∧
  Reads .ms 0x0000E0002814A018 (.atadd { zeroMem with ord := 3, scope := 4, dr := 5, base := 10, sz := 3 }) ∧
  Reads .ms 0x161CC000 (.stlook { zeroMem with dr := 7, base := 12 }) ∧
  Reads .ms 0x19014020 (.sdset { zeroMem with base := 20, sz := 4 }) ∧
  Reads .cp 0x0000802002400280 (.cpyr { zeroCp with acw := true, le := true, stg := 2, lc := 5 }) ∧
  Reads .cp 0x1020004E (.sluice { zeroCp with stg := 1, fe := true, fl := 7 }) ∧
  Reads .sy 0x01033000 (.fpost 3 12 false) ∧ Reads .sy 0x03051C60 (.fwait 5 7 false 6) ∧ Reads .sy 0x11112480 (.qpop 17 9 8) ∧
  Reads .sy 0x19000008 (.fence 4) ∧ Reads .sy 0x1A020000 (.xfence 0 2) ∧
  Reads .br 0x047A4000 (.br 3 0xD2 false) ∧ Reads .br 0x0C000000 .tret ∧ Reads .br 0x0B000005 (.trap 5) ∧
  Reads .br 0x260C4000 (.ctxswSave { a := 3, b := 4, e := false }) ∧
  decodeSlot .sa 0x33500000 0x08000000 0x00080808 = .ok (.movl 20 0x0008080808000000) ∧
  decodeEgb 0x0108000000080000 [] = some (.block 1 8) ∧
  decodeEgb 0x0208021000000002 [0xC, 3] = some (.op { opid := 0x020, cons := 2, refs := [0x000C], attrs := [3] }) ∧
  decodeEgb 0x0240440000000000 [0x400DC000] = some (.op { opid := 0x101, cons := 0, refs := [0xC000, 0x400D], attrs := [] }) ∧
  decodeEgb 0x1600000000000000 [] = some (.gend { ha := 0, hb := 0, hc := 0, cond := 0, imm := 0 }) ∧
  decodeSlot .sa 0x00000000 0 0 = .unassigned ∧ decodeSlot .br 0xFF000000 0 0 = .unassigned ∧
  decodeSlot .sa 0x010C1044 0 0 = .badOperand (.add { d := 3, a := 1, e := false, b := 2, f := false, u := false, w := false }) ∧
  decodeEgb 0xFF00000000000000 [] = none

namespace Sys2Proof.Machine

/-- The group of one slot n with word w, decoded to i, issues from s, before which its bytes are read: its checkpoint (`must`: the one
that a device register asks for), then `exec` of i on the state before the slots, whose answer is t; then the end of the group, or its
stop, which leaves r (R76, R435). -/
def GroupRuns (s : State) (n : Nat) (w : BitVec 64) (i : Instr) (must : Bool) (t r : State) : Prop :=
  let g := [soloBundle n w]
  s.unitBusy [i] = false ∧ (must = true ∨ once i = true → s.mmaFirst [i] = false) ∧
  ∃ base, s.groupCheckpoint g [i] must false = some base ∧ base.preemptNow = none ∧ base.limitPassed = none ∧
    let before : State := { base with groupCore := base.core, groupDie := base.dieAt (dieOf base.cur) }
    exec i (before.upd fun c => { c with slot := n, bpc := base.core.gpc }) = .next t ∧
    r = match t.core.sig with
      | some e => ((if e.forces then s.groupCheckpoint g [i] must true else none).getD base).endStopped e
      | none => match t.leavesHeld with
        | some e => base.endStopped e
        | none => t.endGroup g [⟨n, w, 0, 0⟩]

end Sys2Proof.Machine

/-- R41, R71, R75 to R77, R101, R474: a step runs what the bytes at the program counter decode to: `step` is `exec` of it, with the end of
its group, or its stop, around it (a group that reaches a device register is tried again behind a checkpoint), once the matrix engine has
done what is due; a turn of an event is `exec` of the event, or waits for its place in the cycle. Slots behind a fence of their group
execute once it is passed (log 79, the model's choice). -/
def Obligations.StepRunsDecoded : Prop :=
  ∀ (s : State) (rest : List Turn),
    (∀ u, s.turns = .issue u :: rest → unitExists u = true → isCompute u = true ∨ isControl u = true → (s.coreAt u).notBefore ≤ s.now →
      let due : State := { State.engineDue { s with turns := rest } u with cur := u }
      let s0 := due.upd fun c => c.arrive due.now
      due.core.run = .running → s0.core.after = [] → s0.core.stopReq = 0 → s0.preemptBetween = none →
      let s1 := s0.beginGroup
      let done (r : State) : State := (if r.core.stagingFits then r else s1.endStopped (.wait .trace false false)).issued u
      ∀ (n : Nat) (w : BitVec 64) (line more : List Byte) (s2 : State) (i : Instr), n < 8 → (isControl u = true → n ≠ 2 ∧ n ≠ 3) →
        s1.fetchBlock s1.core.pc = .ok (line, s2) →
        line.drop (s1.core.pc % 64) = toBytes 4 (0xA0100000 + 2 ^ n) ++ toBytes (slotClass false n).bytes w.toNat ++ more →
        w.toNat < 256 ^ (slotClass false n).bytes → (slotClass false n).lits (w.toNat / 2 ^ 24 % 256) = 0 → decodeSlot (slotClass false n) w 0 0 = .ok i →
        let placed := s2.placeGroup [soloBundle n w]
        let s3 := placed.upd fun c => { c with redirected := false }
        (placed.lineBubble = true → step s = .next (done placed.later)) ∧
        (placed.lineBubble = false → Sys2Proof.Machine.guard i (s3.upd fun c => { c with slot := n }) = .ok () → destsClear [.ok i] = true →
          ∀ t r, GroupRuns s3 n w i false t r →
            (r.core.sig ≠ some .checkpoint ∨ r.core.holding = false → step s = .next (done r)) ∧
            (r.core.sig = some .checkpoint → r.core.holding = true → ∀ t' r', GroupRuns s3 n w i true t' r' → step s = .next (done r')))) ∧
    (∀ d c, s.turns = .issue (d * 128 + 96 + c) :: rest → dieExists d = true → c < 4 → (s.coreAt (d * 128 + 96 + c)).notBefore ≤ s.now →
      let u := d * 128 + 96 + c
      let s1 : State := { State.engineDue { s with turns := rest } u with cur := u }
      let x := s1.ctxAt d c
      x.st = .running → x.pre = .none → x.stopping = false → x.pc % 8 = 0 →
      ∀ w ts i, s1.egbWord d c = .ok (w, ts) → decodeEgb w ts = some i → wordRefsClear w ts = true → flipComes s1 i = false →
        ∀ t, exec i s1 = .next t → step s = .next (t.issued u)) ∧
    (∀ i a, s.turns = .event i a :: rest → isEvent i = true → ∀ t, exec i { s with turns := rest, ev := a, cur := a.u } = .next t →
      let s1 : State := { s with turns := rest }
      let later : Prop := s1.targetIssues i a = true ∨ (reaches i = true ∧ s1.comesLater t = true)
      ((i = .qpushArrival → ∀ x ∈ s.pushes, x.id ≠ a.u) →
        (¬later → (∀ p ∈ t.cores, p.2.stagingFits = true) → step s = .next { t with tried := [] }) ∧
        (later ∨ (∃ p ∈ t.cores, p.2.stagingFits = false) → step s = .next { s1 with tried := [] })) ∧
      ∀ x, i = .qpushArrival → (s.pushes.find? fun y => decide (y.id = a.u)) = some x →
        (s.now ≤ x.sentAt ∨ s.yetToIssue x.dst = true → step s = .next { s1 with tried := [] }) ∧
        (x.sentAt < s.now → s.yetToIssue x.dst = false → (t.coreAt x.src).push ≠ .applied → step s = .next { t with tried := [] })) ∧
    (∀ gpc g w i l t, s.core.after.any After.fences = false ∨ accesses w.slot i = false →
      exec i (s.upd fun c => { c with slot := w.slot, bpc := bundleAddr gpc g w.slot }) = .next t →
      (t.core.sig = none → runSlots gpc g s ((w, i) :: l) = runSlots gpc g t l) ∧
      (∀ e, t.core.sig = some e → e.deferred = false → runSlots gpc g s ((w, i) :: l) = .next t)) ∧
    (∀ gpc g w i l t, s.core.after.any After.fences = true → accesses w.slot i = true →
      exec i (s.prior.upd fun c => { c with slot := w.slot, bpc := bundleAddr gpc g w.slot, sig := none }) = .next t →
      let r := s.leave (.late w.slot (bundleAddr gpc g w.slot) i)
      (t.core.sig = none → r.core.sig = none → runSlots gpc g s ((w, i) :: l) = runSlots gpc g r l) ∧
      (∀ e, t.core.sig = some e → e.ofData = false → e.deferred = false →
        runSlots gpc g s ((w, i) :: l) = .next (s.upd fun c => { c with sig := some e })))

/-- R4, R23: every step keeps the canonical form of the memory. -/
def Obligations.StepKeepsMemory : Prop :=
  ∀ s t : State, s.memOk = true → step s = .next t → t.memOk = true

/-- R7 and the Reset columns of R115, R196, R201, R206 to R211, R332 to R335, R418, R421, R429, R431, R463, R467 and R469: what reset leaves.
By the model's choice the general registers read zero (log 3), the memory reads zero (log 4), and one
package, number 0, is present (log 5). -/
def Obligations.ResetState : Prop :=
  let s := State.reset
  s.memOk = true ∧ (∀ a, Memory.read s.mem a = 0) ∧ s.packages = [0] ∧ s.now = 0 ∧ s.turns = [] ∧ s.insts = [] ∧ s.offlineStacks = [] ∧
  (∀ u, let c := s.coreAt u
    c.id = u ∧ c.run = .idle ∧ c.tlevel = 0 ∧ c.tvec1 = 0 ∧ c.tvec2 = 0 ∧ c.tscratch = 0 ∧ c.records = [0, 0, 0, 0, 0, 0] ∧ c.spv = 0 ∧
    c.irqPend = 0 ∧ c.irqMask = 0 ∧ c.ptBase = 0 ∧ c.traceCtl = 0 ∧ c.traceW = 0 ∧ c.cctl = 0 ∧ c.wb = [] ∧ c.loads = [] ∧ c.resume = [] ∧
    c.tlb = [] ∧ c.l1 = [] ∧ c.live.fp = 0 ∧ c.live.ct = 0 ∧ c.live.exposed = false ∧ c.mxq = [] ∧ c.task = none ∧
    (∀ k, (c.tag k).st = .free ∧ (c.live.sReg k).val = 0 ∧ (c.live.sReg k).full = true ∧ (c.live.vReg k).val = 0 ∧ (c.live.pReg k).val = 0 ∧
      (c.live.bReg k).val = 0 ∧ (Tbl.getD c.live.sd k {}).val = 0 ∧ (Tbl.getD c.live.ck k {}).val = 0 ∧ (Tbl.getD c.live.cl k {}).val = 0 ∧
      Tbl.getD c.pmc k 0 = 0 ∧ Tbl.getD c.pmsel k 0 = 0 ∧ Tbl.get? c.grans k = none ∧ Tbl.get? c.tagTab k = none ∧ Tbl.get? c.live.latch k = none)) ∧
  (∀ d, let x := s.dieAt d
    x.refused = false ∧ x.drain = false ∧ x.offline = false ∧ x.eclass = 0 ∧ x.hwin = 0 ∧ x.eth = {} ∧ x.l2tlb = [] ∧ x.sweeps = [] ∧ x.copyq = [] ∧
    s.gstat d = 0 ∧ (∀ c, let y := s.ctxAt d c
      y.st = .free ∧ y.patch = false ∧ y.actgen = false ∧ y.done = false ∧ y.fault = false ∧ y.recA = 0 ∧ y.recB = 0 ∧ y.handles = []))
end

