-- ==== Sys2Proof/Laws/Tbl.lean ====
section
/-! SUPPORT. Reading a table after a write. -/

namespace Sys2Proof.Machine

variable {α : Type}

@[simp] theorem Tbl.get?_set_same (t : Tbl α) (k : Nat) (v : α) : Tbl.get? (Tbl.set t k v) k = some v := by
  induction t with
  | nil => simp [Tbl.set, Tbl.get?]
  | cons p t ih =>
    obtain ⟨k', v'⟩ := p
    unfold Tbl.set
    split
    · simp [Tbl.get?]
    · split
      · simp [Tbl.get?]
      · simp_all [Tbl.get?]

theorem Tbl.get?_set_ne (t : Tbl α) {j k : Nat} (v : α) (h : j ≠ k) : Tbl.get? (Tbl.set t k v) j = Tbl.get? t j := by
  induction t with
  | nil => simp [Tbl.set, Tbl.get?, h.symm]
  | cons p t ih =>
    obtain ⟨k', v'⟩ := p
    unfold Tbl.set
    split
    · next e => subst e; simp [Tbl.get?, h.symm]
    · split
      · simp [Tbl.get?, h.symm]
      · simp [Tbl.get?, ih]

theorem Tbl.get?_set (t : Tbl α) (j k : Nat) (v : α) : Tbl.get? (Tbl.set t k v) j = if j = k then some v else Tbl.get? t j := by
  split
  · next e => subst e; simp
  · next e => exact Tbl.get?_set_ne t v e

@[simp] theorem Tbl.getD_set_same (t : Tbl α) (k : Nat) (v d : α) : Tbl.getD (Tbl.set t k v) k d = v := by
  simp [Tbl.getD]

theorem Tbl.getD_set_ne (t : Tbl α) {j k : Nat} (v d : α) (h : j ≠ k) : Tbl.getD (Tbl.set t k v) j d = Tbl.getD t j d := by
  simp [Tbl.getD, Tbl.get?_set_ne t v h]

theorem Tbl.getD_set (t : Tbl α) (j k : Nat) (v d : α) : Tbl.getD (Tbl.set t k v) j d = if j = k then v else Tbl.getD t j d := by
  split
  · next e => subst e; simp
  · next e => exact Tbl.getD_set_ne t v d e

/-- Writing a number twice is writing it once. -/
@[simp] theorem Tbl.set_set (t : Tbl α) (k : Nat) (v w : α) : Tbl.set (Tbl.set t k v) k w = Tbl.set t k w := by
  induction t with
  | nil => simp [Tbl.set]
  | cons p t ih =>
    obtain ⟨k', v'⟩ := p
    by_cases h : k' = k
    · subst h; simp [Tbl.set]
    · by_cases h2 : k < k'
      · simp [Tbl.set, h, h2]
      · simp [Tbl.set, h, h2, ih]

end Sys2Proof.Machine
end

