-- ==== Sys2Proof/Laws/State.lean ====
section
/-! SUPPORT. What each update of the state leaves as it was, field by field, and what a unit, a die and a context read as after one. -/

namespace Sys2Proof.Machine

variable (s : State)

/-! ## setCoreAt -/

@[simp] theorem State.setCoreAt_dies (u : Nat) (c : Core) : (s.setCoreAt u c).dies = s.dies := rfl
@[simp] theorem State.setCoreAt_mem (u : Nat) (c : Core) : (s.setCoreAt u c).mem = s.mem := rfl
@[simp] theorem State.setCoreAt_cur (u : Nat) (c : Core) : (s.setCoreAt u c).cur = s.cur := rfl
@[simp] theorem State.setCoreAt_groupCore (u : Nat) (c : Core) : (s.setCoreAt u c).groupCore = s.groupCore := rfl
@[simp] theorem State.setCoreAt_groupDie (u : Nat) (c : Core) : (s.setCoreAt u c).groupDie = s.groupDie := rfl
@[simp] theorem State.setCoreAt_ev (u : Nat) (c : Core) : (s.setCoreAt u c).ev = s.ev := rfl
@[simp] theorem State.setCoreAt_now (u : Nat) (c : Core) : (s.setCoreAt u c).now = s.now := rfl
@[simp] theorem State.setCoreAt_turns (u : Nat) (c : Core) : (s.setCoreAt u c).turns = s.turns := rfl
@[simp] theorem State.setCoreAt_tried (u : Nat) (c : Core) : (s.setCoreAt u c).tried = s.tried := rfl
@[simp] theorem State.setCoreAt_insts (u : Nat) (c : Core) : (s.setCoreAt u c).insts = s.insts := rfl
@[simp] theorem State.setCoreAt_ended (u : Nat) (c : Core) : (s.setCoreAt u c).ended = s.ended := rfl
@[simp] theorem State.setCoreAt_memberEnds (u : Nat) (c : Core) : (s.setCoreAt u c).memberEnds = s.memberEnds := rfl
@[simp] theorem State.setCoreAt_agreed (u : Nat) (c : Core) : (s.setCoreAt u c).agreed = s.agreed := rfl
@[simp] theorem State.setCoreAt_nextInst (u : Nat) (c : Core) : (s.setCoreAt u c).nextInst = s.nextInst := rfl
@[simp] theorem State.setCoreAt_posts (u : Nat) (c : Core) : (s.setCoreAt u c).posts = s.posts := rfl
@[simp] theorem State.setCoreAt_pushes (u : Nat) (c : Core) : (s.setCoreAt u c).pushes = s.pushes := rfl
@[simp] theorem State.setCoreAt_units (u : Nat) (c : Core) : (s.setCoreAt u c).units = s.units := rfl
@[simp] theorem State.setCoreAt_late (u : Nat) (c : Core) : (s.setCoreAt u c).late = s.late := rfl
@[simp] theorem State.setCoreAt_shoots (u : Nat) (c : Core) : (s.setCoreAt u c).shoots = s.shoots := rfl
@[simp] theorem State.setCoreAt_nextNet (u : Nat) (c : Core) : (s.setCoreAt u c).nextNet = s.nextNet := rfl
@[simp] theorem State.setCoreAt_packages (u : Nat) (c : Core) : (s.setCoreAt u c).packages = s.packages := rfl
@[simp] theorem State.setCoreAt_fabric (u : Nat) (c : Core) : (s.setCoreAt u c).fabric = s.fabric := rfl
@[simp] theorem State.setCoreAt_offlineStacks (u : Nat) (c : Core) : (s.setCoreAt u c).offlineStacks = s.offlineStacks := rfl
@[simp] theorem State.setCoreAt_offlineLinks (u : Nat) (c : Core) : (s.setCoreAt u c).offlineLinks = s.offlineLinks := rfl
@[simp] theorem State.setCoreAt_retries (u : Nat) (c : Core) : (s.setCoreAt u c).retries = s.retries := rfl
@[simp] theorem State.setCoreAt_spared (u : Nat) (c : Core) : (s.setCoreAt u c).spared = s.spared := rfl
@[simp] theorem State.setCoreAt_poison (u : Nat) (c : Core) : (s.setCoreAt u c).poison = s.poison := rfl
@[simp] theorem State.setCoreAt_flash (u : Nat) (c : Core) : (s.setCoreAt u c).flash = s.flash := rfl
@[simp] theorem State.setCoreAt_image (u : Nat) (c : Core) : (s.setCoreAt u c).image = s.image := rfl
@[simp] theorem State.setCoreAt_coreImage (u : Nat) (c : Core) : (s.setCoreAt u c).coreImage = s.coreImage := rfl
@[simp] theorem State.setCoreAt_replace (u : Nat) (c : Core) : (s.setCoreAt u c).replace = s.replace := rfl
@[simp] theorem State.setCoreAt_answers (u : Nat) (c : Core) : (s.setCoreAt u c).answers = s.answers := rfl
@[simp] theorem State.setCoreAt_bootFailed (u : Nat) (c : Core) : (s.setCoreAt u c).bootFailed = s.bootFailed := rfl
@[simp] theorem State.setCoreAt_msix (u : Nat) (c : Core) : (s.setCoreAt u c).msix = s.msix := rfl
@[simp] theorem State.setCoreAt_hostReads (u : Nat) (c : Core) : (s.setCoreAt u c).hostReads = s.hostReads := rfl
@[simp] theorem State.setCoreAt_seq (u : Nat) (c : Core) : (s.setCoreAt u c).seq = s.seq := rfl
@[simp] theorem State.setCoreAt_free (u : Nat) (c : Core) : (s.setCoreAt u c).free = s.free := rfl

/-! ## updAt -/

@[simp] theorem State.updAt_dies (u : Nat) (f : Core → Core) : (s.updAt u f).dies = s.dies := rfl
@[simp] theorem State.updAt_mem (u : Nat) (f : Core → Core) : (s.updAt u f).mem = s.mem := rfl
@[simp] theorem State.updAt_cur (u : Nat) (f : Core → Core) : (s.updAt u f).cur = s.cur := rfl
@[simp] theorem State.updAt_groupCore (u : Nat) (f : Core → Core) : (s.updAt u f).groupCore = s.groupCore := rfl
@[simp] theorem State.updAt_groupDie (u : Nat) (f : Core → Core) : (s.updAt u f).groupDie = s.groupDie := rfl
@[simp] theorem State.updAt_ev (u : Nat) (f : Core → Core) : (s.updAt u f).ev = s.ev := rfl
@[simp] theorem State.updAt_now (u : Nat) (f : Core → Core) : (s.updAt u f).now = s.now := rfl
@[simp] theorem State.updAt_turns (u : Nat) (f : Core → Core) : (s.updAt u f).turns = s.turns := rfl
@[simp] theorem State.updAt_tried (u : Nat) (f : Core → Core) : (s.updAt u f).tried = s.tried := rfl
@[simp] theorem State.updAt_insts (u : Nat) (f : Core → Core) : (s.updAt u f).insts = s.insts := rfl
@[simp] theorem State.updAt_ended (u : Nat) (f : Core → Core) : (s.updAt u f).ended = s.ended := rfl
@[simp] theorem State.updAt_memberEnds (u : Nat) (f : Core → Core) : (s.updAt u f).memberEnds = s.memberEnds := rfl
@[simp] theorem State.updAt_agreed (u : Nat) (f : Core → Core) : (s.updAt u f).agreed = s.agreed := rfl
@[simp] theorem State.updAt_nextInst (u : Nat) (f : Core → Core) : (s.updAt u f).nextInst = s.nextInst := rfl
@[simp] theorem State.updAt_posts (u : Nat) (f : Core → Core) : (s.updAt u f).posts = s.posts := rfl
@[simp] theorem State.updAt_pushes (u : Nat) (f : Core → Core) : (s.updAt u f).pushes = s.pushes := rfl
@[simp] theorem State.updAt_units (u : Nat) (f : Core → Core) : (s.updAt u f).units = s.units := rfl
@[simp] theorem State.updAt_late (u : Nat) (f : Core → Core) : (s.updAt u f).late = s.late := rfl
@[simp] theorem State.updAt_shoots (u : Nat) (f : Core → Core) : (s.updAt u f).shoots = s.shoots := rfl
@[simp] theorem State.updAt_nextNet (u : Nat) (f : Core → Core) : (s.updAt u f).nextNet = s.nextNet := rfl
@[simp] theorem State.updAt_packages (u : Nat) (f : Core → Core) : (s.updAt u f).packages = s.packages := rfl
@[simp] theorem State.updAt_fabric (u : Nat) (f : Core → Core) : (s.updAt u f).fabric = s.fabric := rfl
@[simp] theorem State.updAt_offlineStacks (u : Nat) (f : Core → Core) : (s.updAt u f).offlineStacks = s.offlineStacks := rfl
@[simp] theorem State.updAt_offlineLinks (u : Nat) (f : Core → Core) : (s.updAt u f).offlineLinks = s.offlineLinks := rfl
@[simp] theorem State.updAt_retries (u : Nat) (f : Core → Core) : (s.updAt u f).retries = s.retries := rfl
@[simp] theorem State.updAt_spared (u : Nat) (f : Core → Core) : (s.updAt u f).spared = s.spared := rfl
@[simp] theorem State.updAt_poison (u : Nat) (f : Core → Core) : (s.updAt u f).poison = s.poison := rfl
@[simp] theorem State.updAt_flash (u : Nat) (f : Core → Core) : (s.updAt u f).flash = s.flash := rfl
@[simp] theorem State.updAt_image (u : Nat) (f : Core → Core) : (s.updAt u f).image = s.image := rfl
@[simp] theorem State.updAt_coreImage (u : Nat) (f : Core → Core) : (s.updAt u f).coreImage = s.coreImage := rfl
@[simp] theorem State.updAt_replace (u : Nat) (f : Core → Core) : (s.updAt u f).replace = s.replace := rfl
@[simp] theorem State.updAt_answers (u : Nat) (f : Core → Core) : (s.updAt u f).answers = s.answers := rfl
@[simp] theorem State.updAt_bootFailed (u : Nat) (f : Core → Core) : (s.updAt u f).bootFailed = s.bootFailed := rfl
@[simp] theorem State.updAt_msix (u : Nat) (f : Core → Core) : (s.updAt u f).msix = s.msix := rfl
@[simp] theorem State.updAt_hostReads (u : Nat) (f : Core → Core) : (s.updAt u f).hostReads = s.hostReads := rfl
@[simp] theorem State.updAt_seq (u : Nat) (f : Core → Core) : (s.updAt u f).seq = s.seq := rfl
@[simp] theorem State.updAt_free (u : Nat) (f : Core → Core) : (s.updAt u f).free = s.free := rfl

/-! ## upd -/

@[simp] theorem State.upd_dies (f : Core → Core) : (s.upd f).dies = s.dies := rfl
@[simp] theorem State.upd_mem (f : Core → Core) : (s.upd f).mem = s.mem := rfl
@[simp] theorem State.upd_cur (f : Core → Core) : (s.upd f).cur = s.cur := rfl
@[simp] theorem State.upd_groupCore (f : Core → Core) : (s.upd f).groupCore = s.groupCore := rfl
@[simp] theorem State.upd_groupDie (f : Core → Core) : (s.upd f).groupDie = s.groupDie := rfl
@[simp] theorem State.upd_ev (f : Core → Core) : (s.upd f).ev = s.ev := rfl
@[simp] theorem State.upd_now (f : Core → Core) : (s.upd f).now = s.now := rfl
@[simp] theorem State.upd_turns (f : Core → Core) : (s.upd f).turns = s.turns := rfl
@[simp] theorem State.upd_tried (f : Core → Core) : (s.upd f).tried = s.tried := rfl
@[simp] theorem State.upd_insts (f : Core → Core) : (s.upd f).insts = s.insts := rfl
@[simp] theorem State.upd_ended (f : Core → Core) : (s.upd f).ended = s.ended := rfl
@[simp] theorem State.upd_memberEnds (f : Core → Core) : (s.upd f).memberEnds = s.memberEnds := rfl
@[simp] theorem State.upd_agreed (f : Core → Core) : (s.upd f).agreed = s.agreed := rfl
@[simp] theorem State.upd_nextInst (f : Core → Core) : (s.upd f).nextInst = s.nextInst := rfl
@[simp] theorem State.upd_posts (f : Core → Core) : (s.upd f).posts = s.posts := rfl
@[simp] theorem State.upd_pushes (f : Core → Core) : (s.upd f).pushes = s.pushes := rfl
@[simp] theorem State.upd_units (f : Core → Core) : (s.upd f).units = s.units := rfl
@[simp] theorem State.upd_late (f : Core → Core) : (s.upd f).late = s.late := rfl
@[simp] theorem State.upd_shoots (f : Core → Core) : (s.upd f).shoots = s.shoots := rfl
@[simp] theorem State.upd_nextNet (f : Core → Core) : (s.upd f).nextNet = s.nextNet := rfl
@[simp] theorem State.upd_packages (f : Core → Core) : (s.upd f).packages = s.packages := rfl
@[simp] theorem State.upd_fabric (f : Core → Core) : (s.upd f).fabric = s.fabric := rfl
@[simp] theorem State.upd_offlineStacks (f : Core → Core) : (s.upd f).offlineStacks = s.offlineStacks := rfl
@[simp] theorem State.upd_offlineLinks (f : Core → Core) : (s.upd f).offlineLinks = s.offlineLinks := rfl
@[simp] theorem State.upd_retries (f : Core → Core) : (s.upd f).retries = s.retries := rfl
@[simp] theorem State.upd_spared (f : Core → Core) : (s.upd f).spared = s.spared := rfl
@[simp] theorem State.upd_poison (f : Core → Core) : (s.upd f).poison = s.poison := rfl
@[simp] theorem State.upd_flash (f : Core → Core) : (s.upd f).flash = s.flash := rfl
@[simp] theorem State.upd_image (f : Core → Core) : (s.upd f).image = s.image := rfl
@[simp] theorem State.upd_coreImage (f : Core → Core) : (s.upd f).coreImage = s.coreImage := rfl
@[simp] theorem State.upd_replace (f : Core → Core) : (s.upd f).replace = s.replace := rfl
@[simp] theorem State.upd_answers (f : Core → Core) : (s.upd f).answers = s.answers := rfl
@[simp] theorem State.upd_bootFailed (f : Core → Core) : (s.upd f).bootFailed = s.bootFailed := rfl
@[simp] theorem State.upd_msix (f : Core → Core) : (s.upd f).msix = s.msix := rfl
@[simp] theorem State.upd_hostReads (f : Core → Core) : (s.upd f).hostReads = s.hostReads := rfl
@[simp] theorem State.upd_seq (f : Core → Core) : (s.upd f).seq = s.seq := rfl
@[simp] theorem State.upd_free (f : Core → Core) : (s.upd f).free = s.free := rfl

/-! ## live -/

@[simp] theorem State.live_dies (f : Regs → Regs) : (s.live f).dies = s.dies := rfl
@[simp] theorem State.live_mem (f : Regs → Regs) : (s.live f).mem = s.mem := rfl
@[simp] theorem State.live_cur (f : Regs → Regs) : (s.live f).cur = s.cur := rfl
@[simp] theorem State.live_groupCore (f : Regs → Regs) : (s.live f).groupCore = s.groupCore := rfl
@[simp] theorem State.live_groupDie (f : Regs → Regs) : (s.live f).groupDie = s.groupDie := rfl
@[simp] theorem State.live_ev (f : Regs → Regs) : (s.live f).ev = s.ev := rfl
@[simp] theorem State.live_now (f : Regs → Regs) : (s.live f).now = s.now := rfl
@[simp] theorem State.live_turns (f : Regs → Regs) : (s.live f).turns = s.turns := rfl
@[simp] theorem State.live_tried (f : Regs → Regs) : (s.live f).tried = s.tried := rfl
@[simp] theorem State.live_insts (f : Regs → Regs) : (s.live f).insts = s.insts := rfl
@[simp] theorem State.live_ended (f : Regs → Regs) : (s.live f).ended = s.ended := rfl
@[simp] theorem State.live_memberEnds (f : Regs → Regs) : (s.live f).memberEnds = s.memberEnds := rfl
@[simp] theorem State.live_agreed (f : Regs → Regs) : (s.live f).agreed = s.agreed := rfl
@[simp] theorem State.live_nextInst (f : Regs → Regs) : (s.live f).nextInst = s.nextInst := rfl
@[simp] theorem State.live_posts (f : Regs → Regs) : (s.live f).posts = s.posts := rfl
@[simp] theorem State.live_pushes (f : Regs → Regs) : (s.live f).pushes = s.pushes := rfl
@[simp] theorem State.live_units (f : Regs → Regs) : (s.live f).units = s.units := rfl
@[simp] theorem State.live_late (f : Regs → Regs) : (s.live f).late = s.late := rfl
@[simp] theorem State.live_shoots (f : Regs → Regs) : (s.live f).shoots = s.shoots := rfl
@[simp] theorem State.live_nextNet (f : Regs → Regs) : (s.live f).nextNet = s.nextNet := rfl
@[simp] theorem State.live_packages (f : Regs → Regs) : (s.live f).packages = s.packages := rfl
@[simp] theorem State.live_fabric (f : Regs → Regs) : (s.live f).fabric = s.fabric := rfl
@[simp] theorem State.live_offlineStacks (f : Regs → Regs) : (s.live f).offlineStacks = s.offlineStacks := rfl
@[simp] theorem State.live_offlineLinks (f : Regs → Regs) : (s.live f).offlineLinks = s.offlineLinks := rfl
@[simp] theorem State.live_retries (f : Regs → Regs) : (s.live f).retries = s.retries := rfl
@[simp] theorem State.live_spared (f : Regs → Regs) : (s.live f).spared = s.spared := rfl
@[simp] theorem State.live_poison (f : Regs → Regs) : (s.live f).poison = s.poison := rfl
@[simp] theorem State.live_flash (f : Regs → Regs) : (s.live f).flash = s.flash := rfl
@[simp] theorem State.live_image (f : Regs → Regs) : (s.live f).image = s.image := rfl
@[simp] theorem State.live_coreImage (f : Regs → Regs) : (s.live f).coreImage = s.coreImage := rfl
@[simp] theorem State.live_replace (f : Regs → Regs) : (s.live f).replace = s.replace := rfl
@[simp] theorem State.live_answers (f : Regs → Regs) : (s.live f).answers = s.answers := rfl
@[simp] theorem State.live_bootFailed (f : Regs → Regs) : (s.live f).bootFailed = s.bootFailed := rfl
@[simp] theorem State.live_msix (f : Regs → Regs) : (s.live f).msix = s.msix := rfl
@[simp] theorem State.live_hostReads (f : Regs → Regs) : (s.live f).hostReads = s.hostReads := rfl
@[simp] theorem State.live_seq (f : Regs → Regs) : (s.live f).seq = s.seq := rfl
@[simp] theorem State.live_free (f : Regs → Regs) : (s.live f).free = s.free := rfl

/-! ## updDie -/

@[simp] theorem State.updDie_cores (d : Nat) (f : Die → Die) : (s.updDie d f).cores = s.cores := rfl
@[simp] theorem State.updDie_mem (d : Nat) (f : Die → Die) : (s.updDie d f).mem = s.mem := rfl
@[simp] theorem State.updDie_cur (d : Nat) (f : Die → Die) : (s.updDie d f).cur = s.cur := rfl
@[simp] theorem State.updDie_groupCore (d : Nat) (f : Die → Die) : (s.updDie d f).groupCore = s.groupCore := rfl
@[simp] theorem State.updDie_groupDie (d : Nat) (f : Die → Die) : (s.updDie d f).groupDie = s.groupDie := rfl
@[simp] theorem State.updDie_ev (d : Nat) (f : Die → Die) : (s.updDie d f).ev = s.ev := rfl
@[simp] theorem State.updDie_now (d : Nat) (f : Die → Die) : (s.updDie d f).now = s.now := rfl
@[simp] theorem State.updDie_turns (d : Nat) (f : Die → Die) : (s.updDie d f).turns = s.turns := rfl
@[simp] theorem State.updDie_tried (d : Nat) (f : Die → Die) : (s.updDie d f).tried = s.tried := rfl
@[simp] theorem State.updDie_insts (d : Nat) (f : Die → Die) : (s.updDie d f).insts = s.insts := rfl
@[simp] theorem State.updDie_ended (d : Nat) (f : Die → Die) : (s.updDie d f).ended = s.ended := rfl
@[simp] theorem State.updDie_memberEnds (d : Nat) (f : Die → Die) : (s.updDie d f).memberEnds = s.memberEnds := rfl
@[simp] theorem State.updDie_agreed (d : Nat) (f : Die → Die) : (s.updDie d f).agreed = s.agreed := rfl
@[simp] theorem State.updDie_nextInst (d : Nat) (f : Die → Die) : (s.updDie d f).nextInst = s.nextInst := rfl
@[simp] theorem State.updDie_posts (d : Nat) (f : Die → Die) : (s.updDie d f).posts = s.posts := rfl
@[simp] theorem State.updDie_pushes (d : Nat) (f : Die → Die) : (s.updDie d f).pushes = s.pushes := rfl
@[simp] theorem State.updDie_units (d : Nat) (f : Die → Die) : (s.updDie d f).units = s.units := rfl
@[simp] theorem State.updDie_late (d : Nat) (f : Die → Die) : (s.updDie d f).late = s.late := rfl
@[simp] theorem State.updDie_shoots (d : Nat) (f : Die → Die) : (s.updDie d f).shoots = s.shoots := rfl
@[simp] theorem State.updDie_nextNet (d : Nat) (f : Die → Die) : (s.updDie d f).nextNet = s.nextNet := rfl
@[simp] theorem State.updDie_packages (d : Nat) (f : Die → Die) : (s.updDie d f).packages = s.packages := rfl
@[simp] theorem State.updDie_fabric (d : Nat) (f : Die → Die) : (s.updDie d f).fabric = s.fabric := rfl
@[simp] theorem State.updDie_offlineStacks (d : Nat) (f : Die → Die) : (s.updDie d f).offlineStacks = s.offlineStacks := rfl
@[simp] theorem State.updDie_offlineLinks (d : Nat) (f : Die → Die) : (s.updDie d f).offlineLinks = s.offlineLinks := rfl
@[simp] theorem State.updDie_retries (d : Nat) (f : Die → Die) : (s.updDie d f).retries = s.retries := rfl
@[simp] theorem State.updDie_spared (d : Nat) (f : Die → Die) : (s.updDie d f).spared = s.spared := rfl
@[simp] theorem State.updDie_poison (d : Nat) (f : Die → Die) : (s.updDie d f).poison = s.poison := rfl
@[simp] theorem State.updDie_flash (d : Nat) (f : Die → Die) : (s.updDie d f).flash = s.flash := rfl
@[simp] theorem State.updDie_image (d : Nat) (f : Die → Die) : (s.updDie d f).image = s.image := rfl
@[simp] theorem State.updDie_coreImage (d : Nat) (f : Die → Die) : (s.updDie d f).coreImage = s.coreImage := rfl
@[simp] theorem State.updDie_replace (d : Nat) (f : Die → Die) : (s.updDie d f).replace = s.replace := rfl
@[simp] theorem State.updDie_answers (d : Nat) (f : Die → Die) : (s.updDie d f).answers = s.answers := rfl
@[simp] theorem State.updDie_bootFailed (d : Nat) (f : Die → Die) : (s.updDie d f).bootFailed = s.bootFailed := rfl
@[simp] theorem State.updDie_msix (d : Nat) (f : Die → Die) : (s.updDie d f).msix = s.msix := rfl
@[simp] theorem State.updDie_hostReads (d : Nat) (f : Die → Die) : (s.updDie d f).hostReads = s.hostReads := rfl
@[simp] theorem State.updDie_seq (d : Nat) (f : Die → Die) : (s.updDie d f).seq = s.seq := rfl
@[simp] theorem State.updDie_free (d : Nat) (f : Die → Die) : (s.updDie d f).free = s.free := rfl

/-! ## updCtx -/

@[simp] theorem State.updCtx_cores (d c : Nat) (f : Ctx → Ctx) : (s.updCtx d c f).cores = s.cores := rfl
@[simp] theorem State.updCtx_mem (d c : Nat) (f : Ctx → Ctx) : (s.updCtx d c f).mem = s.mem := rfl
@[simp] theorem State.updCtx_cur (d c : Nat) (f : Ctx → Ctx) : (s.updCtx d c f).cur = s.cur := rfl
@[simp] theorem State.updCtx_groupCore (d c : Nat) (f : Ctx → Ctx) : (s.updCtx d c f).groupCore = s.groupCore := rfl
@[simp] theorem State.updCtx_groupDie (d c : Nat) (f : Ctx → Ctx) : (s.updCtx d c f).groupDie = s.groupDie := rfl
@[simp] theorem State.updCtx_ev (d c : Nat) (f : Ctx → Ctx) : (s.updCtx d c f).ev = s.ev := rfl
@[simp] theorem State.updCtx_now (d c : Nat) (f : Ctx → Ctx) : (s.updCtx d c f).now = s.now := rfl
@[simp] theorem State.updCtx_turns (d c : Nat) (f : Ctx → Ctx) : (s.updCtx d c f).turns = s.turns := rfl
@[simp] theorem State.updCtx_tried (d c : Nat) (f : Ctx → Ctx) : (s.updCtx d c f).tried = s.tried := rfl
@[simp] theorem State.updCtx_insts (d c : Nat) (f : Ctx → Ctx) : (s.updCtx d c f).insts = s.insts := rfl
@[simp] theorem State.updCtx_ended (d c : Nat) (f : Ctx → Ctx) : (s.updCtx d c f).ended = s.ended := rfl
@[simp] theorem State.updCtx_memberEnds (d c : Nat) (f : Ctx → Ctx) : (s.updCtx d c f).memberEnds = s.memberEnds := rfl
@[simp] theorem State.updCtx_agreed (d c : Nat) (f : Ctx → Ctx) : (s.updCtx d c f).agreed = s.agreed := rfl
@[simp] theorem State.updCtx_nextInst (d c : Nat) (f : Ctx → Ctx) : (s.updCtx d c f).nextInst = s.nextInst := rfl
@[simp] theorem State.updCtx_posts (d c : Nat) (f : Ctx → Ctx) : (s.updCtx d c f).posts = s.posts := rfl
@[simp] theorem State.updCtx_pushes (d c : Nat) (f : Ctx → Ctx) : (s.updCtx d c f).pushes = s.pushes := rfl
@[simp] theorem State.updCtx_units (d c : Nat) (f : Ctx → Ctx) : (s.updCtx d c f).units = s.units := rfl
@[simp] theorem State.updCtx_late (d c : Nat) (f : Ctx → Ctx) : (s.updCtx d c f).late = s.late := rfl
@[simp] theorem State.updCtx_shoots (d c : Nat) (f : Ctx → Ctx) : (s.updCtx d c f).shoots = s.shoots := rfl
@[simp] theorem State.updCtx_nextNet (d c : Nat) (f : Ctx → Ctx) : (s.updCtx d c f).nextNet = s.nextNet := rfl
@[simp] theorem State.updCtx_packages (d c : Nat) (f : Ctx → Ctx) : (s.updCtx d c f).packages = s.packages := rfl
@[simp] theorem State.updCtx_fabric (d c : Nat) (f : Ctx → Ctx) : (s.updCtx d c f).fabric = s.fabric := rfl
@[simp] theorem State.updCtx_offlineStacks (d c : Nat) (f : Ctx → Ctx) : (s.updCtx d c f).offlineStacks = s.offlineStacks := rfl
@[simp] theorem State.updCtx_offlineLinks (d c : Nat) (f : Ctx → Ctx) : (s.updCtx d c f).offlineLinks = s.offlineLinks := rfl
@[simp] theorem State.updCtx_retries (d c : Nat) (f : Ctx → Ctx) : (s.updCtx d c f).retries = s.retries := rfl
@[simp] theorem State.updCtx_spared (d c : Nat) (f : Ctx → Ctx) : (s.updCtx d c f).spared = s.spared := rfl
@[simp] theorem State.updCtx_poison (d c : Nat) (f : Ctx → Ctx) : (s.updCtx d c f).poison = s.poison := rfl
@[simp] theorem State.updCtx_flash (d c : Nat) (f : Ctx → Ctx) : (s.updCtx d c f).flash = s.flash := rfl
@[simp] theorem State.updCtx_image (d c : Nat) (f : Ctx → Ctx) : (s.updCtx d c f).image = s.image := rfl
@[simp] theorem State.updCtx_coreImage (d c : Nat) (f : Ctx → Ctx) : (s.updCtx d c f).coreImage = s.coreImage := rfl
@[simp] theorem State.updCtx_replace (d c : Nat) (f : Ctx → Ctx) : (s.updCtx d c f).replace = s.replace := rfl
@[simp] theorem State.updCtx_answers (d c : Nat) (f : Ctx → Ctx) : (s.updCtx d c f).answers = s.answers := rfl
@[simp] theorem State.updCtx_bootFailed (d c : Nat) (f : Ctx → Ctx) : (s.updCtx d c f).bootFailed = s.bootFailed := rfl
@[simp] theorem State.updCtx_msix (d c : Nat) (f : Ctx → Ctx) : (s.updCtx d c f).msix = s.msix := rfl
@[simp] theorem State.updCtx_hostReads (d c : Nat) (f : Ctx → Ctx) : (s.updCtx d c f).hostReads = s.hostReads := rfl
@[simp] theorem State.updCtx_seq (d c : Nat) (f : Ctx → Ctx) : (s.updCtx d c f).seq = s.seq := rfl
@[simp] theorem State.updCtx_free (d c : Nat) (f : Ctx → Ctx) : (s.updCtx d c f).free = s.free := rfl

/-! ## writeMem -/

@[simp] theorem State.writeMem_cores (pa : Nat) (bs : List Byte) : (s.writeMem pa bs).cores = s.cores := rfl
@[simp] theorem State.writeMem_dies (pa : Nat) (bs : List Byte) : (s.writeMem pa bs).dies = s.dies := rfl
@[simp] theorem State.writeMem_cur (pa : Nat) (bs : List Byte) : (s.writeMem pa bs).cur = s.cur := rfl
@[simp] theorem State.writeMem_groupCore (pa : Nat) (bs : List Byte) : (s.writeMem pa bs).groupCore = s.groupCore := rfl
@[simp] theorem State.writeMem_groupDie (pa : Nat) (bs : List Byte) : (s.writeMem pa bs).groupDie = s.groupDie := rfl
@[simp] theorem State.writeMem_ev (pa : Nat) (bs : List Byte) : (s.writeMem pa bs).ev = s.ev := rfl
@[simp] theorem State.writeMem_now (pa : Nat) (bs : List Byte) : (s.writeMem pa bs).now = s.now := rfl
@[simp] theorem State.writeMem_turns (pa : Nat) (bs : List Byte) : (s.writeMem pa bs).turns = s.turns := rfl
@[simp] theorem State.writeMem_tried (pa : Nat) (bs : List Byte) : (s.writeMem pa bs).tried = s.tried := rfl
@[simp] theorem State.writeMem_insts (pa : Nat) (bs : List Byte) : (s.writeMem pa bs).insts = s.insts := rfl
@[simp] theorem State.writeMem_ended (pa : Nat) (bs : List Byte) : (s.writeMem pa bs).ended = s.ended := rfl
@[simp] theorem State.writeMem_memberEnds (pa : Nat) (bs : List Byte) : (s.writeMem pa bs).memberEnds = s.memberEnds := rfl
@[simp] theorem State.writeMem_agreed (pa : Nat) (bs : List Byte) : (s.writeMem pa bs).agreed = s.agreed := rfl
@[simp] theorem State.writeMem_nextInst (pa : Nat) (bs : List Byte) : (s.writeMem pa bs).nextInst = s.nextInst := rfl
@[simp] theorem State.writeMem_posts (pa : Nat) (bs : List Byte) : (s.writeMem pa bs).posts = s.posts := rfl
@[simp] theorem State.writeMem_pushes (pa : Nat) (bs : List Byte) : (s.writeMem pa bs).pushes = s.pushes := rfl
@[simp] theorem State.writeMem_units (pa : Nat) (bs : List Byte) : (s.writeMem pa bs).units = s.units := rfl
@[simp] theorem State.writeMem_late (pa : Nat) (bs : List Byte) : (s.writeMem pa bs).late = s.late := rfl
@[simp] theorem State.writeMem_shoots (pa : Nat) (bs : List Byte) : (s.writeMem pa bs).shoots = s.shoots := rfl
@[simp] theorem State.writeMem_nextNet (pa : Nat) (bs : List Byte) : (s.writeMem pa bs).nextNet = s.nextNet := rfl
@[simp] theorem State.writeMem_packages (pa : Nat) (bs : List Byte) : (s.writeMem pa bs).packages = s.packages := rfl
@[simp] theorem State.writeMem_fabric (pa : Nat) (bs : List Byte) : (s.writeMem pa bs).fabric = s.fabric := rfl
@[simp] theorem State.writeMem_offlineStacks (pa : Nat) (bs : List Byte) : (s.writeMem pa bs).offlineStacks = s.offlineStacks := rfl
@[simp] theorem State.writeMem_offlineLinks (pa : Nat) (bs : List Byte) : (s.writeMem pa bs).offlineLinks = s.offlineLinks := rfl
@[simp] theorem State.writeMem_retries (pa : Nat) (bs : List Byte) : (s.writeMem pa bs).retries = s.retries := rfl
@[simp] theorem State.writeMem_spared (pa : Nat) (bs : List Byte) : (s.writeMem pa bs).spared = s.spared := rfl
@[simp] theorem State.writeMem_poison (pa : Nat) (bs : List Byte) : (s.writeMem pa bs).poison = s.poison := rfl
@[simp] theorem State.writeMem_flash (pa : Nat) (bs : List Byte) : (s.writeMem pa bs).flash = s.flash := rfl
@[simp] theorem State.writeMem_image (pa : Nat) (bs : List Byte) : (s.writeMem pa bs).image = s.image := rfl
@[simp] theorem State.writeMem_coreImage (pa : Nat) (bs : List Byte) : (s.writeMem pa bs).coreImage = s.coreImage := rfl
@[simp] theorem State.writeMem_replace (pa : Nat) (bs : List Byte) : (s.writeMem pa bs).replace = s.replace := rfl
@[simp] theorem State.writeMem_answers (pa : Nat) (bs : List Byte) : (s.writeMem pa bs).answers = s.answers := rfl
@[simp] theorem State.writeMem_bootFailed (pa : Nat) (bs : List Byte) : (s.writeMem pa bs).bootFailed = s.bootFailed := rfl
@[simp] theorem State.writeMem_msix (pa : Nat) (bs : List Byte) : (s.writeMem pa bs).msix = s.msix := rfl
@[simp] theorem State.writeMem_hostReads (pa : Nat) (bs : List Byte) : (s.writeMem pa bs).hostReads = s.hostReads := rfl
@[simp] theorem State.writeMem_seq (pa : Nat) (bs : List Byte) : (s.writeMem pa bs).seq = s.seq := rfl
@[simp] theorem State.writeMem_free (pa : Nat) (bs : List Byte) : (s.writeMem pa bs).free = s.free := rfl

/-! ## Reading back -/

theorem State.coreAt_setCoreAt (u v : Nat) (c : Core) : (s.setCoreAt u c).coreAt v = if v = u then c else s.coreAt v := by
  unfold State.coreAt State.setCoreAt
  exact Tbl.getD_set s.cores v u c (Core.reset v)

@[simp] theorem State.coreAt_setCoreAt_same (u : Nat) (c : Core) : (s.setCoreAt u c).coreAt u = c := by
  simp [State.coreAt_setCoreAt]

theorem State.coreAt_updAt (u v : Nat) (f : Core → Core) : (s.updAt u f).coreAt v = if v = u then f (s.coreAt u) else s.coreAt v :=
  s.coreAt_setCoreAt u v _

@[simp] theorem State.coreAt_updAt_same (u : Nat) (f : Core → Core) : (s.updAt u f).coreAt u = f (s.coreAt u) := by
  simp [State.coreAt_updAt]

theorem State.coreAt_updAt_ne {u v : Nat} (f : Core → Core) (h : v ≠ u) : (s.updAt u f).coreAt v = s.coreAt v := by
  simp [State.coreAt_updAt, h]

@[simp] theorem State.core_upd (f : Core → Core) : (s.upd f).core = f s.core := s.coreAt_updAt_same s.cur f

@[simp] theorem State.core_live (f : Regs → Regs) : (s.live f).core = { s.core with live := f s.core.live } := s.core_upd _

@[simp] theorem State.pre_upd (f : Core → Core) : (s.upd f).pre = (f s.core).pre := by simp [State.pre]

@[simp] theorem State.pre_live (f : Regs → Regs) : (s.live f).pre = s.pre := by simp [State.pre]

@[simp] theorem State.coreAt_updDie (u d : Nat) (f : Die → Die) : (s.updDie d f).coreAt u = s.coreAt u := rfl

@[simp] theorem State.core_updDie (d : Nat) (f : Die → Die) : (s.updDie d f).core = s.core := rfl

@[simp] theorem State.coreAt_updCtx (u d c : Nat) (f : Ctx → Ctx) : (s.updCtx d c f).coreAt u = s.coreAt u := rfl

@[simp] theorem State.core_updCtx (d c : Nat) (f : Ctx → Ctx) : (s.updCtx d c f).core = s.core := rfl

@[simp] theorem State.coreAt_writeMem (u pa : Nat) (bs : List Byte) : (s.writeMem pa bs).coreAt u = s.coreAt u := rfl

@[simp] theorem State.core_writeMem (pa : Nat) (bs : List Byte) : (s.writeMem pa bs).core = s.core := rfl

@[simp] theorem State.dieAt_updAt (d u : Nat) (f : Core → Core) : (s.updAt u f).dieAt d = s.dieAt d := rfl

@[simp] theorem State.dieAt_upd (d : Nat) (f : Core → Core) : (s.upd f).dieAt d = s.dieAt d := rfl

@[simp] theorem State.dieAt_writeMem (d pa : Nat) (bs : List Byte) : (s.writeMem pa bs).dieAt d = s.dieAt d := rfl

theorem State.dieAt_updDie (d k : Nat) (f : Die → Die) : (s.updDie d f).dieAt k = if k = d then f (s.dieAt d) else s.dieAt k := by
  unfold State.dieAt State.updDie
  exact Tbl.getD_set s.dies k d _ _

@[simp] theorem State.dieAt_updDie_same (d : Nat) (f : Die → Die) : (s.updDie d f).dieAt d = f (s.dieAt d) := by
  simp [State.dieAt_updDie]

@[simp] theorem State.ctxAt_updAt (d c u : Nat) (f : Core → Core) : (s.updAt u f).ctxAt d c = s.ctxAt d c := rfl

@[simp] theorem State.ctxAt_writeMem (d c pa : Nat) (bs : List Byte) : (s.writeMem pa bs).ctxAt d c = s.ctxAt d c := rfl

theorem State.ctxAt_updCtx (d k c j : Nat) (f : Ctx → Ctx) :
    (s.updCtx d c f).ctxAt k j = if k = d ∧ j = c then f (s.ctxAt d c) else s.ctxAt k j := by
  unfold State.ctxAt State.updCtx
  rw [State.dieAt_updDie]
  by_cases h : k = d
  · subst h
    simp only [if_true, true_and]
    exact Tbl.getD_set _ j c _ _
  · simp [h]

@[simp] theorem State.ctxAt_updCtx_same (d c : Nat) (f : Ctx → Ctx) : (s.updCtx d c f).ctxAt d c = f (s.ctxAt d c) := by
  simp [State.ctxAt_updCtx]

/-- Two changes of one unit are one. -/
@[simp] theorem State.updAt_updAt (u : Nat) (f g : Core → Core) : (s.updAt u f).updAt u g = s.updAt u fun c => g (f c) := by
  simp [State.updAt, State.setCoreAt, State.coreAt]

end Sys2Proof.Machine
end

