-- ==== Sys2Proof/Laws/Exec.lean ====
section
/-! SUPPORT. What each shared operation of a slot answers: the decode checks, sources and destinations, results. -/

namespace Sys2Proof.Machine

variable {s t : State}

/-! ## The Except of effects -/

@[simp] theorem eff_ok_bind {α β : Type} (a : α) (f : α → Eff β) : ((.ok a : Eff α) >>= f) = f a := rfl
@[simp] theorem eff_error_bind {α β : Type} (e : Stop) (f : α → Eff β) : ((.error e : Eff α) >>= f) = .error e := rfl
@[simp] theorem eff_ok_map {α β : Type} (a : α) (f : α → β) : (Except.ok a : Eff α).map f = .ok (f a) := rfl
@[simp] theorem eff_error_map {α β : Type} (e : Stop) (f : α → β) : (Except.error e : Eff α).map f = .error e := rfl
@[simp] theorem need_true (e : Stop) : need true e = .ok () := rfl
@[simp] theorem need_false (e : Stop) : need false e = .error e := rfl

/-- A sequence of effects answers exactly where each of its parts does. -/
theorem eff_bind_eq_ok {α β : Type} {x : Eff α} {f : α → Eff β} {b : β} : (x >>= f) = .ok b ↔ ∃ a, x = .ok a ∧ f a = .ok b := by
  cases x <;> simp

theorem need_eq_ok {b : Bool} {e : Stop} : need b e = .ok () ↔ b = true := by cases b <;> simp

/-! ## A slot -/

/-- An accepted slot has its body's effect, or its body stops its group. -/
theorem run_accepted {i : Instr} (h : Accepts s i) (body : State → Eff State) : run i s body = .next (settle s (body s)) := by
  simp [run, h.1, h.2]

@[simp] theorem settle_ok : settle s (.ok t) = t := rfl

/-- A slot whose body stops leaves the stop behind at its unit. -/
theorem settle_error_sig (e : Stop) : ((settle s (.error e)).coreAt s.cur).sig = some e := by
  unfold settle
  rw [State.coreAt_updAt_same]

/-! ## Sources and destinations -/

theorem source_readable {r : RegName} (h : Readable s r) (e : Bool) : source s r e = .ok () := by
  rcases h with h | h <;> simp [source, h]

/-- In interlocked mode a pending register waits whatever the empty action (R112). -/
theorem source_pending {r : RegName} (hx : s.pre.exposed = false) (h : s.pending r = true) (e : Bool) : source s r e = .error stall := by
  simp [source, hx, h]

theorem source_empty {r : RegName} (h : ¬Readable s r) (hp : s.pending r = false) (e : Bool) :
    source s r e = .error (if e then emptyRegister s r else emptyStall) := by
  simp only [Readable, hp, not_or, true_and, Bool.not_eq_true] at h
  cases e <;> simp [source, h, hp]

theorem srcS_readable {n : BitVec 6} (h : Readable s (.s n.toNat)) (e : Bool) : srcS s n e = .ok (s.pre.sReg n.toNat).val := by
  simp [srcS, source_readable h]

theorem srcV_readable {n : Nat} (h : Readable s (.v n)) (e : Bool) : srcV s n e = .ok (s.pre.vReg n).val := by
  simp [srcV, source_readable h]

theorem srcP_readable {n : Nat} (h : Readable s (.p n)) : srcP s n = .ok (s.pre.pReg n).val := by
  simp [srcP, source_readable h]

theorem destOk_readable {r : RegName} (h : Readable s r) : destOk s r = .ok () := by
  rcases h with h | h <;> simp [destOk, h]

theorem dstS_readable {n : BitVec 6} (h : Readable s (.s n.toNat)) : dstS s n = .ok () := destOk_readable h

theorem destOk_empty {r : RegName} (h : ¬Readable s r) (hp : s.pending r = false) : destOk s r = .error emptyStall := by
  simp only [Readable, hp, not_or, true_and, Bool.not_eq_true] at h
  simp [destOk, h, hp]

/-- Where nothing is pending `s0` is readable (R109). -/
theorem readable_s0 (h : s.pending (.s 0) = false) : Readable s (.s 0) := .inr ⟨h, by simp [Regs.fullOf, Regs.sReg]⟩

/-! ## Results -/

/-- A plan routine's register has the value for the next group (R374). -/
theorem result_plan (h : isPlan s.cur = true) (d : RegName) (v : Nat) (m : Taint) (L : Nat) (fp : BitVec 5) (vx : Bool) :
    s.result d v m L fp vx = s.live fun r => r.put d v true m := by
  simp [State.result, h]

/-- Interlocked mode: the register has its taint at once (R112), value and conditions in the cycle of the write (R60, R475). -/
theorem result_interlocked (hp : isPlan s.cur = false) (h : s.pre.exposed = false) (d : RegName) (v : Nat) (m : Taint) (L : Nat)
    (fp : BitVec 5) (vx : Bool) : s.result d v m L fp vx = s.upd fun c => { c with
      live := c.live.taintTo d m
      pipe := c.pipe ++ [{ due := s.now + L, sent := s.now, dest := if d.isZero then none else some d, val := v, fp := fp, il := true, vx := vx }] } := by
  simp [State.result, hp, h]

/-- Exposed mode: the write waits for its cycle (R475). -/
theorem result_exposed (hp : isPlan s.cur = false) (h : s.pre.exposed = true) (d : RegName) (v : Nat) (m : Taint) (L : Nat)
    (fp : BitVec 5) (vx : Bool) : s.result d v m L fp vx = s.upd fun c => { c with
      pipe := c.pipe ++ [{ due := s.now + L, sent := s.now, dest := if d.isZero then none else some d, val := v, taint := m, fp := fp, vx := vx }] } := by
  simp [State.result, hp, h]

/-- A register after a write by name. -/
theorem Regs.sReg_setS (r : Regs) (n k : Nat) (x : Reg DWord) (h : n ≠ 0) : (r.setS n x).sReg k = if k = n then x else r.sReg k := by
  unfold Regs.setS Regs.sReg
  rw [if_neg h]
  by_cases hk : k = 0
  · subst hk
    rw [if_pos rfl, if_pos rfl, if_neg (fun e => h e.symm)]
  · rw [if_neg hk, if_neg hk]
    exact Tbl.getD_set r.s k n x _

@[simp] theorem Regs.setS_zero (r : Regs) (x : Reg DWord) : r.setS 0 x = r := by simp [Regs.setS]

theorem Regs.vReg_setV (r : Regs) (n k : Nat) (x : Reg VReg) : (r.setV n x).vReg k = if k = n then x else r.vReg k :=
  Tbl.getD_set r.v k n x _

theorem Regs.pReg_setP (r : Regs) (n k : Nat) (x : Reg PReg) : (r.setP n x).pReg k = if k = n then x else r.pReg k :=
  Tbl.getD_set r.p k n x _

end Sys2Proof.Machine
end

