-- ==== Sys2Proof/Laws/Memory.lean ====
section
/-! SUPPORT. The byte memory: reads after writes, and the canonical form that every write keeps. -/

namespace Sys2Proof.Machine

/-- A read below the first entry of a canonical memory finds nothing. -/
theorem Memory.read_below {lo a : Nat} {m : Memory} (h : Memory.wfFrom lo m = true) (ha : a < lo) : Memory.read m a = Memory.unlisted := by
  induction m generalizing lo with
  | nil => rfl
  | cons p t ih =>
    obtain ⟨k, b⟩ := p
    simp only [Memory.wfFrom, Bool.and_eq_true, decide_eq_true_eq] at h
    simp only [Memory.read]
    rw [if_neg (by omega)]
    exact ih h.2 (by omega)

theorem Memory.wfFrom_mono {lo lo' : Nat} {m : Memory} (h : Memory.wfFrom lo m = true) (hl : lo' ≤ lo) : Memory.wfFrom lo' m = true := by
  cases m with
  | nil => rfl
  | cons p t =>
    obtain ⟨k, b⟩ := p
    simp only [Memory.wfFrom, Bool.and_eq_true, decide_eq_true_eq] at h ⊢
    exact ⟨⟨by omega, h.1.2⟩, h.2⟩

/-- Writing a byte keeps the canonical form. -/
theorem Memory.write_wfFrom {lo : Nat} {m : Memory} (h : Memory.wfFrom lo m = true) {a : Nat} (ha : lo ≤ a) (b : Byte) :
    Memory.wfFrom lo (Memory.write m a b) = true := by
  induction m generalizing lo with
  | nil =>
    simp only [Memory.write]
    split
    · rfl
    · simp [Memory.wfFrom, *]
  | cons p t ih =>
    obtain ⟨k, c⟩ := p
    simp only [Memory.wfFrom, Bool.and_eq_true, decide_eq_true_eq] at h
    simp only [Memory.write]
    split
    · split
      · exact Memory.wfFrom_mono h.2 (by omega)
      · subst k; simp [Memory.wfFrom, h.2, *]
    · split
      · split
        · simp [Memory.wfFrom, h]
        · simp only [Memory.wfFrom, Bool.and_eq_true, decide_eq_true_eq]
          exact ⟨⟨ha, ‹_›⟩, ⟨by omega, h.1.2⟩, h.2⟩
      · simp only [Memory.wfFrom, Bool.and_eq_true, decide_eq_true_eq]
        exact ⟨h.1, ih h.2 (by omega)⟩

theorem Memory.write_wf {m : Memory} (h : Memory.wf m = true) (a : Nat) (b : Byte) : Memory.wf (Memory.write m a b) = true :=
  Memory.write_wfFrom h (Nat.zero_le a) b

/-- A byte reads as it was last written. -/
theorem Memory.read_write (m : Memory) (h : Memory.wf m = true) (a x : Nat) (b : Byte) :
    Memory.read (Memory.write m a b) x = if x = a then b else Memory.read m x := by
  have key : ∀ (m : Memory) (lo : Nat), Memory.wfFrom lo m = true →
      Memory.read (Memory.write m a b) x = if x = a then b else Memory.read m x := by
    intro m
    induction m with
    | nil =>
      intro lo _
      simp only [Memory.write]
      split
      · next e => simp [Memory.read, e]
      · simp only [Memory.read]
        by_cases e : a = x
        · simp [e]
        · simp [e, Ne.symm e]
    | cons p t ih =>
      obtain ⟨k, c⟩ := p
      intro lo h
      simp only [Memory.wfFrom, Bool.and_eq_true, decide_eq_true_eq] at h
      simp only [Memory.write]
      by_cases e : x = a
      · subst e
        simp only [if_pos]
        split
        · next ek =>
          subst ek
          split
          · next eb => rw [eb]; exact Memory.read_below h.2 (by omega)
          · simp [Memory.read]
        · next ek =>
          split
          · next hx =>
            split
            · next eb =>
              rw [eb]
              simp only [Memory.read, if_neg ek]
              exact Memory.read_below h.2 (by omega)
            · simp [Memory.read]
          · simp only [Memory.read, if_neg ek]
            rw [ih _ h.2, if_pos rfl]
      · have e' : ¬a = x := fun h => e h.symm
        simp only [if_neg e]
        split
        · next ek =>
          subst ek
          split
          · simp [Memory.read, e']
          · simp [Memory.read, e']
        · split
          · split
            · rfl
            · simp [Memory.read, e']
          · simp only [Memory.read]
            rw [ih _ h.2, if_neg e]
  exact key m 0 h

/-! ## Runs of bytes -/

theorem Memory.above_wf {lo a : Nat} {m : Memory} (h : Memory.wfFrom lo m = true) : Memory.wfFrom (max lo a) (Memory.above a m) = true := by
  induction m generalizing lo with
  | nil => rfl
  | cons p t ih =>
    obtain ⟨k, b⟩ := p
    simp only [Memory.wfFrom, Bool.and_eq_true, decide_eq_true_eq] at h
    simp only [Memory.above]
    split
    · exact Memory.wfFrom_mono (ih h.2) (by omega)
    · simp only [Memory.wfFrom, Bool.and_eq_true, decide_eq_true_eq]
      exact ⟨⟨by omega, h.1.2⟩, h.2⟩

theorem Memory.cells_wf {t : Memory} {bs : List Byte} {a : Nat} (h : Memory.wfFrom (a + bs.length) t = true) :
    Memory.wfFrom a (Memory.cells t a bs) = true := by
  induction bs generalizing a with
  | nil => simpa [Memory.cells] using h
  | cons b bs ih =>
    have h' : Memory.wfFrom (a + 1 + bs.length) t = true := by
      have e : a + 1 + bs.length = a + (b :: bs).length := by simp; omega
      rw [e]; exact h
    simp only [Memory.cells]
    split
    · exact Memory.wfFrom_mono (ih h') (by omega)
    · simp only [Memory.wfFrom, Bool.and_eq_true, decide_eq_true_eq]
      exact ⟨⟨Nat.le_refl _, ‹_›⟩, ih h'⟩

theorem Memory.below_append_wf {lo a : Nat} {m t : Memory} (h : Memory.wfFrom lo m = true) (ht : Memory.wfFrom a t = true) (hl : lo ≤ a) :
    Memory.wfFrom lo (Memory.below a m ++ t) = true := by
  induction m generalizing lo with
  | nil => exact Memory.wfFrom_mono ht hl
  | cons p m ih =>
    obtain ⟨k, b⟩ := p
    simp only [Memory.wfFrom, Bool.and_eq_true, decide_eq_true_eq] at h
    simp only [Memory.below]
    split
    · simp only [List.cons_append, Memory.wfFrom, Bool.and_eq_true, decide_eq_true_eq]
      exact ⟨h.1, ih h.2 (by omega)⟩
    · exact Memory.wfFrom_mono ht hl

/-- Writing a run of bytes keeps the canonical form. -/
theorem Memory.writeN_wf {m : Memory} (h : Memory.wf m = true) (a : Nat) (bs : List Byte) : Memory.wf (Memory.writeN m a bs) = true := by
  unfold Memory.writeN Memory.wf
  refine Memory.below_append_wf h (Memory.cells_wf ?_) (Nat.zero_le a)
  exact Memory.wfFrom_mono (Memory.above_wf (a := a + bs.length) h) (by omega)

theorem Memory.read_above {m : Memory} {a x : Nat} (h : a ≤ x) {lo : Nat} (hm : Memory.wfFrom lo m = true) :
    Memory.read (Memory.above a m) x = Memory.read m x := by
  induction m generalizing lo with
  | nil => rfl
  | cons p t ih =>
    obtain ⟨k, b⟩ := p
    simp only [Memory.wfFrom, Bool.and_eq_true, decide_eq_true_eq] at hm
    simp only [Memory.above]
    split
    · rw [ih hm.2]; simp only [Memory.read]; rw [if_neg (by omega)]
    · rfl

theorem Memory.read_cells (t : Memory) (bs : List Byte) (a x : Nat) (ht : Memory.wfFrom (a + bs.length) t = true) :
    Memory.read (Memory.cells t a bs) x = if a ≤ x ∧ x < a + bs.length then bs.getD (x - a) 0 else Memory.read t x := by
  induction bs generalizing a with
  | nil =>
    simp only [Memory.cells, List.length_nil]
    rw [if_neg (by omega)]
  | cons b bs ih =>
    have h' : Memory.wfFrom (a + 1 + bs.length) t = true := by
      have e : a + 1 + bs.length = a + (b :: bs).length := by simp; omega
      rw [e]; exact ht
    simp only [Memory.cells, List.length_cons]
    by_cases e : x = a
    · subst e
      have hi : x ≤ x ∧ x < x + (bs.length + 1) := by omega
      rw [if_pos hi]
      split
      · next eb =>
        rw [ih _ h', if_neg (by omega), Memory.read_below h' (by omega)]
        simp [eb]
      · simp [Memory.read]
    · have key : Memory.read (Memory.cells t (a + 1) bs) x
          = if a ≤ x ∧ x < a + (bs.length + 1) then (b :: bs).getD (x - a) 0 else Memory.read t x := by
        rw [ih _ h']
        by_cases c : a + 1 ≤ x ∧ x < a + 1 + bs.length
        · rw [if_pos c, if_pos (by omega)]
          have : x - a = (x - (a + 1)) + 1 := by omega
          rw [this, List.getD_cons_succ]
        · rw [if_neg c, if_neg (by omega)]
      split
      · exact key
      · simp only [Memory.read]; rw [if_neg (fun h => e h.symm)]; exact key

theorem Memory.read_below_append {m t : Memory} {a x lo : Nat} (h : Memory.wfFrom lo m = true) (ht : Memory.wfFrom a t = true) :
    Memory.read (Memory.below a m ++ t) x = if x < a then Memory.read m x else Memory.read t x := by
  induction m generalizing lo with
  | nil =>
    simp only [Memory.below, List.nil_append, Memory.read]
    split
    · exact Memory.read_below ht ‹_›
    · rfl
  | cons p m ih =>
    obtain ⟨k, b⟩ := p
    simp only [Memory.wfFrom, Bool.and_eq_true, decide_eq_true_eq] at h
    simp only [Memory.below]
    split
    · simp only [List.cons_append, Memory.read]
      by_cases e : k = x
      · subst e; simp [*]
      · simp only [if_neg e]; exact ih h.2
    · simp only [List.nil_append]
      split
      · rw [Memory.read_below ht ‹_›]
        simp only [Memory.read]
        rw [if_neg (by omega)]
        exact (Memory.read_below h.2 (by omega)).symm
      · rfl

/-- A run of bytes reads as written; every other byte reads as before. -/
theorem Memory.read_writeN {m : Memory} (h : Memory.wf m = true) (a x : Nat) (bs : List Byte) :
    Memory.read (Memory.writeN m a bs) x = if a ≤ x ∧ x < a + bs.length then bs.getD (x - a) 0 else Memory.read m x := by
  have hab : Memory.wfFrom (a + bs.length) (Memory.above (a + bs.length) m) = true := Memory.wfFrom_mono (Memory.above_wf h) (by omega)
  unfold Memory.writeN
  rw [Memory.read_below_append h (Memory.cells_wf hab)]
  split
  · rw [if_neg (by omega)]
  · rw [Memory.read_cells _ _ _ _ hab]
    split
    · rfl
    · exact Memory.read_above (by omega) h

theorem Memory.readFrom_eq {m : Memory} {a n : Nat} (h : Memory.wfFrom a m = true) :
    Memory.readFrom m a n = (List.range n).map fun i => Memory.read m (a + i) := by
  induction n generalizing m a with
  | zero => cases m <;> rfl
  | succ n ih =>
    rw [List.range_succ_eq_map]
    simp only [List.map_cons, List.map_map, Nat.add_zero]
    cases m with
    | nil =>
      simp only [Memory.readFrom]
      rw [ih (m := []) (a := a + 1) (by rfl)]
      rfl
    | cons p t =>
      obtain ⟨k, b⟩ := p
      have h' := h
      simp only [Memory.wfFrom, Bool.and_eq_true, decide_eq_true_eq] at h'
      simp only [Memory.readFrom]
      by_cases e : k = a
      · subst e
        rw [if_pos rfl, ih h'.2]
        simp only [Memory.read, if_pos]
        congr 1
        apply List.map_congr_left
        intro i _
        simp only [Function.comp]
        rw [if_neg (by omega)]
        congr 1; omega
      · rw [if_neg e, ih (by simp only [Memory.wfFrom, Bool.and_eq_true, decide_eq_true_eq]; exact ⟨⟨by omega, h'.1.2⟩, h'.2⟩)]
        congr 1
        · simp only [Memory.read]; rw [if_neg e]; exact (Memory.read_below h'.2 (by omega)).symm
        · apply List.map_congr_left
          intro i _
          simp only [Function.comp]
          congr 1; omega

/-- A run read is its bytes read one by one. -/
theorem Memory.readN_eq {m : Memory} (h : Memory.wf m = true) (a n : Nat) :
    Memory.readN m a n = (List.range n).map fun i => Memory.read m (a + i) := by
  unfold Memory.readN
  rw [Memory.readFrom_eq (Memory.wfFrom_mono (Memory.above_wf h) (by omega))]
  apply List.map_congr_left
  intro i _
  exact Memory.read_above (by omega) h

end Sys2Proof.Machine
end

