-- ==== Sys2Proof/Tests/Slice0.lean ====
section
/-! SUPPORT. Tests: words of the manual for each family, an ill-formed term for each check, small steps, and a witness for the hypotheses of each statement. -/

namespace Sys2Proof.Tests
open Sys2Proof.Machine

/-! ## States -/

/-- Core 0 of die 0 runs; `f` changes it. -/
def core0 (f : Core → Core) : State := { cores := [(0, f { id := 0, run := .running })] }

/-- Core 0 with scalar registers as listed, live and before the group. -/
def regs0 (l : List (Nat × Nat)) : State :=
  let t : Tbl (Reg DWord) := l.map fun p => (p.1, { val := BitVec.ofNat 64 p.2 })
  core0 fun c => { c with live := { c.live with s := t }, pre := { c.pre with s := t } }

def s0 : State := core0 id

/-- A register that is empty, before the group. -/
def empty0 (n : Nat) : State := core0 fun c => { c with pre := { c.pre with s := [(n, { val := 0, full := false })] } }

/-- Control core 0 of die 0 runs. -/
def ctl0 (f : Core → Core) : State := { cores := [(72, f { id := 72, run := .running })], cur := 72 }

def ar (d a b : Nat) (u w : Bool) : ArithR := { d := BitVec.ofNat 6 d, a := BitVec.ofNat 6 a, e := false, b := BitVec.ofNat 6 b, f := false, u := u, w := w }

def lg (d a b : Nat) (w : Bool) : LogicR := { d := BitVec.ofNat 6 d, a := BitVec.ofNat 6 a, e := false, b := BitVec.ofNat 6 b, f := false, w := w }

def un (d a : Nat) : UnaryR := { d := BitVec.ofNat 6 d, a := BitVec.ofNat 6 a, e := false }

def bn (d a b : Nat) : BinR := { d := BitVec.ofNat 6 d, a := BitVec.ofNat 6 a, e := false, b := BitVec.ofNat 6 b, f := false }

def sy (a b : Nat) : SysR := { a := BitVec.ofNat 6 a, b := BitVec.ofNat 6 b, e := false }

def cr (r n : Nat) : CrK := { r := BitVec.ofNat 6 r, crn := BitVec.ofNat 12 n, e := false }

/-- The state that an outcome answers, if it is a next state. -/
def after (x : Host.Outcome State Fault Refusal) : State :=
  match x with
  | .next t => t
  | _ => State.reset

/-- Core 0 after one slot, once its result has been written. -/
def written (i : Instr) (s : State) : Core := (after (exec i s)).core.settlePipe 1000

/-- Value of a scalar register of core 0 after one slot. -/
def scalarAfter (i : Instr) (s : State) (n : Nat) : Nat := ((written i s).live.sReg n).val.toNat

/-- Where every register stands at its reset value and no result is on its way, each can be read or written. -/
theorem rd {s : State} (h : s.pre = {}) (hp : s.found.pipe = []) (r : RegName) : Readable s r := by
  refine .inr ⟨by simp [State.pending, hp], ?_⟩
  rw [h]
  cases r with
  | s n => simp only [Regs.fullOf, Regs.sReg]; split <;> rfl
  | v n => rfl
  | p n => rfl

theorem ready_plain {s : State} (h : s.pre = {}) (hp : s.found.pipe = []) (r : RepRule) : r.ready s :=
  ⟨fun _ _ _ _ => rd h hp _, fun _ _ => rd h hp _, fun _ _ => rd h hp _⟩

/-- A vector word of type t on v1, v2, v3 to v4. -/
def vw (t imm : Nat) : VWord := { zeroV with typ := BitVec.ofNat 4 t, imm := BitVec.ofNat 12 imm, vd := 4, va := 1, vb := 2 }

theorem noneIn {α : Type} {P : α → Prop} {l : List α} (h : l = []) : ∀ x ∈ l, P x := by
  subst h
  exact fun _ h => nomatch h

theorem ok_with {ε α : Type} {x : Except ε α} {p : α → Bool} (h : (match x with
    | .ok a => p a
    | .error _ => false) = true) : ∃ a, x = .ok a ∧ p a = true := by
  cases x with
  | ok a => exact ⟨a, rfl, h⟩
  | error e => cases h

theorem ok_of {ε α : Type} {x : Except ε α} (h : x.isOk = true) : ∃ a, x = .ok a := by
  cases x with
  | ok a => exact ⟨a, rfl⟩
  | error e => cases h
/-! ## Scalar slot -/

theorem witness_ScalarArithmetic : ∃ op, arithRule (.add (ar 3 1 2 false false)) = some (ar 3 1 2 false false, op) ∧
    Accepts s0 (.add (ar 3 1 2 false false)) ∧ Readable s0 (.s 1) ∧ Readable s0 (.s 2) ∧ Readable s0 (.s 3) :=
  ⟨_, rfl, ⟨rfl, rfl⟩, .inr ⟨rfl, rfl⟩, .inr ⟨rfl, rfl⟩, .inr ⟨rfl, rfl⟩⟩

theorem witness_Division : Accepts s0 (.div (ar 3 1 2 false false)) ∧ Accepts s0 (.rem (ar 3 1 2 false true)) ∧ Readable s0 (.s 1) ∧
    Readable s0 (.s 2) ∧ Readable s0 (.s 3) ∧ exactOperand (s0.sv 2) false false = 0 ∧ exactOperand ((regs0 [(2, 3)]).sv 2) false false ≠ 0 :=
  ⟨⟨rfl, rfl⟩, ⟨rfl, rfl⟩, .inr ⟨rfl, rfl⟩, .inr ⟨rfl, rfl⟩, .inr ⟨rfl, rfl⟩, by decide, by decide⟩

theorem witness_ImmediateAndLea : (∃ op, immRule (.muli ⟨3, 1, false, 0x7FF⟩) = some (⟨3, 1, false, 0x7FF⟩, op)) ∧
    Accepts s0 (.muli ⟨3, 1, false, 0x7FF⟩) ∧ Accepts s0 (.lea ⟨3, 1, false, 2, false, 7⟩) ∧ Readable s0 (.s 1) ∧ Readable s0 (.s 2) ∧ Readable s0 (.s 3) :=
  ⟨⟨_, rfl⟩, ⟨rfl, rfl⟩, ⟨rfl, rfl⟩, .inr ⟨rfl, rfl⟩, .inr ⟨rfl, rfl⟩, .inr ⟨rfl, rfl⟩⟩

theorem witness_LogicAndShifts : (∃ op, logicRule (.sar (lg 3 1 2 true)) = some (lg 3 1 2 true, op)) ∧ Accepts s0 (.sar (lg 3 1 2 true)) ∧
    (∃ op, shiftRule (.rori ⟨3, 1, false, 63⟩) = some (⟨3, 1, false, 63⟩, op)) ∧ Accepts s0 (.rori ⟨3, 1, false, 63⟩) ∧
    Accepts s0 (.popc (un 3 1)) ∧ Accepts s0 (.clz (un 3 1)) ∧ Readable s0 (.s 1) ∧ Readable s0 (.s 2) ∧ Readable s0 (.s 3) :=
  ⟨⟨_, rfl⟩, ⟨rfl, rfl⟩, ⟨_, rfl⟩, ⟨rfl, rfl⟩, ⟨rfl, rfl⟩, ⟨rfl, rfl⟩, .inr ⟨rfl, rfl⟩, .inr ⟨rfl, rfl⟩, .inr ⟨rfl, rfl⟩⟩

theorem witness_CompareAndSelect : (∃ d a l c b, compareRule s0 (.cmpp ⟨7, 1, false, 2, false, 11⟩) = some (d, a, l, c, b) ∧ Readable s0 d ∧
      ∀ n ∈ l, Readable s0 (.s n.toNat)) ∧ Accepts s0 (.cmpp ⟨7, 1, false, 2, false, 11⟩) ∧ Accepts s0 (.sel ⟨3, 1, false, 2, false, 7⟩) ∧
    Accepts s0 (.cmov (bn 3 1 2)) ∧ Readable s0 (.s 1) ∧ Readable s0 (.s 2) ∧ Readable s0 (.s 3) ∧ Readable s0 (.p 7) :=
  ⟨⟨_, _, _, _, _, rfl, .inr ⟨rfl, rfl⟩, fun _ _ => rd rfl rfl _⟩,
    ⟨rfl, rfl⟩, ⟨rfl, rfl⟩, ⟨rfl, rfl⟩, .inr ⟨rfl, rfl⟩, .inr ⟨rfl, rfl⟩, .inr ⟨rfl, rfl⟩, .inr ⟨rfl, rfl⟩⟩

theorem witness_FieldsAndConstants : (∃ d l bit, fieldRule s0 (.bfi (bn 3 1 2)) = some (d, l, bit) ∧ l = [1, 2, 3]) ∧ Accepts s0 (.bfi (bn 3 1 2)) ∧
    Accepts s0 (.movi 3 0x20000) ∧ Accepts s0 (.movl 3 1) ∧ Readable s0 (.s 1) ∧ Readable s0 (.s 2) ∧ Readable s0 (.s 3) :=
  ⟨⟨_, _, _, rfl, rfl⟩, ⟨rfl, rfl⟩, ⟨rfl, rfl⟩, ⟨rfl, rfl⟩, .inr ⟨rfl, rfl⟩, .inr ⟨rfl, rfl⟩, .inr ⟨rfl, rfl⟩⟩

/-- Core 0 with a result on its way to scalar register n. -/
def due0 (n : Nat) : State := core0 fun c => { c with pipe := [{ due := 5, dest := some (.s n), val := 1, taint := 0 }] }

theorem witness_ResultFrame : isPlan ({ s0 with cur := 80 } : State).cur = true ∧ isPlan s0.cur = false ∧ s0.pre.exposed = false ∧ (core0 fun c => { c with pre := { c.pre with exposed := true } }).pre.exposed = true ∧
    ∃ (c : Core) (w : PipeWrite), c.pipe = [w] ∧ w.dest = some (.s 3) ∧ 4 < w.due ∧ w.due ≤ 5 ∧ w.preCk = true :=
  ⟨rfl, rfl, rfl, rfl, { pipe := [{ due := 5, dest := some (.s 3), val := 1, taint := 0, fp := 0, preCk := true }] }, _, rfl, rfl, by decide, by decide, rfl⟩

theorem witness_SlotChecks : privilegedForm .tret = some 0 ∧ privilegedForm (.mfcr (cr 3 0x113)) = some 0x113 ∧ s0.issues = true ∧ isCompute s0.cur = true ∧
    s0.core.tlevel = 0 ∧ computeOnly .suspend = true ∧ copyDec (.cpy { zeroCp with dec := true }) = true ∧ (ctl0 id).issues = true ∧ isControl (ctl0 id).cur = true ∧
    (Instr.cmp ⟨3, 1, false, 2, false, 12⟩).wf = false ∧ (encode (.cmp ⟨3, 1, false, 2, false, 12⟩)).isSome = true ∧
    (∃ op, arithRule (.add { ar 3 1 2 false false with e := true }) = some ({ ar 3 1 2 false false with e := true }, op)) ∧
    Accepts (empty0 1) (.add { ar 3 1 2 false false with e := true }) ∧ (empty0 1).pre.exposed = false ∧ ((empty0 1).pre.sReg 1).full = false ∧
    ((empty0 2).pre.sReg 1).full = true ∧ ((empty0 2).pre.sReg 2).full = false ∧
    ((empty0 3).pre.sReg 1).full = true ∧ ((empty0 3).pre.sReg 2).full = true ∧ ((empty0 3).pre.sReg 3).full = false ∧
    (∀ n, n < 4 → ∀ k, (empty0 n).pending (.s k) = false) ∧ (∀ n, Accepts (due0 n) (.add (ar 3 1 2 false false))) ∧
    (∀ n, n < 4 → ∀ k, k < 4 → (due0 n).pending (.s k) = decide (n = k) ∧ ((due0 n).pre.sReg k).full = true) :=
  ⟨rfl, rfl, rfl, rfl, rfl, rfl, rfl, rfl, rfl, rfl, rfl, ⟨_, rfl⟩, ⟨rfl, rfl⟩, rfl, rfl, rfl, rfl, rfl, rfl, rfl, fun _ _ _ => rfl,
    fun _ => ⟨rfl, rfl⟩, by decide⟩

theorem witness_ControlRegisters : crRead (.mfcr (cr 3 0x002)) = some (cr 3 0x002) ∧ crWrite (.pmtcr (cr 3 0x201)) = some (cr 3 0x201) ∧ Readable s0 (.s 3) ∧
    fpPending s0 = false ∧ (∀ n ∈ [0x000, 0x002, 0x003, 0x004, 0x005, 0x006, 0x007, 0x008, 0x010, 0x011, 0x018, 0x01F, 0x020, 0x021, 0x030, 0x040, 0x07F, 0x080, 0x09F, 0x0A0,
        0x0AF, 0x0C0, 0x0C7, 0x0C8, 0x0CF, 0x0D0, 0x0D1],
      guard (.mfcr (cr 3 n)) s0 = .ok ()) ∧
    (∀ n ∈ [0x100, 0x101, 0x102, 0x103, 0x104, 0x105, 0x110, 0x111, 0x112, 0x113, 0x200, 0x201, 0x202, 0x203], guard (.pmfcr (cr 3 n)) (ctl0 id) = .ok ()) ∧
    (∀ n ∈ [0x002, 0x003, 0x018, 0x01F, 0x030, 0x040, 0x07F, 0x080, 0x09F, 0x0A0, 0x0AF, 0x0C0, 0x0C7, 0x0C8, 0x0CF, 0x0D0, 0x000, 0x004, 0x005, 0x006,
      0x007, 0x008, 0x010, 0x011, 0x020, 0x021, 0x0D1], guard (.mtcr (cr 3 n)) s0 = .ok ()) ∧
    (∀ n ∈ [0x111, 0x112, 0x113, 0x200, 0x201, 0x202, 0x203, 0x100, 0x101, 0x102, 0x103, 0x104, 0x105, 0x110], guard (.pmtcr (cr 3 n)) (ctl0 id) = .ok ()) ∧ s0.issues = true ∧ (ctl0 id).issues = true ∧
    (core0 fun c => { c with task := some { r := {}, id := 1 } }).core.task = some { r := {}, id := 1 } ∧ s0.core.inGroup = false ∧
    (core0 fun c => { c with inGroup := true }).core.inGroup = true ∧
    (core0 fun c => { c with crw := [(0x080, 5, 1)] }).core.crw = [(0x080, 5, 1)] ∧ s0.cur / 128 / 32 ∉ s0.fabric ∧ 0 ∈ ({ s0 with fabric := [0] } : State).fabric ∧
    s0.core.traceCtl.getLsbD 0 = false ∧ s0.core.sinceSync < 1024 ∧ s0.core.traceW + 1 < 16384 ∧ (core0 fun c => { c with traceCtl := 1 }).core.traceCtl.getLsbD 0 = true := by
  refine ⟨rfl, rfl, .inr ⟨rfl, rfl⟩, rfl, ?_, ?_, ?_, ?_, rfl, rfl, rfl, rfl, rfl, rfl, ?_, ?_, rfl, ?_, ?_, rfl⟩ <;> decide +kernel

theorem witness_TaintMoves : Accepts s0 (.tclr 3) ∧ Accepts s0 .tclrC ∧ Accepts s0 (.tget (un 3 1)) ∧ Accepts s0 (.tspill (un 3 1)) ∧
    Accepts s0 (.tfill (bn 3 1 2)) ∧ Readable s0 (.s 1) ∧ Readable s0 (.s 2) ∧ Readable s0 (.s 3) :=
  ⟨⟨rfl, rfl⟩, ⟨rfl, rfl⟩, ⟨rfl, rfl⟩, ⟨rfl, rfl⟩, ⟨rfl, rfl⟩, .inr ⟨rfl, rfl⟩, .inr ⟨rfl, rfl⟩, .inr ⟨rfl, rfl⟩⟩

/-! ## Vector slot -/

theorem witness_VectorInteger : (∃ lat op, vectorInt (.vadd (vw 6 0)) = some (vw 6 0, true, false, lat, op)) ∧ typeIsFp (vw 6 0).typ.toNat = false ∧
    Accepts s0 (.vadd (vw 6 0)) ∧ ∀ r : RepRule, r.ready s0 :=
  ⟨⟨_, _, rfl⟩, rfl, ⟨rfl, rfl⟩, ready_plain rfl rfl⟩

theorem witness_VectorFloatingPoint : (∃ lat op, vectorFp (.vfma { vw 12 0 with vc := 3, rm := 4 }) = some ({ vw 12 0 with vc := 3, rm := 4 }, true, true, lat, op)) ∧
    typeIsFp 12 = true ∧ Accepts s0 (.vfma { vw 12 0 with vc := 3, rm := 4 }) ∧ ∀ r : RepRule, r.ready s0 :=
  ⟨⟨_, _, rfl⟩, rfl, ⟨rfl, rfl⟩, ready_plain rfl rfl⟩

theorem witness_VectorMoves : (∃ r, vectorMove s0 (.vperm (vw 6 0)) = some r ∧ r.ready s0) ∧ Accepts s0 (.vperm (vw 6 0)) :=
  ⟨⟨_, rfl, ready_plain rfl rfl _⟩, ⟨rfl, rfl⟩⟩

theorem witness_VectorConversions : (∃ r, vectorConvert s0 (.vcvt { vw 12 6 with vb := 0 }) = some r ∧ r.ready s0) ∧ Accepts s0 (.vcvt { vw 12 6 with vb := 0 }) :=
  ⟨⟨_, rfl, ready_plain rfl rfl _⟩, ⟨rfl, rfl⟩⟩

theorem witness_PredicatesAndCompares : (∃ l bit, predRule s0 (.pand { zeroV with vd := 7, va := 1, vb := 2 }) = some ({ zeroV with vd := 7, va := 1, vb := 2 }, l, bit)) ∧
    Accepts s0 (.pand { zeroV with vd := 7, va := 1, vb := 2 }) ∧ Accepts s0 (.pset { zeroV with vd := 1, imm := 2, bs := true, vb := 3 }) ∧
    Accepts s0 (.pcnt { zeroV with vd := 3, va := 7 }) ∧ Accepts s0 (.vcmp { vw 6 11 with vd := 7 }) ∧ (∀ r, Readable s0 r) ∧
    active s0 (vw 6 0) 0 ∧ ¬active s0 { vw 6 0 with pen := true } 127 :=
  ⟨⟨_, _, rfl⟩, ⟨rfl, rfl⟩, ⟨rfl, rfl⟩, ⟨rfl, rfl⟩, ⟨rfl, rfl⟩, rd rfl rfl, .inl rfl, by
      rintro (h | h)
      · cases h
      · simp [s0, core0, State.pre, State.core, State.coreAt, Tbl.getD, Tbl.get?, Regs.pReg] at h⟩

theorem witness_Reductions : reduceRule (.vrsum { vw 0 0 with vb := 0 }) = some ({ vw 0 0 with vb := 0 }, .add) ∧ Accepts s0 (.vrsum { vw 0 0 with vb := 0 }) ∧
    Accepts s0 (.vrmax { vw 11 0 with vb := 0, pen := true }) ∧ (∀ r, Readable s0 r) ∧ typeIsFp 0 = false ∧ typeIsFp 11 = true :=
  ⟨rfl, ⟨rfl, rfl⟩, ⟨rfl, rfl⟩, rd rfl rfl, rfl, rfl⟩

/-- Core 0 with an `ACLR` of tile 1 in its matrix queue, or a row in queue 2, or a promised one. -/
def queued0 : State := core0 fun c => { c with mxq := [{ id := 1, op := .aclr 1, pc := 0 }] }

def row0 : State := core0 fun c => { c with live := { c.live with rqTail := [(2, 1)] } }

/-- Its row has an uncorrectable error. -/
def badRow0 : State := core0 fun c => { c with live := { c.live with rqTail := [(2, 1)] }, rowsBad := [2 * 2 ^ 32] }

def promised0 : State := core0 fun c => { c with promised := [(2, 1)] }

theorem witness_LinesAndRows : Accepts s0 (.vmovs { vw 6 127 with vb := 0 }) ∧ Accepts s0 (.vrda { zeroV with typ := 6, va := 13, imm := 127 }) ∧
    Accepts queued0 (.vrda { zeroV with typ := 6, va := 13 }) ∧ Accepts s0 (.vwra { zeroV with typ := 6, vd := 15, imm := 1 }) ∧
    Accepts s0 (.vpopq { zeroV with va := 2 }) ∧ Accepts row0 (.vpopq { zeroV with va := 2 }) ∧ Accepts promised0 (.vpopq { zeroV with va := 2 }) ∧
    (∀ r, Readable s0 r) ∧ (∀ r, Readable queued0 r) ∧ NoLines s0.core ∧ NoLines queued0.core ∧ (∀ p ∈ s0.core.prods, p.id < s0.core.nextId) ∧
    (∃ e ∈ queued0.core.mxq, 1 ∈ e.op.tiles) ∧ Tbl.getD row0.core.live.rqHead 2 0 < Tbl.getD row0.core.live.rqTail 2 0 ∧
    0 < Tbl.getD promised0.core.promised 2 0 ∧ Tbl.getD s0.core.promised 2 0 = 0 ∧
    row0.core.rowsBad.contains (2 * 2 ^ 32) = false ∧ Accepts badRow0 (.vpopq { zeroV with va := 2 }) ∧ badRow0.core.rowsBad.contains (2 * 2 ^ 32) = true :=
  ⟨⟨rfl, rfl⟩, ⟨rfl, rfl⟩, ⟨rfl, rfl⟩, ⟨rfl, rfl⟩, ⟨rfl, rfl⟩, ⟨rfl, rfl⟩, ⟨rfl, rfl⟩, rd rfl rfl, rd rfl rfl,
    by simp [NoLines, s0, core0, State.core, State.coreAt, Tbl.getD, Tbl.get?],
    by simp [NoLines, queued0, core0, State.core, State.coreAt, Tbl.getD, Tbl.get?, MxOp.isLine],
    by simp [s0, core0, State.core, State.coreAt, Tbl.getD, Tbl.get?],
    ⟨_, .head _, by decide⟩, by decide, by decide, rfl, rfl, ⟨rfl, rfl⟩, rfl⟩

/-! ## Matrix slot -/

/-- Core 0 runs task 1, and its operand slot 5 is as given. -/
def slot5 (x : OpSlot) (f : Core → Core) : State := core0 fun c => f { c with task := some { r := {}, id := 1 }, slots := [(5, x)] }

def own (st : OpSt) : OpSlot := { st := st, owner := some 1, rows := 1, k := 1 }

def mw (oa : Nat) : MWord := { zeroM with oa := BitVec.ofNat 4 oa }

theorem witness_OperandSlots : (slot5 {} id).core.mxWaiting < 4 ∧ Accepts (slot5 {} id) (.oclaim (mw 5)) ∧ Accepts (slot5 {} id) (.orelease (mw 5)) ∧
    Accepts (slot5 (own .claimed) id) (.ozero (mw 5)) ∧ Accepts s0 (.ostat (mw 5)) ∧ Accepts s0 (.mstat (mw 0)) ∧
    (slot5 {} id).core.task = some { r := {}, id := 1 } ∧ ((slot5 {} id).core.opSlot 5).st = .free ∧ Holds (slot5 { own .claimed with relpend := true } id) 5 ∧
    ((slot5 (own .ready) id).core.opSlot 5).owner = some 1 ∧ ((slot5 { st := .claimed, owner := some 2 } id).core.opSlot 5).owner ≠ some 1 ∧
    Holds (slot5 (own .claimed) id) 5 ∧ ¬Holds s0 5 ∧ Refillable (slot5 (own .claimed) id) 5 ∧ (slot5 (own .claimed) id).core.mmaHolds 5 = false ∧
    (∀ r, Readable s0 r) ∧ (∀ q, q < 4 → s0.core.occupancy s0.core.live q ≤ 256) :=
  ⟨by decide, ⟨rfl, rfl⟩, ⟨rfl, rfl⟩, ⟨rfl, rfl⟩, ⟨rfl, rfl⟩, ⟨rfl, rfl⟩, rfl, rfl, ⟨_, rfl, rfl⟩, rfl, by decide, ⟨_, rfl, rfl⟩, (fun ⟨_, h, _⟩ => nomatch h),
    ⟨⟨_, rfl, rfl⟩, rfl, by decide, noneIn rfl⟩, rfl, rd rfl rfl, by decide⟩

/-- One element of FP32 at the base. -/
def oneElement : DWord := 0x0001010101000000

def fill5 : State := slot5 (own .claimed) fun c => { c with pre := { c.pre with sd := [(0, { val := oneElement })] } }

theorem witness_FillIssue : Accepts fill5 (.ofill { mw 5 with sr := 1 }) ∧ Accepts fill5 (.ofill { mw 5 with sr := 1, dec := true, dt := 7 }) ∧
    Readable fill5 (.s 1) ∧ fill5.core.mxWaiting < 4 ∧ Refillable fill5 5 ∧
    shapeOk (streamWord fill5 0 0) (streamWord fill5 0 1) (streamWord fill5 0 2) (streamWord fill5 0 3) 0 = true ∧
    (shapeOf (streamWord fill5 0 0) (streamWord fill5 0 1) (streamWord fill5 0 2)).aligned 0 = true ∧
    (∀ a ∈ (shapeOf (streamWord fill5 0 0) (streamWord fill5 0 1) (streamWord fill5 0 2)).addrs 0, 0 ≤ a ∧ a < (spadBytes : Nat)) ∧
    7 ∉ fill5.prior.core.dtBusy ∧ 0 < spadBytes :=
  ⟨⟨rfl, rfl⟩, ⟨rfl, rfl⟩, .inr ⟨rfl, rfl⟩, by decide, ⟨⟨_, rfl, rfl⟩, rfl, by decide, noneIn rfl⟩, by decide, by decide, by decide, by decide, by decide⟩

def row256 : State := core0 fun c => { c with promised := [(0, 256)] }

theorem witness_MatrixQueue : Usable (slot5 (own .ready) id) 5 ∧ Usable (slot5 (own .filling) id) 5 ∧ PairFits (own .ready) (own .ready) ∧
    Accepts (slot5 (own .ready) id) (.mma { mw 5 with ob := 5 }) ∧ ((slot5 (own .faulted) id).core.opSlot 5).st = .faulted ∧
    Accepts s0 (.drain { zeroM with mfmt := 6 }) ∧ s0.core.occupancy s0.core.live 0 + 128 ≤ 256 ∧
    Accepts row256 (.drain zeroM) ∧ 256 < row256.core.occupancy row256.core.live 0 + 64 ∧
    Accepts s0 (.msync zeroM) ∧ (∃ op, queuedRule s0 (.aload { zeroM with sr := 63 }) = some op) ∧ Accepts s0 (.aload { zeroM with sr := 63 }) ∧
    Accepts s0 (.aclr zeroM) ∧ Accepts s0 (.amov { zeroM with acc2 := 3 }) ∧ (∀ r, Readable s0 r) ∧ NoLines s0.core ∧ s0.core.mxWaiting < 4 ∧
    (∀ e ∈ s0.core.mxq, e.op.isLine = true ∨ e.op = .claim) ∧ s0.core.fills = [] ∧ s0.core.draining = [] :=
  ⟨⟨⟨_, rfl, rfl⟩, .inl rfl⟩, ⟨⟨_, rfl, rfl⟩, .inr rfl⟩, ⟨by decide, .inr (.inr rfl)⟩, ⟨rfl, rfl⟩, rfl, ⟨rfl, rfl⟩, by decide, ⟨rfl, rfl⟩, by decide, ⟨rfl, rfl⟩,
    ⟨_, rfl⟩, ⟨rfl, rfl⟩, ⟨rfl, rfl⟩, ⟨rfl, rfl⟩, rd rfl rfl, noneIn rfl, by decide, noneIn rfl, rfl, rfl⟩

/-- Core 0, on which an event acts, with a fill of slot 5 in flight. -/
def filling5 (f : Fill) : State := { slot5 (own .filling) (fun c => { c with fills := [f], spad := [(0, 1)] }) with ev := { k := 5 } }

def fillAt (b : Nat) : Fill := { slot := 5, w0 := oneElement, w1 := 0, w2 := 0, base := b, mfmt := 0, dec := none, warn := false, exposed := false, due := some 0 }

/-- The matrix queue of core 0 holds one operation. -/
def mx0 (op : MxOp) (started : Bool) : State := { core0 (fun c => { c with mxq := [{ id := 1, op := op, pc := 0, started := started }] }) with ev := { k := 1 } }

def drain0 : State := { core0 (fun c => { c with draining := [{ id := 1, acc := 3, rq := 2, rows := [(0, 0)] }] }) with ev := { k := 1 } }

theorem witness_MatrixEngine : unitExists 0 = true ∧ ((filling5 (fillAt 0)).coreAt 0).fills = [fillAt 0] ∧ ((filling5 (fillAt 0)).coreAt 0).mmaHolds 5 = false ∧
    (filling5 (fillAt 0)).ev.m = 0 ∧ (((filling5 (fillAt 0)).coreAt 0).opSlot 5).relpend = false ∧ (fillAt 0).dec = none ∧ (fillAt 0).got = [] ∧
    (fillAt 0).warn = false ∧ ((filling5 (fillAt 0)).coreAt 0).spq = [] ∧ ((filling5 (fillAt 0)).coreAt 0).spadBad = [] ∧
    (∃ a ∈ (shapeOf oneElement 0 0).addrs 0, a.toNat / 8 ∈ [0]) ∧
    (∀ a ∈ (shapeOf oneElement 0 0).addrs 0, (Tbl.get? ((filling5 (fillAt 0)).coreAt 0).spad (a.toNat / 4)).isSome = true) ∧
    (∃ a ∈ (shapeOf oneElement 0 0).addrs 8, Tbl.get? ((filling5 (fillAt 8)).coreAt 0).spad (a.toNat / 4) = none) ∧
    (∀ op ∈ [MxOp.mma 1 2 3 false false false false, .aclr 3, .claim, .drain 3 1 6 false false 0 false], ∃ e,
      ((mx0 op false).coreAt 0).startable 0 [] ((mx0 op false).coreAt 0).mxq = some e ∧ e.op = op) ∧
    (MxOp.mma 1 2 3 false false false false).usesArray = true ∧ NoLines ((mx0 (.aclr 3) false).coreAt 0) ∧
    (∀ c, c = ({ mxq := [{ id := 1, op := .fill 5, pc := 0 }], fills := [{ fillAt 0 with due := none }] } : Core) →
      ∃ e, c.startable 0 [] c.mxq = some e ∧ e.op = .fill 5) ∧
    (∀ x ∈ ((mx0 (.aclr 3) false).coreAt 0).mxq, x.checked = false → x.fills ≠ []) ∧
    (∀ op ∈ [MxOp.mma 1 2 3 false false false false, .aload 3 0, .amov 3 0], ∃ e,
      duePart 0 [] ((mx0 op true).coreAt 0).mxq = some e ∧ e.id = (mx0 op true).ev.k ∧ e.op = op) ∧
    (((drain0.coreAt 0).draining.find? fun x => decide (x.id = drain0.ev.k)).map Draining.rows) = some [(0, 0)] ∧
    (((drain0.coreAt 0).draining.find? fun x => decide (x.rq = 2)).map Draining.id) = some 1 ∧ (drain0.coreAt 0).prods = [] := by
  refine ⟨rfl, rfl, rfl, rfl, rfl, rfl, rfl, rfl, rfl, rfl, by decide, by decide, ⟨8, by decide, rfl⟩, ?_, rfl, ?_, ?_, ?_, ?_, rfl, rfl, rfl⟩
  · simp only [List.mem_cons, List.not_mem_nil, or_false]
    rintro op (rfl | rfl | rfl | rfl) <;> exact ⟨_, rfl, rfl⟩
  · simp [NoLines, mx0, core0, State.coreAt, Tbl.getD, Tbl.get?, MxOp.isLine]
  · rintro c rfl; exact ⟨_, rfl, rfl⟩
  · simp [mx0, core0, State.coreAt, Tbl.getD, Tbl.get?]
  · simp only [List.mem_cons, List.not_mem_nil, or_false]
    rintro op (rfl | rfl | rfl) <;> exact ⟨_, rfl, rfl, rfl⟩

/-! ## Memory slot: global accesses -/

/-- The page at 0x10000, mapped to itself, in the L2 TLB of die 0. -/
def page0 (s : State) : State := { s with dies := [(0, { l2tlb := [placePage] })] }

/-- Core 0 and plan routine 0 of die 0 with registers s1 = 0x10008 and s2 = 1. -/
def at8 (f : Core → Core) : State := page0 (core0 fun c =>
  let t : Tbl (Reg DWord) := [(1, { val := 0x10008 }), (2, { val := 1 })]
  f { c with live := { c.live with s := t }, pre := { c.pre with s := t } })

def plan8 (f : Core → Core) : State :=
  let t : Tbl (Reg DWord) := [(1, { val := 0x10008 }), (2, { val := 1 })]
  page0 { cores := [(80, f { id := 80, run := .running, planRun := true, live := { s := t }, pre := { s := t } })], cur := 80 }

/-- Registers of the two states that hold their default, and the base. -/
theorem rd8 : ∀ n ∈ [0, 1, 2, 3, 5], Readable (at8 id) (.s n) ∧ Readable (plan8 id) (.s n) := by
  intro n h
  simp only [List.mem_cons, List.not_mem_nil, or_false] at h
  rcases h with rfl | rfl | rfl | rfl | rfl <;> exact ⟨.inr ⟨rfl, rfl⟩, .inr ⟨rfl, rfl⟩⟩

/-- An access of 8 bytes to or from s5 at s1 + DISP × 8. -/
def mem8 (disp : Nat) : MemWord := { zeroMem with dr := 5, base := 1, sz := 3, disp := BitVec.ofNat 16 disp }

theorem reach8 (k : Nat) (h : k < 3) : Reaches (at8 id) 0x10008 k 0x10008 := by
  refine ⟨by decide, placePage, rfl, ?_, rfl, rfl, rfl, rfl, .inr rfl⟩
  match k, h with
  | 0, _ => rfl
  | 1, _ => rfl
  | 2, _ => rfl

theorem tagFree8 : TagFree (at8 id) := ⟨15, by decide, by decide⟩

theorem witness_ScalarLoad : loadRule (.ldx (mem8 0)) = some (mem8 0, true) ∧ Accepts (at8 id) (.ldx (mem8 0)) ∧ AddressReady (at8 id) (mem8 0) ∧
    address (at8 id) (mem8 0) 8 = 0x10008 ∧ TagFree (at8 id) ∧ Reaches (at8 id) 0x10008 0 0x10008 ∧ Accepts (plan8 id) (.ldx (mem8 0)) ∧
    (plan8 id).enginePa 0 0 0x10008 0 = .ok 0x10008 ∧ Accepts (at8 id) (.ld { mem8 0 with base := 2 }) ∧ address (at8 id) { mem8 0 with base := 2 } 8 % 8 ≠ 0 ∧
    Accepts (at8 id) (.ld { mem8 0xFFFF with base := 0 }) ∧ 2 ^ 56 ≤ address (at8 id) { mem8 0xFFFF with base := 0 } 8 ∧
    Accepts (plan8 id) (.ld { mem8 0xFFFF with base := 0 }) ∧ 2 ^ 56 ≤ address (plan8 id) { mem8 0xFFFF with base := 0 } 8 :=
  ⟨rfl, ⟨rfl, rfl⟩, ⟨(rd8 1 (by decide)).1, (rd8 0 (by decide)).1⟩, by decide, tagFree8, reach8 0 (by decide), ⟨rfl, rfl⟩, by rfl, ⟨rfl, rfl⟩, by decide, ⟨rfl, rfl⟩, by decide, ⟨rfl, rfl⟩, by decide⟩

theorem witness_ScalarStore : Accepts (at8 id) (.st (mem8 0)) ∧ AddressReady (at8 id) (mem8 0) ∧ BufferRoom (at8 id) 1 ∧ Reaches (at8 id) 0x10008 1 0x10008 ∧
    Accepts (plan8 id) (.st (mem8 0)) ∧ (plan8 id).memOk = true ∧ (plan8 id).enginePa 0 0 0x10008 1 = .ok 0x10008 :=
  ⟨⟨rfl, rfl⟩, ⟨(rd8 1 (by decide)).1, (rd8 0 (by decide)).1⟩, by unfold BufferRoom; decide, reach8 1 (by decide), ⟨rfl, rfl⟩, rfl, by rfl⟩

/-- A vector access at s1 − 8, predicated by p3, which is all zeros but its first byte. -/
def vec8 : MemWord := { zeroMem with dr := 5, base := 3, sz := 4, pen := true, pg := 3 }

def pred8 : State :=
  let t : Tbl (Reg DWord) := [(1, { val := 0x10008 }), (3, { val := 0x10000 })]
  page0 (core0 fun c => { c with pre := { c.pre with s := t, p := [(3, { val := 1 })] } })

theorem witness_VectorAccess : Accepts pred8 (.vld vec8) ∧ Accepts pred8 (.vst vec8) ∧ Accepts pred8 (.vgath { mem8 0 with idx := 4, pen := true, pg := 3 }) ∧
    Accepts pred8 (.vscat { mem8 0 with idx := 4, pen := true, pg := 3 }) ∧ AddressReady pred8 vec8 ∧ address pred8 vec8 512 = 0x10000 ∧ TagFree pred8 ∧
    Readable pred8 (.p 3) ∧ Readable pred8 (.v 5) ∧ Readable pred8 (.v 4) ∧ Readable pred8 (.s 1) ∧
    ((pred8.pieces 1 [(0, 0x10000, 64)]).map fun r => r.1.length) = .ok 1 ∧ (∃ ps r, pred8.pieces 0 [] = .ok (ps, r)) ∧
    ((pred8.elements 1 8 [(0, 0x10008)]).map fun r => r.1.length) = .ok 1 ∧ BufferRoom pred8 1 ∧ CanCheckpoint pred8 ∧ pred8.memOk = true ∧
    Settled pred8 [⟨0, 0x10008, 0x10008, 8⟩] 0 false :=
  ⟨⟨rfl, rfl⟩, ⟨rfl, rfl⟩, ⟨rfl, rfl⟩, ⟨rfl, rfl⟩, ⟨.inr ⟨rfl, rfl⟩, .inr ⟨rfl, rfl⟩⟩, by decide, ⟨15, by decide, by decide⟩, .inr ⟨rfl, rfl⟩, .inr ⟨rfl, rfl⟩, .inr ⟨rfl, rfl⟩, .inr ⟨rfl, rfl⟩, by rfl,
    ⟨_, _, rfl⟩, by rfl, by unfold BufferRoom; decide, .inr ⟨rfl, rfl⟩, rfl, ⟨by decide, rfl, rfl, by decide, noneIn rfl⟩⟩

theorem witness_Atomics : (∃ g, atomicRule (.atcas { mem8 0 with idx := 2 }) = some ({ mem8 0 with idx := 2 }, true, g)) ∧
    Accepts (at8 id) (.atcas { mem8 0 with idx := 2 }) ∧ Readable (at8 id) (.s 1) ∧ Readable (at8 id) (.s 5) ∧ Readable (at8 id) (.s 2) ∧ (at8 id).memOk = true ∧
    TagFree (at8 id) ∧ CanCheckpoint (at8 id) ∧ Reaches (at8 id) 0x10008 2 0x10008 ∧ Settled (at8 id) [⟨0, 0x10008, 0x10008, 8⟩] 0 true ∧
    Accepts (plan8 id) (.atcas { mem8 0 with idx := 2 }) ∧ (plan8 id).enginePa 0 0 0x10008 2 = .ok 0x10008 ∧ ((at8 id).sv 2).toNat % 8 ≠ 0 :=
  ⟨⟨_, rfl⟩, ⟨rfl, rfl⟩, (rd8 1 (by decide)).1, (rd8 5 (by decide)).1, (rd8 2 (by decide)).1, rfl, tagFree8, .inr ⟨rfl, rfl⟩, reach8 2 (by decide),
    ⟨by decide, rfl, rfl, by decide, noneIn rfl⟩, ⟨rfl, rfl⟩, by rfl, by decide⟩

/-- Core 0 with a load of tag 3, a result and a released store in flight. -/
def flying : State := core0 fun c => { c with
  loads := [{ tag := 3, dest := .s 5, size := 8, pieces := [⟨0, 0x10008, 0x10008, 8⟩] }, { tag := 4, dest := .s 6, size := 8, fixed := some 7 }]
  prods := [{ id := 3, dest := .s 7, val := 9, minDue := 2 }]
  wb := [{ serial := 3, k := .store [⟨0, 0x10008, 0x10008, 2⟩] ((List.range 2).zip [1, 2]) false false, released := true }] }

theorem witness_PendingEffects : ∀ s, s = { flying with ev := { k := 3 }, now := 40 } → unitExists s.ev.u = true ∧ s.memOk = true ∧
    (∃ l, ((s.coreAt s.ev.u).loads.find? fun x => decide (x.tag = s.ev.k)) = some l ∧ l.waits = 0 ∧ l.cancelled = false ∧ l.fixed = none ∧ l.fwd = [] ∧
      l.first (s.coreAt s.ev.u) = 30 ∧ 30 ≤ s.now ∧ flying.now < 30) ∧
    (∀ x ∈ (s.coreAt s.ev.u).l1, x.pa ≠ 0x10000) ∧
    (∃ p, ((s.coreAt s.ev.u).prods.find? fun x => decide (x.id = s.ev.k)) = some p ∧ p.waiting = false ∧ p.exposed = false ∧ p.minDue = 2) ∧
    (∃ e, ((s.coreAt s.ev.u).wb.find? fun x => decide (x.serial = s.ev.k)) = some e ∧
      e.k = .store [⟨0, 0x10008, 0x10008, [1#8, 2#8].length⟩] ((List.range [1#8, 2#8].length).zip [1, 2]) false false ∧ e.released = true ∧ e.waits = 0 ∧
      ∀ x ∈ (s.coreAt s.ev.u).wb, x.serial < e.serial → e.mayPass x = true) ∧
    (∃ l, ((s.coreAt 0).loads.find? fun x => decide (x.tag = 4)) = some l ∧ l.fixed = some 7 ∧ l.sext = false) := by
  rintro s rfl
  refine ⟨rfl, rfl, ⟨_, rfl, rfl, rfl, rfl, rfl, by decide, by decide, by decide⟩, noneIn rfl, ⟨_, rfl, rfl, rfl, rfl⟩, ⟨_, rfl, rfl, rfl, rfl, ?_⟩, ⟨_, rfl, rfl, rfl⟩⟩
  intro x hx h
  simp [flying, core0, State.coreAt, Tbl.getD, Tbl.get?] at hx
  subst hx
  exact absurd h (by decide)


/-! ## Memory slot: the scratchpad, regions, the tag table, caches and pins -/

/-- Core 0 runs task 1, which owns granules 0 and 1; word 0 of the scratchpad is valid; s1 = 16, s2 = `v`. -/
def sp0 (v : Nat) (f : Core → Core) : State := core0 fun c =>
  let t : Tbl (Reg DWord) := [(1, { val := 16 }), (2, { val := BitVec.ofNat 64 v })]
  f { c with task := some { r := {}, id := 1 }, grans := [(0, .task 1 0 false), (1, .task 1 0 false)], spad := [(0, 7)]
             pre := { c.pre with s := t, p := [(3, { val := 1 })] }, live := { c.live with s := t } }

theorem two_granules (v n : Nat) (h : n ≤ 8192) : ∀ x, 0 ≤ x → x < 0 + n → (sp0 v id).granReach (x / 4096) = true := by
  intro x _ hx
  have : x / 4096 = 0 ∨ x / 4096 = 1 := by omega
  rcases this with h | h <;> rw [h] <;> rfl

/-- A scratchpad access of 4 bytes at base 0, and a vector access predicated by p3. -/
def spw : MemWord := { zeroMem with dr := 5, sz := 2 }
def vspw : MemWord := { zeroMem with dr := 5, sz := 4, pen := true, pg := 3 }

/-- The core waits for a pending acquire load. -/
def acquiring (c : Core) : Core := { c with acqWaits := 2 }

/-- No engine of core 0 has used a bank in this cycle. -/
theorem noBanks (a n : Nat) : BanksFree (sp0 0 id) a n := fun _ _ _ h => nomatch h

theorem witness_Scratchpad : AddressReady (sp0 0 id) spw ∧ AddressReady (sp0 0 id) vspw ∧
    Accepts (sp0 0 id) (.spld spw) ∧ Accepts (sp0 0 id) (.spst spw) ∧ Accepts (sp0 0 id) (.vspld vspw) ∧ Accepts (sp0 0 id) (.vspst vspw) ∧
    SpadReady (sp0 0 id) (address (sp0 0 id) spw 4) 4 ∧ SpadReady (sp0 0 id) (address (sp0 0 id) vspw 512) 512 ∧ memBytes spw = 4 ∧
    (∀ k, k < 4 → WordValid (sp0 0 id).core (address (sp0 0 id) spw 4 + k)) ∧
    (∀ k, k < 512 → (memPred (sp0 0 id) vspw).getLsbD k = true → WordValid (sp0 0 id).core (0 + k)) ∧
    (sp0 0 id).core.spv.getLsbD 0 = false ∧ SpadReady (sp0 0 id) (address (sp0 0 id) { spw with disp := 1 } 4) 4 ∧
    ¬WordValid (sp0 0 id).core (address (sp0 0 id) { spw with disp := 1 } 4 + 0) ∧
    Accepts (sp0 spadBytes id) (.spld { spw with base := 2 }) ∧ spadBytes < address (sp0 spadBytes id) { spw with base := 2 } 4 + 4 ∧
    Readable (sp0 0 id) (.s 5) ∧ Readable (sp0 0 id) (.v 5) ∧ Readable (sp0 0 id) (.p 3) ∧ (sp0 0 id).core.banked = (sp0 0 id).core ∧
    (sp0 0 id).core.acqWaits = 0 ∧ (sp0 0 acquiring).core.acqWaits ≠ 0 ∧ Accepts (sp0 0 acquiring) (.spld spw) ∧ (∀ l, NoError (sp0 0 id).core l) ∧
    ¬NoError (sp0 0 fun c => { c with spadBad := [0] }).core (fun x => 0 ≤ x ∧ x < 0 + 4) ∧
    BanksFree (sp0 0 id) (address (sp0 0 id) spw 4) 4 ∧ BanksFree (sp0 0 id) (address (sp0 0 id) vspw 512) 512 ∧
    ¬BanksFree (sp0 0 fun c => { c with engineBanks := [0] }) 0 4 ∧ address (sp0 0 fun c => { c with engineBanks := [0] }) spw 4 = 0 ∧
    Accepts (sp0 0 fun c => { c with engineBanks := [0] }) (.spst spw) := by
  have e0 : address (sp0 0 id) spw 4 = 0 := by decide
  have e1 : address (sp0 0 id) vspw 512 = 0 := by decide
  have e2 : address (sp0 0 id) { spw with disp := 1 } 4 = 4 := by decide
  refine ⟨⟨.inr ⟨rfl, rfl⟩, .inr ⟨rfl, rfl⟩⟩, ⟨.inr ⟨rfl, rfl⟩, .inr ⟨rfl, rfl⟩⟩, ⟨rfl, rfl⟩, ⟨rfl, rfl⟩, ⟨rfl, rfl⟩, ⟨rfl, rfl⟩, ?_, ?_, rfl, ?_, ?_, rfl, ?_, ?_, ⟨rfl, rfl⟩, by decide,
    .inr ⟨rfl, rfl⟩, .inr ⟨rfl, rfl⟩, .inr ⟨rfl, rfl⟩, rfl, rfl, by decide, ⟨rfl, rfl⟩, (fun _ _ _ h => nomatch h), fun h => h 0 (by decide) (.head _), noBanks _ _, noBanks _ _,
    fun h => h 0 (by decide) (by decide) (.head _), by decide, ⟨rfl, rfl⟩⟩
  · rw [e0]; exact ⟨by decide, by decide, two_granules 0 4 (by decide)⟩
  · rw [e1]; exact ⟨by decide, by decide, two_granules 0 512 (by decide)⟩
  · rw [e0]; intro k hk; rw [WordValid, show (0 + k) / 4 = 0 by omega]; rfl
  · intro k hk h
    have : k = 0 := by
      have h' : (1#512).getLsbD k = true := h
      rw [BitVec.getLsbD_one] at h'
      simpa using h'
    subst this; rfl
  · rw [e2]; exact ⟨by decide, by decide, fun x h₁ h₂ => two_granules 0 8 (by decide) x (Nat.zero_le _) (by omega)⟩
  · rw [e2]; simp [WordValid, sp0, core0, State.core, State.coreAt, Tbl.getD, Tbl.get?]

theorem witness_Regions : (∀ v, Readable (sp0 v id) (.s 2)) ∧ Accepts (sp0 4097 id) (.ralloc { zeroMem with dr := 5, base := 2 }) ∧ Readable (sp0 4097 id) (.s 5) ∧
    ((sp0 4097 id).sv 2).toNat = 4097 ∧ (∀ i, i < 2 → Tbl.get? (sp0 4097 id).core.grans (2 + i) = none) ∧
    (∀ h, h < 2 → (Tbl.get? (sp0 4097 id).core.grans h).isSome = true) ∧ ((sp0 0 id).sv 2).toNat = 0 ∧ 385 * 4096 < 2 ^ 64 ∧
    Accepts (sp0 0 id) (.rfree { zeroMem with base := 2 }) ∧ Tbl.get? (sp0 0 id).core.grans 0 = some (.task 1 0 false) ∧ ((sp0 4097 id).sv 2).toNat % 4096 ≠ 0 :=
  ⟨fun _ => .inr ⟨rfl, rfl⟩, ⟨rfl, rfl⟩, .inr ⟨rfl, rfl⟩, by decide, by decide, by decide, by decide, by decide, ⟨rfl, rfl⟩, rfl, by decide⟩

/-- Entry 1 of the tag table is dirty and shadowed, entry 2 clean. -/
def tags0 : State := sp0 1 fun c => { c with tagTab := [(1, { d := true, s := true, key := 16, spaddr := 0, len := 1 }), (2, { d := false, key := 32, spaddr := 0, len := 1 })] }

/-- Entry 1 is dirty, not shadowed, of the page at 0x10000; with a note of a walk that found no mapping, or with the page in the L2 TLB. -/
def tags1 (f : Core → Core) : State :=
  let s := sp0 1 fun c => f { c with tagTab := [(1, { d := true, key := 0x10000, spaddr := 0, len := 1 })] }
  if s.core.denied = [] then page0 s else s

theorem witness_TagTableAndStreams : Readable tags0 (.s 1) ∧ Readable tags0 (.s 2) ∧ Readable tags0 (.s 5) ∧ Accepts tags0 (.stlook { zeroMem with dr := 5, base := 1 }) ∧
    (1, (⟨true, true, 16, 0, 1, 0⟩ : TagEnt)) ∈ tags0.core.tagTab ∧
    (∀ x ∈ tags0.core.tagTab, x.2.key = (tags0.sv 1).toNat → x = (1, ⟨true, true, 16, 0, 1, 0⟩)) ∧
    (∀ x ∈ tags0.core.tagTab, x.2.key ≠ (tags0.sv 2).toNat) ∧ Tbl.get? tags0.core.tagTab 0 = none ∧
    Accepts (sp0 (2 ^ 39) id) (.stfill { zeroMem with dr := 2 }) ∧ bits ((sp0 (2 ^ 39) id).sv 2) 53 39 = 1 ∧
    Accepts tags0 (.stevict { zeroMem with base := 2 }) ∧ (tags0.sv 2).toNat = 1 ∧ Tbl.get? tags0.core.tagTab 1 = some ⟨true, true, 16, 0, 1, 0⟩ ∧
    Tbl.get? tags0.core.tagTab 2 = some ⟨false, false, 32, 0, 1, 0⟩ ∧ ((sp0 2 id).sv 2).toNat = 2 ∧
    (∃ q, (tags1 id).writable (0x10000 / 4096) (pageCount 0x10000 (0x10000 + 64 * 1)) = .ok (true, q)) ∧
    (∃ q, (tags1 fun c => { c with denied := [(0, 16, 0)] }).writable (0x10000 / 4096) (pageCount 0x10000 (0x10000 + 64 * 1)) = .ok (false, q)) ∧
    Accepts (tags1 id) (.stevict { zeroMem with base := 2 }) ∧ Accepts (tags1 fun c => { c with denied := [(0, 16, 0)] }) (.stevict { zeroMem with base := 2 }) ∧ ((tags1 id).sv 2).toNat = 1 ∧
    Tbl.get? (tags1 id).core.tagTab 1 = some ⟨true, false, 0x10000, 0, 1, 0⟩ ∧
    Accepts tags0 (.sdset { zeroMem with dr := 7, sh := 1, sz := 3, base := 60 }) ∧ (∀ i, i < 3 → Readable tags0 (.s (60 + i))) :=
  ⟨.inr ⟨rfl, rfl⟩, .inr ⟨rfl, rfl⟩, .inr ⟨rfl, rfl⟩, ⟨rfl, rfl⟩, .head _, by decide, by decide, rfl, ⟨rfl, rfl⟩, by decide, ⟨rfl, rfl⟩, by decide, rfl, rfl, by decide, ⟨_, rfl⟩, ⟨_, rfl⟩, ⟨rfl, rfl⟩, ⟨rfl, rfl⟩, rfl, rfl, ⟨rfl, rfl⟩,
    fun i h => match i, h with | 0, _ => .inr ⟨rfl, rfl⟩ | 1, _ => .inr ⟨rfl, rfl⟩ | 2, _ => .inr ⟨rfl, rfl⟩⟩

/-- A load of tag 1 is pending. -/
def pending1 : State := core0 fun c => { c with tags := [(1, { st := .pending })] }

theorem witness_CachesAndPins : AddressReady (at8 id) { mem8 0 with idx := 2 } ∧ Accepts (at8 id) (.pref { zeroMem with base := 1 }) ∧ Accepts (at8 id) (.pref { zeroMem with base := 1, sz := 1 }) ∧
    Accepts (at8 id) (.acqr { zeroMem with base := 1, idx := 2, ord := 1 }) ∧ (at8 id).core.pendingMask = 0 ∧ Accepts pending1 (.acqr { zeroMem with ord := 1 }) ∧ pending1.core.pendingMask ≠ 0 ∧
    Accepts (at8 id) (.l2pin { zeroMem with base := 1, idx := 2 }) ∧ rangeOf (at8 id) { zeroMem with base := 1, idx := 2 } = (0x10008, 0x10009) ∧
    (∃ q, (at8 id).pinLines 0x10008 0x10009 (0x10008 / 4096) (pageCount 0x10008 0x10009) = .ok ([512], q)) ∧
    (((at8 id).dieAt 0).pins.filter fun p => !p.2.isEmpty).length + ([512].filter fun x => (Tbl.getD ((at8 id).dieAt 0).pins x []).isEmpty).eraseDups.length ≤ pinLimit ∧
    Accepts (at8 id) (.l2unpin { zeroMem with base := 1, idx := 2 }) ∧
    Reaches (at8 id) (address (at8 id) { zeroMem with base := 1 } 128) 0 0x10008 ∧ (at8 id).core.l1 = [] :=
  ⟨⟨(rd8 1 (by decide)).1, (rd8 2 (by decide)).1⟩, ⟨rfl, rfl⟩, ⟨rfl, rfl⟩, ⟨rfl, rfl⟩, by decide, ⟨rfl, rfl⟩, by decide, ⟨rfl, rfl⟩, by decide, ⟨_, rfl⟩, by decide, ⟨rfl, rfl⟩, reach8 0 (by decide), rfl⟩

/-! ## Copies and channels -/

/-- Channel 3 of context 0: sender and receiver are core 0, two slots of 512 bytes from granule 2. -/
def ent3 : ChanEnt := { e0 := BitVec.ofNat 64 (2 * 2 ^ 13), e1 := BitVec.ofNat 64 (512 * 2 ^ 36 + 2 ^ 24 + 2 ^ 12 + 2 * 2 ^ 48 + 2 * 2 ^ 60) }

/-- Core 0 as in `sp0`; the copy staging words are zero but word 1 of ck0, whose length is `len`; channel 3 is loaded. -/
def cp0 (len : Nat) (f : Core → Core) : State := page0' (sp0 0 fun c => f { c with pre := { c.pre with ck := [(1, { val := BitVec.ofNat 64 (len * 2 ^ 32) })] } })
where
  page0' (s : State) : State := { s with dies := [(0, { l2tlb := [placePage], ctxs := [(0, { chans := [(3, ent3)] })] })] }

theorem range0 (len n : Nat) (h : n ≤ 8192) : SpadRange (cp0 len id) 0 n := by
  intro x _ hx
  have : x / 4096 = 0 ∨ x / 4096 = 1 := by omega
  exact ⟨by unfold spadBytes; omega, by rcases this with h | h <;> rw [h] <;> rfl⟩

theorem copy_room (len : Nat) : ∀ t w, CopyRoom (cp0 len id) 0 t w := fun _ _ =>
  ⟨fun _ => (show 0 < 65535 by decide), fun _ => (show 0 + 1 ≤ 64 by decide), fun _ => by
    rw [show (cp0 len id).cur = 0 from rfl]; exact (show 0 < 256 by decide)⟩

theorem witness_CopyIssue : (∃ c m w legal, copyRule (cp0 64 id) (.cpy zeroCp) = some (zeroCp, c, m, w, legal) ∧ legal) ∧ Accepts (cp0 64 id) (.cpy zeroCp) ∧
    (∃ c m w legal, copyRule (cp0 64 id) (.cpyr { zeroCp with acw := true, le := true }) = some ({ zeroCp with acw := true, le := true }, c, m, w, legal) ∧ legal) ∧
    Accepts (cp0 64 id) (.cpyr { zeroCp with acw := true, le := true }) ∧
    (∃ c m w legal, copyRule (cp0 64 id) (.cpys zeroCp) = some (zeroCp, c, m, w, legal) ∧ legal) ∧ Accepts (cp0 64 id) (.cpys zeroCp) ∧
    (∃ c m w legal, copyRule (cp0 64 id) (.cfill zeroCp) = some (zeroCp, c, m, w, legal) ∧ legal) ∧ Accepts (cp0 64 id) (.cfill zeroCp) ∧
    (∀ t w, CopyRoom (cp0 64 id) 0 t w) :=
  ⟨⟨_, _, _, _, rfl, rfl, by decide, (fun h => nomatch h), range0 64 64 (by decide)⟩, ⟨rfl, rfl⟩,
    ⟨_, _, _, _, rfl, by decide, fun _ => by decide, fun _ => by decide, range0 64 64 (by decide)⟩, ⟨rfl, rfl⟩,
    ⟨_, _, _, _, rfl, rfl, by decide, by decide⟩, ⟨rfl, rfl⟩, ⟨_, _, _, _, rfl, .inr ⟨rfl, rfl⟩, by decide, fun h => absurd h (by decide), fun _ => ⟨rfl, range0 64 64 (by decide)⟩⟩,
    ⟨rfl, rfl⟩, copy_room 64⟩

/-- The tracker of ck0 of core 0 is as given. -/
def track0 (x : CkTrack) : State := cp0 0 fun c => { c with trk := { ck := [(0, x)] } }

theorem witness_CopyWaits : Accepts (cp0 0 id) (.dtload zeroCp) ∧ wordsOk (cp0 0 id) 0 [0] = true ∧ CopyRoom (cp0 0 id) 0 true false ∧ 0 ∉ (cp0 0 id).prior.core.dtBusy ∧
    (cp0 0 id).prior.core.fills = [] ∧ ((cp0 0 id).prior.dieAt 0).copyq = [] ∧ (∀ x, Accepts (track0 x) (.cwait zeroCp)) ∧ (tracker (track0 { out := 1 }) 0).out ≠ 0 ∧
    (tracker (track0 { err := true }) 0).out = 0 ∧ (tracker (track0 { err := true }) 0).err = true ∧ (tracker (track0 {}) 0).out = 0 ∧ (tracker (track0 {}) 0).err = false ∧
    (∀ x, Accepts (track0 x) (.cstat { zeroCp with sr := 5 })) ∧ ∀ x, Readable (track0 x) (.s 5) :=
  ⟨⟨rfl, rfl⟩, rfl, copy_room 0 _ _, by decide, rfl, rfl, fun _ => ⟨rfl, rfl⟩, by decide, rfl, rfl, rfl, rfl, fun _ => ⟨rfl, rfl⟩, fun _ => .inr ⟨rfl, rfl⟩⟩

theorem witness_ChannelSends : Sends (cp0 512 id) 3 ent3 ∧ ent3.tileBytes = 512 ∧ ent3.receiver = 0 ∧ Accepts (cp0 512 id) (.csend { zeroCp with ch := 3 }) ∧
    wordsOk (cp0 512 id) 0 [1] = true ∧ bits (ckWord (cp0 512 id) 0 1) 55 32 = 512 ∧ copyLocal (cp0 512 id) 0 zeroCp = 0 ∧ SpadRange (cp0 512 id) 0 512 ∧
    (∀ t w, CopyRoom (cp0 512 id) 0 t w) ∧
    (∀ l ∈ [[], [0]], ∀ s, s = cp0 512 (fun c => { c with rowsBad := l, live := { c.live with rqTail := [(0, 1)] } }) → Sends s 3 ent3 ∧
      Accepts s (.cqsend { zeroCp with ch := 3 }) ∧ Tbl.getD s.core.live.rqHead 0 0 + 1 ≤ Tbl.getD s.core.live.rqTail 0 0 ∧
      1 ≤ s.core.occupancy s.core.live 0 ∧ CopyRoom s 0 false true) ∧
    Accepts (cp0 512 id) (.chopen { zeroCp with ch := 3 }) ∧ Accepts (cp0 512 id) (.chclose { zeroCp with ch := 3 }) ∧
    (∀ e, ¬Sends (cp0 512 id) 4 e) ∧ (cp0 512 id).chan 0 (cp0 512 id).taskCtx 3 = some ent3 ∧ (cp0 512 id).chan 0 (cp0 512 id).taskCtx 4 = none :=
  ⟨⟨rfl, by decide⟩, by decide, by decide, ⟨rfl, rfl⟩, by decide, by decide, by decide, range0 512 512 (by decide), copy_room 512,
    fun l hl s h => by
      simp only [List.mem_cons, List.not_mem_nil, or_false] at hl
      rcases hl with rfl | rfl <;> subst h <;>
        exact ⟨⟨rfl, by decide⟩, ⟨rfl, rfl⟩, by decide, by decide, ⟨fun h => (nomatch h), fun _ => by unfold BufferRoom; decide, fun h => (nomatch h)⟩⟩,
    ⟨rfl, rfl⟩, ⟨rfl, rfl⟩, (fun _ h => nomatch h.1), rfl, rfl⟩

/-- A copy of 64 bytes of a pattern into core 0's scratchpad heads the queue of die 0. -/
def cmd0 (c : Copy) : State := { core0 (fun x => { x with task := some { r := {}, id := 1 }, grans := [(0, .oper 0 1)], spad := (List.range 16).map fun w => (1024 + w, 5) }) with
  dies := [(0, { copyq := [c] })], ev := { k := 7 } }

def fillCmd : Copy := { id := 7, u := 0, task := 1, ck := 0, src := .bytes [1, 2], dst := .spad 0 0, len := 64 }

/-- The commands of the statement: of a pattern, to another core, of the scratchpad, of memory. -/
def cmds : List Copy := [fillCmd, { fillCmd with remote := true }, { fillCmd with src := .spad 0 4096 }, { fillCmd with src := .glob 0 0x10000 }]

/-- Two units of a command on their way. -/
def unit0 (acc : Option Nat) : Unit64 := { id := 0, copy := { fillCmd with remote := true, acc := acc }, u := 0, addr := 0, bytes := [1, 2, 3, 4], counter := some 2 }

/-- A unit that core 0 sends to core 1, announced by nothing. -/
def lateUnit : Unit64 := { unit0 none with copy := { fillCmd with remote := true, dst := .spad 1 0 }, u := 1, counter := none }

theorem witness_CopyPerformed : (∀ c ∈ cmds, ∀ s, s = cmd0 c →
      ((s.dieAt s.ev.u).copyq.find? fun x => decide (x.id = s.ev.k)) = some c ∧ s.ev.m = 0 ∧ dieOf c.u = s.ev.u ∧ s.copyReady c = true ∧ c.dtload = none ∧
      c.dec = none ∧ c.dst = .spad c.u 0 ∧ c.tracked = true ∧ c.flag = none ∧ Fresh s c ∧ ((s.coreAt c.u).task.map fun t => t.id) = some c.task ∧
      s.copyDst c = none ∧ SteadySource s c c.len ∧ ∀ fmt, c.acc = some fmt → 0 % (if fmt = 1 ∨ fmt = 2 then 2 else 4) = 0) ∧
    (∀ k, ∃ b, sourceByte (cmd0 fillCmd) fillCmd k b) ∧
    (∀ k, k < 64 → ∃ b, sourceByte (cmd0 { fillCmd with src := .spad 0 4096 }) { fillCmd with src := .spad 0 4096 } k b) ∧
    (∃ b, sourceByte (page0 (cmd0 { fillCmd with src := .glob 0 0x10000 })) { fillCmd with src := .glob 0 0x10000 } 0 b) ∧
    (∃ e, (cmd0 { fillCmd with src := .glob 0 0x10000 }).enginePa 0 0 (0x10000 + 0) 0 = .error e) ∧ blockStart 0x10000 0 ∧ ¬SteadySource s0 { fillCmd with src := .glob 0 0x10020 } 64 ∧ SteadySource s0 { fillCmd with src := .glob 0 0x10020 } 32 ∧
    (∀ acc ∈ [none, some 1], ∀ s, s = ({ s0 with units := [unit0 acc, { unit0 acc with id := 1 }] } : State) →
      (s.units.find? fun y => decide (y.id = s.ev.u)) = some (unit0 acc) ∧ s.ev.flag = false ∧ s.late = [] ∧ (s.coreAt 0).spadBad = []) ∧
    (∀ s, s = ({ s0 with units := [lateUnit], ev := { flag := true } } : State) →
      (s.units.find? fun y => decide (y.id = s.ev.u)) = some lateUnit ∧ s.ev.flag = true ∧ lateUnit.counter = none ∧ lateUnit.copy.flag = none ∧
      lateUnit.u ≠ lateUnit.copy.u ∧ lateUnit.copy.dst = .spad 1 0 ∧ lateUnit.copy.acc = none) ∧
    (∀ s, s = ({ core0 (fun c => { c with spadBad := [0], task := some { r := {}, id := 1 } }) with units := [unit0 (some 1)] } : State) →
      (s.units.find? fun y => decide (y.id = s.ev.u)) = some (unit0 (some 1)) ∧ (0 + 0) / 8 ∈ (s.coreAt 0).spadBad ∧
      (unit0 (some 1)).copy.stopped = false ∧ (unit0 (some 1)).copy.tracked = true ∧
      ((s.coreAt 0).task.map fun t => t.id) = some (unit0 (some 1)).copy.task ∧ (s.dieAt 0).copyq = []) ∧
    (∀ s, s = ({ s0 with late := [lateUnit] } : State) → s.late = [lateUnit] ∧ lateUnit.copy.acc = none ∧ lateUnit.u ≠ lateUnit.copy.u) ∧
    (∀ s, s = ({ s0 with units := [unit0 none] } : State) → (unit0 none).counter = some 2 ∧ (∀ y ∈ s.units, y.id ≠ 0 → y.off / 64 ≠ 0) ∧ (s.dieAt 0).copyq = []) ∧
    (unit0 (some 1)).bytes.length % 2 = 0 ∧ (unit0 (some 1)).counter = some 2 ∧
    (∀ s, s = ({ core0 (fun c => { c with task := some { r := {}, id := 1 } }) with units := [unit0 none] } : State) →
      (s.units.find? fun y => decide (y.id = s.ev.u)) = some (unit0 none) ∧ (unit0 none).copy.stopped = false ∧ (unit0 none).copy.tracked = true ∧
      (unit0 none).copy.flag = none ∧ ((s.coreAt 0).task.map fun t => t.id) = some (unit0 none).copy.task ∧
      (∀ y ∈ s.units, y.id ≠ 0 → y.copy.id ≠ 7) ∧ (s.dieAt 0).copyq = []) := by
  refine ⟨?_, fun _ => ⟨_, rfl⟩, ?_, ⟨_, 0x10000, rfl, rfl⟩, ⟨_, rfl⟩, .inl rfl, ?_, .inl (by decide), ?_, ?_, ?_, ?_, ?_, rfl, rfl, ?_⟩
  · intro c h s hs
    simp only [cmds, List.mem_cons, List.not_mem_nil, or_false] at h
    rcases h with rfl | rfl | rfl | rfl <;> subst hs <;>
      exact ⟨rfl, rfl, rfl, rfl, rfl, rfl, rfl, rfl, rfl, ⟨rfl, rfl, rfl, rfl, noneIn rfl⟩, rfl, by rfl, by first | exact trivial | exact .inl (by decide), fun _ h => nomatch h⟩
  · intro k h
    refine ⟨_, rfl, ?_, fun h => (nomatch h), rfl⟩
    have h' : ∀ w, w < 16 → (Tbl.get? ((cmd0 { fillCmd with src := .spad 0 4096 }).coreAt 0).spad (1024 + w)).isSome = true := by decide
    have e : (4096 + k) / 4 = 1024 + k / 4 := by omega
    unfold WordValid
    rw [e]
    exact h' _ (by omega)
  · rintro (h | h)
    · exact absurd h (by decide)
    · exact absurd (h 0 (by decide)) (by decide)
  · intro acc h s hs
    subst hs
    exact ⟨rfl, rfl, rfl, rfl⟩
  · intro s hs
    subst hs
    exact ⟨rfl, rfl, rfl, rfl, by decide, rfl, rfl⟩
  · intro s hs
    subst hs
    exact ⟨rfl, .head _, rfl, rfl, rfl, rfl⟩
  · intro s hs
    subst hs
    exact ⟨rfl, rfl, by decide⟩
  · intro s hs
    subst hs
    refine ⟨rfl, ?_, rfl⟩
    intro y hy hn
    simp only [List.mem_singleton] at hy
    subst hy
    exact absurd rfl hn
  · intro s hs
    subst hs
    refine ⟨rfl, rfl, rfl, rfl, rfl, ?_, rfl⟩
    intro y hy hn
    simp only [List.mem_singleton] at hy
    subst hy
    exact absurd rfl hn

/-! ## Collectives -/

/-- Collective staging register 0 of core 0 names `count` BF16 elements at 0x10040; its tracker is as given. -/
def col0 (count : Nat) (x : ClTrack) : State := page0 (core0 fun c => { c with
  pre := { c.pre with cl := [(0, { val := 0x10040 }), (1, { val := BitVec.ofNat 64 count }), (3, { val := 0x110 })] }, trk := { cl := [(0, x)] } })

/-- The tracker that the member of `col0` leaves, and that member: withheld, in a live instance, or ended. -/
def namedTrk : ClTrack := { valid := true, buf := 0x10040 }

def namedMember (done : Bool) : Member := { w0 := 0x10040, w1 := 4, w3 := 0x110, done := done }

def withheldCl : State :=
  let s := col0 4 namedTrk
  { s with cores := [(0, { s.core with wb := [{ serial := 1, k := .sluice (namedMember false) {} }] })] }

def liveCl (a : Option Nat) : State := { col0 4 namedTrk with insts := [{ id := 9, part := 0, group := 0, step := 0, members := [namedMember false], abort := a }] }

def endedCl : State := { col0 4 namedTrk with memberEnds := [{ m := namedMember true, part := 0, state := 1, cause := 0, arrived := 2 }] }

theorem witness_CollectiveIssue : (∀ n x, Accepts (col0 n x) (.sluice zeroCp) ∧ Accepts (col0 n x) (.slabort zeroCp) ∧ Accepts (col0 n x) (.slstat { zeroCp with sr := 5 })) ∧
    (sluiceMember (col0 4 {}) zeroCp).illegal = false ∧ BufferRoom (col0 4 {}) 1 ∧ bits (sluiceMember (col0 0 {}) zeroCp).w1 31 0 = 0 ∧
    (∀ n x, Readable (col0 n x) (.s 5)) ∧ (Tbl.getD (col0 4 {}).core.trk.cl 0 {}).valid = false ∧
    (∀ s ∈ [withheldCl, liveCl none, liveCl (some 1), endedCl], Accepts s (.slstat { zeroCp with sr := 5 }) ∧ Tbl.getD s.core.trk.cl 0 {} = namedTrk) ∧
    (∃ e ∈ withheldCl.core.wb, ∃ y w, e.k = .sluice y w ∧ y.isNamed 0 0 0 namedTrk = true) ∧
    (∀ a, (∃ i ∈ (liveCl a).insts, ∃ y ∈ i.members, i.part = namedTrk.part ∧ y.isNamed 0 0 0 namedTrk = true ∧ y.done = false) ∧
      (∀ j ∈ (liveCl a).insts, ∀ z ∈ j.members, j.id = 9 ∧ z = namedMember false) ∧ (liveCl a).core.wb = []) ∧
    endedCl.insts = [] ∧ endedCl.core.wb = [] ∧
    (∃ e, (endedCl.memberEnds.find? fun e => e.m.isNamed endedCl.cur (taskNumber endedCl) 0 namedTrk && decide (e.part = namedTrk.part)) = some e) := by
  refine ⟨fun _ _ => ⟨⟨rfl, rfl⟩, ⟨rfl, rfl⟩, ⟨rfl, rfl⟩⟩, by decide, by unfold BufferRoom; decide, by decide, fun _ _ => .inr ⟨rfl, rfl⟩, rfl, ?_,
    ⟨_, .head _, _, _, rfl, rfl⟩, fun a => ⟨⟨_, .head _, _, .head _, rfl, rfl, rfl⟩, ?_, rfl⟩, rfl, rfl, ⟨_, rfl⟩⟩
  · intro s h
    simp only [List.mem_cons, List.not_mem_nil, or_false] at h
    rcases h with rfl | rfl | rfl | rfl <;> exact ⟨⟨rfl, rfl⟩, rfl⟩
  · intro j hj z hz
    simp only [liveCl, List.mem_singleton] at hj
    subst hj
    simp only [List.mem_singleton] at hz
    exact ⟨rfl, hz⟩

/-- A member of core 0: an all-reduce of two BF16 elements at 0x10040, alone in its instance. -/
def mem1 : Member := { w0 := 0x10040, w1 := 2, w3 := 0x110 }

def inst9 (f : Inst → Inst) (u k : Nat) : State :=
  { page0 s0 with insts := [f { id := 9, part := 0, group := 0, step := 0, members := [mem1] }], ev := { u := u, k := k } }

theorem witness_CollectiveProgress : (∃ i, ((inst9 id (9 * 2048) 0).insts.find? fun x => decide (x.id = (inst9 id (9 * 2048) 0).ev.u / 2048)) = some i ∧
      i.members[(inst9 id (9 * 2048) 0).ev.u % 2048]? = some mem1 ∧ i.members = mem1 :: [] ∧ i.committed = false ∧ i.abort = none ∧ mem1.contrib = none ∧
      (2 ≤ mem1.kind → i.members.length = mem1.nmem) ∧ (inst9 id (9 * 2048) 0).contribution i mem1 = .ok [0, 0]) ∧
    (∃ i, (s0.contribution i mem1) = .error 3) ∧
    (∀ m ∈ [mem1, { mem1 with put := true }, { mem1 with put := true, bad := 3 }], ∃ i,
      ((inst9 (fun i => { i with committed := true, results := [1, 2], members := [m] }) 9 0).insts.find? fun x => decide (x.id = 9)) = some i ∧
      i.members[0]? = some m ∧ i.committed = true ∧ m.done = false ∧ (m.put = true → ∀ y ∈ i.members, y.put = true)) ∧
    (∃ i, ((inst9 (fun i => { i with committed := true, members := [{ mem1 with put := true }, mem1] }) 9 0).insts.find? fun x => decide (x.id = 9)) = some i ∧
      i.members[0]? = some { mem1 with put := true } ∧ ∃ y ∈ i.members, y.put = false) ∧
    (∃ w, (inst9 id 9 0).engineWrite mem1.die mem1.tsid mem1.buf ([1, 2].flatMap (toBytes mem1.size)) = .ok w) ∧
    (∃ e, s0.engineWrite mem1.die mem1.tsid mem1.buf ([1, 2].flatMap (toBytes mem1.size)) = .error e) ∧
    (∃ i, ((inst9 (fun i => { i with abort := some 5 }) (9 * 2048) 0).insts.find? fun x => decide (x.id = 9 * 2048 / 2048)) = some i ∧
      i.members[9 * 2048 % 2048]? = some mem1 ∧ i.abort = some 5 ∧ mem1.done = false) := by
  refine ⟨⟨_, rfl, rfl, rfl, rfl, rfl, rfl, by decide, by rfl⟩, ⟨{ id := 9, part := 0, group := 0, step := 0, members := [mem1] }, by rfl⟩, ?_,
    ⟨_, rfl, rfl, mem1, .tail _ (.head _), rfl⟩, ⟨_, rfl⟩, ⟨_, rfl⟩, ⟨_, rfl, rfl, rfl, rfl⟩⟩
  intro m h
  simp only [List.mem_cons, List.not_mem_nil, or_false] at h
  rcases h with rfl | rfl | rfl <;> refine ⟨_, rfl, rfl, rfl, rfl, ?_⟩ <;> simp

/-! ## Sync slot -/

/-- The first 1 GiB of translation space 0, mapped to itself in the L2 TLB of die 0. -/
def wideEnt : TlbEnt := { tsid := 0, vpage := 0, size := 3, pa := 0, r := true, w := true, x := true, dev := false }

def wideDie : Die := { l2tlb := [wideEnt] }

theorem enginePa_wide {s : State} (h₁ : s.dies = [(0, wideDie)]) (h₂ : s.packages = [0]) (h₃ : s.offlineStacks = []) (h₄ : s.poison = []) {va : Nat}
    (hv : va < 2 ^ 30) : s.enginePa 0 0 va 1 = .ok va := by
  have e₁ : ¬2 ^ 56 ≤ va := by omega
  have e₄ : va / 2 ^ 37 = 0 := by omega
  have e₅ : va % 2 ^ 37 < 0xC00000000 := by omega
  have f : ((s.dieAt 0).l2tlb.find? fun e => e.covers 0 va && e.allows 1) = some wideEnt := by
    rw [show s.dieAt 0 = wideDie by simp [State.dieAt, h₁, Tbl.getD, Tbl.get?]]
    simp [wideDie, TlbEnt.covers, TlbEnt.allows, wideEnt, pageBytes]
    omega
  have p : wideEnt.phys va = va := by
    show 0 + va % 2 ^ 30 = va
    omega
  simp only [State.enginePa, State.engineXl, e₁, if_false, f, p]
  have h : s.homeOk 0 va = true := by
    unfold State.homeOk State.dieReach
    rw [e₄, h₂, h₃]
    simp
    omega
  simp [wideEnt, h, State.poisoned, h₄]

theorem engineFill_wide {s : State} (h : s.dies = [(0, wideDie)]) {va : Nat} (hv : va < 2 ^ 30) : s.engineFill 0 0 va = s := by
  have e : ((s.dieAt 0).l2tlb.any fun e => e.covers 0 va) = true := by
    rw [show s.dieAt 0 = wideDie by simp [State.dieAt, h, Tbl.getD, Tbl.get?]]
    simp [wideDie, TlbEnt.covers, wideEnt, pageBytes]
    omega
  simp [State.engineFill, e]

theorem engineStore_wide (n : Nat) : ∀ (s : State) (va : Nat) (bs : List Byte), s.dies = [(0, wideDie)] → s.packages = [0] → s.offlineStacks = [] →
    s.poison = [] → va + bs.length ≤ 2 ^ 30 →
    ∃ t, s.engineStore 0 0 n va bs = .ok t ∧ t.dies = [(0, wideDie)] ∧ t.packages = [0] ∧ t.offlineStacks = [] ∧ t.poison = [] := by
  induction n with
  | zero => exact fun s va bs h₁ h₂ h₃ h₄ _ => ⟨s, rfl, h₁, h₂, h₃, h₄⟩
  | succ n ih =>
    intro s va bs h₁ h₂ h₃ h₄ hl
    cases bs with
    | nil => exact ⟨s, rfl, h₁, h₂, h₃, h₄⟩
    | cons b bs =>
      simp only [State.engineStore, List.isEmpty_cons, Bool.false_eq_true, if_false]
      have hv : va < 2 ^ 30 := by simp at hl; omega
      rw [enginePa_wide h₁ h₂ h₃ h₄ hv, engineFill_wide h₁ hv]
      by_cases hk : va + (128 - va % 128) + ((b :: bs).drop (128 - va % 128)).length ≤ 2 ^ 30
      · exact ih _ _ _ h₁ h₂ h₃ h₄ hk
      · have : (b :: bs).drop (128 - va % 128) = [] := by
          rw [List.drop_eq_nil_iff]
          simp only [List.length_drop] at hk
          omega
        rw [this]
        cases n <;> exact ⟨_, rfl, h₁, h₂, h₃, h₄⟩

theorem writeRuns_wide (base : Nat) : ∀ (rs : List (Nat × List Byte)) (s : State), s.dies = [(0, wideDie)] → s.packages = [0] → s.offlineStacks = [] →
    s.poison = [] → (∀ r ∈ rs, base + r.1 + r.2.length ≤ 2 ^ 30) → ∃ t, s.writeRuns 0 0 base rs = .ok t := by
  intro rs
  induction rs with
  | nil => exact fun s _ _ _ _ _ => ⟨s, rfl⟩
  | cons r rs ih =>
    intro s h₁ h₂ h₃ h₄ h
    obtain ⟨t, e, k₁, k₂, k₃, k₄⟩ := engineStore_wide (r.2.length / 128 + 2) s (base + r.1) r.2 h₁ h₂ h₃ h₄ (h r (.head _))
    obtain ⟨u, e'⟩ := ih t k₁ k₂ k₃ k₄ fun q hq => h q (.tail _ hq)
    exact ⟨u, by simp only [State.writeRuns, State.engineWrite, e, e']⟩

/-- Core 0 with the task of a point; its save frames are mapped. -/
def leave0 (f : Core → Core) : State := { core0 (fun c => f { c with task := some { r := {}, id := 1 } }) with dies := [(0, wideDie)] }

theorem canLeave0 : ∃ w, CanLeave (leave0 id) 0 { r := {}, id := 1 } w := by
  obtain ⟨w, h⟩ := writeRuns_wide (frameAddr ((leave0 id).ctxAt 0 0).desc.savebase 0 0) ((leave0 id).core.live.frameRuns) (leave0 id).leaving rfl rfl rfl rfl (by
    simp only [Regs.frameRuns, List.mem_cons, List.not_mem_nil, or_false]
    have e : frameAddr ((leave0 id).ctxAt 0 0).desc.savebase 0 0 = 0 := rfl
    have l : (leave0 id).core.live = {} := rfl
    rw [e, l]
    rintro r (rfl | rfl | rfl) <;> decide +kernel)
  exact ⟨w, rfl, rfl, rfl, rfl, rfl, h⟩

/-- Post, flag and group states of core 0. -/
def posted : State := { s0 with posts := [{ id := 5, src := 0, target := 0, flag := 3 }, { id := 6, src := 0, target := 127, flag := 3 }] }

theorem witness_Flags : (∀ r ea, Readable s0 (.s r) ∧ Accepts s0 (.fpost 3 (BitVec.ofNat 6 0) ea)) ∧ Accepts s0 (.fset 3 1 false) ∧ Accepts s0 (.fget 3 1) ∧
    (s0.sv 0).getLsbD 63 = false ∧ s0.cur = 0 ∧ Accepts (regs0 [(1, 0x400)]) (.fpost 3 1 false) ∧ Readable (regs0 [(1, 0x400)]) (.s 1) ∧
    namedUnit ((regs0 [(1, 0x400)]).sv 1) = 1 ∧ BufferRoom (regs0 [(1, 0x400)]) 1 ∧
    (posted.posts.find? fun y => decide (y.id = 5)) = some { id := 5, src := 0, target := 0, flag := 3 } ∧ posted.postReaches 0 0 = true ∧
    (posted.posts.find? fun y => decide (y.id = 6)) = some { id := 6, src := 0, target := 127, flag := 3 } ∧ posted.postReaches 0 127 = false :=
  ⟨fun _ ea => ⟨rd rfl rfl _, by cases ea <;> exact ⟨rfl, rfl⟩⟩, ⟨rfl, rfl⟩, ⟨rfl, rfl⟩, by decide, rfl, ⟨rfl, rfl⟩, .inr ⟨rfl, rfl⟩, by decide,
    by unfold BufferRoom; decide, rfl, by decide, rfl, by decide⟩

/-- Core 0, at cycle 1, with flag 3 at 2 and counter 4 posted or not; it holds in the wait given beyond its deadline, or has resumed with TO. -/
def wait0 (po to_ : Bool) (h : Hold) : State := { core0 (fun c => { c with
  pre := { c.pre with flag := [(3, 2)], s := [(1, { val := 3 })] }, lc := [(4, { posted := po, slot := some (0, 3, 1) })], timedOut := to_
  held := h, holding := true, deadline := some 0, resume := [(2, { r := { wkind := 1, dlv := true, dline := 0 } })] }) with now := 1 }

theorem overdue0 (po to_ : Bool) (h : Hold) (k : Nat) : Overdue (wait0 po to_ h) k := by
  refine ⟨⟨0, rfl, ?_⟩, rfl, .inr rfl⟩
  rw [show (wait0 po to_ h).cycle48 (dieOf (wait0 po to_ h).cur) = 1 from rfl]
  decide

theorem not_expired : ¬Expired s0 0 := by
  rintro ⟨d, h, _⟩
  exact absurd h (by simp [s0, core0, State.coreAt, Tbl.getD, Tbl.get?])

theorem not_overdue {k : Nat} : ¬Overdue s0 k := fun h => not_expired h.1

theorem witness_Waits : (∀ a b h, Accepts (wait0 a b h) (.fwait 3 1 false 31) ∧ Accepts (wait0 a b h) (.fwait 3 0 false 0) ∧ Accepts (wait0 a b h) (.lwait 4 0) ∧
      Accepts (wait0 a b h) (.lset 4 1 false) ∧ Readable (wait0 a b h) (.s 1) ∧ Readable (wait0 a b h) (.s 0) ∧ (wait0 a b h).core.timedOut = b ∧
      ∀ k, Overdue (wait0 a b h) k) ∧
    Accepts s0 (.fwait 3 0 false 0) ∧ Accepts s0 (.fwait 3 0 false 31) ∧ Accepts s0 (.lwait 4 0) ∧ (∀ k, ¬Overdue s0 k) ∧
    Accepts (regs0 [(1, 1)]) (.fwait 3 1 false 0) ∧ ((regs0 [(1, 1)]).sv 1).toNat % 65536 = 1 ∧ Core.flag (regs0 [(1, 1)]).pre 3 = 0 ∧ (regs0 [(1, 1)]).core.deadline = none ∧
    ((wait0 true false .plain).core.lcAt 4).posted = true ∧ ((wait0 false false .plain).core.lcAt 4).posted = false ∧ (s0.core.lcAt 4).posted = false ∧
    ((wait0 false false .plain).sv 1).toNat % 65536 = 3 ∧ Core.flag (wait0 false false .plain).pre 3 = 2 ∧ CanCheckpoint (wait0 false false .plain) ∧
    (∀ k, ((wait0 false false (.timed k 4 1 none)).coreAt 0).held = .timed k 4 1 none ∧ ((wait0 false false (.timed k 4 1 none)).coreAt 0).run = .running ∧
      ((wait0 false false (.timed k 4 1 none)).coreAt 0).holding = true ∧ ((wait0 false false (.timed k 4 1 none)).coreAt 0).push = .none) ∧
    (∀ k ∈ [1, 2, 8], (wait0 false false (.timed k 4 1 none)).waitOver k 4 1 = false) ∧
    (({ wait0 false false (.timed 3 3 0 none) with dies := [(0, { ctxs := [(0, { chans := [(3, { ent3 with pushIx := 2 })] })] })] } : State).waitOver 3 3 0 = false) ∧
    (({ wait0 false false (.timed 4 3 0 none) with dies := [(0, { ctxs := [(0, { chans := [(3, ent3)] })] })] } : State).waitOver 4 3 0 = false) ∧
    (∃ p, Tbl.get? ((wait0 false false .plain).coreAt 0).resume 2 = some p ∧ p.r.dlv = true ∧ p.ready = false ∧ p.ending = none ∧ p.r.dline = 0 ∧
      (wait0 false false .plain).cycle48 0 = 1) :=
  ⟨fun _ _ _ => ⟨⟨rfl, rfl⟩, ⟨rfl, rfl⟩, ⟨rfl, rfl⟩, ⟨rfl, rfl⟩, .inr ⟨rfl, rfl⟩, .inr ⟨rfl, rfl⟩, rfl, overdue0 _ _ _⟩, ⟨rfl, rfl⟩, ⟨rfl, rfl⟩, ⟨rfl, rfl⟩, fun _ => not_overdue,
    ⟨rfl, rfl⟩, by decide, rfl, rfl, rfl, rfl, rfl, by decide, rfl, .inr ⟨rfl, rfl⟩, fun _ => ⟨rfl, rfl, rfl, rfl⟩, by decide, by decide, by decide, ⟨_, rfl, rfl, rfl, rfl, rfl, rfl⟩⟩

/-- Core 0 at both ends of channel 3, whose entry is as given; a push to it is on its way. -/
def chan0 (e : ChanEnt) (f : Core → Core) : State := { core0 (fun c => f { c with task := some { r := {}, id := 1 } }) with
  dies := [(0, { ctxs := [(0, { chans := [(3, e)] })] })], pushes := [{ id := 9, src := 0, dst := 0, ctx := 0, ch := 3, val := 7 }], ev := { u := 9 } }

theorem witness_ChannelQueues : (∀ e f, (chan0 e f).chan 0 (chan0 e id).taskCtx 3 = some e) ∧ Sends (chan0 ent3 id) 3 ent3 ∧
    Accepts (chan0 ent3 id) (.qpush 3 1 false 0) ∧ Readable (chan0 ent3 id) (.s 1) ∧ CanCheckpoint (chan0 ent3 id) ∧ (chan0 ent3 id).core.push = .none ∧
    (chan0 ent3 id).core.timedOut = false ∧ (chan0 ent3 id).core.inGroup = false ∧ (chan0 ent3 id).core.mmaUnchecked = false ∧
    (chan0 ent3 fun c => { c with push := .applied }).core.push = .applied ∧
    (∀ x, x = chan0 { ent3 with pushIx := 2 } (fun c => { c with push := .full }) → x.core.push = .full ∧
      x.chanAtReceiver { ent3 with pushIx := 2 } x.taskCtx 3 = some { ent3 with pushIx := 2 } ∧ ¬Expired x 0) ∧
    (chan0 ent3 fun c => { c with timedOut := true }).core.timedOut = true ∧ Accepts (chan0 ent3 fun c => { c with timedOut := true }) (.qpush 3 1 false 0) ∧
    Accepts (chan0 ent3 fun c => { c with timedOut := true }) (.qpop 3 1 0) ∧ ¬Expired (chan0 ent3 id) 0 ∧
    (∀ c e, c = 0 ∨ c < 4 → (chan0 { ent3 with e0 := 0 } id).chan 0 c 3 = some e → ¬(e.e0 = 1 ∧ e.e1 = 0)) ∧
    Accepts s0 (.qpush 3 1 false 0) ∧ (∀ e, ¬Sends s0 3 e) ∧
    (∀ x, x = chan0 { ent3 with isOpen := true, pushIx := 1 } id → Accepts x (.qpop 3 1 0) ∧ isPlan x.cur = false ∧ x.core.timedOut = false) ∧ ent3.receiver = 0 ∧
    Accepts (chan0 { ent3 with isOpen := true } id) (.qpop 3 1 0) ∧ Accepts s0 (.qpop 3 1 0) ∧ s0.chan 0 s0.taskCtx 3 = none ∧ ent3.isOpen = false ∧
    ((chan0 ent3 id).pushes.find? fun y => decide (y.id = 9)) = some { id := 9, src := 0, dst := 0, ctx := 0, ch := 3, val := 7 } ∧
    ent3.count < ent3.depth ∧ ({ ent3 with pushIx := 2 } : ChanEnt).depth ≤ ({ ent3 with pushIx := 2 } : ChanEnt).count ∧
    ((chan0 ent3 fun c => { c with push := .flying 9 }).coreAt 0).push = .flying 9 := by
  refine ⟨fun _ _ => rfl, ⟨rfl, by decide⟩, ⟨rfl, rfl⟩, .inr ⟨rfl, rfl⟩, .inr ⟨rfl, rfl⟩, rfl, rfl, rfl, rfl, rfl, ?_, rfl, ⟨rfl, rfl⟩, ⟨rfl, rfl⟩, ?_, ?_, ⟨rfl, rfl⟩, fun e h => ?_, ?_, by decide, ⟨rfl, rfl⟩, ⟨rfl, rfl⟩, rfl, rfl, rfl,
    by decide, by decide, rfl⟩
  · rintro x rfl
    refine ⟨rfl, by rfl, ?_⟩
    rintro ⟨d, h, _⟩
    exact absurd h (by simp [chan0, core0, State.coreAt, Tbl.getD, Tbl.get?])
  · rintro ⟨d, h, _⟩
    exact absurd h (by simp [chan0, core0, State.coreAt, Tbl.getD, Tbl.get?])
  · intro c e hc h he
    have : c < 4 := by omega
    match c, this with
    | 0, _ => cases h; exact absurd he.1 (by decide)
    | 1, _ => cases h
    | 2, _ => cases h
    | 3, _ => cases h
  · exact nomatch h.1
  · rintro x rfl; exact ⟨⟨rfl, rfl⟩, rfl, rfl⟩

/-- Only core 0 of its quad is online, or all of them are. -/
def lone : State := { s0 with cores := s0.cores ++ [(1, { run := .offline }), (2, { run := .offline }), (3, { run := .offline })] }

theorem witness_Barrier : (∀ b, Accepts (core0 fun c => { c with inGroup := true, ckDone := b }) (.bar 1 0) ∧
      (core0 fun c => { c with inGroup := true, ckDone := b }).core.inGroup = true ∧ (core0 fun c => { c with inGroup := true, ckDone := b }).core.ckDone = b) ∧
    (∀ b, Accepts (core0 fun c => { c with barDone := b }) (.bar 0 0) ∧ Accepts (core0 fun c => { c with barDone := b }) (.bar 1 0) ∧
      (core0 fun c => { c with barDone := b }).core.barArrived = none ∧ (core0 fun c => { c with barDone := b }).core.inGroup = false ∧
      (core0 fun c => { c with barDone := b }).core.mmaUnchecked = false ∧ (core0 fun c => { c with barDone := b }).core.barDone = b) ∧
    Accepts pending1 (.bar 1 0) ∧ pending1.core.inGroup = false ∧ pending1.core.mmaUnchecked = false ∧ pending1.core.barDone = false ∧
    pending1.core.barArrived = none ∧ ¬BarSettled pending1 1 ∧ BarSettled pending1 0 ∧
    BarSettled s0 1 ∧ s0.weirMembers 0 1 = [0, 1, 2, 3] ∧ (s0.coreAt 1).barArrived = none ∧ s0.late = [] ∧
    lone.weirMembers 0 1 = [0] ∧ Accepts lone (.bar 1 0) ∧ lone.core.inGroup = false ∧ lone.core.mmaUnchecked = false ∧ lone.core.barDone = false ∧
    lone.core.barArrived = none ∧ BarSettled lone 1 :=
  ⟨fun b => by cases b <;> exact ⟨⟨rfl, rfl⟩, rfl, rfl⟩, fun b => by cases b <;> exact ⟨⟨rfl, rfl⟩, ⟨rfl, rfl⟩, rfl, rfl, rfl, rfl⟩, ⟨rfl, rfl⟩, rfl, rfl, rfl, rfl,
    (fun h => h.elim (by decide) fun h => absurd h.1 (by decide)), .inl rfl, .inr ⟨rfl, noneIn rfl⟩, by decide, rfl, rfl, by decide, ⟨rfl, rfl⟩, rfl, rfl, rfl, rfl,
    .inr ⟨rfl, noneIn rfl⟩⟩

/-- Core 0 with a withheld post, released or not. -/
def post0 (r : Bool) : State := core0 fun c => { c with wb := [{ serial := 1, k := .post 0 3, released := r }] }

/-- Core 0 whose resume list is full. -/
def full0 (f : Core → Core) : State := core0 fun c => f { c with task := some { r := {}, id := 1 }, resume := (List.range 16).map fun n => (n, { r := {} }) }

/-- Core 0 in a group, an earlier slot of which has a load of tag 1 pending and a store withheld. -/
def ownGroup : State := { core0 (fun c => { c with inGroup := true, tags := [(1, { st := .pending })], wb := [{ serial := 1, k := .store [] [] false false }] }) with
  groupCore := { id := 0, run := .running } }

theorem witness_FencesAndSuspend : Accepts s0 (.fence 0) ∧ Accepts s0 (.fence 2) ∧ s0.core.wb = [] ∧ s0.core.pendingMask = 0 ∧ s0.prior = s0 ∧
    (∀ r, Accepts (post0 r) (.fence 2) ∧ (post0 r).prior = post0 r) ∧ (∃ e ∈ (post0 false).core.wb, e.released = false) ∧
    (∀ e ∈ (post0 true).core.wb, e.released = true) ∧ (post0 true).core.wb ≠ [] ∧
    Accepts ownGroup (.fence 2) ∧ ownGroup.prior.core.wb = [] ∧ ownGroup.prior.core.pendingMask = 0 ∧ ownGroup.core.pendingMask ≠ 0 ∧
    Accepts ownGroup (.xfence 0 3) ∧ PathQuiet ownGroup.prior 0 ∧ PathQuiet ownGroup.prior 3 ∧ ¬PathQuiet ownGroup 0 ∧
    Accepts s0 (.xfence 0 3) ∧ Accepts s0 (.xfence 2 3) ∧ PathQuiet s0 0 ∧ PathQuiet s0 2 ∧ PathQuiet s0 3 ∧
    Accepts pending1 (.xfence 0 3) ∧ pending1.prior = pending1 ∧ ¬PathQuiet pending1 0 ∧
    Accepts (full0 id) .suspend ∧ (∀ n, n < 16 → (Tbl.get? (full0 id).core.resume n).isSome = true) ∧
    (∀ f, f = id ∨ f = (fun c => { c with inGroup := true }) → Accepts (leave0 f) .suspend ∧ Tbl.free (leave0 f).core.resume 16 = some 0 ∧
      (leave0 f).core.tlevel = 0 ∧ (leave0 f).core.after = []) ∧
    ∃ w, CanLeave (leave0 id) 0 { r := {}, id := 1 } w :=
  ⟨⟨rfl, rfl⟩, ⟨rfl, rfl⟩, rfl, rfl, rfl, fun _ => ⟨⟨rfl, rfl⟩, rfl⟩, ⟨_, .head _, rfl⟩, by decide, by decide,
    ⟨rfl, rfl⟩, rfl, rfl, by decide, ⟨rfl, rfl⟩, ⟨rfl, noneIn rfl⟩, ⟨noneIn rfl, noneIn rfl⟩, fun h => absurd h.1 (by decide),
    ⟨rfl, rfl⟩, ⟨rfl, rfl⟩, ⟨rfl, noneIn rfl⟩, noneIn rfl, ⟨noneIn rfl, noneIn rfl⟩, ⟨rfl, rfl⟩, rfl,
    fun h => absurd h.1 (by decide), ⟨rfl, rfl⟩, by decide, fun f h => by rcases h with rfl | rfl <;> exact ⟨⟨rfl, rfl⟩, rfl, rfl, rfl⟩, canLeave0⟩

/-! ## Branch slot and the ends of tasks -/

/-- Core 0 with s1 = 2, and p1 = 1 and the rest of the predicates zero. -/
def cond0 : State := core0 fun c => { c with pre := { c.pre with s := [(1, { val := 2 })], p := [(1, { val := 1 }), (2, { val := BitVec.allOnes 512 })] } }

theorem witness_Branches : Accepts s0 (.pbr 2 (-1)) ∧ s0.core.bpc % 4 = 0 ∧ Accepts s0 (.pbrl 2 64) ∧ Accepts s0 (.pbrs 2 1 false) ∧ Readable s0 (.s 1) ∧
    (∀ c ∈ [0x00, 0x40, 0x41, 0x80, 0x81, 0xC0, 0xC1, 0xD0, 0xD1, 0xE0, 0xE1, 0xE2, 0xF0, 0xF1], guard (.br 2 (BitVec.ofNat 8 c) false) cond0 = .ok () ∧
      guard (.ret 2 (BitVec.ofNat 8 c) false) cond0 = .ok () ∧ guard (.call 2 (BitVec.ofNat 8 c) 3 false) cond0 = .ok ()) ∧ cond0.issues = true ∧
    (∀ c r, conditionReg c = some r → Readable s0 r) ∧ condition cond0 0x41 ∧ ¬condition cond0 0x40 ∧ condition cond0 0x80 ∧ ¬condition cond0 0x81 ∧
    Accepts cond0 (.loop 2 1 false) ∧ Readable cond0 (.s 1) ∧ cond0.sv 1 ≠ 0 ∧ s0.sv 1 = 0 := by
  refine ⟨⟨rfl, rfl⟩, rfl, ⟨rfl, rfl⟩, ⟨rfl, rfl⟩, .inr ⟨rfl, rfl⟩, ?_, rfl, fun _ r _ => rd rfl rfl r, ?_, ?_, ?_, ?_, ⟨rfl, rfl⟩, .inr ⟨rfl, rfl⟩, by decide, rfl⟩
  · decide +kernel
  · exact (show (2 : DWord) ≠ 0 by decide)
  · exact fun h => h rfl
  · exact (show (0 : DWord) = 0 from rfl)
  · exact fun h => absurd (show (2 : DWord) = 0 from h) (by decide)

/-- Core 0 in the handler of a trap of its task, whose RCLASS is `k`. -/
def handler0 (k : Nat) : State := core0 fun c => { c with tlevel := 1, task := some { r := { rclass := k }, id := 1 } }

def groupOf (s : State) : State := s.upd fun c => { c with inGroup := true }

/-- Core 0 with an empty register. -/
def emptyLive : State := core0 fun c => { c with live := { c.live with s := [(1, { val := 0, full := false })] } }

/-- Core 0 with a result that is to be written in cycle n. -/
def late1 (n : Nat) : State := core0 fun c => { c with pipe := [{ due := n, dest := some (.s 1), val := 0, taint := 0 }] }

theorem witness_ModesAndEnds : (∀ s ∈ [s0, emptyLive, groupOf s0], Accepts s .modeEx ∧ Accepts s .modeIl) ∧ Complete s0.core s0.now ∧
    Complete (groupOf s0).prior.core (groupOf s0).now ∧ ¬Complete emptyLive.prior.core emptyLive.now ∧
    (∀ n, Complete (late1 n).core (late1 n).now ↔ n ≤ 1) ∧ (groupOf s0).core.after = [] ++ [] ∧
    Accepts (groupOf s0) .done ∧ Accepts (groupOf s0) (.sysc 7) ∧ Accepts (groupOf (handler0 1)) .tret ∧ (groupOf s0).core.inGroup = true ∧
    Accepts s0 .done ∧ s0.core.inGroup = false ∧ isCompute s0.cur = true ∧ s0.core.tlevel = 0 ∧ MayEnd s0.core ∧ Accepts pending1 .done ∧ ¬MayEnd pending1.core ∧
    (∀ k, Accepts (handler0 k) .done ∧ 0 < (handler0 k).core.tlevel ∧ (handler0 k).core.task = some { r := { rclass := k }, id := 1 } ∧ Accepts (handler0 k) .tret ∧
      (handler0 k).boundPassed 0 = false) ∧
    Accepts (plan8 id) .done ∧ isPlan (plan8 id).cur = true ∧ (plan8 id).core.inGroup = false ∧
    Accepts (full0 id) .yield ∧ (∀ n, n < 16 → (Tbl.get? (full0 id).core.resume n).isSome = true) ∧ Accepts (leave0 id) .yield ∧ Accepts (groupOf (leave0 id)) .yield ∧
    Tbl.free (leave0 id).core.resume 16 = some 0 ∧ Tbl.free (groupOf (leave0 id)).core.resume 16 = some 0 ∧
    (∃ w, CanLeave (leave0 id) 0 { r := {}, id := 1 } w) ∧ Accepts s0 (.trap 7) ∧ Accepts s0 (.sysc 7) ∧ Accepts s0 (.bkpt 7) ∧ s0.core.mmaUnchecked = false ∧
    (∀ s, s = (core0 fun c => { c with tlevel := 2, ret1 := { recs := [1, 2, 3, 4, 5, 6] } }) → Accepts s .tret ∧ s.core.ret1.recs.length = 6 ∧ s.core.tlevel = 2 ∧ s.core.mmaUnchecked = false) := by
  refine ⟨?_, ⟨rfl, .inr (noneIn rfl)⟩, ⟨rfl, .inr (noneIn rfl)⟩, (fun h => absurd h.1 (by decide)), fun n => ?_, rfl, ⟨rfl, rfl⟩, ⟨rfl, rfl⟩, ⟨rfl, rfl⟩, rfl, ⟨rfl, rfl⟩, rfl, rfl, rfl,
    ⟨rfl, rfl, by decide⟩, ⟨rfl, rfl⟩, (fun h => absurd h.1 (by decide)), fun _ => ⟨⟨rfl, rfl⟩, Nat.one_pos, rfl, ⟨rfl, rfl⟩, rfl⟩, ⟨rfl, rfl⟩, rfl, rfl,
    ⟨rfl, rfl⟩, by decide, ⟨rfl, rfl⟩, ⟨rfl, rfl⟩, rfl, rfl, canLeave0, ⟨rfl, rfl⟩, ⟨rfl, rfl⟩, ⟨rfl, rfl⟩, rfl, ?_⟩
  · simp only [List.mem_cons, List.not_mem_nil, or_false]
    rintro s (rfl | rfl | rfl) <;> exact ⟨⟨rfl, rfl⟩, ⟨rfl, rfl⟩⟩
  · refine ⟨fun h => h.2.elim (fun h => nomatch h) fun h => h _ (.head _), fun h => ⟨rfl, .inr fun w hw => ?_⟩⟩
    cases hw with
    | head => exact h
    | tail _ hw => exact nomatch hw
  · rintro s rfl; exact ⟨⟨rfl, rfl⟩, rfl, rfl, rfl⟩

theorem witness_TrapEntry : isPlan 0 = false ∧ (∀ s, s = (core0 fun c => { c with tvec1 := 64, tvec2 := 128 }) → (s.coreAt 0).tlevel = 0 ∧ (s.coreAt 0).tvec1 ≠ 0 ∧
      (s.coreAt 0).shadow.tileHit = false ∧ (s.coreAt 0).shadow.slotHit = false) ∧ (∃ c, FaultClass c) ∧ ¬FaultClass 0x19 ∧
    (∀ s, s = (core0 fun c => { c with tvec2 := 128, tlevel := 1 }) → (s.coreAt 0).tlevel = 1 ∧ (s.coreAt 0).tvec2 ≠ 0) ∧
    (∀ s, s = (core0 fun c => { c with task := some { r := { rclass := 1 }, id := 1 } }) → (s.coreAt 0).task = some { r := { rclass := 1 }, id := 1 } ∧ (s.coreAt 0).tvec1 = 0) ∧
    (∀ s, s = (core0 fun c => { c with tvec1 := 64, shadow := { c.shadow with tileHit := true }, task := some { r := { rclass := 1 }, id := 1 } }) →
      (s.coreAt 0).shadow.tileHit = true) ∧ isControl (ctl0 id).cur = true ∧ ((ctl0 id).coreAt 72).tvec1 = 0 ∧
    ((handler0 1).coreAt 0).tlevel = 1 ∧ ((handler0 1).coreAt 0).resume = [] ∧
    (∀ k ∈ [0, 2], ((handler0 k).coreAt 0).task = some { r := { rclass := k }, id := 1 } ∧ (handler0 k).boundPassed 0 = false ∧ ((handler0 k).coreAt 0).resume = [] ∧
      ((handler0 k).coreAt 0).tlevel = 1) ∧
    (∀ k ∈ [0, 2], ∀ b v, ∀ s, s = (core0 fun c => { c with tvec1 := v, shadow := { c.shadow with slotHit := b }, task := some { r := { rclass := k }, id := 1 } }) →
      (s.coreAt 0).tlevel = 0 ∧ (s.coreAt 0).task = some { r := { rclass := k }, id := 1 } ∧ s.boundPassed 0 = false ∧ (s.coreAt 0).shadow.slotHit = b ∧
      (s.coreAt 0).tvec1 = v) :=
  ⟨rfl, (by rintro s rfl; exact ⟨rfl, by decide, rfl, rfl⟩), ⟨0x0B, by unfold FaultClass; decide⟩, (fun h => h.2.2.1 rfl), (by rintro s rfl; exact ⟨rfl, by decide⟩),
    (by rintro s rfl; exact ⟨rfl, rfl⟩), (by rintro s rfl; rfl), rfl, rfl, rfl, rfl, fun _ _ => ⟨rfl, rfl, rfl, rfl⟩,
    fun _ _ _ _ => by rintro s rfl; exact ⟨rfl, rfl, rfl, rfl, rfl⟩⟩

/-! ## System instructions -/

/-- Control core 0 with s1 = `a` and s2 = `b`. -/
def sys0 (a b : Nat) (f : Core → Core) : State := ctl0 fun c =>
  let t : Tbl (Reg DWord) := [(1, { val := BitVec.ofNat 64 a }), (2, { val := BitVec.ofNat 64 b })]
  f { c with pre := { c.pre with s := t }, live := { c.live with s := t } }

/-- Control core 0 with a store of its own group, or of an earlier one, in the buffer. -/
def storing (own : Bool) : State :=
  { sys0 0 0 (fun c => { c with inGroup := own, wb := [{ serial := 1, k := .store [] [] false false }] }) with groupCore := (sys0 0 0 id).core }

theorem witness_SystemInstructions : (∀ a b, Readable (sys0 a b id) (.s 1) ∧ Readable (sys0 a b id) (.s 2) ∧ Accepts (sys0 a b id) (.cwb (sy 1 2)) ∧
      Accepts (sys0 a b id) (.iinv (sy 1 2)) ∧ Accepts (sys0 a b id) .fbar ∧ Accepts (sys0 a b id) .tlbinva ∧ Accepts (sys0 a b id) (.tlbwr (sy 1 2)) ∧
      Accepts (sys0 a b id) (.tlbprobe (sy 1 2)) ∧ Accepts (sys0 a b id) (.tlbinv (sy 1 2)) ∧ Accepts (sys0 a b id) .waiti ∧ Accepts (sys0 a b id) (.dbell 1 false)) ∧
    (sys0 0 0 id).prior = sys0 0 0 id ∧ StoresDone (sys0 0 0 id) ∧ (∀ o, Accepts (storing o) (.cwb (sy 1 2)) ∧ ¬StoresDone (storing o)) ∧
    StoresDone (storing true).prior ∧ ¬StoresDone (storing false).prior ∧
    (∃ x, tlbWord 0x12345 0x1001D x) ∧ (∀ x, ¬tlbWord 0 0 x) ∧ (sys0 0 0 id).core.shoot = .none ∧ (sys0 0 0 id).core.pendingMask = 0 ∧ (sys0 0 0 id).core.inGroup = false ∧
    0 ∈ (sys0 0 0 id).packages ∧ (sys0 0 0 fun c => { c with shoot := .applied }).core.shoot = .applied ∧
    (∀ s, s = groupOf (sys0 0 0 id) → Accepts s (.tlbinv (sy 1 2)) ∧ s.core.inGroup = true ∧ StoresDone s.prior ∧ s.prior.core.shoot = .none ∧ s.prior.core.pendingMask = 0) ∧
    ((sys0 0 0 id).sv 2).toNat < 6 ∧ 6 ≤ ((sys0 0 6 id).sv 2).toNat ∧
    (∀ s, s = sys0 0 0 (fun c => { c with irqPend := 1, irqMask := 1 }) → Accepts s .waiti ∧ s.core.irqPend &&& s.core.irqMask ≠ 0 ∧ CanCheckpoint s ∧ s.core.ckDone = false) ∧
    (∀ g, ∀ s, s = sys0 0 0 (fun c => { c with irqPend := 1, irqMask := 1, inGroup := g, mxq := [{ id := 1, op := .mma 1 2 3 false false false false, pc := 0, checked := false }] }) →
      Accepts s .waiti ∧ s.core.irqPend &&& s.core.irqMask ≠ 0 ∧ s.core.ckDone = false ∧ s.core.inGroup = g ∧ s.core.mmaUnchecked = true) ∧
    (sys0 0 0 id).core.irqPend &&& (sys0 0 0 id).core.irqMask = 0 ∧ ((sys0 (2 ^ 63) 0 id).sv 1).getLsbD 63 = true ∧ BufferRoom (sys0 (2 ^ 63) 0 id) 1 ∧
    (∃ e, (((sys0 0 0x10000 id).core.tlb ++ ((page0 (sys0 0 0x10000 id)).dieAt 0).l2tlb).find? fun e => e.covers 0 0x10000) = some e) ∧
    (∀ e ∈ (sys0 0 0 id).core.tlb ++ ((sys0 0 0 id).dieAt 0).l2tlb, e.covers 0 0 = false) ∧ (∃ n, (sys0 0 0 id).walkNow 0 0 0 = .error (.reason n)) := by
  have sd : ∀ o, ¬StoresDone (storing o) := fun o h => h _ (.head _) _ _ _ _ rfl
  refine ⟨fun _ _ => ⟨.inr ⟨rfl, rfl⟩, .inr ⟨rfl, rfl⟩, ⟨rfl, rfl⟩, ⟨rfl, rfl⟩, ⟨rfl, rfl⟩, ⟨rfl, rfl⟩, ⟨rfl, rfl⟩, ⟨rfl, rfl⟩, ⟨rfl, rfl⟩, ⟨rfl, rfl⟩, ⟨rfl, rfl⟩⟩, rfl, noneIn rfl,
    fun o => ⟨by cases o <;> exact ⟨rfl, rfl⟩, sd o⟩, noneIn rfl, sd false,
    ⟨_, by decide, by decide, by decide, by decide, by decide, rfl⟩, fun x h => absurd h.2.2.2.2.1 (by decide), rfl, rfl, rfl, .head _, rfl, ?_, by decide, by decide, ?_, ?_, rfl, by decide,
    by unfold BufferRoom; decide, ⟨_, rfl⟩, noneIn rfl, ⟨_, rfl⟩⟩
  · rintro s rfl
    exact ⟨⟨rfl, rfl⟩, rfl, noneIn rfl, rfl, rfl⟩
  · rintro s rfl
    exact ⟨⟨rfl, rfl⟩, by decide, .inr ⟨rfl, rfl⟩, rfl⟩
  · rintro g s rfl
    cases g <;> exact ⟨⟨rfl, rfl⟩, by decide, rfl, rfl, rfl⟩

/-- A table at 0 whose entry 0 leads back to it, and whose entry 16 is a leaf for the page at 0x10000. -/
def tables : State := { s0 with mem := [(0, 1), (128, 7), (130, 1)] }

/-- Control core 0 with s2 = `o`; context 1 of its die is as given. -/
def ctx1 (o : Nat) (x : Ctx) : State := { sys0 0 o id with dies := [(0, { ctxs := [(1, x)] })], ev := { u := 0, k := 1 } }

theorem witness_ContextsAndTranslation : (∀ o x, Accepts (ctx1 o x) (.ctxswSave (sy 1 2)) ∧ Readable (ctx1 o x) (.s 1) ∧ Readable (ctx1 o x) (.s 2) ∧ (ctx1 o x).ctxAt 0 1 = x) ∧
    (∀ n, n < 4 → ((ctx1 (16 * n + 1) {}).sv 2).toNat = 16 * n + 1) ∧
    (∀ s, s = ({ tables with dies := [(0, { walks := [{ id := 4, tsid := 0, va := 0x10000, root := some 0 }] })] } : State) →
      (s.dieAt 0).walks = [{ id := 4, tsid := 0, va := 0x10000, root := some 0 }] ∧ ({ id := 4, tsid := 0, va := 0x10000, root := some 0 } : Walk).at = some 0) ∧ ((ctx1 68 {}).sv 2).toNat / 64 ≠ 0 ∧
    (∀ s, s = ({ s0 with dies := [(0, { walks := [{ id := 4, tsid := 0, va := 0x10000, us := [0], root := some 0 }], l2tlb := [placePage] })], ev := { u := 0, k := 4 } } : State) →
      ((s.dieAt s.ev.u).walks.find? fun x => decide (x.id = s.ev.k)) = some { id := 4, tsid := 0, va := 0x10000, us := [0], root := some 0 } ∧ ∃ n, s.walkFrom 0 0 0x10000 4 0 = .error (.reason n)) ∧
    (∃ e, tables.walkFrom 0 0 0x10000 4 0 = .ok e) ∧
    (∀ s, s = ({ s0 with cores := [(72, { shoot := .flying 6 })], shoots := [{ id := 6, u := 72, tsid := 0, va := 0, dies := [0] }], ev := { u := 6 } } : State) →
      s.shoots = [{ id := 6, u := 72, tsid := 0, va := 0, dies := [0] }] ∧ s.insts = [] ∧ (s.dieAt 0).copyq = [] ∧ (∀ p ∈ s.cores, p.1 / 128 = 0 → p.2.loads = [] ∧ p.2.wb = []) ∧ (∀ y ∈ s.shoots, y.active = []) ∧
      (s.coreAt 72).shoot = .flying 6) ∧
    (ctx1 0 { pre := .pausing }).saveReady 0 1 = true ∧
    (∀ s, s = ({ ctx1 0 { pre := .pausing } with cores := [(3, { task := some { r := { ctx := 1 }, id := 1 } })] } : State) → s.saveReady 0 1 = false) ∧
    (∀ s, s = ({ core0 (fun c => { c with task := some { r := { rclass := 1, sweep := 2 }, id := 1 }, stopReq := 1 }) with
        dies := [(0, { ctxs := [(0, { pre := .pausing })], sweeps := [(2, { ctx := 0, desc := { rdepth := 1 } })] })], now := 256 } : State) →
      (s.coreAt 0).task = some { r := { rclass := 1, sweep := 2 }, id := 1 } ∧ Tbl.get? (s.dieAt 0).sweeps 2 = some { ctx := 0, desc := { rdepth := 1 } } ∧
      (s.coreAt 0).run = .running ∧ (s.coreAt 0).stopReq = 1 ∧ (s.ctxAt 0 0).pre = .pausing ∧ (s.coreAt 0).stopSince + 256 * 1 ≤ s.now) := by
  refine ⟨fun _ _ => ⟨⟨rfl, rfl⟩, .inr ⟨rfl, rfl⟩, .inr ⟨rfl, rfl⟩, rfl⟩, by decide, (by rintro s rfl; exact ⟨rfl, rfl⟩), by decide, ?_, ok_of (by decide +kernel), ?_, by decide +kernel, ?_, ?_⟩
  · rintro s rfl; exact ⟨rfl, _, rfl⟩
  · rintro s rfl; exact ⟨rfl, rfl, rfl, by decide, by decide, rfl⟩
  · rintro s rfl; decide +kernel
  · rintro s rfl; exact ⟨rfl, rfl, rfl, rfl, rfl, by decide⟩

/-! ## Graph words -/

/-- The sequencer of context 0 of die 0, whose state is x. -/
def seq0 (x : Ctx) : State := { cores := [(96, { id := 96, run := .running })], cur := 96, dies := [(0, { wideDie with ctxs := [(0, x)] })], ev := { u := 0, k := 0 } }

def gcw (imm : Int) : GcWord := { ha := 1, hb := 2, hc := 3, cond := 2, imm := BitVec.ofInt 32 imm }

/-- A shape register h1 of 5, the others zero. -/
def h5 : Tbl DWord := [(1, 5)]

def body0 : LoopEnt := { body := 8, count := 3, reg := 2 }

def openBlock (n : Nat) : Block := { serial := 1, left := n }

theorem own0 (x : Ctx) : (seq0 x).ownCtx = x := by
  simp [State.ownCtx, ctxDie, ctxNumber, seq0, State.ctxAt, State.dieAt, Tbl.getD, Tbl.get?, dieOf]

theorem seq0_sequences (x : Ctx) (h : x.inBlock = false) : Sequences (seq0 x) := ⟨rfl, (show 96 ≤ 96 from Nat.le_refl _), by rw [own0]; exact h⟩

theorem witness_GraphControl : (∀ x, x.inBlock = false → Sequences (seq0 x) ∧ (seq0 x).ownCtx = x) ∧
    (∀ x ∈ [({} : Ctx), { h := h5 }, { h := h5, loops := List.replicate 8 body0 }, { loops := [body0] }, { loops := [{ body0 with index := 2 }] }, { calls := List.replicate 16 { ret := 8 } },
        { calls := [{ ret := 8, replay := some 4 }] }, { caps := [(4, {})] }, { caps := [(4, { closed := true })] }, { caps := [(4, { closed := true })], calls := List.replicate 16 { ret := 8 } }, { blocks := [openBlock 0] }], x.inBlock = false) ∧
    (hreg {} (gcw 4).ha).toNat = 0 ∧ (hreg { h := h5 } (gcw 4).ha).toNat ≠ 0 ∧ compares 2 (hreg {} 1) (hreg { h := h5 } 1) ∧ ¬compares 2 (hreg { h := h5 } 1) (hreg {} 2) ∧
    (gcw 4).cond.toNat < 10 ∧ (gcw 4).imm.toNat = 4 ∧ (∀ x : Ctx, ∀ p ∈ ((seq0 x).dieAt 0).sweeps, p.2.ctx ≠ 0) ∧
    (∃ fn, shapeRule (.hdiv (gcw 1)) = some (gcw 1, fn) ∧ fn 5 0 1 = none ∧ fn 5 2 1 = some 3) ∧
    unitExists (seq0 { blocks := [openBlock 2] }).cur = true ∧ (seq0 { blocks := [openBlock 2] }).ownCtx.inBlock = true ∧ loneWord (.egbBr (gcw 1)) = true := by
  refine ⟨fun x h => ⟨seq0_sequences x h, own0 x⟩, by decide, by decide, by decide, ?_, ?_, by decide, by decide, fun _ => noneIn rfl, ⟨_, rfl, rfl, by decide⟩, rfl, by decide, rfl⟩
  · exact (show exactOperand 0 false false < exactOperand 5 false false by decide)
  · exact (show ¬exactOperand 5 false false < exactOperand 0 false false by decide)

/-- The descriptor of four BF16 elements at 0x10000, dense, and the handle that it defines. -/
def desc4 : List DWord := [0x10000, 0x5900000000000000, 0x100000004, 0x100000001, 0x100000001, 1, 0, 0, 0, 0, 0, 0]

def han4 (f : Handle → Handle) : Handle := f { words := desc4, root := 7, shard := BitVec.ofNat 64 (3 * 2 ^ 61) }

def ghw (h aux : Nat) (t : List DWord) : GhWord := { handle := BitVec.ofNat 12 h, aux := BitVec.ofNat 32 aux, trail := t }

/-- Handle 7 is valid in context 0, with counts as given. -/
def hctx (f : Handle → Handle) : Ctx := { desc := { mesh := 0x100401 }, handles := [(7, han4 f)] }

def busyR : Handle → Handle := fun h => { h with pr := 1 }
def busyW : Handle → Handle := fun h => { h with pw := 1 }

theorem quiet7 : HandleQuiet (hctx id) 7 := by rintro h e; cases e; rfl

theorem witness_GraphHandles : (∀ f, Sequences (seq0 (hctx f)) ∧ (seq0 (hctx f)).ownCtx = hctx f ∧ (hctx f).handle? 7 = some (han4 f) ∧ (hctx f).handle? 8 = none) ∧
    Resolves {} desc4 desc4 ∧ (∀ w, ¬Resolves {} [] w) ∧ (han4 id).pr = 0 ∧ (han4 id).pw = 0 ∧ (han4 busyR).pr ≠ 0 ∧ ¬HandleQuiet (hctx busyR) 7 ∧ HandleQuiet (hctx id) 7 ∧
    Resolves (hctx id) ((han4 id).words.take 1 ++ desc4.drop 1) desc4 ∧ shardOk (hctx id).desc desc4 (han4 id).shard = true ∧
    (∀ p ∈ (hctx id).handles, p.2.root = 7 → shardOk (hctx id).desc p.2.words 0x6000000000000000 = true) ∧
    ((hctx busyW).counts (han4 busyW)).2 ≠ 0 ∧ ((hctx busyR).counts (han4 busyR)) = (1, 0) ∧ ((hctx id).counts (han4 id)) = (0, 0) ∧
    (ghw 7 0x603 []).aux.toNat / 256 % 16 = 6 ∧ Resolves (hctx id) ((BitVec.ofNat 64 (descBase (han4 id).words) + 64) :: desc4.drop 1) ((0x10040 : DWord) :: desc4.drop 1) ∧
    (∃ bs, ((seq0 {}).pastWord 0).engineRead 0 0 0 8 = .ok bs) ∧ (∃ w, ((seq0 {}).pastWord 0).engineWrite 0 0 0 (toBytes 8 0) = .ok w) ∧
    ((seq0 {}).pastWord 2).chanOk 0 0 3 ent3 = true ∧ ((seq0 {}).pastWord 2).chanOk 0 0 3 {} = false ∧ (((seq0 {}).pastWord 2).unloadChan 0 0 3).landingFree ent3 = true ∧
    ({ blocks := [openBlock 0] } : Ctx).inBlock = false ∧ ({} : Ctx).bankFree 1 = true ∧
    ({ blocks := [{ serial := 1, bank := 1, entries := [{}] }] } : Ctx).bankFree 1 = false ∧ ({ blocks := [{ serial := 1, bank := 1, entries := [{}] }] } : Ctx).inBlock = false ∧
    (∃ b, State.loadBank { (seq0 {}).pastWord 1 with mem := [(7, 1)] } 0 0 0 = .ok b) ∧
    ((seq0 {}).pastWord 1).loadBank 0 0 0 = .error .bad := by
  refine ⟨fun f => ⟨seq0_sequences _ rfl, own0 _, rfl, rfl⟩, ⟨by decide, by decide⟩, fun w h => ?_, rfl, rfl, Nat.one_ne_zero, fun h => absurd (h (han4 busyR) rfl) (by decide), quiet7,
    ⟨by decide, by decide⟩, by decide, by decide, by decide, by decide, by decide, by decide, ⟨by decide, by decide⟩, ⟨_, rfl⟩, ⟨_, rfl⟩, by decide +kernel, by decide +kernel,
    by decide +kernel, rfl, rfl, rfl, rfl, ⟨_, rfl⟩, ?_⟩
  · exact absurd h.1 (by rw [show resolveDesc ({} : Ctx).h [] = none from by decide]; exact fun h => nomatch h)
  · rfl

/-- A copy of handle 7 into itself is no operator; this one (`EW_NEG`) reads handle 7 and writes handle 9. -/
def opw : OpWord := { opid := 0x020, cons := 0, refs := [7, 0x4009], attrs := [] }

def octx : Ctx := { handles := [(7, han4 id), (9, { han4 id with root := 9 })] }

/-- Context 0 runs and stands at address a; memory is all zeros. -/
def badWord (a : Nat) : State := { seq0 { st := .running, pc := a } with ev := { u := 0, k := 0, v := BitVec.ofNat 64 a } }

theorem witness_GraphBlocks : Sequences (seq0 {}) ∧ (seq0 {}).ownCtx.blocks.length < 64 ∧ Sequences (seq0 { blocks := List.replicate 64 (openBlock 0) }) ∧ 384 < (0x200 : BitVec 16).toNat ∧
    unitExists (seq0 octx).cur = true ∧ 96 ≤ (seq0 octx).cur % 128 ∧
    ((seq0 octx).ownCtx.inBlock = false ∧ (seq0 octx).ownCtx.blocks = []) ∧
    (∀ x, x = (seq0 { octx with blocks := [openBlock 2] }).ownCtx → x.inBlock = true ∧ x.blocks = [] ++ [openBlock 2]) ∧ opw.opid.toNat < 0x100 ∧
    (∀ x, x = (seq0 octx).ownCtx → opDefined (x.bank 0) 0x1FF = false ∧ Tbl.get? (x.bank 0).decs 0x1FF = none ∧
      (∃ roots, x.rootsOf opw = .ok roots ∧ opDefined (x.bank 0) opw.opid.toNat = true ∧ blockRules (openBlock 2) (x.bank 0) opw roots 0 2 = true) ∧
      ∃ roots, x.rootsOf { opw with refs := [7, 0x4007] } = .ok roots ∧ blockRules (openBlock 2) (x.bank 0) { opw with refs := [7, 0x4007] } roots 0 2 = false) ∧
    (∀ i, i < 2 → ∃ r root h, opw.refs[i]? = some r ∧ refKind r ≠ 3 ∧ [7, 9][i]? = some root ∧ octx.handle? root = some h) ∧
    (∀ a, (badWord a).ev.k < 4 ∧ ((badWord a).ctxAt 0 0).st = .running ∧ ((badWord a).ctxAt 0 0).pc = a ∧ (badWord a).ev.v.toNat = a % 2 ^ 64) ∧ 4 % 8 ≠ 0 ∧
    (∃ w ts, (badWord 0).egbWord 0 0 = .ok (w, ts) ∧ decodeEgb w ts = none) := by
  refine ⟨seq0_sequences _ rfl, by decide, seq0_sequences _ rfl, by decide, rfl, by decide, ⟨rfl, rfl⟩, ?_, by decide, ?_, ?_,
    fun a => ⟨(show 0 < 4 by decide), rfl, rfl, by simp [badWord]⟩, by decide, ⟨_, _, rfl, by rfl⟩⟩
  · rintro x rfl; exact ⟨rfl, rfl⟩
  · rintro x rfl; exact ⟨rfl, rfl, ⟨_, rfl, by rfl, by rfl⟩, ⟨_, rfl, by rfl⟩⟩
  · intro i h
    match i, h with
    | 0, _ => exact ⟨_, _, _, rfl, by decide, rfl, rfl⟩
    | 1, _ => exact ⟨_, _, _, rfl, by decide, rfl, rfl⟩

/-! ## Plan routines, sweeps and operators -/

/-- A descriptor of one point at address 64 of translation space 0, and a frontier of it at 1024. -/
def deskMem : Memory := [(96, 1), (98, 1), (100, 1), (102, 1), (1024, 64), (1031, 1)]

/-- The entry that plan routine 0 runs for: it reads handle 7 and writes handle 9. -/
def pent : Entry := { stage := .issued, opid := 0x100, refs := [7, 0x4009], roots := [7, 9], attrs := [5], snap := [han4 id, han4 id], sweeps := [3], made := [(2, 2), (3, 3)] }

def pblk : Block := { serial := 4, entries := [pent] }

/-- Plan routine 0 of die 0 with s1 = a, s2 = b, s3 = c. -/
def plan3 (a b c : Nat) (f : Core → Core) : State :=
  let t : Tbl (Reg DWord) := [(1, { val := BitVec.ofNat 64 a }), (2, { val := BitVec.ofNat 64 b }), (3, { val := BitVec.ofNat 64 c })]
  { cores := [(80, f { id := 80, run := .running, planRun := true, planBlk := 4, live := { s := t }, pre := { s := t } })], cur := 80, mem := deskMem
    dies := [(0, { wideDie with ctxs := [(0, { st := .running, handles := octx.handles, blocks := [pblk], bank0 := { ops := [(0x100, { nout := 2 })] } })] })] }

def p3w : MemWord := { zeroMem with dr := 3, base := 1, idx := 2 }
def p1w : MemWord := { p3w with idx := 0 }

theorem plan3_for (a b c : Nat) : PlansFor (plan3 a b c id) pblk pent :=
  ⟨rfl, (by simp [State.routineCtx, plan3, State.core, State.coreAt, State.ctxAt, State.dieAt, Tbl.getD, Tbl.get?, dieOf, Ctx.block?, pblk]), rfl, rfl⟩

/-- Plan routine 0 waits for the sweep it asked for in turn k. -/
def asked : Sweep := { ctx := 0, desc := { ext := 0x0001000100010002 }, blk := 4, ent := 0 }

def asking (k : Nat) : State := plan3 64 0 0 fun c => { c with holding := true, want := some (k, asked) }

/-- It asked in turn 5, and plan routine 1 in turn 4. -/
def behind : State := { asking 5 with cores := (asking 5).cores ++ [(81, { id := 81, run := .running, planRun := true, holding := true, want := some (4, asked) })] }

theorem asking_for (k : Nat) : PlansFor (asking k) pblk pent ∧ PlansFor behind pblk pent := by
  constructor <;> exact ⟨rfl, (by simp [State.routineCtx, behind, asking, plan3, State.core, State.coreAt, State.ctxAt, State.dieAt, Tbl.getD, Tbl.get?, dieOf, Ctx.block?, pblk]), rfl, rfl⟩

theorem witness_PlanOperations : (∀ a b c, PlansFor (plan3 a b c id) pblk pent) ∧ (∀ a, (plan3 a 0 0 id).core.want = none ∧ (plan3 a 0 0 id).asks 0 = []) ∧
    (∀ k, (asking k).core.want = some (k, asked) ∧ (asking k).asks 0 = [k] ∧ (asking k).ownSweep asked = asked ∧ PlansFor (asking k) pblk pent ∧
      Accepts (asking k) (.psweep p1w) ∧ Tbl.free ((asking k).dieAt 0).sweeps 16 = some 0) ∧ asked.base ≠ asked.desc.points ∧
    (∀ k, behind.core.want = some (k, asked) → k = 5) ∧ behind.core.want = some (5, asked) ∧ (∃ n ∈ behind.asks 0, n < 5) ∧ Accepts behind (.psweep p1w) ∧ PlansFor behind pblk pent ∧
    (∀ a b c, guard (.pattr p1w) (plan3 a b c id) = .ok () ∧ guard (.pshape p1w) (plan3 a b c id) = .ok () ∧ guard (.phref p1w) (plan3 a b c id) = .ok () ∧
      guard (.phdesc p3w) (plan3 a b c id) = .ok () ∧ guard (.pregion p1w) (plan3 a b c id) = .ok () ∧ guard (.psetext p3w) (plan3 a b c id) = .ok () ∧
      guard (.plout p3w) (plan3 a b c id) = .ok () ∧ guard (.presid p1w) (plan3 a b c id) = .ok () ∧ guard (.psweep p1w) (plan3 a b c id) = .ok () ∧
      guard (.prestore p1w) (plan3 a b c id) = .ok () ∧ guard (.pswait { zeroMem with base := 1 }) (plan3 a b c id) = .ok () ∧ (plan3 a b c id).issues = true) ∧
    (∃ v, planReadRule (plan3 0 0 0 id) pblk pent (.pattr p1w) = some (p1w, some v)) ∧ planReadRule (plan3 1 0 0 id) pblk pent (.pattr p1w) = some (p1w, none) ∧
    (∃ v, planReadRule (plan3 0 14 0 id) pblk pent (.phdesc p3w) = some (p3w, some v)) ∧ planReadRule (plan3 0 15 0 id) pblk pent (.phdesc p3w) = some (p3w, none) ∧
    pent.refs[1]? = some 0x4009 ∧ refWrites 0x4009 = true ∧ descNdim ((pent.snap.getD 1 {}).words) = 1 ∧ ((plan3 1 0 9 id).sv 3).toNat = 9 ∧
    localOuts ((plan3 0 0 0 id).routineCtx.bank 0) pent.opid pent.refs.length = 2 ∧ (plan3 1 0 0 id).routineCtx.handle? (refHandle 0x4009) = some { han4 id with root := 9 } ∧
    (∃ y, (plan3 64 0 0 id).readDesc 0 0 64 = .ok y) ∧ Tbl.free ((plan3 64 0 0 id).dieAt 0).sweeps 16 = some 0 ∧
    (∀ s, s = { plan3 64 0 0 id with dies := [(0, { wideDie with sweeps := (List.range 16).map fun n => (n, { ctx := 0, desc := {} }) })] } →
      Tbl.free (s.dieAt 0).sweeps 16 = none ∧ (s.dieAt 0).offline = false ∧ ∃ y, s.readDesc 0 0 64 = .ok y) ∧
    (∀ s, s = { plan3 64 0 0 id with dies := [(0, { wideDie with offline := true })] } → (s.dieAt 0).offline = true ∧ ∃ y, s.readDesc 0 0 64 = .ok y) ∧
    ((plan3 64 0 0 id).dieAt 0).offline = false ∧ ((plan3 65 0 0 id).sv 1).toNat % 64 ≠ 0 ∧
    (∃ y, (plan3 1024 0 0 id).readFrontier 0 0 1024 = .ok y ∧ decide (y.base ≠ y.desc.points) = true) ∧ Tbl.get? pent.made 2 = some 2 ∧ 2 ∉ pent.sweeps ∧ Tbl.get? pent.made 3 = some 3 ∧
    3 ∈ pent.sweeps ∧ Tbl.get? pent.made 4 = none := by
  refine ⟨plan3_for, fun _ => ⟨rfl, rfl⟩, fun k => ⟨rfl, rfl, rfl, (asking_for k).1, ⟨rfl, rfl⟩, rfl⟩, by decide, fun k h => by cases h; rfl, rfl, ⟨4, by decide, by decide⟩, ⟨rfl, rfl⟩,
    (asking_for 0).2, fun _ _ _ => ⟨rfl, rfl, rfl, rfl, rfl, rfl, rfl, rfl, rfl, rfl, rfl, rfl⟩, ⟨_, rfl⟩, rfl, ⟨_, rfl⟩, rfl, rfl, by decide, by decide, by decide,
    by decide, rfl, ok_of (by decide +kernel), rfl, ?_, ?_, rfl, by decide, ok_with (by decide +kernel), rfl, by decide, rfl, by decide, rfl⟩
  · rintro s rfl
    exact ⟨by decide, rfl, ok_of (by decide +kernel)⟩
  · rintro s rfl
    exact ⟨rfl, ok_of (by decide +kernel)⟩

/-- Core 0 is idle; die 0 has the records and sweeps given, and context 0 runs. -/
def idle0 (q : Tbl (List Record)) (sw : Tbl Sweep) (f : Core → Core) : State :=
  { cores := [(0, f { id := 0 })], dies := [(0, { wideDie with ctxs := [(0, { st := .running, desc := { agelim := 100 } })], roleq := q, sweeps := sw })], ev := { u := 0, k := 2, m := 1 }, now := 200 }

/-- A sweep of two points, the first Complete. -/
def sweep2 : Sweep := { ctx := 0, desc := { ext := 0x0001000100010002 }, base := 1 }

theorem queues_of {s : State} {d : Nat} {l : Tbl (List Record)} (h : (s.dieAt d).roleq = l) (h₁ : (l.map fun p => p.1).Nodup)
    (h₂ : ∀ p ∈ l, ∀ r ∈ p.2, r.role = p.1) : QueuesByRole s d := by
  unfold QueuesByRole
  rw [h]
  exact ⟨h₁, h₂⟩

theorem witness_RecordsAndPoints : isCompute 0 = true ∧ unitExists 0 = true ∧
    (∃ x, (idle0 [(2, [{ role := 2 }])] [] id).chooseRecord 0 = some x ∧ x.pos = none ∧ x.r.st = 0) ∧
    (∀ q sw f, NoneSpilled (idle0 q sw f) 0 ∧ ((idle0 q sw f).dieAt 0).offline = false ∧ ∀ i, i < (idle0 q sw f).ev.u % 128 → (idle0 q sw f).asksRecord (0 * 128 + i) = false) ∧
    QueuesByRole (idle0 [(2, [{ role := 2 }])] [] id) 0 ∧ (∀ f, QueuesByRole (idle0 [] [] f) 0) ∧
    (∀ s, s = idle0 [] [] (fun c => { c with resume := [(3, { r := { st := 2 }, ready := true })] }) → (∃ x, s.chooseRecord 0 = some x ∧ x.pos = some 3 ∧
      (∃ p, Tbl.get? (s.coreAt 0).resume 3 = some p)) ∧ (∃ lo, s.engineRead 0 0 (3 * 0x9000) 0x880 = .ok lo) ∧ ∃ vs, s.engineRead 0 0 (3 * 0x9000 + 0x1000) 0x8000 = .ok vs) ∧
    (∀ s, s = idle0 [(2, [{ enq := 150 }, { enq := 50 }])] [] id → Tbl.getD (s.dieAt 0).roleq 2 [] = [] ++ (({ enq := 150 } : Record) :: []) ++ ({ enq := 50 } :: []) ∧
      s.promoted 0 { enq := 150 } = false ∧ s.promoted 0 { enq := 50 } = true) ∧
    Tbl.getD ((idle0 [(2, [{ enq := 150 }, { enq := 50 }, { enq := 50 }])] [] id).dieAt 0).roleq 2 [] =
      [] ++ (({ enq := 150 } : Record) :: [{ enq := 50 }]) ++ ({ enq := 50 } :: []) ∧
    (∀ s, s = idle0 [] [(2, sweep2)] id → s.firing 0 = some 2 ∧ Tbl.get? (s.dieAt 0).sweeps 2 = some sweep2 ∧ sweep2.finishing = []) ∧
    (∀ s, s = idle0 [] [(2, { sweep2 with finishing := [1] })] id → Tbl.get? (s.dieAt 0).sweeps 2 = some { sweep2 with finishing := [1] } ∧ sweep2.complete 0 = true ∧ sweep2.desc.points = 2 ∧
      1 ∈ [1] ∧ (∀ l, 2 ≤ l → Tbl.getD sweep2.win l 0 ≠ 2)) ∧
    ({ sweep2 with base := 0, finishing := [1] } : Sweep).complete 0 = false := by
  refine ⟨rfl, rfl, ⟨_, rfl, rfl, rfl⟩, fun q sw f => ⟨?_, rfl, fun i h => absurd h (Nat.not_lt_zero i)⟩, queues_of rfl (by decide) (by decide), fun f => queues_of (l := []) rfl (by decide) (by decide),
    ?_, ?_, rfl, ?_, ?_, by decide⟩
  · intro p hp k
    rw [show ((idle0 q sw f).dieAt 0).ctxs = [(0, { st := .running, desc := { agelim := 100 } })] from rfl, List.mem_singleton] at hp
    rw [hp]
    rfl
  · rintro s rfl; exact ⟨⟨_, rfl, rfl, _, rfl⟩, ok_of (by decide +kernel), ok_of (by decide +kernel)⟩
  · rintro s rfl; exact ⟨rfl, by decide, by decide⟩
  · rintro s rfl; exact ⟨by decide +kernel, rfl, rfl⟩
  · rintro s rfl; exact ⟨rfl, by decide, by decide, .head _, fun _ _ h => nomatch h⟩

/-- Context 0 of die 0 runs with the block of serial 4 and one entry as given. -/
def block4 (e : Entry) : State :=
  { dies := [(0, { ctxs := [(0, { st := .running, handles := octx.handles, blocks := [{ serial := 4, allocated := true, entries := [e] }], bank0 := { ops := [(0x100, { nout := 1 })] } })] })]
    ev := { m := 4 } }

theorem witness_Operators : (∀ e, ((block4 e).ctxAt 0 0).block? (block4 e).ev.m = some { serial := 4, allocated := true, entries := [e] }) ∧
    (∀ s b e, s = block4 { pent with stage := .accepted } → b = (⟨4, 0, 0, 0, 0, [{ pent with stage := .accepted }], 0, [], true⟩ : Block) → e = ({ pent with stage := .accepted } : Entry) →
      (s.ctxAt 0 0).mayIssue b 0 e = true ∧ (s.ctxAt 0 0).st = .running ∧ (s.ctxAt 0 0).pre = .none ∧ (∀ y ∈ (s.ctxAt 0 0).blocks, y.allocated = true) ∧ 0x100 ≤ e.opid ∧
      Tbl.get? ((s.ctxAt 0 0).bank b.bank).ops e.opid = some { nout := 1 } ∧ (s.dieAt 0).planq = [] ∧ s.issuesAfter 0 0 b 0 = false ∧ ∃ p rest, s.freePlans 0 = p :: rest) ∧
    (∀ e, e = ({ pent with sweeps := [], planDone := true, planned := true } : Entry) → e.stage = .issued ∧ e.colls = [] ∧ e.todo = [] ∧ (e.named refReads).Nodup) ∧
    (∀ e, e = ({ pent with stage := .complete } : Entry) → e.stage = .complete ∧ e.exts = [] ∧ (([e].flatMap fun e => e.named refWrites)).Nodup) := by
  refine ⟨fun _ => rfl, ?_, ?_, ?_⟩
  · rintro s b e rfl rfl rfl; exact ⟨by decide, rfl, rfl, by decide, by decide, rfl, rfl, by decide, _, _, rfl⟩
  · rintro e rfl; exact ⟨rfl, rfl, rfl, by decide⟩
  · rintro e rfl; exact ⟨rfl, rfl, by decide⟩

/-! ## Events from outside the cores -/

/-- The descriptor of context 0 at 0x80: version 1, mesh 1 × 1 × 1, rings of 64 records. -/
def launchMem : Memory := [(0x87, 1), (0xA7, 6), (0xAF, 6), (0xB7, 6), (0xBF, 6), (0xD8, 1), (0xD9, 4), (0xDA, 16)]

/-- Die 0 as given, with an event that acts on it. -/
def die0 (f : Die → Die) (e : EvArgs) : State := { s0 with dies := [(0, f {})], ev := e, mem := launchMem }

theorem launch_ok : (CtxDesc.ofWords fun i => leWord ((((die0 id {}).readMem 0x80 128).drop (8 * i)).take 8)).ok
    (fun i => leWord ((((die0 id {}).readMem 0x80 128).drop (8 * i)).take 8)) ((die0 id {}).partPackages 0).length = true := by decide +kernel

theorem witness_DeviceRegisters : unitExists 0 = true ∧ isCompute 0 = true ∧ isControl 72 = true ∧ dieExists 0 = true ∧ Cause 0x13 ∧ (s0.coreAt 0).run = .running ∧
    (s0.coreAt 0).after = [] ∧ (s0.coreAt 0).ckNext = false ∧ (s0.coreAt 0).pipe = [] ∧ (s0.coreAt 0).redirected = false ∧ (s0.coreAt 0).stopReq = 0 ∧
    ((die0 (fun x => { x with drain := true }) {}).dieAt 0).drain = true ∧ (∀ c, ((die0 id {}).ctxAt 0 c).st = .free) ∧ ((die0 id {}).dieAt 0).drain = false ∧
    ((die0 id {}).dieAt 0).offline = false ∧ (die0 id {}).homeOk 0 0x80 = true ∧ (die0 id {}).poisoned 0x80 = false ∧ bits (BitVec.ofNat 64 0x80) 51 7 * 128 = 0x80 ∧
    bits (leWord ((s0.readMem 0x80 128).take 8)) 63 56 ≠ 1 ∧ (∀ n, n < 16 → (State.reset.coreAt n).run = .idle ∧ (State.reset.coreAt n).resume = []) ∧
    (∀ r, ∀ s, s = ({ cores := [(0, { run := r }), (72, { run := r })] } : State) → (s.coreAt 0).run = r ∧ (s.coreAt 72).run = r) ∧
    (∀ s, s = ({ die0 (fun x => { x with drain := true }) {} with cores := [(3, { run := .offline, onlinePending := true })] } : State) → (s.coreAt 3).onlinePending = true ∧
      (s.coreAt 3).run = .offline) ∧ (s0.startVector 72 = 0 ∧ ({ s0 with image := [(0, List.replicate 64 0 ++ [1])] } : State).startVector 72 ≠ 0) ∧
    (∀ s, s = core0 (fun c => { c with traceCtl := 1 }) → (s.coreAt 0).traceCtl.getLsbD 0 = true) ∧ 0x20 ≤ 0x20 ∧ 0x3FFF + 0x400000 < 0x404000 := by
  refine ⟨rfl, rfl, rfl, rfl, by unfold Cause; decide, rfl, rfl, rfl, rfl, rfl, rfl, rfl, ?_, rfl, rfl, by decide, rfl, by decide, by decide +kernel, ?_, ?_, ?_, ⟨by decide, by decide +kernel⟩,
    ?_, Nat.le_refl _, by decide⟩
  · intro c; simp [die0, s0, core0, State.ctxAt, State.dieAt, Tbl.getD, Tbl.get?]
  · intro n _; exact ⟨rfl, rfl⟩
  · rintro r s rfl; exact ⟨rfl, rfl⟩
  · rintro s rfl; exact ⟨rfl, rfl⟩
  · rintro s rfl; rfl

/-- Port 0 with both rings of 16 descriptors at 0x1000 enabled; the first descriptor gives a buffer at 0 of 64 bytes, which space 4 maps where `m`. -/
def port0 (m : Bool) (f : EthPort → EthPort) (bs : List Byte) : State :=
  { dies := [(0, { l2tlb := if m then [{ wideEnt with tsid := 4 }] else [], eth := f { rxBase := 0x1000, rxCfg := 0x104, txBase := 0x1000, txCfg := 0x104, rxTail := 1, txTail := 1 } })]
    mem := [(0x1008, 64)], ev := { u := 0, flag := true, bytes := bs } }

def frame60 : List Byte := List.replicate 60 0

theorem witness_FramesHostAndService : (∀ m f bs, (port0 m f bs).ev.flag = true ∧ (port0 m f bs).ev.bytes = bs ∧ (port0 m f bs).ev.u = 0) ∧
    ((port0 true id frame60).eth 0).rxCfg.getLsbD 8 = true ∧ ((port0 true (fun e => { e with rxCfg := 4 }) frame60).eth 0).rxCfg.getLsbD 8 = false ∧
    (∀ i, i < 6 → frame60.getD i 0 = BitVec.ofNat 8 (((port0 true id frame60).eth 0).emac.toNat / 2 ^ (8 * i))) ∧
    ((port0 true (fun e => { e with rxTail := 0 }) frame60).eth 0).rxHead = 0 ∧
    (∃ w, (port0 true id frame60).engineRead 0 4 (ringEntry 0x1000 0x104 0) 16 = .ok w ∧ decide (leNat (w.drop 8) % 65536 = 64 ∧ leNat (w.take 8) = 0) = true) ∧
    (∃ t1, (port0 true id frame60).engineWrite 0 4 0 frame60 = .ok t1 ∧ (t1.engineWrite 0 4 0x1008 (toBytes 8 (2 ^ 63 + 60 * 2 ^ 16 + 64))).isOk = true) ∧
    (∃ x, (port0 false id frame60).engineRead 0 4 (ringEntry 0x1000 0x104 0) 16 = .error x) ∧
    (14 ≤ 64 ∧ 64 ≤ 9212) ∧ (∃ f, (port0 true id []).engineRead 0 4 0 64 = .ok f) ∧ (∃ t1, (port0 true id []).engineWrite 0 4 0x1008 (toBytes 8 (2 ^ 63 + 64)) = .ok t1) ∧
    ¬(14 ≤ 13) ∧ bits (s0.dieAt 0).hwin 51 0 = 0 ∧ 4 + 8 ≤ 2 ^ 36 ∧ (∀ k, s0.poisoned k = false) ∧ s0.memOk = true ∧ s0.offlineStacks = [] ∧ ¬(2 ^ 36 + 1 ≤ 2 ^ 36) ∧
    flashVerifies [] = false ∧ Tbl.get? ({ s0 with image := [(0, [])] } : State).image 0 = some [] ∧
    ((die0 id {}).dieAt 0).sparing = none ∧ ((die0 (fun x => { x with sparing := some 3 }) {}).dieAt 0).sparing = some 3 ∧
    ((die0 (fun x => { x with sparing := some 3 }) {}).dieAt 0).replWait = [] ∧ s0.packages.Pairwise (· < ·) ∧ s0.insts = [] ∧ 0 ∉ s0.offlineStacks ∧
    (ctl0 id).online 72 = true ∧ ((ctl0 id).coreAt 72).tlevel = 0 ∧ linkExists 0 = true ∧ linkExists 211 = true ∧ 0 ∉ s0.offlineLinks ∧ Tbl.getD s0.retries 0 0 < 16 ∧
    16 ≤ Tbl.getD ({ s0 with retries := [(0, 16)] } : State).retries 0 0 := by
  refine ⟨fun _ _ _ => ⟨rfl, rfl, rfl⟩, rfl, rfl, by decide, rfl, ok_with (by decide +kernel), ok_with (by decide +kernel), ⟨_, rfl⟩, by decide, ok_of (by decide +kernel), ok_of (by decide +kernel),
    by decide, by decide, by decide, fun _ => rfl, rfl, rfl, by decide, rfl, rfl, rfl, rfl, rfl, by decide, rfl, by decide, rfl, rfl, rfl, rfl, by decide, by decide, by decide⟩

/-! ## Decoding, the step and the whole machine -/

theorem witness_SlotRoundTrip : (∃ w, encode (.ctxswRestore (sy 1 2)) = some (.slot .br w 0 0)) ∧ (Instr.ctxswRestore (sy 1 2)).wf = true ∧
    (∃ w, encode (.add (ar 3 1 2 false false)) = some (.slot .sa w 0 0)) ∧ (Instr.add (ar 3 1 2 false false)).wf = true ∧ sharedWord (.add (ar 3 1 2 false false)) = false ∧
    Slot.bytes .sa = 4 :=
  ⟨⟨_, rfl⟩, rfl, ⟨_, rfl⟩, rfl, rfl, rfl⟩

theorem witness_GraphRoundTrip : (∃ w, encode (.op opw) = some (.egb w [0x40090007]) ∧ w.extractLsb' 56 8 = 2) ∧ (Instr.op opw).wf = true := ⟨⟨_, rfl, rfl⟩, rfl⟩

/-- `ADD s3, s1, s2` placed where core 0 fetches. -/
def placed : State := State.reset.withFetchWord 32 0x010C1040

theorem witness_StepRunsDecoded : ∀ due s0 s1, due = ({ State.engineDue { placed with turns := [] } 0 with cur := 0 } : State) → s0 = due.upd (fun c => c.arrive due.now) → s1 = s0.beginGroup →
    placed.turns = [.issue 0] ∧ (placed.coreAt 0).notBefore ≤ placed.now ∧ due.core.run = .running ∧ s0.core.after = [] ∧ s0.core.stopReq = 0 ∧ s0.preemptBetween = none ∧
    ∃ line more s2 t r, s1.fetchBlock s1.core.pc = .ok (line, s2) ∧
      line.drop (s1.core.pc % 64) = toBytes 4 (0xA0100000 + 2 ^ 0) ++ toBytes (slotClass false 0).bytes 0x010C1040 ++ more ∧ (slotClass false 0).lits (0x010C1040 / 2 ^ 24 % 256) = 0 ∧
      decodeSlot (slotClass false 0) 0x010C1040 0 0 = .ok (.add (ar 3 1 2 false false)) ∧
      (s2.placeGroup [soloBundle 0 0x010C1040]).lineBubble = false ∧
      (let s3 := (s2.placeGroup [soloBundle 0 0x010C1040]).upd fun c => { c with redirected := false }
       Sys2Proof.Machine.guard (.add (ar 3 1 2 false false)) (s3.upd fun c => { c with slot := 0 }) = .ok () ∧ destsClear [.ok (.add (ar 3 1 2 false false))] = true ∧
         GroupRuns s3 0 0x010C1040 (.add (ar 3 1 2 false false)) false t r) ∧ t.core.sig = none ∧ r.core.sig = none ∧ r.core.stagingFits = true := by
  rintro due s0 s1 rfl rfl rfl
  exact ⟨rfl, by decide, rfl, rfl, rfl, rfl, _, List.replicate 56 0, _, _, _, rfl, by decide +kernel, by decide, by decide, by rfl,
    ⟨by rfl, by decide, by rfl, (fun h => h.elim (fun h => nomatch h) fun h => nomatch h), _, by rfl, by rfl, by rfl, by rfl, by rfl⟩, by rfl, by rfl, by rfl⟩

/-- `LD s5, [s0 + 0x20000]` placed where core 0 fetches; the page at 0x20000 is the device page of die 0's `GSTAT`. -/
def placedDev : State :=
  (State.reset.withFetchWord 64 0x4002000001140018).updAt 0 fun c =>
    { c with tlb := { tsid := 0, vpage := 0x20, size := 0, pa := 0, r := true, w := true, x := false, dev := true } :: c.tlb }

theorem witness_StepRetriesDevice : ∀ due s0 s1, due = ({ State.engineDue { placedDev with turns := [] } 0 with cur := 0 } : State) → s0 = due.upd (fun c => c.arrive due.now) → s1 = s0.beginGroup →
    ∃ line s2 t r t' r', s1.fetchBlock s1.core.pc = .ok (line, s2) ∧
      (let s3 := (s2.placeGroup [soloBundle 4 0x4002000001140018]).upd fun c => { c with redirected := false }
       let i : Instr := .ld { zeroMem with disp := 0x4002, dr := 5, sz := 3 }
       decodeSlot (slotClass false 4) 0x4002000001140018 0 0 = .ok i ∧ GroupRuns s3 4 0x4002000001140018 i false t r ∧
         r.core.sig = some .checkpoint ∧ r.core.holding = true ∧ GroupRuns s3 4 0x4002000001140018 i true t' r' ∧ r'.core.sig = none) := by
  rintro due s0 s1 rfl rfl rfl
  exact ⟨_, _, _, _, _, _, rfl, by rfl,
    ⟨by rfl, (fun h => h.elim (fun h => nomatch h) fun h => nomatch h), _, by rfl, by rfl, by rfl, by rfl, by rfl⟩, by rfl, by rfl,
    ⟨by rfl, (fun _ => by rfl), _, by rfl, by rfl, by rfl, by rfl, by rfl⟩, by rfl⟩

/-- A slot whose stop ends its group, one whose stop lets the later slots stop the group first, and one behind a fence. -/
theorem witness_slots : (∃ t e, exec .modeEx emptyLive = .next t ∧ t.core.sig = some e ∧ e.deferred = false) ∧
    (∃ t, exec (.movi 3 1) s0 = .next t ∧ t.core.sig = none) ∧ s0.core.after.any After.fences = false ∧
    (∀ s, s = (core0 fun c => { c with inGroup := true, after := [.fence] }) → s.core.after.any After.fences = true ∧ accesses 4 (.spld zeroMem) = true ∧
      ∃ t, exec (.pref zeroMem) (s.prior.upd fun c => { c with slot := 4, bpc := 0, sig := none }) = .next t ∧ t.core.sig = none ∧
        (s.leave (.late 4 0 (.pref zeroMem))).core.sig = none) :=
  ⟨⟨_, _, rfl, rfl, rfl⟩, ⟨_, rfl, rfl⟩, rfl, fun _ h => by subst h; exact ⟨rfl, rfl, _, rfl, rfl, rfl⟩⟩

theorem witness_sequencer_turn : ∀ s s1, s = State.reset.withFetchWord 64 0x0108000000080000 → s1 = ({ State.engineDue { s with turns := [] } 96 with cur := 96 } : State) →
    s.turns = [.issue 96] ∧ (s1.ctxAt 0 0).st = .running ∧ (s1.ctxAt 0 0).pre = .none ∧
    (s1.ctxAt 0 0).stopping = false ∧ (s1.ctxAt 0 0).pc % 8 = 0 ∧ (s.coreAt 96).notBefore ≤ s.now ∧
    s1.egbWord 0 0 = .ok (0x0108000000080000, []) ∧ decodeEgb 0x0108000000080000 [] = some (.block 1 8) ∧
    wordRefsClear 0x0108000000080000 [] = true ∧ flipComes s1 (.block 1 8) = false ∧ ∃ t, exec (.block 1 8) s1 = .next t := by
  rintro s s1 rfl rfl
  exact ⟨rfl, rfl, rfl, rfl, by decide, by decide, by rfl, by rfl, by decide, rfl, _, rfl⟩

/-- A post to core 0 is on its way, and core 0 may issue from cycle n. -/
def postComes (n : Nat) : State := { core0 (fun c => { c with notBefore := n }) with posts := [{ id := 5, src := 0, target := 0, flag := 3 }] }

theorem witness_event_turn : isEvent .laneRetrain = true ∧ (∃ t, exec .laneRetrain s0 = .next t) ∧ reaches .laneRetrain = false ∧
    isEvent .flagPostArrival = true ∧ reaches .flagPostArrival = true ∧ isEvent .qpushArrival = true ∧
    (∀ n, n ≤ 1 → (postComes n).targetIssues .flagPostArrival { u := 5 } = decide (n = 0)) ∧ s0.targetIssues .laneRetrain {} = false ∧
    (∀ p ∈ s0.cores, p.2.stagingFits = true) ∧ (core0 fun c => { c with staged := List.replicate 65 0 }).core.stagingFits = false ∧
    (∀ n, ∀ s, s = ({ chan0 ent3 (fun c => { c with notBefore := n }) with now := 1 } : State) → (∃ t, exec .qpushArrival s = .next t) ∧
      (s.pushes.find? fun y => decide (y.id = 9)) = some { id := 9, src := 0, dst := 0, ctx := 0, ch := 3, val := 7 } ∧ s.yetToIssue 0 = decide (n ≤ 1)) := by
  refine ⟨rfl, ⟨_, rfl⟩, rfl, rfl, rfl, rfl, by decide, rfl, by decide, by decide, ?_⟩
  rintro n s rfl
  exact ⟨⟨_, rfl⟩, rfl, rfl⟩

theorem witness_StepKeepsMemory : State.reset.memOk = true ∧ ∃ t, step State.reset = .next t := ⟨rfl, _, rfl⟩

/-! ## Decoding: one word of every opcode, written out from the tables of the encoding chapter -/

/-- R80 to R83: every scalar opcode, its fields at the places of its form. -/
theorem decode_scalar :
    Reads .sa 0x01507D00 (.add { d := 20, a := 7, e := true, b := 40, f := false, u := false, w := false }) ∧
    Reads .sa 0x02547CE1 (.sub { d := 21, a := 7, e := true, b := 39, f := false, u := false, w := true }) ∧
    Reads .sa 0x03587CC2 (.mul { d := 22, a := 7, e := true, b := 38, f := false, u := true, w := false }) ∧
    Reads .sa 0x045C7CA3 (.mulh { d := 23, a := 7, e := true, b := 37, f := false, u := true, w := true }) ∧
    Reads .sa 0x05607C80 (.div { d := 24, a := 7, e := true, b := 36, f := false, u := false, w := false }) ∧
    Reads .sa 0x06647C61 (.rem { d := 25, a := 7, e := true, b := 35, f := false, u := false, w := true }) ∧
    Reads .sa 0x0A687C42 (.min { d := 26, a := 7, e := true, b := 34, f := false, u := true, w := false }) ∧
    Reads .sa 0x0B6C7C23 (.max { d := 27, a := 7, e := true, b := 33, f := false, u := true, w := true }) ∧
    Reads .sa 0x10C83430 (.and { d := 50, a := 3, e := false, b := 33, f := true, w := false }) ∧
    Reads .sa 0x11C44431 (.or { d := 49, a := 4, e := false, b := 33, f := true, w := true }) ∧
    Reads .sa 0x12C05430 (.xor { d := 48, a := 5, e := false, b := 33, f := true, w := false }) ∧
    Reads .sa 0x13BC6431 (.andn { d := 47, a := 6, e := false, b := 33, f := true, w := true }) ∧
    Reads .sa 0x14B87430 (.orn { d := 46, a := 7, e := false, b := 33, f := true, w := false }) ∧
    Reads .sa 0x18B48431 (.shl { d := 45, a := 8, e := false, b := 33, f := true, w := true }) ∧
    Reads .sa 0x19B09430 (.shr { d := 44, a := 9, e := false, b := 33, f := true, w := false }) ∧
    Reads .sa 0x1AACA431 (.sar { d := 43, a := 10, e := false, b := 33, f := true, w := true }) ∧
    Reads .sa 0x1BA8B430 (.rol { d := 42, a := 11, e := false, b := 33, f := true, w := false }) ∧
    Reads .sa 0x1CA4C431 (.ror { d := 41, a := 12, e := false, b := 33, f := true, w := true }) ∧
    Reads .sa 0x07149FF0 (.addi { d := 5, a := 9, e := true, imm := 0x7F0 }) ∧
    Reads .sa 0x0814AFF1 (.rsbi { d := 5, a := 10, e := true, imm := 0x7F1 }) ∧
    Reads .sa 0x0914BFF2 (.muli { d := 5, a := 11, e := true, imm := 0x7F2 }) ∧
    Reads .sa 0x1514CFF3 (.andi { d := 5, a := 12, e := true, imm := 0x7F3 }) ∧
    Reads .sa 0x1614DFF4 (.ori { d := 5, a := 13, e := true, imm := 0x7F4 }) ∧
    Reads .sa 0x1714EFF5 (.xori { d := 5, a := 14, e := true, imm := 0x7F5 }) ∧
    Reads .sa 0x1D149021 (.shli { d := 5, a := 9, e := false, c := 33 }) ∧
    Reads .sa 0x1E14A022 (.shri { d := 5, a := 10, e := false, c := 34 }) ∧
    Reads .sa 0x1F14B023 (.sari { d := 5, a := 11, e := false, c := 35 }) ∧
    Reads .sa 0x2014C024 (.rori { d := 5, a := 12, e := false, c := 36 }) ∧
    Reads .sa 0x21B0D800 (.popc { d := 44, a := 13, e := true }) ∧
    Reads .sa 0x22B4D800 (.clz { d := 45, a := 13, e := true }) ∧
    Reads .sa 0x38B8D800 (.tget { d := 46, a := 13, e := true }) ∧
    Reads .sa 0x39BCD800 (.tspill { d := 47, a := 13, e := true }) ∧
    Reads .sa 0x2424105B (.cmp { d := 9, a := 1, e := false, b := 2, f := true, cond := 0xB }) ∧
    Reads .sa 0x25241AFE (.cmpi { d := 9, a := 1, e := true, cond := 5, imm := 0x7E }) ∧
    Reads .sa 0x26181049 (.cmpp { p := 6, a := 1, e := false, b := 2, f := false, cond := 9 }) ∧
    Reads .sa 0x27181503 (.cmppi { p := 6, a := 1, e := false, cond := 10, imm := 3 }) ∧
    Reads .sa 0x28241045 (.sel { d := 9, a := 1, e := false, b := 2, f := false, p := 5 }) ∧
    Reads .sa 0x29241050 (.cmov { d := 9, a := 1, e := false, b := 2, f := true }) ∧
    Reads .sa 0x2C281050 (.bfx { d := 10, a := 1, e := false, b := 2, f := true }) ∧
    Reads .sa 0x2D2C1050 (.bfxs { d := 11, a := 1, e := false, b := 2, f := true }) ∧
    Reads .sa 0x30301050 (.bfi { d := 12, a := 1, e := false, b := 2, f := true }) ∧
    Reads .sa 0x3A341050 (.tfill { d := 13, a := 1, e := false, b := 2, f := true }) ∧
    Reads .sa 0x2A241046 (.lea { d := 9, a := 1, e := false, b := 2, f := false, sh := 6 }) ∧
    Reads .sa 0x2E241891 (.bfxi { d := 9, a := 1, wid := 34, ofs := 17 }) ∧
    Reads .sa 0x2F2418D0 (.bfxsi { d := 9, a := 1, wid := 35, ofs := 16 }) ∧
    Reads .sa 0x3124190F (.bfii { d := 9, a := 1, wid := 36, ofs := 15 }) ∧
    Reads .sa 0x3226ABCD (.movi 9 0x2ABCD) ∧
    Reads .sa 0x342448E0 (.mfcr { r := 9, crn := 0x123, e := true }) ∧
    Reads .sa 0x35248040 (.mtcr { r := 9, crn := 0x201, e := false }) ∧
    Reads .sa 0x36240000 (.tclr 9) ∧
    Reads .sa 0x37000000 (.tclrC) ∧
    decodeSlot .sa 0x33240000 0x89ABCDEF 0x01234567 = .ok (.movl 9 0x0123456789ABCDEF) := by
  refine ⟨?_, ?_, ?_, ?_, ?_, ?_, ?_, ?_, ?_, ?_, ?_, ?_, ?_, ?_, ?_, ?_, ?_, ?_, ?_, ?_, ?_, ?_, ?_, ?_, ?_, ?_, ?_, ?_, ?_, ?_, ?_, ?_, ?_, ?_, ?_, ?_, ?_, ?_, ?_, ?_, ?_, ?_, ?_, ?_, ?_, ?_, ?_, ?_, ?_, ?_, ?_, ?_⟩ <;> rfl

/-- R84 to R86: every vector opcode. -/
theorem decode_vector :
    Reads .vx 0x41A80000012A8500 (.vadd { zeroV with typ := 4, pen := true, pg := 5, rpt := 1, bs := false, vd := 10, va := 40, vb := 20 }) ∧
    Reads .vx 0x51A84000022E7500 (.vsub { zeroV with typ := 5, pen := true, pg := 5, rpt := 1, bs := true, vd := 11, va := 39, vb := 20 }) ∧
    Reads .vx 0x61A8000003326500 (.vmul { zeroV with typ := 6, pen := true, pg := 5, rpt := 1, bs := false, vd := 12, va := 38, vb := 20 }) ∧
    Reads .vx 0x71A8400004365500 (.vmulh { zeroV with typ := 7, pen := true, pg := 5, rpt := 1, bs := true, vd := 13, va := 37, vb := 20 }) ∧
    Reads .vx 0x41A800000A3A4500 (.vmin { zeroV with typ := 4, pen := true, pg := 5, rpt := 1, bs := false, vd := 14, va := 36, vb := 20 }) ∧
    Reads .vx 0x51A840000B3E3500 (.vmax { zeroV with typ := 5, pen := true, pg := 5, rpt := 1, bs := true, vd := 15, va := 35, vb := 20 }) ∧
    Reads .vx 0x61A800000C422500 (.vshl { zeroV with typ := 6, pen := true, pg := 5, rpt := 1, bs := false, vd := 16, va := 34, vb := 20 }) ∧
    Reads .vx 0x71A840000D461500 (.vshr { zeroV with typ := 7, pen := true, pg := 5, rpt := 1, bs := true, vd := 17, va := 33, vb := 20 }) ∧
    Reads .vx 0x41A800000E4A0500 (.vsar { zeroV with typ := 4, pen := true, pg := 5, rpt := 1, bs := false, vd := 18, va := 32, vb := 20 }) ∧
    Reads .vx 0x51A84000124DF500 (.vand { zeroV with typ := 5, pen := true, pg := 5, rpt := 1, bs := true, vd := 19, va := 31, vb := 20 }) ∧
    Reads .vx 0x61A800001351E500 (.vor { zeroV with typ := 6, pen := true, pg := 5, rpt := 1, bs := false, vd := 20, va := 30, vb := 20 }) ∧
    Reads .vx 0x71A840001455D500 (.vxor { zeroV with typ := 7, pen := true, pg := 5, rpt := 1, bs := true, vd := 21, va := 29, vb := 20 }) ∧
    Reads .vx 0xA3AC000005284188 (.vfma { zeroV with typ := 10, rm := 1, pen := true, pg := 5, rpt := 1, sat := true, vd := 10, va := 4, vb := 6, vc := 8 }) ∧
    Reads .vx 0xA5AC000006284189 (.vfms { zeroV with typ := 10, rm := 2, pen := true, pg := 5, rpt := 1, sat := true, vd := 10, va := 4, vb := 6, vc := 9 }) ∧
    Reads .vx 0xA7AC00000728418A (.vfnma { zeroV with typ := 10, rm := 3, pen := true, pg := 5, rpt := 1, sat := true, vd := 10, va := 4, vb := 6, vc := 10 }) ∧
    Reads .vx 0x600000000F284188 (.vclamp { zeroV with typ := 6, vd := 10, va := 4, vb := 6, vc := 8 }) ∧
    Reads .vx 0x61AA000008284000 (.vabs { zeroV with typ := 6, pen := true, pg := 5, rpt := 1, ea := true, vd := 10, va := 4 }) ∧
    Reads .vx 0x61AA0000092C4000 (.vneg { zeroV with typ := 6, pen := true, pg := 5, rpt := 1, ea := true, vd := 11, va := 4 }) ∧
    Reads .vx 0x61AA000015304000 (.vnot { zeroV with typ := 6, pen := true, pg := 5, rpt := 1, ea := true, vd := 12, va := 4 }) ∧
    Reads .vx 0x61AA000036344000 (.vmov { zeroV with typ := 6, pen := true, pg := 5, rpt := 1, ea := true, vd := 13, va := 4 }) ∧
    Reads .vx 0xC000000039284000 (.vexp2 { zeroV with typ := 12, vd := 10, va := 4 }) ∧
    Reads .vx 0xC00000003A2C4000 (.vlog2 { zeroV with typ := 12, vd := 11, va := 4 }) ∧
    Reads .vx 0xC00000003B304000 (.vrcp { zeroV with typ := 12, vd := 12, va := 4 }) ∧
    Reads .vx 0xC00000003C344000 (.vrsq { zeroV with typ := 12, vd := 13, va := 4 }) ∧
    Reads .vx 0xC00000003D384000 (.vtanh { zeroV with typ := 12, vd := 14, va := 4 }) ∧
    Reads .vx 0xC00000003E3C4000 (.vsigm { zeroV with typ := 12, vd := 15, va := 4 }) ∧
    Reads .vx 0x6000000310144180 (.vcmp { zeroV with typ := 6, imm := 3, vd := 5, va := 4, vb := 6 }) ∧
    Reads .vx 0x60000000113C4187 (.vsel { zeroV with typ := 6, vd := 15, va := 4, vb := 6, vc := 7 }) ∧
    Reads .vx 0x0000000016144180 (.pand { zeroV with vd := 5, va := 4, vb := 6 }) ∧
    Reads .vx 0x0000000017144180 (.por { zeroV with vd := 5, va := 4, vb := 6 }) ∧
    Reads .vx 0x0000000018144180 (.pxor { zeroV with vd := 5, va := 4, vb := 6 }) ∧
    Reads .vx 0x0000000019144000 (.pnot { zeroV with vd := 5, va := 4 }) ∧
    Reads .vx 0x000000001A144000 (.pmov { zeroV with vd := 5, va := 4 }) ∧
    Reads .vx 0x000000001B844000 (.pcnt { zeroV with vd := 33, va := 4 }) ∧
    Reads .vx 0x000040021D140C80 (.pset { zeroV with bs := true, imm := 2, vd := 5, vb := 50 }) ∧
    Reads .vx 0x400000001C840000 (.viota { zeroV with typ := 4, vd := 33 }) ∧
    Reads .vx 0xC000000620844000 (.vcvt { zeroV with typ := 12, imm := 6, vd := 33, va := 4 }) ∧
    Reads .vx 0x6000000421805000 (.vwiden { zeroV with typ := 6, imm := 4, vd := 32, va := 5 }) ∧
    Reads .vx 0x6000000222905000 (.vwiden4 { zeroV with typ := 6, imm := 2, vd := 36, va := 5 }) ∧
    Reads .vx 0x4004000623846000 (.vnarrow { zeroV with typ := 4, imm := 6, sat := true, vd := 33, va := 6 }) ∧
    Reads .vx 0x2000000624848000 (.vnarrow4 { zeroV with typ := 2, imm := 6, vd := 33, va := 8 }) ∧
    Reads .vx 0x0000008A25844009 (.vbpack { zeroV with typ := 0, imm := 138, vd := 33, va := 4, vc := 9 }) ∧
    Reads .vx 0xA000005026844009 (.vbunpk { zeroV with typ := 10, imm := 80, vd := 33, va := 4, vc := 9 }) ∧
    Reads .vx 0xC000000028844000 (.vrsum { zeroV with typ := 12, vd := 33, va := 4 }) ∧
    Reads .vx 0xC000000029884000 (.vrmin { zeroV with typ := 12, vd := 34, va := 4 }) ∧
    Reads .vx 0xC00000002A8C4000 (.vrmax { zeroV with typ := 12, vd := 35, va := 4 }) ∧
    Reads .vx 0x6000000030284180 (.vperm { zeroV with typ := 6, vd := 10, va := 4, vb := 6 }) ∧
    Reads .vx 0x6000001131284000 (.vrot { zeroV with typ := 6, imm := 17, vd := 10, va := 4 }) ∧
    Reads .vx 0x6000000032284180 (.vzip { zeroV with typ := 6, vd := 10, va := 4, vb := 6 }) ∧
    Reads .vx 0x6000000033284180 (.vunzip { zeroV with typ := 6, vd := 10, va := 4, vb := 6 }) ∧
    Reads .vx 0x6000400034280A40 (.vbcst { zeroV with typ := 6, bs := true, vd := 10, vb := 41 }) ∧
    Reads .vx 0x6000006437284000 (.vmovs { zeroV with typ := 6, imm := 100, vd := 10, va := 4 }) ∧
    Reads .vx 0x6000406438280A40 (.vins { zeroV with typ := 6, bs := true, imm := 100, vd := 10, vb := 41 }) ∧
    Reads .vx 0x6000000040284188 (.vdot4 { zeroV with typ := 6, vd := 10, va := 4, vb := 6, vc := 8 }) ∧
    Reads .vx 0x6000004D4428D000 (.vrda { zeroV with imm := 77, vd := 10, va := 13, typ := 6 }) ∧
    Reads .vx 0x6000004D45180240 (.vwra { zeroV with imm := 77, vd := 6, vb := 9, typ := 6 }) ∧
    Reads .vx 0x0000000048282000 (.vpopq { zeroV with vd := 10, va := 2 }) ∧
    decodeSlot .vx 0x6000000035280000 0x12345678 0 = .ok (.vbcsti { zeroV with typ := 6, vd := 10 } 0x12345678) := by
  refine ⟨?_, ?_, ?_, ?_, ?_, ?_, ?_, ?_, ?_, ?_, ?_, ?_, ?_, ?_, ?_, ?_, ?_, ?_, ?_, ?_, ?_, ?_, ?_, ?_, ?_, ?_, ?_, ?_, ?_, ?_, ?_, ?_, ?_, ?_, ?_, ?_, ?_, ?_, ?_, ?_, ?_, ?_, ?_, ?_, ?_, ?_, ?_, ?_, ?_, ?_, ?_, ?_, ?_, ?_, ?_, ?_, ?_, ?_⟩ <;> rfl

/-- R87, R88: every matrix opcode. -/
theorem decode_matrix :
    Reads .mx 0x0000000001240000 (.oclaim { zeroM with oa := 9 }) ∧
    Reads .mx 0x0000000002240000 (.orelease { zeroM with oa := 9 }) ∧
    Reads .mx 0x10B000000324043C (.ofill { zeroM with mfmt := 1, dt := 5, dec := true, oa := 9, sr := 33, ea := true, sd := 12 }) ∧
    Reads .mx 0x0000000004240420 (.ostat { zeroM with oa := 9, sr := 33 }) ∧
    Reads .mx 0x0000000005240000 (.ozero { zeroM with oa := 9 }) ∧
    Reads .mx 0x0000000008A56800 (.mma { zeroM with acc := 2, oa := 9, ob := 5, na := true, ad := true }) ∧
    Reads .mx 0x0B08500009800000 (.drain { zeroM with mfmt := 0, rz := true, rq := 3, scale := 133, acc := 2 }) ∧
    Reads .mx 0x000000000A800000 (.aclr { zeroM with acc := 2 }) ∧
    Reads .mx 0x000000000B800420 (.aload { zeroM with acc := 2, sr := 33 }) ∧
    Reads .mx 0x000004000C800000 (.amov { zeroM with acc2 := 1, acc := 2 }) ∧
    Reads .mx 0x0000000010000000 (.msync zeroM) ∧
    Reads .mx 0x0000000011000420 (.mstat { zeroM with sr := 33 }) := by
  refine ⟨?_, ?_, ?_, ?_, ?_, ?_, ?_, ?_, ?_, ?_, ?_, ?_⟩ <;> rfl

/-- R89, R90: every memory and stream opcode. -/
theorem decode_memory :
    Reads .ms 0x800150400114A2DC (.ld { zeroMem with disp := 32769, ord := 1, scope := 2, ea := true, dr := 5, base := 10, idx := 11, sz := 3, sh := 4 }) ∧
    Reads .ms 0x000900100214A2D4 (.ldx { zeroMem with disp := 9, dr := 5, base := 10, idx := 11, sz := 2, sh := 4, ei := true }) ∧
    Reads .ms 0x000998200314A2C8 (.st { zeroMem with disp := 9, ord := 2, scope := 3, ed := true, dr := 5, base := 10, idx := 11, sz := 1 }) ∧
    Reads .ms 0x000907000414A020 (.vld { zeroMem with disp := 9, pen := true, pg := 6, dr := 5, base := 10, sz := 4 }) ∧
    Reads .ms 0x000907000514A020 (.vst { zeroMem with disp := 9, pen := true, pg := 6, dr := 5, base := 10, sz := 4 }) ∧
    Reads .ms 0x000007000614AC90 (.vgath { zeroMem with pen := true, pg := 6, dr := 5, base := 10, idx := 50, sz := 2 }) ∧
    Reads .ms 0x000007000714AC90 (.vscat { zeroMem with pen := true, pg := 6, dr := 5, base := 10, idx := 50, sz := 2 }) ∧
    Reads .ms 0x000000000800A2C8 (.pref { zeroMem with base := 10, idx := 11, sz := 1 }) ∧
    Reads .ms 0x000058000C00A2C0 (.acqr { zeroMem with ord := 1, scope := 3, base := 10, idx := 11 }) ∧
    Reads .ms 0x000900001014A2D1 (.spld { zeroMem with disp := 9, dr := 5, base := 10, idx := 11, sz := 2, sh := 1 }) ∧
    Reads .ms 0x000900001114A2D1 (.spst { zeroMem with disp := 9, dr := 5, base := 10, idx := 11, sz := 2, sh := 1 }) ∧
    Reads .ms 0x000907001214A020 (.vspld { zeroMem with disp := 9, pen := true, pg := 6, dr := 5, base := 10, sz := 4 }) ∧
    Reads .ms 0x000907001314A020 (.vspst { zeroMem with disp := 9, pen := true, pg := 6, dr := 5, base := 10, sz := 4 }) ∧
    Reads .ms 0x000000001414A000 (.ralloc { zeroMem with dr := 5, base := 10 }) ∧
    Reads .ms 0x000000001500A000 (.rfree { zeroMem with base := 10 }) ∧
    Reads .ms 0x000000001614A000 (.stlook { zeroMem with dr := 5, base := 10 }) ∧
    Reads .ms 0x000000001714A000 (.stfill { zeroMem with dr := 5, base := 10 }) ∧
    Reads .ms 0x000000001800A000 (.stevict { zeroMem with base := 10 }) ∧
    Reads .ms 0x0000000019314019 (.sdset { zeroMem with dr := 12, base := 20, sz := 3, sh := 1 }) ∧
    Reads .ms 0x000000002000A2C0 (.l2pin { zeroMem with base := 10, idx := 11 }) ∧
    Reads .ms 0x000000002100A2C0 (.l2unpin { zeroMem with base := 10, idx := 11 }) ∧
    Reads .ms 0x000020002814A010 (.atadd { zeroMem with ord := 0, scope := 4, u := false, dr := 5, base := 10, sz := 2 }) ∧
    Reads .ms 0x000060082914A018 (.atmin { zeroMem with ord := 1, scope := 4, u := true, dr := 5, base := 10, sz := 3 }) ∧
    Reads .ms 0x0000A0082A14A010 (.atmax { zeroMem with ord := 2, scope := 4, u := true, dr := 5, base := 10, sz := 2 }) ∧
    Reads .ms 0x0000E0002B14A018 (.atxch { zeroMem with ord := 3, scope := 4, u := false, dr := 5, base := 10, sz := 3 }) ∧
    Reads .ms 0x0000C8002C14A2D8 (.atcas { zeroMem with ord := 3, scope := 1, dr := 5, base := 10, idx := 11, sz := 3 }) := by
  refine ⟨?_, ?_, ?_, ?_, ?_, ?_, ?_, ?_, ?_, ?_, ?_, ?_, ?_, ?_, ?_, ?_, ?_, ?_, ?_, ?_, ?_, ?_, ?_, ?_, ?_, ?_⟩ <;> rfl

/-- R376: every plan operation. -/
theorem decode_plan :
    Reads .pms 0x000000004014A000 (.pattr { zeroMem with dr := 5, base := 10 }) ∧
    Reads .pms 0x000000004114A000 (.pshape { zeroMem with dr := 5, base := 10 }) ∧
    Reads .pms 0x000000004214A000 (.phref { zeroMem with dr := 5, base := 10 }) ∧
    Reads .pms 0x000000004314A2C0 (.phdesc { zeroMem with dr := 5, base := 10, idx := 11 }) ∧
    Reads .pms 0x000000004414A2C0 (.psetext { zeroMem with dr := 5, base := 10, idx := 11 }) ∧
    Reads .pms 0x000000004514A2C0 (.plout { zeroMem with dr := 5, base := 10, idx := 11 }) ∧
    Reads .pms 0x000000004614A000 (.presid { zeroMem with dr := 5, base := 10 }) ∧
    Reads .pms 0x000000004714A000 (.psweep { zeroMem with dr := 5, base := 10 }) ∧
    Reads .pms 0x000000004814A000 (.prestore { zeroMem with dr := 5, base := 10 }) ∧
    Reads .pms 0x000000004914A000 (.pregion { zeroMem with dr := 5, base := 10 }) ∧
    Reads .pms 0x000000004A00A000 (.pswait { zeroMem with base := 10 }) := by
  refine ⟨?_, ?_, ?_, ?_, ?_, ?_, ?_, ?_, ?_, ?_, ?_⟩ <;> rfl

/-- R91, R92: every copy and collective opcode. -/
theorem decode_copy :
    Reads .cp 0x801B000001C0006A (.cpy { zeroCp with off := 2049, dt := 5, dec := true, stg := 6, fe := true, fl := 21 }) ∧
    Reads .cp 0x8010802002C015EA (.cpyr { zeroCp with off := 2049, acw := true, le := true, stg := 6, lc := 43, fe := true, fl := 21 }) ∧
    Reads .cp 0x8010000003C0006A (.cpys { zeroCp with off := 2049, stg := 6, fe := true, fl := 21 }) ∧
    Reads .cp 0x8010430004C0006A (.cfill { zeroCp with off := 2049, sr := 33, ea := true, stg := 6, fe := true, fl := 21 }) ∧
    Reads .cp 0x8010000008D4A000 (.csend { zeroCp with off := 2049, stg := 6, ch := 165 }) ∧
    Reads .cp 0x000000800914A000 (.cqsend { zeroCp with rq := 2, ch := 165 }) ∧
    Reads .cp 0x000000000A14A000 (.chopen { zeroCp with ch := 165 }) ∧
    Reads .cp 0x000000000B14A000 (.chclose { zeroCp with ch := 165 }) ∧
    Reads .cp 0x000000001060006A (.sluice { zeroCp with stg := 3, fe := true, fl := 21 }) ∧
    Reads .cp 0x0000420011600000 (.slstat { zeroCp with sr := 33, stg := 3 }) ∧
    Reads .cp 0x0000000012600000 (.slabort { zeroCp with stg := 3 }) ∧
    Reads .cp 0x000A000018C00000 (.dtload { zeroCp with dt := 5, stg := 6 }) ∧
    Reads .cp 0x0000000019C00000 (.cwait { zeroCp with stg := 6 }) ∧
    Reads .cp 0x000042001AC00000 (.cstat { zeroCp with sr := 33, stg := 6 }) := by
  refine ⟨?_, ?_, ?_, ?_, ?_, ?_, ?_, ?_, ?_, ?_, ?_, ?_, ?_, ?_⟩ <;> rfl

/-- R93: every sync opcode. -/
theorem decode_sync :
    Reads .sy 0x01158600 (.fpost 21 33 true) ∧
    Reads .sy 0x02158400 (.fset 21 33 false) ∧
    Reads .sy 0x03158730 (.fwait 21 33 true 19) ∧
    Reads .sy 0x04158400 (.fget 21 33) ∧
    Reads .sy 0x082B8600 (.lset 43 33 true) ∧
    Reads .sy 0x092B0130 (.lwait 43 19) ∧
    Reads .sy 0x10A58730 (.qpush 0xA5 33 true 19) ∧
    Reads .sy 0x11A58530 (.qpop 0xA5 33 19) ∧
    Reads .sy 0x18000136 (.bar 3 19) ∧
    Reads .sy 0x19000006 (.fence 3) ∧
    Reads .sy 0x1A190000 (.xfence 3 1) ∧
    Reads .sy 0x20000000 (.suspend) := by
  refine ⟨?_, ?_, ?_, ?_, ?_, ?_, ?_, ?_, ?_, ?_, ?_, ?_⟩ <;> rfl

/-- R94 to R96: every branch and system opcode. -/
theorem decode_branch :
    Reads .br 0x01BFFFFD (.pbr 5 0x1FFFFD) ∧
    Reads .br 0x03A00218 (.pbrs 5 33 true) ∧
    Reads .br 0x04AC2000 (.br 5 0x61 false) ∧
    Reads .br 0x05BA7800 (.call 5 0xD3 6 false) ∧
    Reads .br 0x06B42008 (.ret 5 0xA1 true) ∧
    Reads .br 0x07A00210 (.loop 5 33 false) ∧
    Reads .br 0x08000001 (.modeEx) ∧
    Reads .br 0x08000000 (.modeIl) ∧
    Reads .br 0x09000000 (.done) ∧
    Reads .br 0x0A000000 (.yield) ∧
    Reads .br 0x0B00ABCD (.trap 0xABCD) ∧
    Reads .br 0x0C000000 (.tret) ∧
    Reads .br 0x0D00ABCD (.bkpt 0xABCD) ∧
    Reads .br 0x0E00ABCD (.sysc 0xABCD) ∧
    Reads .br 0x10161800 (.cwb { a := 5, b := 33, e := true }) ∧
    Reads .br 0x11161800 (.iinv { a := 5, b := 33, e := true }) ∧
    Reads .br 0x20161800 (.tlbinv { a := 5, b := 33, e := true }) ∧
    Reads .br 0x22161800 (.tlbwr { a := 5, b := 33, e := true }) ∧
    Reads .br 0x23161800 (.tlbprobe { a := 5, b := 33, e := true }) ∧
    Reads .br 0x26161800 (.ctxswSave { a := 5, b := 33, e := true }) ∧
    Reads .br 0x12000000 (.fbar) ∧
    Reads .br 0x21000000 (.tlbinva) ∧
    Reads .br 0x242444E0 (.pmfcr { r := 9, crn := 0x113, e := true }) ∧
    Reads .br 0x25248040 (.pmtcr { r := 9, crn := 0x201, e := false }) ∧
    Reads .br 0x27000000 (.waiti) ∧
    Reads .br 0x28140800 (.dbell 5 true) ∧
    decodeSlot .br 0x02A00000 0x00000040 0x00000001 = .ok (.pbrl 5 0x100000040) := by
  refine ⟨?_, ?_, ?_, ?_, ?_, ?_, ?_, ?_, ?_, ?_, ?_, ?_, ?_, ?_, ?_, ?_, ?_, ?_, ?_, ?_, ?_, ?_, ?_, ?_, ?_, ?_, ?_⟩ <;> rfl

/-- R97 to R101: every graph word. -/
theorem decode_graph :
    decodeEgb 0x01F0000001230000 [] = some (.block 30 0x123) ∧
    decodeEgb 0x104C8000FFFFFFF0 [] = some (.egbLoop { ha := 9, hb := 18, hc := 0, cond := 0, imm := 0xFFFFFFF0 }) ∧
    decodeEgb 0x1100000000000000 [] = some (.endloop { ha := 0, hb := 0, hc := 0, cond := 0, imm := 0x0 }) ∧
    decodeEgb 0x1200000080000001 [] = some (.egbBr { ha := 0, hb := 0, hc := 0, cond := 0, imm := 0x80000001 }) ∧
    decodeEgb 0x134C80E000000005 [] = some (.brc { ha := 9, hb := 18, hc := 0, cond := 7, imm := 0x5 }) ∧
    decodeEgb 0x1400000000000007 [] = some (.egbCall { ha := 0, hb := 0, hc := 0, cond := 0, imm := 0x7 }) ∧
    decodeEgb 0x1500000000000000 [] = some (.egbRet { ha := 0, hb := 0, hc := 0, cond := 0, imm := 0x0 }) ∧
    decodeEgb 0x1600000000000000 [] = some (.gend { ha := 0, hb := 0, hc := 0, cond := 0, imm := 0x0 }) ∧
    decodeEgb 0x180000000000000B [] = some (.capbeg { ha := 0, hb := 0, hc := 0, cond := 0, imm := 0xB }) ∧
    decodeEgb 0x190000000000000B [] = some (.capend { ha := 0, hb := 0, hc := 0, cond := 0, imm := 0xB }) ∧
    decodeEgb 0x1A0000000000000B [] = some (.replay { ha := 0, hb := 0, hc := 0, cond := 0, imm := 0xB }) ∧
    decodeEgb 0x20480000FFFFFFF0 [] = some (.hset { ha := 9, hb := 0, hc := 0, cond := 0, imm := 0xFFFFFFF0 }) ∧
    decodeEgb 0x214CB60000000005 [] = some (.hadd { ha := 9, hb := 18, hc := 27, cond := 0, imm := 0x5 }) ∧
    decodeEgb 0x224CB60000000000 [] = some (.hmul { ha := 9, hb := 18, hc := 27, cond := 0, imm := 0x0 }) ∧
    decodeEgb 0x234CB60000000001 [] = some (.hdiv { ha := 9, hb := 18, hc := 27, cond := 0, imm := 0x1 }) ∧
    decodeEgb 0x244CB60000000000 [] = some (.hmin { ha := 9, hb := 18, hc := 27, cond := 0, imm := 0x0 }) ∧
    decodeEgb 0x254CB60000000000 [] = some (.hmax { ha := 9, hb := 18, hc := 27, cond := 0, imm := 0x0 }) ∧
    decodeEgb 0x3A00000000000000 [] = some (.egbStep { ha := 0, hb := 0, hc := 0, cond := 0, imm := 0x0 }) ∧
    decodeEgb 0x3C4800000000003F [] = some (.signal { ha := 9, hb := 0, hc := 0, cond := 0, imm := 0x3F }) ∧
    decodeEgb 0x30ABCC0000000000 [3, 4, 5, 6, 7, 8, 9, 10, 11, 12, 13, 14] = some (.hdef { handle := 0xABC, aux := 0x0, trail := [3, 4, 5, 6, 7, 8, 9, 10, 11, 12, 13, 14] }) ∧
    decodeEgb 0x31ABC00000000000 [] = some (.hfree { handle := 0xABC, aux := 0x0, trail := [] }) ∧
    decodeEgb 0x32ABCB0000000000 [3, 4, 5, 6, 7, 8, 9, 10, 11, 12, 13] = some (.hreshape { handle := 0xABC, aux := 0x0, trail := [3, 4, 5, 6, 7, 8, 9, 10, 11, 12, 13] }) ∧
    decodeEgb 0x33ABC10000000000 [3] = some (.hshard { handle := 0xABC, aux := 0x0, trail := [3] }) ∧
    decodeEgb 0x34ABCC0000000123 [3, 4, 5, 6, 7, 8, 9, 10, 11, 12, 13, 14] = some (.halias { handle := 0xABC, aux := 0x123, trail := [3, 4, 5, 6, 7, 8, 9, 10, 11, 12, 13, 14] }) ∧
    decodeEgb 0x380A520000000000 [3, 4] = some (.chload { handle := 0xA5, aux := 0x0, trail := [3, 4] }) ∧
    decodeEgb 0x380A500000000001 [] = some (.chloadOff { handle := 0xA5, aux := 0x1, trail := [] }) ∧
    decodeEgb 0x39ABC00000000009 [] = some (.param { handle := 0xABC, aux := 0x9, trail := [] }) ∧
    decodeEgb 0x26ABC00000000309 [] = some (.hld { handle := 0xABC, aux := 0x309, trail := [] }) ∧
    decodeEgb 0x3BABC00000000001 [] = some (.waith { handle := 0xABC, aux := 0x1, trail := [] }) ∧
    decodeEgb 0x3D00010000000000 [3] = some (.csload { handle := 0x0, aux := 0x0, trail := [3] }) ∧
    decodeEgb 0x0248CA2000000080 [0xC084800340020001, 0x0000000000004ABC, 7, 8] = some (.op { opid := 0x123, cons := 0x80, refs := [0x0001, 0x4002, 0x8003, 0xC084, 0x4ABC], attrs := [7, 8] }) := by
  refine ⟨?_, ?_, ?_, ?_, ?_, ?_, ?_, ?_, ?_, ?_, ?_, ?_, ?_, ?_, ?_, ?_, ?_, ?_, ?_, ?_, ?_, ?_, ?_, ?_, ?_, ?_, ?_, ?_, ?_, ?_, ?_⟩ <;> rfl

/-! ## Ill-formed terms: one for each check (R77 check 5) -/

/-- Reserved comparison codes. -/
theorem illformed_scalar : Instr.wf (.cmp { d := 1, a := 1, e := false, b := 2, f := false, cond := 12 }) = false ∧
    Instr.wf (.cmpi { d := 1, a := 1, e := false, cond := 12, imm := 0 }) = false ∧
    Instr.wf (.cmpp { p := 1, a := 1, e := false, b := 2, f := false, cond := 13 }) = false ∧
    Instr.wf (.cmppi { p := 1, a := 1, e := false, cond := 15, imm := 0 }) = false :=
  ⟨rfl, rfl, rfl, rfl⟩

/-- The checks of a vector word: reserved bits, type class, RM, SAT, PEN, RPT, unnamed sources, BS, IMM12 and register ranges. -/
theorem illformed_vector : Instr.wf (.vadd { zeroV with typ := 6, res := 1 }) = false ∧ Instr.wf (.vadd { zeroV with typ := 0 }) = false ∧ Instr.wf (.vadd { zeroV with typ := 13 }) = false ∧
    Instr.wf (.vadd { zeroV with typ := 6, rm := 1 }) = false ∧ Instr.wf (.vadd { zeroV with typ := 10, rm := 5 }) = false ∧ Instr.wf (.vadd { zeroV with typ := 6, pg := 1 }) = false ∧
    Instr.wf (.vadd { zeroV with typ := 6, vc := 1 }) = false ∧ Instr.wf (.vadd { zeroV with typ := 6, ec := true }) = false ∧ Instr.wf (.vadd { zeroV with typ := 6, imm := 1 }) = false ∧
    Instr.wf (.vadd { zeroV with typ := 6, vd := 63, rpt := 1 }) = false ∧ Instr.wf (.vadd { zeroV with typ := 6, va := 62, rpt := 2 }) = false ∧ Instr.wf (.vadd { zeroV with typ := 6, vb := 61, rpt := 3 }) = false ∧
    Instr.wf (.vmulh { zeroV with typ := 6, sat := true }) = false ∧ Instr.wf (.vabs { zeroV with typ := 10, sat := true }) = false ∧ Instr.wf (.vabs { zeroV with typ := 7 }) = false ∧
    Instr.wf (.vmov { zeroV with typ := 6, vb := 1 }) = false ∧ Instr.wf (.vmov { zeroV with typ := 6, bs := true }) = false ∧ Instr.wf (.viota { zeroV with typ := 6, va := 1 }) = false ∧
    Instr.wf (.vexp2 { zeroV with typ := 12, rm := 1 }) = false ∧ Instr.wf (.vfma { zeroV with typ := 12, vc := 63, rpt := 1 }) = false ∧ Instr.wf (.vdot4 { zeroV with typ := 4 }) = false ∧
    Instr.wf (.vcmp { zeroV with typ := 6, vd := 8 }) = false ∧ Instr.wf (.vcmp { zeroV with typ := 6, imm := 12 }) = false ∧ Instr.wf (.vcmp { zeroV with typ := 10, imm := 10 }) = false ∧
    Instr.wf (.vcmp { zeroV with typ := 6, rpt := 1 }) = false ∧ Instr.wf (.vsel { zeroV with typ := 6, vc := 8 }) = false ∧ Instr.wf (.vsel { zeroV with typ := 6, ec := true }) = false :=
  ⟨rfl, rfl, rfl, rfl, rfl, rfl, rfl, rfl, rfl, rfl, rfl, rfl, rfl, rfl, rfl, rfl, rfl, rfl, rfl, rfl, rfl, rfl, rfl, rfl, rfl, rfl, rfl⟩

theorem illformed_predicate : Instr.wf (.pand { zeroV with vd := 8 }) = false ∧ Instr.wf (.por { zeroV with va := 8 }) = false ∧ Instr.wf (.pxor { zeroV with vb := 8 }) = false ∧
    Instr.wf (.pand { zeroV with eb := true }) = false ∧ Instr.wf (.pnot { zeroV with vb := 1 }) = false ∧ Instr.wf (.pmov { zeroV with ea := true }) = false ∧
    Instr.wf (.pmov { zeroV with typ := 1 }) = false ∧ Instr.wf (.pcnt { zeroV with pen := true }) = false ∧ Instr.wf (.pset { zeroV with imm := 3 }) = false ∧
    Instr.wf (.pset { zeroV with imm := 2 }) = false ∧ Instr.wf (.pset { zeroV with imm := 1, bs := true }) = false ∧ Instr.wf (.pset { zeroV with vb := 1 }) = false :=
  ⟨rfl, rfl, rfl, rfl, rfl, rfl, rfl, rfl, rfl, rfl, rfl, rfl⟩

theorem illformed_conversion : Instr.wf (.vcvt { zeroV with typ := 6, imm := 4 }) = false ∧ Instr.wf (.vcvt { zeroV with typ := 6, imm := 6 }) = false ∧
    Instr.wf (.vcvt { zeroV with typ := 6, imm := 13 }) = false ∧ Instr.wf (.vcvt { zeroV with typ := 6, imm := 0x1C }) = false ∧ Instr.wf (.vwiden { zeroV with typ := 6, imm := 4, vd := 1 }) = false ∧
    Instr.wf (.vwiden { zeroV with typ := 6, imm := 4, pen := true }) = false ∧ Instr.wf (.vwiden4 { zeroV with typ := 6, imm := 2, vd := 2 }) = false ∧
    Instr.wf (.vwiden4 { zeroV with typ := 6, imm := 2, vd := 60, rpt := 1 }) = false ∧ Instr.wf (.vnarrow { zeroV with typ := 4, imm := 6, va := 1 }) = false ∧
    Instr.wf (.vnarrow4 { zeroV with typ := 2, imm := 6, va := 2 }) = false ∧ Instr.wf (.vbpack { zeroV with imm := 0x1A, vc := 1 }) = false ∧
    Instr.wf (.vbpack { zeroV with imm := 0x9A, vc := 1 }) = false ∧ Instr.wf (.vbpack { zeroV with imm := 0x86, vc := 1 }) = false ∧ Instr.wf (.vbpack { zeroV with imm := 0x8A }) = false ∧
    Instr.wf (.vbunpk { zeroV with typ := 10, imm := 0x90 }) = false ∧ Instr.wf (.vbunpk { zeroV with typ := 6, imm := 0x80 }) = false :=
  ⟨rfl, rfl, rfl, rfl, rfl, rfl, rfl, rfl, rfl, rfl, rfl, rfl, rfl, rfl, rfl, rfl⟩

theorem illformed_lanes : Instr.wf (.vrsum { zeroV with typ := 6, rpt := 1 }) = false ∧ Instr.wf (.vrot { zeroV with typ := 6, bs := true, imm := 1 }) = false ∧
    Instr.wf (.vrot { zeroV with typ := 6, vb := 1 }) = false ∧ Instr.wf (.vzip { zeroV with typ := 6, vd := 1 }) = false ∧ Instr.wf (.vunzip { zeroV with typ := 6, vd := 62, rpt := 1 }) = false ∧
    Instr.wf (.vbcst { zeroV with typ := 6, imm := 128 }) = false ∧ Instr.wf (.vbcsti { zeroV with typ := 6, rpt := 1 } 0) = false ∧ Instr.wf (.vmovs { zeroV with typ := 6, imm := 128 }) = false ∧
    Instr.wf (.vins { zeroV with typ := 6 }) = false ∧ Instr.wf (.vins { zeroV with typ := 6, bs := true, imm := 128 }) = false ∧ Instr.wf (.vrda { zeroV with typ := 6, va := 16 }) = false ∧
    Instr.wf (.vrda { zeroV with typ := 6, imm := 128 }) = false ∧ Instr.wf (.vrda { zeroV with typ := 5 }) = false ∧ Instr.wf (.vwra { zeroV with typ := 6, vd := 16 }) = false ∧
    Instr.wf (.vpopq { zeroV with va := 4 }) = false ∧ Instr.wf (.vpopq { zeroV with ea := true }) = false :=
  ⟨rfl, rfl, rfl, rfl, rfl, rfl, rfl, rfl, rfl, rfl, rfl, rfl, rfl, rfl, rfl, rfl⟩

theorem illformed_matrix : Instr.wf (.oclaim { zeroM with res := 1 }) = false ∧ Instr.wf (.oclaim { zeroM with mfmt := 1 }) = false ∧ Instr.wf (.oclaim { zeroM with rz := true }) = false ∧
    Instr.wf (.oclaim { zeroM with rq := 1 }) = false ∧ Instr.wf (.oclaim { zeroM with dt := 1 }) = false ∧ Instr.wf (.oclaim { zeroM with scale := 1 }) = false ∧
    Instr.wf (.oclaim { zeroM with acc2 := 1 }) = false ∧ Instr.wf (.oclaim { zeroM with acc := 1 }) = false ∧ Instr.wf (.aclr { zeroM with oa := 1 }) = false ∧
    Instr.wf (.oclaim { zeroM with ob := 1 }) = false ∧ Instr.wf (.oclaim { zeroM with nb := true }) = false ∧ Instr.wf (.oclaim { zeroM with sr := 1 }) = false ∧
    Instr.wf (.ostat { zeroM with ea := true }) = false ∧ Instr.wf (.oclaim { zeroM with sd := 1 }) = false ∧ Instr.wf (.ofill { zeroM with mfmt := 5 }) = false ∧
    Instr.wf (.ofill { zeroM with dt := 1 }) = false ∧ Instr.wf (.drain { zeroM with mfmt := 7 }) = false :=
  ⟨rfl, rfl, rfl, rfl, rfl, rfl, rfl, rfl, rfl, rfl, rfl, rfl, rfl, rfl, rfl, rfl, rfl⟩

theorem illformed_memory : Instr.wf (.ld { zeroMem with res := 1 }) = false ∧ Instr.wf (.l2pin { zeroMem with disp := 1 }) = false ∧ Instr.wf (.ld { zeroMem with ord := 2 }) = false ∧
    Instr.wf (.st { zeroMem with ord := 3 }) = false ∧ Instr.wf (.ld { zeroMem with ord := 1, scope := 5 }) = false ∧ Instr.wf (.ld { zeroMem with scope := 1 }) = false ∧
    Instr.wf (.ld { zeroMem with pen := true }) = false ∧ Instr.wf (.vld { zeroMem with sz := 4, pg := 1 }) = false ∧ Instr.wf (.ld { zeroMem with ed := true }) = false ∧
    Instr.wf (.ralloc { zeroMem with idx := 1 }) = false ∧ Instr.wf (.atadd { zeroMem with sz := 2, u := true }) = false ∧ Instr.wf (.rfree { zeroMem with dr := 1 }) = false ∧
    Instr.wf (.ld { zeroMem with sz := 4 }) = false ∧ Instr.wf (.atadd { zeroMem with sz := 1 }) = false ∧ Instr.wf (.l2pin { zeroMem with sh := 1 }) = false ∧
    Instr.wf (.atadd { zeroMem with sz := 2, scope := 5 }) = false ∧ Instr.wf (.sdset { zeroMem with sz := 1, dr := 16 }) = false ∧ Instr.wf (.sdset { zeroMem with sz := 3, sh := 2 }) = false ∧
    Instr.wf (.sdset { zeroMem with sz := 3, base := 62 }) = false ∧ Instr.wf (.sdset zeroMem) = false ∧ Instr.wf (.pattr { zeroMem with idx := 1 }) = false :=
  ⟨rfl, rfl, rfl, rfl, rfl, rfl, rfl, rfl, rfl, rfl, rfl, rfl, rfl, rfl, rfl, rfl, rfl, rfl, rfl, rfl, rfl⟩

theorem illformed_copy : Instr.wf (.cpy { zeroCp with res := 1 }) = false ∧ Instr.wf (.cpy { zeroCp with res0 := true }) = false ∧ Instr.wf (.cwait { zeroCp with off := 1 }) = false ∧
    Instr.wf (.cpy { zeroCp with dt := 1 }) = false ∧ Instr.wf (.cpys { zeroCp with dec := true }) = false ∧ Instr.wf (.cpy { zeroCp with acw := true }) = false ∧
    Instr.wf (.cpy { zeroCp with sr := 1 }) = false ∧ Instr.wf (.cpy { zeroCp with ea := true }) = false ∧ Instr.wf (.cpy { zeroCp with rq := 1 }) = false ∧
    Instr.wf (.cpy { zeroCp with le := true }) = false ∧ Instr.wf (.cpy { zeroCp with lc := 1 }) = false ∧ Instr.wf (.chopen { zeroCp with stg := 1 }) = false ∧
    Instr.wf (.cpy { zeroCp with ch := 1 }) = false ∧ Instr.wf (.cwait { zeroCp with fl := 1 }) = false ∧ Instr.wf (.sluice { zeroCp with stg := 4 }) = false ∧
    Instr.wf (.cpys { zeroCp with stg := 1 }) = false :=
  ⟨rfl, rfl, rfl, rfl, rfl, rfl, rfl, rfl, rfl, rfl, rfl, rfl, rfl, rfl, rfl, rfl⟩

theorem illformed_sync_and_branch : Instr.wf (.bar 5 0) = false ∧ Instr.wf (.fence 7) = false ∧ Instr.wf (.xfence 5 0) = false ∧ Instr.wf (.xfence 0 5) = false ∧
    Instr.wf (.xfence 2 2) = false ∧ Instr.wf (.pbrl 0 2) = false ∧ Instr.wf (.br 0 1 false) = false ∧ Instr.wf (.call 0 0xC8 0 false) = false ∧ Instr.wf (.ret 0 0xF8 false) = false :=
  ⟨rfl, rfl, rfl, rfl, rfl, rfl, rfl, rfl, rfl⟩

theorem illformed_graph : Instr.wf (.op { opid := 0, cons := 0, refs := [0x1000], attrs := [] }) = false ∧ Instr.wf (.op { opid := 0, cons := 0, refs := List.replicate 17 0, attrs := [] }) = false ∧
    Instr.wf (.op { opid := 0, cons := 0, refs := [], attrs := List.replicate 32 0 }) = false ∧ Instr.wf (.egbBr { ha := 1, hb := 0, hc := 0, cond := 0, imm := 0 }) = false ∧
    Instr.wf (.hset { ha := 1, hb := 1, hc := 0, cond := 0, imm := 0 }) = false ∧ Instr.wf (.brc { ha := 1, hb := 0, hc := 1, cond := 0, imm := 0 }) = false ∧
    Instr.wf (.brc { ha := 1, hb := 0, hc := 0, cond := 10, imm := 0 }) = false ∧ Instr.wf (.hadd { ha := 1, hb := 0, hc := 0, cond := 1, imm := 0 }) = false ∧
    Instr.wf (.hmul { ha := 1, hb := 0, hc := 0, cond := 0, imm := 1 }) = false ∧ Instr.wf (.capbeg { ha := 0, hb := 0, hc := 0, cond := 0, imm := 16 }) = false ∧
    Instr.wf (.csload { handle := 1, aux := 0, trail := [0] }) = false ∧ Instr.wf (.hfree { handle := 1, aux := 1, trail := [] }) = false ∧
    Instr.wf (.hfree { handle := 1, aux := 0, trail := [0] }) = false ∧ Instr.wf (.chload { handle := 256, aux := 0, trail := [0, 0] }) = false ∧
    Instr.wf (.chloadOff { handle := 1, aux := 0, trail := [] }) = false ∧ Instr.wf (.signal { ha := 0, hb := 0, hc := 0, cond := 0, imm := 256 }) = false :=
  ⟨rfl, rfl, rfl, rfl, rfl, rfl, rfl, rfl, rfl, rfl, rfl, rfl, rfl, rfl, rfl, rfl⟩

/-! ## Small steps: worked examples and corner values of the manual -/

/-- n elements of w bits, all the same. -/
def splat (w n x : Nat) : VReg := BitVec.ofNat 4096 ((List.range n).foldl (fun a k => a + x * 2 ^ (w * k)) 0)

/-- Core 0 with vector registers as listed, live and before the group. -/
def vregs0 (l : List (Nat × VReg)) : State :=
  let t : Tbl (Reg VReg) := l.map fun p => (p.1, { val := p.2 })
  core0 fun c => { c with live := { c.live with v := t }, pre := { c.pre with v := t } }

/-- The value of a vector register of core 0 after one slot. -/
def vectorAfter (i : Instr) (s : State) (n : Nat) : VReg := ((written i s).live.vReg n).val

/-- The values that one slot leaves on their way to empty registers. -/
def dueAfter (i : Instr) (s : State) : List Nat := (after (exec i s)).core.prods.map fun w => w.val

/-- R126: a sum outside 32 bits wraps and is sign-extended. -/
theorem test_add_w_wraps : scalarAfter (.add (ar 3 1 2 false true)) (regs0 [(1, 0x7FFFFFFF), (2, 1)]) 3 = 0xFFFFFFFF80000000 := by decide +kernel

/-- R126: `.u` zero-extends. -/
theorem test_sub_wu_wraps : scalarAfter (.sub (ar 3 1 2 true true)) (regs0 [(1, 0), (2, 1)]) 3 = 0xFFFFFFFF := by decide +kernel

/-- R127: division by zero gives all ones and the dividend. -/
theorem test_divide_by_zero : dueAfter (.div (ar 3 1 2 false false)) (regs0 [(1, 5), (2, 0)]) = [0xFFFFFFFFFFFFFFFF] ∧
    dueAfter (.rem (ar 3 1 2 false false)) (regs0 [(1, 5), (2, 0)]) = [5] := by decide +kernel

/-- R127: the signed overflow case gives the dividend and 0. -/
theorem test_divide_overflow : dueAfter (.div (ar 3 1 2 false true)) (regs0 [(1, 0x80000000), (2, 0xFFFFFFFF)]) = [0xFFFFFFFF80000000] ∧
    dueAfter (.rem (ar 3 1 2 false true)) (regs0 [(1, 0x80000000), (2, 0xFFFFFFFF)]) = [0] := by decide +kernel

/-- The example after R134. -/
theorem test_bfxi : scalarAfter (.bfxi ⟨3, 2, 8, 60⟩) (regs0 [(2, 0xF000000000000000)]) 3 = 0xF := by decide +kernel

theorem test_bfxsi : scalarAfter (.bfxsi ⟨3, 2, 8, 60⟩) (regs0 [(2, 0xF000000000000000)]) 3 = 0xF := by decide +kernel

theorem test_bfii : scalarAfter (.bfii ⟨2, 4, 8, 60⟩) (regs0 [(2, 0xF000000000000000), (4, 0xA5)]) 2 = 0x5000000000000000 := by decide +kernel

/-- The example after R149: a repetition reads what the one before it wrote. -/
theorem test_vadd_repeats :
    let i : Instr := .vadd { zeroV with typ := 6, rpt := 2, vd := 5, va := 4, vb := 6 }
    let s := vregs0 [(4, splat 32 128 1), (6, splat 32 128 2), (7, splat 32 128 10), (8, splat 32 128 100)]
    vectorAfter i s 5 = splat 32 128 3 ∧ vectorAfter i s 6 = splat 32 128 13 ∧ vectorAfter i s 7 = splat 32 128 113 := by decide +kernel

/-- The example after R157. -/
theorem test_vbpack :
    let i : Instr := .vbpack { zeroV with imm := 0x4C, vd := 8, va := 2, vc := 9 }
    let s := vregs0 [(2, BitVec.ofNat 4096 (0x40400000 + 0xBFA00000 * 2 ^ 32 + 0x3DCCCCCD * 2 ^ 64))]
    vectorAfter i s 8 = 0xE6 ∧ vectorAfter i s 9 = 0x81 ∧ (written i s).live.fp = 1 := by decide +kernel

/-- The example after R68. -/
theorem test_tree_reduce : (treeReduce (RedOp.add.fpRound .f32 false) (RedOp.add.fpIdent .f32)
    (0x4B800000 :: List.replicate 7 0x3F800000)).1 = 0x4B800003 := by decide +kernel

/-- The example after R65. -/
theorem test_mma_element : mmaElement 0 true false 8 ((0x45800000 :: List.replicate 7 0x3F800000).map fun x => (Fmt.f32.read false x, Fmt.f32.read false x)) =
    0x4B800004 := by decide +kernel

/-- The example after R53. -/
theorem test_bfp_quantise : bfpQuantise (([0x40400000, 0xBFA00000, 0x3DCCCCCD] ++ List.replicate 13 0).map (Fmt.f32.read false)) 4 .rne =
    (0x81, [6, 14] ++ List.replicate 14 0, Fl.nx) := by decide +kernel

/-- The example after R205. -/
theorem test_core_id : ({ fabric := [5] } : State).coreId (5 * 4096 + 19 * 128 + 30) = 0x0000057601667800 := by decide +kernel

/-- The table image and the coded stream of the example after R232. -/
theorem test_decompression : ((tableOf ([1, 1, 2] ++ List.replicate 13 0 ++ [0x00, 0x38, 0x40, 0xB8] ++ List.replicate 252 0)).map fun t =>
    decodeStream t fun i => [0x06, 0, 0, 0, 0, 0, 0, 0, 0xA6, 0xE0][i]?) =
      some { bytes := [0x38, 0x38, 0x00, 0x40, 0xB8, 0x00], read := 10, ok := true, short := false } := by decide +kernel

/-- The tag table of the example after R248. -/
def tagTable0 (stale : Bool) : State :=
  let t : Tbl TagEnt := (5, { d := false, s := stale, key := 0x004000120000, spaddr := 0x40000, len := 512 }) ::
    ((List.range 12).filter fun k => k != 5).map fun k => (k, { d := false, key := 64 * k, spaddr := 0, len := 1 })
  let r : Tbl (Reg DWord) := [(12, { val := 0x004000120000 }), (13, { val := 0x004000120040 })]
  core0 fun c => { c with tagTab := t, live := { c.live with s := r }, pre := { c.pre with s := r } }

theorem test_stlook_hit : scalarAfter (.stlook { zeroMem with dr := 7, base := 12 }) (tagTable0 false) 7 = 0x0001000004000005 ∧
    scalarAfter (.stlook { zeroMem with dr := 7, base := 12 }) (tagTable0 true) 7 = 0x4001000004000005 := by decide +kernel

theorem test_stlook_miss : scalarAfter (.stlook { zeroMem with dr := 7, base := 13 }) (tagTable0 false) 7 = 0x800000000000000C := by decide +kernel

end Sys2Proof.Tests
end

section
set_option Elab.async false
-- Elaborated in order, here and in each section below: proofs run side by side would each need a stack of their own.
/-! SUPPORT. The memory of the pod through the operations that write none of it: each leaves it as it was. -/

namespace Sys2Proof.Machine

/-- A fold of operations that leave the memory leaves it. -/
theorem State.foldl_mem {α : Type} {f : State → α → State} (h : ∀ s a, (f s a).mem = s.mem) (l : List α) (s : State) :
    (l.foldl f s).mem = s.mem := by
  induction l generalizing s with
  | nil => rfl
  | cons a l ih => rw [List.foldl_cons, ih, h]

@[simp] theorem State.mem_ite (c : Prop) [Decidable c] (a b : State) : (if c then a else b).mem = if c then a.mem else b.mem :=
  apply_ite State.mem c a b

variable (s : State)

/-! ## Base -/

@[simp] theorem State.updAll_mem (us : List Nat) (f : Core → Core) : (s.updAll us f).mem = s.mem :=
  State.foldl_mem (fun s u => s.updAt_mem u f) us s

@[simp] theorem State.irq_mem (u bit : Nat) : (s.irq u bit).mem = s.mem := rfl

@[simp] theorem State.irqDie_mem (d bit : Nat) : (s.irqDie d bit).mem = s.mem := rfl

@[simp] theorem State.prior_mem : (s.prior).mem = s.mem := by simp [State.prior]

@[simp] theorem State.result_mem (d : RegName) (val : Nat) (t : Taint) (L : Nat) (fp : BitVec 5) (vx : Bool) :
    (s.result d val t L fp vx).mem = s.mem := by
  simp [State.result]

@[simp] theorem State.produce_mem (d : RegName) (val : Nat) (t : Taint) (L : Nat) (fp : BitVec 5) (vx : Bool) :
    (s.produce d val t L fp vx).mem = s.mem := by
  simp [State.produce]

@[simp] theorem State.writeS_mem (n : BitVec 6) (v : DWord) (t : Taint) (L : Nat) : (s.writeS n v t L).mem = s.mem := by simp [State.writeS]

/-! ## Trace -/

@[simp] theorem State.countAt_mem (u ev k : Nat) : (s.countAt u ev k).mem = s.mem := rfl

/-! ## Ops -/

@[simp] theorem State.ckBefore_mem (ev : Nat) : (s.ckBefore ev).mem = s.mem := rfl

@[simp] theorem State.ckHere_mem (ev : Nat) : (s.ckHere ev).mem = s.mem := rfl

@[simp] theorem State.ckEnd_mem : (s.ckEnd).mem = s.mem := by simp [State.ckEnd]

@[simp] theorem State.setPoint_mem (d sw l st : Nat) : (s.setPoint d sw l st).mem = s.mem := rfl

@[simp] theorem State.restartPoint_mem (d : Nat) (r : Record) : (s.restartPoint d r).mem = s.mem := by
  unfold State.restartPoint; split <;> rfl

@[simp] theorem State.freeOperGrans_mem (d ctx : Nat) (blk : Option Nat) : (s.freeOperGrans d ctx blk).mem = s.mem := rfl

@[simp] theorem State.reapLeaving_mem (u : Nat) : (s.reapLeaving u).mem = s.mem := State.foldl_mem (fun s id => by simp) _ _

@[simp] theorem State.reapResume_mem (u : Nat) : (s.reapResume u).mem = s.mem := by
  refine (State.foldl_mem (fun s p => ?_) _ _).trans (s.reapLeaving_mem u)
  split <;> simp

@[simp] theorem State.dropCtxWork_mem (d ctx : Nat) : (s.dropCtxWork d ctx).mem = s.mem :=
  (State.foldl_mem (fun s p => by simp) _ _).trans rfl

@[simp] theorem State.remember_mem (i : Inst) (state cause agreed : Nat) : (s.remember i state cause agreed).mem = s.mem := rfl

@[simp] theorem State.abortInsts_mem (p : Inst → Bool) (cause : Nat) (exempt : Option (Nat × Nat)) :
    (s.abortInsts p cause exempt).mem = s.mem :=
  State.foldl_mem (fun _ _ => by rfl) _ _

@[simp] theorem State.graphFault_mem (d ctx code addr opid handle info : Nat) :
    (s.graphFault d ctx code addr opid handle info).mem = s.mem := by
  simp [State.graphFault]

@[simp] theorem State.endByClass_mem (u why addr info : Nat) (dest : Run) : (s.endByClass u why addr info dest).mem = s.mem := by
  unfold State.endByClass; split <;> simp

@[simp] theorem State.abandon_mem (u cause : Nat) (inPlace byHandler : Bool) : (s.abandon u cause inPlace byHandler).mem = s.mem := by
  simp [State.abandon]

@[simp] theorem State.abortPos_mem (u k why info : Nat) : (s.abortPos u k why info).mem = s.mem := by unfold State.abortPos; split <;> simp

@[simp] theorem State.abortResume_mem (u info : Nat) : (s.abortResume u info).mem = s.mem := State.foldl_mem (fun s p => by simp) _ _

@[simp] theorem State.doubleFault_mem (u cause : Nat) (info : DWord) : (s.doubleFault u cause info).mem = s.mem := by
  simp [State.doubleFault]

@[simp] theorem State.planTrap_mem (u cause : Nat) (info : DWord) : (s.planTrap u cause info).mem = s.mem := by simp [State.planTrap]

@[simp] theorem State.enterHandler_mem (u cause : Nat) (info : DWord) (done vec : Nat) :
    (s.enterHandler u cause info done vec).mem = s.mem :=
  rfl

@[simp] theorem State.trapAt_mem (u cause : Nat) (info : DWord) (done : Nat) : (s.trapAt u cause info done).mem = s.mem := by
  simp only [State.trapAt]
  split
  · simp
  · split
    · simp
    · split <;> simp

@[simp] theorem State.takeTrap_mem (cause : Nat) (info : DWord) (done : Nat) : (s.takeTrap cause info done).mem = s.mem := by
  simp [State.takeTrap]

@[simp] theorem State.trapReturn_mem : (s.trapReturn).mem = s.mem := rfl

/-! ## Access -/

@[simp] theorem State.startWalks_mem (d : Nat) : (s.startWalks d).mem = s.mem := rfl

@[simp] theorem State.walkFor_mem (d tsid va : Nat) (us : List Nat) : (s.walkFor d tsid va us).mem = s.mem := rfl

@[simp] theorem State.stepWalk_mem (d n : Nat) : (s.stepWalk d n).mem = s.mem := rfl

@[simp] theorem State.l2Fill_mem (d : Nat) (e : TlbEnt) : (s.l2Fill d e).mem = s.mem := rfl

@[simp] theorem State.tlbFill_mem (u : Nat) (e : TlbEnt) : (s.tlbFill u e).mem = s.mem := rfl

@[simp] theorem State.engineFill_mem (d tsid va : Nat) : (s.engineFill d tsid va).mem = s.mem := by
  unfold State.engineFill
  split
  · rfl
  · split <;> rfl

@[simp] theorem State.readFill_mem (d tsid f va n : Nat) : (s.readFill d tsid f va n).mem = s.mem := by
  induction f generalizing s va n with
  | zero => rfl
  | succ f ih =>
    simp only [State.readFill, State.mem_ite]
    split
    · rfl
    · split <;> simp [ih]

@[simp] theorem State.writeLate_mem (p : Unit64 → Bool) : (s.writeLate p).mem = s.mem := (State.foldl_mem (fun _ _ => by rfl) _ _).trans rfl

@[simp] theorem State.settle_mem (u : Nat) : (s.settle u).mem = s.mem := by simp [State.settle]

/-! ## Tasks -/

@[simp] theorem State.frameFault_mem (u a : Nat) : (s.frameFault u a).mem = s.mem := by simp [State.frameFault]

@[simp] theorem State.wake_mem (u : Nat) : (s.wake u).mem = s.mem := rfl

@[simp] theorem State.finishEnd_mem (u : Nat) : (s.finishEnd u).mem = s.mem := by
  unfold State.finishEnd
  simp only [State.mem_ite]
  split
  · rfl
  · rw [State.wake_mem]
    split <;> simp

@[simp] theorem State.startRecord_mem (u : Nat) (r : Record) : (s.startRecord u r).mem = s.mem := rfl

@[simp] theorem State.resumeRecord_mem (u k : Nat) (p : ResumePos) : (s.resumeRecord u k p).mem = s.mem := by
  simp only [State.resumeRecord]
  split <;> simp

@[simp] theorem State.refill_mem (d role f : Nat) : (s.refill d role f).mem = s.mem := by
  induction f generalizing s with
  | zero => rfl
  | succ n ih =>
    simp only [State.refill, State.mem_ite]
    split
    · rfl
    · split <;> simp [ih]

@[simp] theorem State.refillDie_mem (d : Nat) : (s.refillDie d).mem = s.mem := State.foldl_mem (fun s role => by simp) _ s

@[simp] theorem State.takeRecord_mem (u : Nat) : (s.takeRecord u).mem = s.mem := by
  unfold State.takeRecord
  (repeat' split) <;> simp

/-! ## Network -/

@[simp] theorem State.flagArrives_mem (t k : Nat) : (s.flagArrives t k).mem = s.mem := rfl

@[simp] theorem State.post_mem (u t k : Nat) : (s.post u t k).mem = s.mem := by simp [State.post]

@[simp] theorem State.ownFlag_mem (f : Regs → Regs) : (s.ownFlag f).mem = s.mem := rfl

@[simp] theorem State.landingPosts_mem (u m : Nat) : (s.landingPosts u m).mem = s.mem := by simp [State.landingPosts]

@[simp] theorem State.landed_mem (u m : Nat) : (s.landed u m).mem = s.mem := by simp [State.landed]

@[simp] theorem State.armLanding_mem (u m : Nat) (v : DWord) : (s.armLanding u m v).mem = s.mem := by
  unfold State.armLanding
  rw [State.landingPosts_mem, State.updAt_mem]
  split <;> rfl

@[simp] theorem State.acquire_mem (u : Nat) : (s.acquire u).mem = s.mem := rfl

@[simp] theorem State.weirCheck_mem (u scope : Nat) : (s.weirCheck u scope).mem = s.mem := by simp [State.weirCheck]

@[simp] theorem State.weirsRecheck_mem : (s.weirsRecheck).mem = s.mem := by
  refine State.foldl_mem (fun s p => ?_) _ s
  split <;> simp

@[simp] theorem State.barArrive_mem (u scope : Nat) : (s.barArrive u scope).mem = s.mem := by simp [State.barArrive]

/-! ## Exec -/

@[simp] theorem State.hold_mem (h : Hold) : (s.hold h).mem = s.mem := rfl

@[simp] theorem State.waitCheckpoint_mem (ev : Nat) : (s.waitCheckpoint ev).mem = s.mem := by simp [State.waitCheckpoint]

@[simp] theorem State.startWalk_mem (tsid va : Nat) : (s.startWalk tsid va).mem = s.mem := rfl

@[simp] theorem State.sendPush_mem (ch : Nat) (v : DWord) : (s.sendPush ch v).mem = s.mem := by
  simp only [State.sendPush]
  split <;> simp

@[simp] theorem State.askSweep_mem (w : Sweep) : (s.askSweep w).mem = s.mem := by simp [State.askSweep]

@[simp] theorem State.planEnd_mem (u : Nat) : (s.planEnd u).mem = s.mem := rfl

@[simp] theorem State.doneTask_mem : (s.doneTask).mem = s.mem := by simp [State.doneTask]

@[simp] theorem State.startShoot_mem (tsid va : Nat) : (s.startShoot tsid va).mem = s.mem := rfl

@[simp] theorem State.stay_mem (l : List After) (ck : Bool) : (s.stay l ck).mem = s.mem := by simp [State.stay]

@[simp] theorem State.weirWait_mem (scope : Nat) (limit : Option Nat) (l : List After) : (s.weirWait scope limit l).mem = s.mem := by
  simp [State.weirWait]

@[simp] theorem State.passed_mem (a : After) : (s.passed a).mem = s.mem := by unfold State.passed; split <;> simp

/-! ## ControlRegs -/

@[simp] theorem State.writeCr_mem (n : Nat) (v : DWord) (t : Taint) : (s.writeCr n v t).mem = s.mem := by
  simp only [State.writeCr, State.mem_ite]
  repeat' split
  all_goals rfl

@[simp] theorem State.writeCrs_mem : (s.writeCrs).mem = s.mem := (State.foldl_mem (fun s w => by simp) _ _).trans rfl

/-! ## Fetch -/

@[simp] theorem State.prefetchBlock_mem (u n : Nat) : (s.prefetchBlock u n).mem = s.mem := by
  simp only [State.prefetchBlock, State.mem_ite]
  split
  · rfl
  split
  · simp
  split
  · rfl
  next e t answer =>
    have walked : t.mem = s.mem := by
      split at answer
      · cases answer; rfl
      · split at answer <;> cases answer
        rfl
    split
    · split <;> simp [walked]
    · rfl

@[simp] theorem State.beginGroup_mem : (s.beginGroup).mem = s.mem := rfl

@[simp] theorem State.placeGroup_mem (g : List Bundle) : (s.placeGroup g).mem = s.mem := rfl

@[simp] theorem State.later_mem : (s.later).mem = s.mem := rfl

/-! ## Operands -/

@[simp] theorem writeRep_mem (L : Nat) (o : RepOut) : (writeRep L s o).mem = s.mem := by
  have kept (l : List (Nat × VReg)) (a : State × Fl) :
      (l.foldl (fun (a : State × Fl) w => (a.1.result (.v w.1) w.2.toNat o.taint L a.2 true, 0)) a).1.mem = a.1.mem := by
    induction l generalizing a with
    | nil => rfl
    | cons w l ih => rw [List.foldl_cons, ih, State.result_mem]
  exact kept o.outs (s, o.fl)

/-! ## Tiles -/

@[simp] theorem State.enqueueMx_mem (op : MxOp) (checked : Bool) (fills : List Nat) : (s.enqueueMx op checked fills).mem = s.mem := rfl

/-! ## Matrix -/

@[simp] theorem fillEnds_mem (u : Nat) (f : Fill) : (fillEnds s u f).mem = s.mem := rfl

@[simp] theorem mmaRecheck_mem (u : Nat) (e : MxEnt) : (mmaRecheck s u e).mem = s.mem := by
  simp only [mmaRecheck]
  repeat' split
  all_goals simp

/-! ## Cycle -/

theorem State.engineAct_mem (u : Nat) {t : State} (h : s.engineAct u = some t) : t.mem = s.mem := by
  simp only [State.engineAct] at h
  split at h
  · cases h; simp
  split at h
  · cases h; simp
  split at h
  · cases h; simp
  split at h
  · cases h; simp
  · obtain ⟨e, -, rfl⟩ := Option.map_eq_some_iff.1 h
    simp

@[simp] theorem State.engineActs_mem (u f : Nat) : (s.engineActs u f).mem = s.mem := by
  induction f generalizing s with
  | zero => rfl
  | succ n ih =>
    simp only [State.engineActs]
    split
    · next t act => rw [ih, s.engineAct_mem u act]
    · rfl

@[simp] theorem State.engineDue_mem (u : Nat) : (s.engineDue u).mem = s.mem := by simp [State.engineDue]

@[simp] theorem State.readyRecords_mem (u : Nat) : (s.readyRecords u).mem = s.mem := rfl

@[simp] theorem State.oneCycle_mem : (s.oneCycle).mem = s.mem :=
  (State.foldl_mem (fun s p => by simp) _ _).trans (State.foldl_mem (fun s p => by simp) (s.cores.filter _) s)

@[simp] theorem State.advance_mem (n : Nat) : (s.advance n).mem = s.mem := by
  induction n generalizing s with
  | zero => rfl
  | succ n ih => rw [State.advance, ih, State.oneCycle_mem]

@[simp] theorem State.nextCycle_mem : (s.nextCycle).mem = s.mem := by simp [State.nextCycle]

/-! ## Copies -/

@[simp] theorem State.failSends_mem (d ctx ch : Nat) (e : ChanEnt) : (s.failSends d ctx ch e).mem = s.mem := rfl

@[simp] theorem State.unloadChan_mem (d ctx ch : Nat) : (s.unloadChan d ctx ch).mem = s.mem := by unfold State.unloadChan; split <;> simp

@[simp] theorem State.unloadAll_mem (d ctx : Nat) : (s.unloadAll d ctx).mem = s.mem := State.foldl_mem (fun s p => by simp) _ s

@[simp] theorem State.loadChan_mem (d ctx ch : Nat) (x : ChanEnt) : (s.loadChan d ctx ch x).mem = s.mem := by simp [State.loadChan]

@[simp] theorem State.mapUnits_mem (c : Copy) (f : Copy → Copy) : (s.mapUnits c f).mem = s.mem := rfl

@[simp] theorem State.fillSlotOf_mem (c : Copy) : (s.fillSlotOf c).mem = s.mem := by
  unfold State.fillSlotOf
  (repeat' split) <;> simp

/-! ## Collectives -/

@[simp] theorem State.noteEnd_mem (m : Member) (part state cause arrived : Nat) : (s.noteEnd m part state cause arrived).mem = s.mem := by
  simp [State.noteEnd]

@[simp] theorem State.commitInst_mem (i : Inst) (f : Member) : (s.commitInst i f).mem = s.mem := rfl

@[simp] theorem State.contribute_mem (i : Inst) (n : Nat) : (s.contribute i n).mem = s.mem := by
  unfold State.contribute
  (repeat' split) <;> simp

@[simp] theorem State.memberDone_mem (i : Inst) (n : Nat) (failed : Bool) : (s.memberDone i n failed).mem = s.mem := by
  simp [State.memberDone]

@[simp] theorem State.insertedDone_mem (m : Member) (id : Nat) (cause : Option Nat) : (s.insertedDone m id cause).mem = s.mem := by
  simp only [State.insertedDone]
  repeat' split
  all_goals simp

@[simp] theorem State.updMember_mem (i : Inst) (n : Nat) (f : Member → Member) : (s.updMember i n f).mem = s.mem := rfl

@[simp] theorem State.abortElsewhere_mem (u id info : Nat) : (s.abortElsewhere u id info).mem = s.mem := by
  simp only [State.abortElsewhere]
  repeat' split
  all_goals simp

@[simp] theorem State.abortMemberTask_mem (m : Member) (cause : Nat) : (s.abortMemberTask m cause).mem = s.mem := by
  simp only [State.abortMemberTask, State.mem_ite]
  split
  · rfl
  · split <;> simp

@[simp] theorem State.placeReplace_mem (x : HwUnit) : (s.placeReplace x).mem = s.mem := by unfold State.placeReplace; split <;> rfl

@[simp] theorem State.requestReplace_mem (x : HwUnit) : (s.requestReplace x).mem = s.mem :=
  (State.placeReplace_mem _ x).trans (State.foldl_mem (fun _ _ => by rfl) _ _)

@[simp] theorem State.takeOffline_mem (u : Nat) : (s.takeOffline u).mem = s.mem := by simp [State.takeOffline]

@[simp] theorem State.dieOffline_mem (d : Nat) : (s.dieOffline d).mem = s.mem := by
  refine (State.weirsRecheck_mem _).trans ((State.foldl_mem (fun s p => by simp) _ _).trans ?_)
  simp

@[simp] theorem State.stackAborts_mem (stack : Nat) : (s.stackAborts stack).mem = s.mem := by simp [State.stackAborts]

/-! ## Devices -/

@[simp] theorem State.launch_mem (d : Nat) (v : DWord) : (s.launch d v).mem = s.mem := by
  simp only [State.launch]
  split <;> simp

@[simp] theorem State.clearFault_mem (d c : Nat) : (s.clearFault d c).mem = s.mem := by simp [State.clearFault]

@[simp] theorem State.gstatWrite_mem (d : Nat) (v : DWord) : (s.gstatWrite d v).mem = s.mem := by
  simp only [State.gstatWrite, State.mem_ite, State.updDie_mem, ite_self]
  exact State.foldl_mem (fun s c => by simp) _ s

@[simp] theorem State.startControl_mem (u : Nat) : (s.startControl u).mem = s.mem := rfl

@[simp] theorem State.endDrain_mem (d : Nat) : (s.endDrain d).mem = s.mem := State.foldl_mem (fun s p => by simp) _ s

@[simp] theorem State.setDrain_mem (d : Nat) (b : Bool) : (s.setDrain d b).mem = s.mem := by simp [State.setDrain]

@[simp] theorem State.dsvcWrite_mem (d : Nat) (v : DWord) : (s.dsvcWrite d v).mem = s.mem := by simp [State.dsvcWrite]

@[simp] theorem State.restartCore_mem (u : Nat) : (s.restartCore u).mem = s.mem := by simp [State.restartCore]

@[simp] theorem State.setOffline_mem (u : Nat) (b : Bool) : (s.setOffline u b).mem = s.mem := by simp [State.setOffline]

@[simp] theorem State.cctlWrite_mem (u : Nat) (v : DWord) : (s.cctlWrite u v).mem = s.mem := by simp [State.cctlWrite]

@[simp] theorem State.writeReg_mem (d : Nat) (r : DevReg) (v : DWord) : (s.writeReg d r v).mem = s.mem := by
  unfold State.writeReg; split <;> simp

/-! ## Boot -/

@[simp] theorem State.resetDie_mem (d : Nat) : (s.resetDie d).mem = s.mem := by simp [State.resetDie]

@[simp] theorem State.powerOn_mem (p : Nat) : (s.powerOn p).mem = s.mem := by
  have reset (l : List Nat) : (l.foldl (fun s k => s.resetDie (p * 32 + k)) s).mem = s.mem := State.foldl_mem (fun s k => s.resetDie_mem _) l s
  have start (l : List Nat) (t : State) : (l.foldl (fun s k => (controlUnits (p * 32 + k)).foldl (fun s u => s.startControl u) s) t).mem = t.mem :=
    State.foldl_mem (fun s k => State.foldl_mem (fun s u => s.startControl_mem u) _ s) l t
  simp only [State.powerOn, State.mem_ite, start, reset, ite_self]

/-! ## CopyOps -/

@[simp] theorem State.track_mem (c : Copy) : (s.track c).mem = s.mem := by simp [State.track]

@[simp] theorem State.queueCopy_mem (c : Copy) : (s.queueCopy c).mem = s.mem := rfl

@[simp] theorem State.countSend_mem (ch : Nat) : (s.countSend ch).mem = s.mem := rfl

/-! ## Sync -/

@[simp] theorem State.applyPush_mem (x : Push) : (s.applyPush x).mem = s.mem := by unfold State.applyPush; split <;> simp

/-! ## Branch -/

@[simp] theorem State.setTarget_mem (n : Nat) (v : DWord) (t : Taint) (dyn : Bool) : (s.setTarget n v t dyn).mem = s.mem := rfl

@[simp] theorem State.controlTaint_mem (t : Taint) : (s.controlTaint t).mem = s.mem := rfl

@[simp] theorem State.branch_mem (n : Nat) (cond taken : Bool) : (s.branch n cond taken).mem = s.mem := rfl

/-! ## Sweeps -/

@[simp] theorem State.reportRetired_mem (d : Nat) (w : Sweep) (id : Nat) : (s.reportRetired d w id).mem = s.mem := rfl

/-! ## Graph -/

@[simp] theorem State.setShape_mem (d c n : Nat) (v : DWord) : (s.setShape d c n v).mem = s.mem := rfl

/-! ## Operators -/

theorem State.allocBlock_mem (d c : Nat) (b : Block) {t : State} (h : s.allocBlock d c b = some t) : t.mem = s.mem := by
  have grans (l : List Nat) (a a' : State × Tbl Nat) (h : l.foldlM (fun (a : State × Tbl Nat) u =>
      ((a.1.coreAt u).findGrans b.budget).map fun g =>
        (a.1.updAt u fun k => k.takeGrans g b.budget (.oper c b.serial), Tbl.set a.2 u g)) a = some a') : a'.1.mem = a.1.mem := by
    induction l generalizing a with
    | nil => cases h; rfl
    | cons u l ih =>
      rw [List.foldlM_cons] at h
      obtain ⟨x, first, rest⟩ := Option.bind_eq_some_iff.1 h
      obtain ⟨g, -, rfl⟩ := Option.map_eq_some_iff.1 first
      exact (ih _ rest).trans (a.1.updAt_mem u _)
  unfold State.allocBlock at h
  split at h
  · cases h; rfl
  · obtain ⟨a, found, rfl⟩ := Option.map_eq_some_iff.1 h
    exact (State.updCtx_mem a.1 d c _).trans (grans _ _ _ found)

@[simp] theorem State.allocUpTo_mem (d c serial : Nat) (bs : List Block) : (s.allocUpTo d c serial bs).mem = s.mem := by
  induction bs generalizing s with
  | nil => rfl
  | cons b bs ih =>
    simp only [State.allocUpTo]
    split
    · split
      · rfl
      · exact ih s
    · split
      · rfl
      · next t found =>
        split
        · exact s.allocBlock_mem d c b found
        · rw [ih, s.allocBlock_mem d c b found]

@[simp] theorem State.fillRegions_mem (b : Block) : (s.fillRegions b).mem = s.mem := State.foldl_mem (fun _ _ => by rfl) _ s

@[simp] theorem State.startPlan_mem (d c u : Nat) (b : Block) (j : Nat) (e : Entry) : (s.startPlan d c u b j e).mem = s.mem := rfl

@[simp] theorem State.nextPlan_mem (d : Nat) : (s.nextPlan d).mem = s.mem := by
  unfold State.nextPlan
  (repeat' split) <;> simp

@[simp] theorem State.opStop_mem (d c : Nat) (e : Entry) (x : OpErr) : (s.opStop d c e x).mem = s.mem := by simp [State.opStop]

@[simp] theorem State.dropLines_mem (d scope : Nat) (fs : List (Nat × Nat)) : (s.dropLines d scope fs).mem = s.mem := rfl

@[simp] theorem State.releaseLines_mem (d c n : Nat) : (s.releaseLines d c n).mem = s.mem := by
  unfold State.releaseLines
  split
  · rfl
  · exact State.foldl_mem (fun _ _ => by rfl) _ s

@[simp] theorem State.commitBlock_mem (d c : Nat) (b : Block) : (s.commitBlock d c b).mem = s.mem :=
  (State.foldl_mem (fun s n => by simp) (b.entries.flatMap Entry.outs) _).trans rfl

/-! ## ContextSwitch -/

@[simp] theorem State.pauseCtx_mem (d ctx : Nat) : (s.pauseCtx d ctx).mem = s.mem := rfl

@[simp] theorem restorePlan_mem (d ctx : Nat) (at' : Nat → DWord) (p : Nat × Nat) : (restorePlan d ctx at' s p).mem = s.mem := rfl

@[simp] theorem State.stopContext_mem (d ctx : Nat) : (s.stopContext d ctx).mem = s.mem := by simp [State.stopContext]

/-! ## MemoryOps -/

@[simp] theorem State.dropRange_mem (lo hi : Nat) : (s.dropRange lo hi).mem = s.mem := rfl

@[simp] theorem State.readPiece_mem (u : Nat) (l : Load) (p : Piece) : (s.readPiece u l p).1.mem = s.mem := by
  simp only [State.readPiece]
  split <;> rfl

@[simp] theorem State.readPieces_mem (u : Nat) (l : Load) (ps : List Piece) (done : List (Piece × List Byte)) :
    (s.readPieces u l ps done).1.mem = s.mem := by
  induction ps generalizing s done with
  | nil => rfl
  | cons p ps ih => rw [State.readPieces, ih, State.readPiece_mem]

@[simp] theorem State.readEarly_mem (u : Nat) (l : Load) (i : Nat) : (s.readEarly u l i).mem = s.mem := by
  unfold State.readEarly
  split
  · rfl
  · split
    · rfl
    · exact State.readPiece_mem _ u l _

@[simp] theorem State.bindLoad_mem (u : Nat) (l : Load) : (s.bindLoad u l).mem = s.mem := by
  simp only [State.bindLoad, State.updDie_mem, State.updAt_mem]
  split
  · rfl
  · split
    · rfl
    · exact State.readPieces_mem _ u l _ _

/-! ## Outside -/

@[simp] theorem State.updEth_mem (p : Nat) (f : EthPort → EthPort) : (s.updEth p f).mem = s.mem := rfl

@[simp] theorem State.ethIrq_mem (p : Nat) : (s.ethIrq p).mem = s.mem := rfl

@[simp] theorem State.ethFault_mem (p : Nat) (tx : Bool) (a : Nat) : (s.ethFault p tx a).mem = s.mem := rfl

@[simp] theorem State.hostReg_mem (p o : Nat) (v : Option DWord) : (s.hostReg p o v).mem = s.mem := by
  simp only [State.hostReg]
  split <;> simp

@[simp] theorem State.outsideIrq_mem (u : Nat) (host : Bool) : (s.outsideIrq u host).mem = s.mem := by simp [State.outsideIrq]

@[simp] theorem State.linkOffline_mem (l : Nat) : (s.linkOffline l).mem = s.mem := by
  refine (State.abortInsts_mem _ _ _ _).trans ((State.requestReplace_mem _ _).trans ?_)
  exact State.foldl_mem (fun _ _ => by rfl) _ _

@[simp] theorem State.spareRow_mem (d row : Nat) : (s.spareRow d row).mem = s.mem := by
  unfold State.spareRow
  split
  · rfl
  · exact State.foldl_mem (fun s x => by simp) _ _

@[simp] theorem State.stackOffline_mem (d : Nat) : (s.stackOffline d).mem = s.mem := by simp [State.stackOffline]

@[simp] theorem State.logError_mem (d cls : Nat) : (s.logError d cls).mem = s.mem := rfl

@[simp] theorem State.upset_mem (u kind i : Nat) : (s.upset u kind i).mem = s.mem := by unfold State.upset; split <;> simp

/-! ## PlanOps -/

@[simp] theorem State.updPlan_mem (p : Plan) (fn : Entry → Entry) : (s.updPlan p fn).mem = s.mem := rfl

/-! ## System -/

@[simp] theorem State.shootBegin_mem (x : Shoot) (d : Nat) : (s.shootBegin x d).mem = s.mem := by simp [State.shootBegin]

@[simp] theorem State.shootFinish_mem (x : Shoot) (a : ShootDie) : (s.shootFinish x a).mem = s.mem := by simp [State.shootFinish]

@[simp] theorem State.shootProceed_mem (x : Shoot) : (s.shootProceed x).mem = s.mem := by
  have begun (t : State) (l : List Nat) : (l.foldl (fun s d => if s.shootTurn x d then s.shootBegin x d else s) t).mem = t.mem :=
    State.foldl_mem (fun s d => by simp) l t
  have finished (t : State) (l : List ShootDie) : (l.foldl (fun s a => if s.shootSettled a then s.shootFinish x a else s) t).mem = t.mem :=
    State.foldl_mem (fun s a => by simp) l t
  simp only [State.shootProceed]
  split
  · rw [State.mem_ite, State.updAt_mem, State.updAll_mem, finished, begun, ite_self]
  · rw [finished, begun]

@[simp] theorem State.endWalk_mem (d : Nat) (w : Walk) (table : Nat) : (s.endWalk d w table).mem = s.mem := by
  simp only [State.endWalk]
  split <;> simp

/-! ## Turns -/

@[simp] theorem State.issued_mem (u : Nat) : (s.issued u).mem = s.mem := rfl

end Sys2Proof.Machine
end


section
set_option Elab.async false
/-! SUPPORT. What an effect, an outcome or an optional state leaves of the memory. -/

namespace Sys2Proof.Machine

variable {P Q : Memory → Prop} {ε α : Type}

/-- The memory of the state that an effect answers, where it answers one, satisfies P. -/
def OkMem (P : Memory → Prop) (e : Except ε State) : Prop := ∀ t, e = .ok t → P t.mem

@[simp] theorem okMem_ok (t : State) : OkMem P (.ok t : Except ε State) ↔ P t.mem := by simp [OkMem]

@[simp] theorem okMem_error (e : ε) : OkMem P (.error e) := fun _ h => nomatch h

@[simp] theorem okMem_ite (c : Prop) [Decidable c] (a b : Except ε State) :
    OkMem P (if c then a else b) ↔ if c then OkMem P a else OkMem P b := by
  split <;> rfl

@[simp] theorem okMem_bind (x : Except ε α) (f : α → Except ε State) : OkMem P (x >>= f) ↔ ∀ a, x = .ok a → OkMem P (f a) := by
  cases x with
  | error e => exact ⟨fun _ _ h => (nomatch h), fun _ _ h => (nomatch h)⟩
  | ok a => exact ⟨fun h b e => by cases e; exact h, fun h => h a rfl⟩

@[simp] theorem okMem_map (x : Except ε α) (f : α → State) : OkMem P (x.map f) ↔ ∀ a, x = .ok a → P (f a).mem := by
  cases x with
  | error e => exact ⟨fun _ _ h => (nomatch h), fun _ _ h => (nomatch h)⟩
  | ok a => simp [Except.map]

/-- An effect behind one whose state's memory satisfies Q. -/
theorem OkMem.bind {x : Except ε State} {f : State → Except ε State} (hx : OkMem Q x) (hf : ∀ t, Q t.mem → OkMem P (f t)) :
    OkMem P (x >>= f) := (okMem_bind x f).2 fun t h => hf t (hx t h)

/-- The memory of the next state of an outcome satisfies P. -/
def OutMem (P : Memory → Prop) (o : Host.Outcome State Fault Refusal) : Prop := ∀ t, o = .next t → P t.mem

@[simp] theorem outMem_next (t : State) : OutMem P (.next t) ↔ P t.mem := by simp [OutMem]

@[simp] theorem outMem_fault (f : Fault) : OutMem P (.fault f) := fun _ h => nomatch h

@[simp] theorem outMem_refused (r : Refusal) : OutMem P (.refused r) := fun _ h => nomatch h

@[simp] theorem outMem_ite (c : Prop) [Decidable c] (a b : Host.Outcome State Fault Refusal) :
    OutMem P (if c then a else b) ↔ if c then OutMem P a else OutMem P b := by
  split <;> rfl

@[simp] theorem outMem_happen (s t : State) (b : Bool) : OutMem P (happen s b t) ↔ P (if b then t else s).mem := by simp [happen]

/-! ## Sequences that may stop -/

/-- What an exception answers satisfies `Q`, what it stops with satisfies `E`. -/
def Ends {ε α : Type} (E : ε → Prop) (Q : α → Prop) (x : Except ε α) : Prop := (∀ e, x = .error e → E e) ∧ ∀ a, x = .ok a → Q a

section
variable {ε α β : Type} {E : ε → Prop} {Q : α → Prop} {R : β → Prop}

@[simp] theorem ends_ok (a : α) : Ends E Q (.ok a) ↔ Q a := by simp [Ends]

@[simp] theorem ends_pure (a : α) : Ends E Q (pure a) ↔ Q a := ends_ok a

@[simp] theorem ends_error (e : ε) : Ends E Q (.error e) ↔ E e := by simp [Ends]

@[simp] theorem ends_ite (c : Prop) [Decidable c] (x y : Except ε α) :
    Ends E Q (if c then x else y) ↔ if c then Ends E Q x else Ends E Q y := by
  split <;> rfl

/-- What an exception stops with satisfies `E`. -/
def StopsIn (E : ε → Prop) (x : Except ε α) : Prop := ∀ e, x = .error e → E e

@[simp] theorem stopsIn_ok (a : α) : StopsIn E (.ok a) := fun _ h => nomatch h

@[simp] theorem stopsIn_error (e : ε) : StopsIn E (.error e : Except ε α) ↔ E e := by simp [StopsIn]

theorem ends_bind (x : Except ε α) (f : α → Except ε β) : Ends E R (x >>= f) ↔ StopsIn E x ∧ ∀ a, x = .ok a → Ends E R (f a) := by
  cases x with
  | error e =>
    exact ⟨fun h => ⟨fun _ i => by cases i; exact (ends_error e).1 h, fun _ i => (nomatch i)⟩, fun h => (ends_error e).2 (h.1 e rfl)⟩
  | ok a => exact ⟨fun h => ⟨stopsIn_ok a, fun _ i => by cases i; exact h⟩, fun h => h.2 a rfl⟩

@[simp] theorem ends_error_bind (e : ε) (f : α → Except ε β) : Ends E R (.error e >>= f) ↔ E e := ends_error e

theorem Ends.bind {x : Except ε α} {f : α → Except ε β} (hx : Ends E Q x) (hf : ∀ a, Q a → Ends E R (f a)) : Ends E R (x >>= f) := by
  cases x with
  | error e => exact (ends_error e).2 (hx.1 e rfl)
  | ok a => exact hf a (hx.2 a rfl)

/-- A sequence whose first part is one of two. -/
theorem Ends.ite_bind {c : Prop} [Decidable c] {x y : Except ε α} {f : α → Except ε β} (hx : Ends E Q x) (hy : Ends E Q y)
    (hf : ∀ a, Q a → Ends E R (f a)) : Ends E R (if c then x >>= f else y >>= f) := by
  split
  · exact hx.bind hf
  · exact hy.bind hf

theorem Ends.foldlM {γ : Type} {f : α → γ → Except ε α} (hf : ∀ a c, Q a → Ends E Q (f a c)) (l : List γ) {a : α} (ha : Q a) :
    Ends E Q (l.foldlM f a) := by
  induction l generalizing a with
  | nil => exact (ends_pure a).2 ha
  | cons c l ih => exact Ends.bind (hf a c ha) fun b hb => ih hb

theorem Ends.mapM {γ : Type} {f : γ → Except ε α} (hf : ∀ c, Ends E (fun _ => True) (f c)) (l : List γ) :
    Ends E (fun _ => True) (l.mapM f) := by
  induction l with
  | nil => exact (ends_pure _).2 trivial
  | cons c l ih =>
    rw [List.mapM_cons]
    exact Ends.bind (hf c) fun a _ => Ends.bind ih fun b _ => (ends_pure _).2 trivial

end

end Sys2Proof.Machine
end


section
set_option Elab.async false
/-! SUPPORT. The memory of the pod through the effects of slots that write none of it: what they answer has the memory they found. -/

namespace Sys2Proof.Machine

theorem State.pieces_mem {s t : State} {kind : Nat} {l : List (Nat × Nat × Nat)} {ps : List Piece} (h : s.pieces kind l = .ok (ps, t)) :
    t.mem = s.mem := by
  induction l generalizing s ps with
  | nil => cases h; rfl
  | cons a l ih =>
    simp only [State.pieces] at h
    split at h
    · cases h
    · split at h
      · cases h
      · next rest => cases h; exact (ih rest).trans (s.tlbFill_mem _ _)

theorem State.elements_mem {s t : State} {kind n : Nat} {l : List (Nat × Nat)} {ps : List Piece} (h : s.elements kind n l = .ok (ps, t)) :
    t.mem = s.mem := by
  induction l generalizing s ps with
  | nil => cases h; rfl
  | cons a l ih =>
    simp only [State.elements] at h
    split at h
    · cases h
    split at h
    · cases h
    split at h
    · cases h
    · next rest => cases h; exact (ih rest).trans (s.tlbFill_mem _ _)

theorem State.quietXl_mem {s t : State} {tsid va : Nat} {e : TlbEnt} (h : s.quietXl tsid va = some (e, t)) : t.mem = s.mem := by
  simp only [State.quietXl] at h
  split at h
  · cases h; rfl
  split at h
  · split at h <;> cases h
    rfl
  · cases h

theorem State.pinLines_mem {s t : State} {lo hi pg n : Nat} {ls : List Nat} (h : s.pinLines lo hi pg n = .ok (ls, t)) : t.mem = s.mem := by
  induction n generalizing s pg ls with
  | zero => cases h; rfl
  | succ n ih =>
    simp only [State.pinLines] at h
    split at h
    · cases h
    split at h
    · cases h
    split at h
    · cases h
    split at h
    · cases h
    · next rest => cases h; exact (ih rest).trans (s.tlbFill_mem _ _)

theorem State.writable_mem {s t : State} {pg n : Nat} {b : Bool} (h : s.writable pg n = .ok (b, t)) : t.mem = s.mem := by
  induction n generalizing s pg with
  | zero => cases h; rfl
  | succ n ih =>
    simp only [State.writable] at h
    split at h
    · split at h
      · cases h; rfl
      · exact (ih h).trans (s.tlbFill_mem _ _)
    · cases h; rfl
    · cases h

variable {P : Memory → Prop} {s : State} (hs : P s.mem)
include hs

/-! ## Ops -/

@[simp] theorem State.needCk_okMem : OkMem P (s.needCk) := by simp [State.needCk, hs]

@[simp] theorem State.withhold_okMem (ks : List WKind) (waits : Taint) (minFill : Nat) : OkMem P (s.withhold ks waits minFill) := by
  simp [State.withhold, hs]

/-! ## Access -/

@[simp] theorem State.globalLoad_okMem (ps : List Piece) (a : LoadArgs) : OkMem P (s.globalLoad ps a) := by
  unfold State.globalLoad
  split <;> simp [hs]

@[simp] theorem State.globalStore_okMem (ps : List Piece) (data : Tbl Byte) (taint : Taint) (release wide : Bool) :
    OkMem P (s.globalStore ps data taint release wide) := by
  simp [State.globalStore, hs]

@[simp] theorem State.spadCheck_okMem (as : List Nat) : OkMem P (s.spadCheck as) := by
  simp only [State.spadCheck]
  split <;> simp [hs]

/-! ## ControlRegs -/

@[simp] theorem moveFromCr_okMem (r : BitVec 6) (n : Nat) : OkMem P (moveFromCr s r n) := by simp [moveFromCr, hs]

@[simp] theorem moveToCr_okMem (r : BitVec 6) (e : Bool) (n : Nat) : OkMem P (moveToCr s r e n) := by simp [moveToCr, hs]

/-! ## Operands -/

@[simp] theorem repeats_okMem (f : VWord) (L occ : Nat) (one : Machine.Rep → Eff RepOut) : OkMem P (repeats s f L occ one) := by
  have kept (rs : List (Nat × RepOut)) (p : Nat) (t : State) : (rs.foldl (fun t r => writeRep (r.1 * p + L) t r.2) t).mem = t.mem :=
    State.foldl_mem (fun t r => writeRep_mem t _ _) rs t
  simp only [repeats, okMem_bind]
  intro _ _ _ _
  simpa only [okMem_ok, State.upd_mem, kept] using hs

@[simp] theorem elementwise_okMem (f : VWord) (u : Use) (extra : Taint) (L occ : Nat) (fn : VReg → VReg → VReg → Nat → Nat × Fl) :
    OkMem P (elementwise s f u extra L occ fn) := by
  simp [elementwise, hs]

/-! ## Matrix -/

@[simp] theorem oclaim_okMem (n : Nat) : OkMem P (oclaim s n) := by
  simp only [oclaim, okMem_bind]
  intro _ _
  split <;> simp [hs]

@[simp] theorem orelease_okMem (n : Nat) : OkMem P (orelease s n) := by simp [orelease, hs]

@[simp] theorem ofill_okMem (f : MWord) : OkMem P (ofill s f) := by simp [ofill, hs]

@[simp] theorem ozero_okMem (n : Nat) : OkMem P (ozero s n) := by simp [ozero, hs]

@[simp] theorem status_okMem (d : BitVec 6) (v : DWord) : OkMem P (status s d v) := by simp [status, hs]

@[simp] theorem mma_okMem (f : MWord) : OkMem P (mma s f) := by
  simp only [mma, okMem_bind]
  intro _ _
  split <;> simp [hs]

@[simp] theorem drain_okMem (f : MWord) : OkMem P (drain s f) := by simp [drain, hs]

@[simp] theorem tileOp_okMem (op : MxOp) : OkMem P (tileOp s op) := by simp [tileOp, hs]

@[simp] theorem msync_okMem : OkMem P (msync s) := by simp [msync, hs]

@[simp] theorem vrda_okMem (f : VWord) : OkMem P (vrda s f) := by simp [vrda, hs]

@[simp] theorem vwra_okMem (f : VWord) : OkMem P (vwra s f) := by simp [vwra, hs]

@[simp] theorem vpopq_okMem (f : VWord) : OkMem P (vpopq s f) := by simp [vpopq, hs]

/-! ## CopyOps -/

@[simp] theorem issueCopy_okMem (c : Copy) (taint : Taint) (withheld : Bool) : OkMem P (issueCopy s c taint withheld) := by
  simp only [issueCopy, okMem_bind, okMem_ite]
  intro _ _
  split
  · intro t held
    simpa using State.withhold_okMem hs _ _ _ t held
  · simp [hs]

@[simp] theorem cpy_okMem (f : CpWord) : OkMem P (cpy s f) := by simp [cpy, hs]

@[simp] theorem cpyr_okMem (f : CpWord) : OkMem P (cpyr s f) := by simp [cpyr, hs]

@[simp] theorem cpys_okMem (f : CpWord) : OkMem P (cpys s f) := by simp [cpys, hs]

@[simp] theorem cfill_okMem (f : CpWord) : OkMem P (cfill s f) := by simp [cfill, hs]

@[simp] theorem csend_okMem (f : CpWord) : OkMem P (csend s f) := by
  simp only [csend, okMem_bind, okMem_map]
  intro _ _ _ _ _ _ _ _ t issued
  simpa using issueCopy_okMem hs _ _ _ t issued

@[simp] theorem cqsend_okMem (f : CpWord) : OkMem P (cqsend s f) := by
  simp only [cqsend, okMem_bind, okMem_map]
  intro _ _ _ _ _ _ _ _ t issued
  exact issueCopy_okMem (s := s.live _) hs _ _ _ t issued

@[simp] theorem setOpen_okMem (f : CpWord) (b : Bool) : OkMem P (setOpen s f b) := by
  simp only [setOpen]
  split <;> simp [hs]

@[simp] theorem sluice_okMem (f : CpWord) : OkMem P (sluice s f) := by
  simp only [sluice, okMem_bind]
  intro _ _ t held
  simpa using State.withhold_okMem hs _ _ _ t held

@[simp] theorem slstat_okMem (f : CpWord) : OkMem P (slstat s f) := by simp [slstat, hs]

@[simp] theorem slabort_okMem (f : CpWord) : OkMem P (slabort s f) := by simp [slabort, hs]

@[simp] theorem dtload_okMem (f : CpWord) : OkMem P (dtload s f) := by
  simp only [dtload, okMem_bind]
  intro _ _ _ _ t issued
  simpa using issueCopy_okMem hs _ _ _ t issued

@[simp] theorem cwait_okMem (f : CpWord) : OkMem P (cwait s f) := by simp [cwait, hs]

@[simp] theorem cstat_okMem (f : CpWord) : OkMem P (cstat s f) := by simp [cstat, hs]

/-! ## Sync -/

@[simp] theorem fpost_okMem (k : Nat) (r : BitVec 6) (ea : Bool) : OkMem P (fpost s k r ea) := by simp [fpost, hs]

@[simp] theorem fset_okMem (k : Nat) (r : BitVec 6) (ea : Bool) : OkMem P (fset s k r ea) := by simp [fset, hs]

@[simp] theorem fwait_okMem (k : Nat) (r : BitVec 6) (ea : Bool) (lim : BitVec 5) : OkMem P (fwait s k r ea lim) := by simp [fwait, hs]

@[simp] theorem fget_okMem (k : Nat) (r : BitVec 6) : OkMem P (fget s k r) := by simp [fget, hs]

@[simp] theorem lset_okMem (m : Nat) (r : BitVec 6) (ea : Bool) : OkMem P (lset s m r ea) := by
  simp only [lset, okMem_bind]
  intro _ _ t ck
  simpa using State.needCk_okMem hs t ck

@[simp] theorem lwait_okMem (m : Nat) (lim : BitVec 5) : OkMem P (lwait s m lim) := by simp [lwait, hs]

@[simp] theorem qpush_okMem (ch : Nat) (r : BitVec 6) (ea : Bool) (lim : BitVec 5) : OkMem P (qpush s ch r ea lim) := by
  simp only [qpush, okMem_bind]
  intro _ _ _ _ _ _ t ck
  split
  · simpa using State.needCk_okMem hs t ck
  · simp
  · simp

@[simp] theorem qpop_okMem (ch : Nat) (r : BitVec 6) (lim : BitVec 5) : OkMem P (qpop s ch r lim) := by
  simp only [qpop, okMem_bind]
  intro _ _
  split
  · simp
  · simp only [okMem_bind]
    intro _ _ _ _ t ck _ _
    simpa using State.needCk_okMem hs t ck

/-! ## Branch -/

@[simp] theorem branchTo_okMem (bt : BitVec 3) (cond : BitVec 8) (ea : Bool) : OkMem P (branchTo s bt cond ea) := by simp [branchTo, hs]

@[simp] theorem callTo_okMem (bt : BitVec 3) (cond : BitVec 8) (lt : BitVec 3) (ea : Bool) : OkMem P (callTo s bt cond lt ea) := by
  simp [callTo, hs]

@[simp] theorem loopTo_okMem (bt : BitVec 3) (r : BitVec 6) (ea : Bool) : OkMem P (loopTo s bt r ea) := by simp [loopTo, hs]

/-! ## MemoryOps -/

@[simp] theorem planLoad_okMem (f : MemWord) (sext : Bool) (n a : Nat) : OkMem P (planLoad s f sext n a) := by simp [planLoad, hs]

@[simp] theorem deviceLoad_okMem (f : MemWord) (sext : Bool) (n : Nat) (p : Piece) : OkMem P (deviceLoad s f sext n p) := by
  unfold deviceLoad
  split
  · simp
  · simp only [okMem_bind]
    intro _ _ t ck r loaded
    simpa using State.globalLoad_okMem (State.needCk_okMem hs t ck) _ _ r loaded

@[simp] theorem deviceStore_okMem (f : MemWord) (n : Nat) (p : Piece) (v : DWord) : OkMem P (deviceStore s f n p v) := by
  unfold deviceStore
  split
  · simp
  · simp only [okMem_bind]
    intro _ _ t ck
    simpa using State.needCk_okMem hs t ck

@[simp] theorem scalarLoad_okMem (f : MemWord) (sext : Bool) : OkMem P (scalarLoad s f sext) := by
  simp only [scalarLoad, okMem_bind, okMem_ite]
  intro _ _ _ _
  split
  · exact planLoad_okMem hs _ _ _ _
  · intro _ _ r _
    have ht : P (s.tlbFill s.cur r.2).mem := hs
    split
    · exact deviceLoad_okMem ht _ _ _ _
    · exact State.globalLoad_okMem ht _ _

@[simp] theorem vectorLoad_okMem (f : MemWord) : OkMem P (vectorLoad s f) := by
  simp only [vectorLoad, okMem_bind, okMem_ite]
  intro _ _ _ _ _ _
  split
  all_goals
    intro _ _ _ _ r translated
    exact State.globalLoad_okMem (by rw [State.pieces_mem translated]; exact hs) _ _

@[simp] theorem vectorStore_okMem (f : MemWord) : OkMem P (vectorStore s f) := by
  simp only [vectorStore, okMem_bind]
  intro _ _ _ _ _ _ _ _ r translated
  have ht : P r.2.mem := by rw [State.pieces_mem translated]; exact hs
  simp [ht]

@[simp] theorem gather_okMem (f : MemWord) : OkMem P (gather s f) := by
  simp only [gather, okMem_bind, okMem_ite]
  intro _ _ _ _ _ _
  split
  all_goals
    intro _ _ _ _ r translated
    exact State.globalLoad_okMem (by rw [State.elements_mem translated]; exact hs) _ _

@[simp] theorem prefetch_okMem (f : MemWord) : OkMem P (prefetch s f) := by
  simp only [prefetch, okMem_bind, okMem_ite]
  intro _ _
  split
  · simpa using hs
  split
  · simpa using hs
  · next found =>
    simp [State.quietXl_mem found, hs]

@[simp] theorem rangeAcquire_okMem (f : MemWord) : OkMem P (rangeAcquire s f) := by simp [rangeAcquire, hs]

@[simp] theorem l2pin_okMem (f : MemWord) : OkMem P (l2pin s f) := by
  simp only [l2pin, okMem_bind]
  intro _ _ _ _ r translated _ _
  simpa [State.pinLines_mem translated] using hs

@[simp] theorem l2unpin_okMem (f : MemWord) : OkMem P (l2unpin s f) := by simp [l2unpin, hs]

@[simp] theorem State.spadBanks_okMem (a n : Nat) : OkMem P (s.spadBanks a n) := by simp [State.spadBanks, hs]

@[simp] theorem spadLoad_okMem (f : MemWord) : OkMem P (spadLoad s f) := by
  simp only [spadLoad, okMem_bind]
  intro _ _ _ _ _ _ _ _ t banks r checked
  simpa using State.spadCheck_okMem (State.spadBanks_okMem hs _ _ t banks) _ r checked

@[simp] theorem spadStore_okMem (f : MemWord) : OkMem P (spadStore s f) := by
  simp only [spadStore, okMem_bind]
  intro _ _ _ _ _ _ _ _ t banks
  simpa using State.spadBanks_okMem hs _ _ t banks

@[simp] theorem vectorSpadLoad_okMem (f : MemWord) : OkMem P (vectorSpadLoad s f) := by
  simp only [vectorSpadLoad, okMem_bind, okMem_ite]
  intro _ _ _ _ _ _
  split
  all_goals
    intro _ _ _ _ _ _ t banks r checked
    simpa using State.spadCheck_okMem (State.spadBanks_okMem hs _ _ t banks) _ r checked

@[simp] theorem vectorSpadStore_okMem (f : MemWord) : OkMem P (vectorSpadStore s f) := by
  simp only [vectorSpadStore, okMem_bind]
  intro _ _ _ _ _ _ _ _ _ _ t banks
  simpa using State.spadBanks_okMem hs _ _ t banks

@[simp] theorem regionAlloc_okMem (f : MemWord) : OkMem P (regionAlloc s f) := by
  simp only [regionAlloc, okMem_bind, okMem_ite]
  intro _ _ _ _
  split
  · simpa using hs
  · split <;> simp [hs]

@[simp] theorem regionFree_okMem (f : MemWord) : OkMem P (regionFree s f) := by simp [regionFree, hs]

@[simp] theorem tagLook_okMem (f : MemWord) : OkMem P (tagLook s f) := by simp [tagLook, hs]

@[simp] theorem tagFill_okMem (f : MemWord) : OkMem P (tagFill s f) := by simp [tagFill, hs]

@[simp] theorem tagEvict_okMem (f : MemWord) : OkMem P (tagEvict s f) := by
  simp only [tagEvict, okMem_bind]
  intro _ _ _ _
  split
  · simpa using hs
  · simp only [okMem_bind, okMem_ite]
    split
    · simpa using hs
    · intro _ _ r checked _ _
      simpa [State.writable_mem checked] using hs

@[simp] theorem sdset_okMem (f : MemWord) : OkMem P (sdset s f) := by simp [sdset, hs]

/-! ## PlanOps -/

@[simp] theorem planRead_okMem (f : MemWord) (fn : Plan → Eff DWord) : OkMem P (planRead s f fn) := by simp [planRead, hs]

/-! ## Scalar -/

@[simp] theorem scalar2_okMem (d a : BitVec 6) (e : Bool) (b : BitVec 6) (f : Bool) (lat : Nat) (op : DWord → DWord → DWord) :
    OkMem P (scalar2 s d a e b f lat op) := by
  simp [scalar2, hs]

@[simp] theorem scalar1_okMem (d a : BitVec 6) (e : Bool) (lat : Nat) (op : DWord → DWord) : OkMem P (scalar1 s d a e lat op) := by
  simp [scalar1, hs]

@[simp] theorem arith_okMem (f : ArithR) (lat : Nat) (op : Int → Int → Int) : OkMem P (arith s f lat op) := by simp [arith, hs]

@[simp] theorem divide_okMem (f : ArithR) (pick : Int × Int → Int) : OkMem P (divide s f pick) := by simp [divide, hs]

@[simp] theorem immed_okMem (f : ImmI) (lat : Nat) (op : DWord → DWord → DWord) : OkMem P (immed s f lat op) := by simp [immed, hs]

@[simp] theorem logic_okMem (f : LogicR) (op : DWord → DWord → DWord) : OkMem P (logic s f op) := by simp [logic, hs]

@[simp] theorem shift_okMem (f : LogicR) (op : ShiftOp) : OkMem P (shift s f op) := by simp [shift, hs]

@[simp] theorem shiftImm_okMem (f : ShiftI) (op : ShiftOp) : OkMem P (shiftImm s f op) := by simp [shiftImm, hs]

@[simp] theorem setPred_okMem (p : BitVec 3) (b : Bool) (t : Taint) : OkMem P (setPred s p b t) := by simp [setPred, hs]

@[simp] theorem scalarUpd_okMem (d : BitVec 6) (t : Taint) (op : DWord → DWord) : OkMem P (scalarUpd s d t op) := by simp [scalarUpd, hs]

/-! ## System -/

@[simp] theorem iinv_okMem (f : SysR) : OkMem P (iinv s f) := by simp [iinv, hs]

@[simp] theorem tlbprobe_okMem (f : SysR) : OkMem P (tlbprobe s f) := by simp [tlbprobe, hs]

@[simp] theorem tlbwr_okMem (f : SysR) : OkMem P (tlbwr s f) := by simp [tlbwr, hs]

@[simp] theorem waiti_okMem : OkMem P (waiti s) := by simp [waiti, hs]

@[simp] theorem dbell_okMem (r : BitVec 6) (ea : Bool) : OkMem P (dbell s r ea) := by simp [dbell, hs]

/-! ## Vector -/

@[simp] theorem varith_okMem (f : VWord) (u : Use) (li lf : Nat) (iop : Int → Int → Int → Int) (fop : Fv → Fv → Fv → Fv × Fl) :
    OkMem P (varith s f u li lf iop fop) := by
  simp [varith, hs]

@[simp] theorem vbits_okMem (f : VWord) (u : Use) (op : Nat → Nat → Nat → Nat) : OkMem P (vbits s f u op) := by simp [vbits, hs]

@[simp] theorem widen_okMem (f : VWord) (q : Nat) : OkMem P (widen s f q) := by simp [widen, hs]

@[simp] theorem narrow_okMem (f : VWord) (q : Nat) : OkMem P (narrow s f q) := by simp [narrow, hs]

@[simp] theorem pairwise_okMem (f : VWord) (pick : List Nat → List Nat → List Nat × List Nat) : OkMem P (pairwise s f pick) := by
  simp [pairwise, hs]

@[simp] theorem predResult_okMem (d : BitVec 6) (v : PReg) (t : Taint) : OkMem P (predResult s d v t) := by simp [predResult, hs]

@[simp] theorem pred2_okMem (f : VWord) (op : PReg → PReg → PReg) : OkMem P (pred2 s f op) := by simp [pred2, hs]

@[simp] theorem pred1_okMem (f : VWord) (op : PReg → PReg) : OkMem P (pred1 s f op) := by simp [pred1, hs]

@[simp] theorem vcmp_okMem (f : VWord) : OkMem P (vcmp s f) := by simp [vcmp, hs]

@[simp] theorem reduce_okMem (f : VWord) (op : RedOp) : OkMem P (reduce s f op) := by simp [reduce, hs]

@[simp] theorem bfpPack_okMem (f : VWord) : OkMem P (bfpPack s f) := by simp [bfpPack, hs]

@[simp] theorem bfpUnpack_okMem (f : VWord) : OkMem P (bfpUnpack s f) := by simp [bfpUnpack, hs]

@[simp] theorem special_okMem (f : VWord) (op : Sp) : OkMem P (special s f op) := by simp [special, hs]

@[simp] theorem dot4_okMem (f : VWord) : OkMem P (dot4 s f) := by simp [dot4, hs]

@[simp] theorem vselect_okMem (f : VWord) : OkMem P (vselect s f) := by simp [vselect, hs]

@[simp] theorem vpermute_okMem (f : VWord) : OkMem P (vpermute s f) := by simp [vpermute, hs]

@[simp] theorem vrotate_okMem (f : VWord) : OkMem P (vrotate s f) := by simp [vrotate, hs]

@[simp] theorem vbroadcast_okMem (f : VWord) : OkMem P (vbroadcast s f) := by simp [vbroadcast, hs]

@[simp] theorem vmoveS_okMem (f : VWord) : OkMem P (vmoveS s f) := by simp [vmoveS, hs]

@[simp] theorem vinsert_okMem (f : VWord) : OkMem P (vinsert s f) := by simp [vinsert, hs]

@[simp] theorem pset_okMem (f : VWord) : OkMem P (pset s f) := by
  unfold pset
  split <;> simp [hs]

@[simp] theorem pcount_okMem (f : VWord) : OkMem P (pcount s f) := by simp [pcount, hs]

end Sys2Proof.Machine
end


section
set_option Elab.async false
/-! SUPPORT. The canonical form of the memory (log 4) through the operations that write it: engines' writes, a core's stores, the save
frame of a suspension, and what stops or ends a group. -/

namespace Sys2Proof.Machine

/-- The canonical form of the pod's memory, as a proposition about the memory alone. -/
def Canonical (m : Memory) : Prop := Memory.wf m = true

theorem State.memOk_iff (s : State) : s.memOk = true ↔ Canonical s.mem := Iff.rfl

@[simp] theorem canonical_ite (c : Prop) [Decidable c] (a b : Memory) :
    Canonical (if c then a else b) ↔ if c then Canonical a else Canonical b := by
  split <;> rfl

/-- A fold of operations that keep the canonical form keeps it. -/
theorem foldl_canonical {α : Type} {f : State → α → State} (hf : ∀ s a, Canonical s.mem → Canonical (f s a).mem) (l : List α) {s : State}
    (hs : Canonical s.mem) : Canonical (l.foldl f s).mem := by
  induction l generalizing s with
  | nil => exact hs
  | cons a l ih => exact ih (hf s a hs)

variable {s : State} (hs : Canonical s.mem)
include hs

@[simp] theorem State.writeMem_canonical (pa : Nat) (bs : List Byte) : Canonical (s.writeMem pa bs).mem := Memory.writeN_wf hs pa bs

@[simp] theorem State.storeNow_canonical (pa minFill : Nat) (bs : List Byte) : Canonical (s.storeNow pa minFill bs).mem :=
  State.writeMem_canonical hs pa bs

/-! ## Engines -/

@[simp] theorem State.engineStore_okMem (d tsid f va : Nat) (bs : List Byte) : OkMem Canonical (s.engineStore d tsid f va bs) := by
  induction f generalizing s va bs with
  | zero => simpa [State.engineStore] using hs
  | succ f ih =>
    simp only [State.engineStore]
    split
    · simpa using hs
    · split
      · simp
      · exact ih (State.writeMem_canonical (by simpa using hs) _ _) _ _

@[simp] theorem State.engineWrite_okMem (d tsid va : Nat) (bs : List Byte) : OkMem Canonical (s.engineWrite d tsid va bs) :=
  State.engineStore_okMem hs _ _ _ _ _

theorem State.engineWrite_canonical {t : State} {d tsid va : Nat} {bs : List Byte} (h : s.engineWrite d tsid va bs = .ok t) :
    Canonical t.mem := State.engineWrite_okMem hs _ _ _ _ t h

@[simp] theorem State.writeRuns_okMem (d tsid base : Nat) (l : List (Nat × List Byte)) : OkMem Canonical (s.writeRuns d tsid base l) := by
  induction l generalizing s with
  | nil => simpa [State.writeRuns] using hs
  | cons r l ih =>
    simp only [State.writeRuns]
    split
    · simp
    · next written => exact ih (State.engineWrite_canonical hs written)

/-! ## Groups that stop or end -/

@[simp] theorem State.suspend_canonical (u st kind ix tgt rpc : Nat) (ready : Bool) :
    Canonical (s.suspend u st kind ix tgt rpc ready).mem := by
  simp only [State.suspend]
  split
  · split
    · simpa using hs
    · next written => simpa using State.writeRuns_okMem hs _ _ _ _ _ written
  · exact hs

@[simp] theorem State.suspendAt_canonical (kind ix tgt : Nat) (limit : Option Nat) : Canonical (s.suspendAt kind ix tgt limit).mem := by
  simp only [State.suspendAt]
  split <;> simp [hs]

@[simp] theorem State.stopGroup_canonical (e : Stop) : Canonical (s.stopGroup e).mem := by
  unfold State.stopGroup
  split <;> simp [hs]

theorem settle_canonical {e : Eff State} (he : OkMem Canonical e) : Canonical (settle s e).mem := by
  cases e with
  | ok t => exact he t rfl
  | error e => simp [settle, hs]

/-- A slot keeps the canonical form where its body does. -/
theorem run_canonical (i : Instr) {body : State → Eff State} (hb : OkMem Canonical (body s)) : OutMem Canonical (run i s body) := by
  have guarded : OkMem Canonical (do guard i s; body s) := (okMem_bind _ _).2 fun _ _ => hb
  unfold run
  split
  · simpa using settle_canonical hs guarded
  · simp

@[simp] theorem State.leaveTask_canonical (st : Nat) : Canonical (s.leaveTask st).mem := by
  simp [State.leaveTask, hs]

/-- What a group does as it completes: a departure that suspends its task writes the save frame; the rest leaves the memory. -/
@[simp] theorem State.finish_canonical (l : List After) : Canonical (s.finish l).mem := by
  induction l generalizing s with
  | nil => simpa [State.finish] using hs
  | cons a l ih =>
    have passed : Canonical ((s.passed a).finish l).mem := ih (by simpa using hs)
    unfold State.finish
    dsimp only
    split
    · split
      · split
        · exact ih (by simpa using hs)
        · simpa using hs
      · simpa using hs
    · cases a <;> simp [hs, passed]

@[simp] theorem State.leave_canonical (a : After) : Canonical (s.leave a).mem := by
  unfold State.leave
  split <;> simp [hs]

@[simp] theorem State.holdFor_okMem (a : After) : OkMem Canonical (s.holdFor a) := by
  simp only [State.holdFor, okMem_bind, okMem_ok, State.mem_ite]
  intro _ _
  split <;> simp [hs]

/-! ## Slots -/

@[simp] theorem planStore_okMem (n a : Nat) (v : DWord) : OkMem Canonical (planStore s n a v) := by
  simp only [planStore, okMem_bind]
  intro _ _
  split <;> simp [hs]

@[simp] theorem scalarStore_okMem (f : MemWord) : OkMem Canonical (scalarStore s f) := by
  simp only [scalarStore, okMem_bind, okMem_ite]
  intro _ _ _ _ _ _
  split
  · exact planStore_okMem hs _ _ _
  · intro r _
    have ht : Canonical (s.tlbFill s.cur r.2).mem := hs
    split
    · exact deviceStore_okMem ht _ _ _ _
    · exact State.globalStore_okMem ht _ _ _ _ _

@[simp] theorem scatter_okMem (f : MemWord) : OkMem Canonical (scatter s f) := by
  simp only [scatter, okMem_bind]
  intro _ _ _ _ _ _ _ _ r translated _ _ t ck
  have ht : Canonical t.mem := State.needCk_okMem (by rw [State.elements_mem translated]; exact hs) t ck
  simp only [okMem_ok, State.ckEnd_mem]
  exact foldl_canonical (fun s q h => State.storeNow_canonical h _ _ _) _ ht

@[simp] theorem atomic_okMem (f : MemWord) (op : AtOp) : OkMem Canonical (atomic s f op) := by
  simp only [atomic, okMem_bind, okMem_ite]
  intro _ _ _ _
  split
  all_goals
    intro _ _ _ _
    split
    · intro _ _
      split <;> simp [hs]
    · intro r _ _ _ t ck
      have ht : Canonical t.mem := State.needCk_okMem (s := s.tlbFill s.cur r.2) hs t ck
      intro u loaded
      rw [okMem_ok, State.ckEnd_mem]
      refine State.globalLoad_okMem (State.storeNow_canonical ?_ _ _ _) _ _ u loaded
      split <;> simp [ht]

@[simp] theorem bar_okMem (sc : Nat) (lim : BitVec 5) : OkMem Canonical (bar s sc lim) :=
  OkMem.bind (State.needCk_okMem hs) fun t ht => by simpa using State.leave_canonical ht _

@[simp] theorem fence_okMem (sc : Nat) : OkMem Canonical (fence s sc) := by simp [fence, hs]

@[simp] theorem xfence_okMem (pa pb : Nat) : OkMem Canonical (xfence s pa pb) := by simp [xfence, hs]

@[simp] theorem cwb_okMem (f : SysR) : OkMem Canonical (cwb s f) := by simp [cwb, hs]

@[simp] theorem tlbinv_okMem (f : SysR) : OkMem Canonical (tlbinv s f) := by simp [tlbinv, hs]

@[simp] theorem suspendNow_okMem : OkMem Canonical (suspendNow s) := by
  simp only [suspendNow, okMem_ok, State.mem_ite]
  split <;> simp [hs]

@[simp] theorem setMode_okMem (ex : Bool) : OkMem Canonical (setMode s ex) := by simp [setMode, hs]

end Sys2Proof.Machine
end


section
set_option Elab.async false
/-! SUPPORT. The canonical form of the memory through what the engines and the sequencer do: collectives, withheld effects, copies,
landings, sweeps and their queues, built-in operators, Ethernet and the host port. -/

namespace Sys2Proof.Machine

variable {s : State} (hs : Canonical s.mem)
include hs

/-! ## Collectives -/

@[simp] theorem State.deliverRecord_canonical (m : Member) (rec : List Byte) : Canonical (s.deliverRecord m rec).mem := by
  simp only [State.deliverRecord, State.mem_ite, canonical_ite]
  split
  · exact hs
  · cases written : s.engineWrite m.die m.tsid m.recVa rec with
    | error e => dsimp only; split <;> simpa using hs
    | ok t => dsimp only; split <;> simpa using State.engineWrite_canonical hs written

@[simp] theorem State.joinMember_canonical (m : Member) (line : Nat) : Canonical (s.joinMember m line).mem := by
  simp only [State.joinMember]
  split
  · simp [hs]
  · split
    · split <;> simpa using hs
    · exact hs

@[simp] theorem State.putShare_canonical (i : Inst) (n : Nat) (m : Member) : Canonical (s.putShare i n m).mem := by
  simp only [State.putShare]
  split
  · next written => simpa using State.engineWrite_canonical hs written
  · simpa using hs

@[simp] theorem State.finishMember_canonical (i : Inst) (n : Nat) (m : Member) : Canonical (s.finishMember i n m).mem := by
  simp [State.finishMember, hs]

@[simp] theorem State.distribute_canonical (i : Inst) (n : Nat) : Canonical (s.distribute i n).mem := by
  unfold State.distribute
  split <;> simp [hs]

@[simp] theorem State.abortArrives_canonical (i : Inst) (n : Nat) : Canonical (s.abortArrives i n).mem := by
  unfold State.abortArrives
  split <;> simp [hs]

/-! ## Withheld effects -/

@[simp] theorem State.perform_canonical (u : Nat) (e : WEntry) : Canonical (s.perform u e).mem := by
  simp only [State.perform]
  split
  · refine foldl_canonical (fun t b ht => ?_) _ (by simpa using hs)
    split <;> simp [ht]
  all_goals simp [hs]

@[simp] theorem State.performPiece_canonical (u : Nat) (e : WEntry) (i : Nat) : Canonical (s.performPiece u e i).mem := by
  unfold State.performPiece
  split
  · split <;> simp [hs]
  · exact hs

/-! ## Copies -/

@[simp] theorem State.updTrk_canonical (u id : Nat) (f : Trackers → Trackers) : Canonical (s.updTrk u id f).mem := by
  simp only [State.updTrk, State.mem_ite, canonical_ite]
  split
  · exact hs
  split
  · exact hs
  split
  · exact hs
  split
  · exact hs
  split
  · exact hs
  · next written => exact State.engineWrite_canonical hs written

@[simp] theorem State.copyDone_canonical (c : Copy) (err : Option (Nat × Nat)) : Canonical (s.copyDone c err).mem := by
  have tracked (d : Die → Die) (k : Nat) (f : Trackers → Trackers) (b : Bool) :
      Canonical (if b then (s.updDie k d).updTrk c.u c.task f else s.updDie k d).mem := by
    split
    · exact State.updTrk_canonical (s := s.updDie k d) hs _ _ _
    · exact hs
  simp only [State.copyDone, State.reapResume_mem]
  split
  · rw [State.post_mem, State.writeLate_mem]; exact tracked _ _ _ _
  · exact tracked _ _ _ _

@[simp] theorem State.copyTable_canonical (c : Copy) (tsid va dt : Nat) : Canonical (s.copyTable c tsid va dt).mem := by
  simp only [State.copyTable]
  split
  · simp [hs]
  · split <;> simp [hs]

@[simp] theorem State.copyWrite_okMem (c : Copy) (o pa : Nat) (bs : List Byte) : OkMem Canonical (s.copyWrite c o pa bs) := by
  simp only [State.copyWrite]
  split
  · simp [hs]
  · simp [hs]
  · split <;> simp [hs]
  · simp [hs]

@[simp] theorem State.copyPuts_canonical (c : Copy) (l : List (Nat × Nat × List Byte)) : Canonical (s.copyPuts c l).1.mem := by
  induction l generalizing s with
  | nil => exact hs
  | cons x l ih =>
    simp only [State.copyPuts]
    split
    · exact hs
    · next written => exact ih (State.copyWrite_okMem hs _ _ _ _ _ written)

@[simp] theorem State.copyStop_canonical (c : Copy) (e : Nat × Nat) : Canonical (s.copyStop c e).mem :=
  by
  unfold State.copyStop
  refine State.copyDone_canonical ?_ _ _
  rw [State.mapUnits_mem]
  exact State.copyPuts_canonical (by exact hs) _ _

@[simp] theorem State.copyOn_canonical (c : Copy) : Canonical (s.copyOn c).mem := by
  simp [State.copyOn, hs]

omit hs in
@[simp] theorem State.copyCan_mem {s t : State} {c : Copy} {o pa : Nat} (h : s.copyCan c o = .ok (pa, t)) : t.mem = s.mem := by
  unfold State.copyCan at h
  split at h
  · split at h <;> cases h
    exact s.engineFill_mem _ _ _
  · cases h; rfl

omit hs in
theorem State.copyFeed_mem {s t : State} {c k : Copy} (h : s.copyFeed c = .ok (t, k)) : t.mem = s.mem := by
  simp only [State.copyFeed] at h
  split at h
  · cases h
  · cases h
    rw [State.updAt_mem]
    split
    · rfl
    · exact s.readFill_mem _ _ _ _ _
    · rfl

omit hs in
@[simp] theorem State.copyCut_mem (s : State) (f : Nat) (c : Copy) : (s.copyCut f c).1.mem = s.mem := by
  induction f generalizing s c with
  | zero => rfl
  | succ f ih =>
    simp only [State.copyCut]
    split
    · rfl
    split
    · rfl
    · next cut => rw [ih, State.copyCan_mem cut]

omit hs in
@[simp] theorem State.copyTake_mem (s : State) (c : Copy) : (s.copyTake c).1.mem = s.mem := by
  unfold State.copyTake
  split
  · rfl
  split
  · rfl
  · next fed => rw [State.copyCut_mem, State.copyFeed_mem fed]

omit hs in
@[simp] theorem State.copyTakes_mem (s : State) (c : Copy) (f : Nat) : (s.copyTakes c f).1.mem = s.mem := by
  induction f generalizing s c with
  | zero => rfl
  | succ f ih =>
    have taken := s.copyTake_mem c
    simp only [State.copyTakes]
    split
    · next t k e answer => rw [answer] at taken; exact taken
    · next t k answer =>
      rw [answer] at taken
      split
      · exact taken
      · rw [ih]; exact taken

/-- A move of a command: what it has read leaves the memory, what it writes keeps the form, and so does its end. -/
@[simp] theorem State.copyRun_canonical (c : Copy) (how : Nat) : Canonical (s.copyRun c how).mem := by
  simp only [State.copyRun]
  generalize (if c.rpos = 0 then s.copyBegin c else c) = k
  split
  · have taken : (if decide (k.rpos = 0) && k.dec.isNone && k.fails.isSome then (s, k, k.fails)
        else s.copyTakes k (k.len / 64 + 3)).1.mem = s.mem := by
      split <;> simp
    split
    · next answer => rw [answer] at taken; exact State.copyStop_canonical (by rw [taken]; exact hs) _ _
    · next t k' answer =>
      rw [answer] at taken
      have put := State.copyPuts_canonical (s := t) (by rw [taken]; exact hs)
        { k' with buf := [], wrote := k'.wrote || !k'.buf.isEmpty } k'.buf.reverse
      split
      · next wrote => rw [wrote] at put; exact State.copyStop_canonical put _ _
      · next wrote => rw [wrote] at put; exact State.copyOn_canonical put _
  · have taken : (if decide (k.rpos = 0) && k.dec.isNone && k.fails.isSome then (s, k, k.fails) else s.copyTake k).1.mem = s.mem := by
      split <;> simp
    split
    · next answer => rw [answer] at taken; exact State.copyStop_canonical (by rw [taken]; exact hs) _ _
    · next answer => rw [answer] at taken; exact State.copyOn_canonical (by rw [taken]; exact hs) _
  · split
    · split
      · next written => exact State.copyOn_canonical (State.copyWrite_okMem hs _ _ _ _ _ written) _
      · exact State.copyStop_canonical hs _ _
    · exact hs

@[simp] theorem State.performCopy_canonical (c : Copy) (how : Nat) : Canonical (s.performCopy c how).mem := by
  unfold State.performCopy
  split <;> simp [hs]

@[simp] theorem State.landError_canonical (x : Unit64) (a : Nat) : Canonical (s.landError x a).mem := by
  simp only [State.landError]
  split
  · exact hs
  split
  · exact State.copyStop_canonical (by exact hs) _ _
  · exact State.copyDone_canonical (by exact hs) _ _

@[simp] theorem State.landWhole_canonical (x : Unit64) (later : Bool) : Canonical (s.landWhole x later).mem := by
  unfold State.landWhole
  extract_lets s1 s2 s3 s4
  have kept : s4.mem = s.mem := by
    have h2 : s2.mem = s.mem := by simp [s2, s1]
    have h3 : s3.mem = s.mem := by simp [s3, h2]
    simp only [s4]
    split
    · simp [h3]
    · exact h3
  have h4 : Canonical s4.mem := by rw [kept]; exact hs
  simp [h4]

@[simp] theorem State.landUnit_canonical (x : Unit64) (later : Bool) : Canonical (s.landUnit x later).mem := by
  unfold State.landUnit
  split <;> simp [hs]

end Sys2Proof.Machine
end


section
set_option Elab.async false
/-! SUPPORT. The canonical form of the memory through sweeps, the save and restore of a context, and built-in operators. -/

namespace Sys2Proof.Machine

/-- A step of a sequence that may stop: the state it goes on with, or that it stops with, has a canonical memory. -/
def StepKeeps (x : Except State State) : Prop := Ends (fun t => Canonical t.mem) (fun t => Canonical t.mem) x

variable {s : State} (hs : Canonical s.mem)
include hs

/-! ## Sweeps and queues -/

@[simp] theorem State.retire_canonical (d id : Nat) : Canonical (s.retire d id).mem := by
  simp only [State.retire]
  split
  · exact hs
  · simp only [State.mem_ite, canonical_ite]
    split
    · split
      · simpa using hs
      · exact State.writeMem_canonical (by exact hs) _ _
    · exact hs

@[simp] theorem State.retireDone_canonical (d id : Nat) : Canonical (s.retireDone d id).mem := by
  unfold State.retireDone
  split <;> simp [hs]

theorem State.enqueue_canonical {t : State} {d : Nat} {r : Record} (h : s.enqueue d r = some t) : Canonical t.mem := by
  simp only [State.enqueue] at h
  split at h
  · cases h; exact hs
  split at h
  · cases h
  split at h
  · cases h; simpa using hs
  · next t written => cases h; exact State.engineWrite_canonical (t := t) hs written

@[simp] theorem State.fire_canonical (d id : Nat) : Canonical (s.fire d id).mem := by
  unfold State.fire
  split
  · exact hs
  split
  · exact hs
  split
  · exact hs
  · next t queued => exact State.enqueue_canonical (t := t) hs queued

@[simp] theorem State.completePoint_canonical (d id l : Nat) : Canonical (s.completePoint d id l).mem := by
  simp only [State.completePoint]
  split
  · exact hs
  · simp only [State.mem_ite, canonical_ite]
    split
    · exact State.retire_canonical (by exact hs) _ _
    · exact hs

omit hs in
theorem State.addSweep_mem {t : State} {d id : Nat} {ask : Option Nat} {w : Sweep} {old : Option Nat}
    (h : s.addSweep d ask w old = some (id, t)) : t.mem = s.mem := by
  unfold State.addSweep at h
  rw [Option.ite_none_left_eq_some] at h
  replace h := h.2
  split at h
  · simp at h
  · simp only [Option.some.injEq, Prod.mk.injEq] at h
    rw [← h.2, State.updDie_mem]

@[simp] theorem planSweep_okMem (f : MemWord) (p : Plan) (fresh : Bool) (read : Except SweepErr Sweep) :
    OkMem Canonical (planSweep s f p fresh read) := by
  have installed (ask : Option Nat) (w : Sweep) (old : Option Nat) : OkMem Canonical (match s.addSweep p.d ask w old with
      | none => .error (.sweep w)
      | some (id, t) => .ok (((t.updPlan p fun e => { e with sweeps := e.sweeps ++ [id], made := Tbl.set e.made id id }).retireDone p.d id).writeS
          f.dr (BitVec.ofNat 64 id) 0 1) : Eff State) := by
    split
    · simp
    · next added =>
      rw [okMem_ok, State.writeS_mem]
      exact State.retireDone_canonical (by rw [State.updPlan_mem, State.addSweep_mem added]; exact hs) _ _
  simp only [planSweep]
  cases s.core.want with
  | some w => exact installed _ _ _
  | none =>
    cases read with
    | ok w => exact installed _ _ _
    | error e => exact okMem_error _

/-! ## Saving and restoring a context -/

theorem State.seqWrite_keeps (d ctx a : Nat) (bs : List Byte) : StepKeeps (s.seqWrite d ctx a bs) := by
  unfold State.seqWrite StepKeeps
  split
  · next written => exact (ends_ok _).2 (State.engineWrite_canonical hs written)
  · simpa using hs

theorem State.seqRead_keeps (d ctx a n : Nat) : Ends (fun t => Canonical t.mem) (fun _ => True) (s.seqRead d ctx a n) := by
  unfold State.seqRead
  split
  · simp
  · simpa using hs

theorem saveFrontiers_keeps (d ctx : Nat) (l : List (Nat × Sweep)) : StepKeeps (saveFrontiers d ctx l s) := by
  induction l generalizing s with
  | nil => exact (ends_ok _).2 hs
  | cons p l ih => exact Ends.bind (State.seqWrite_keeps hs _ _ _ _) fun t ht => ih (by exact ht)

theorem saveQueue_keeps (d ctx role : Nat) : StepKeeps (saveQueue d ctx role s) :=
  Ends.foldlM (fun _ _ h => State.seqWrite_keeps h _ _ _ _) _ (by exact hs)

theorem savePosition_keeps (u ctx : Nat) (p : Nat × ResumePos) : StepKeeps (savePosition u ctx s p) :=
  Ends.bind (State.seqWrite_keeps hs _ _ _ _) fun _ ht => (ends_ok _).2 ht

theorem saveSteps_keeps (d ctx : Nat) : StepKeeps (saveSteps d ctx s) := by
  unfold saveSteps
  refine Ends.bind (saveFrontiers_keeps (by exact hs) _ _ _) fun s hs => ?_
  refine Ends.bind (State.seqWrite_keeps hs _ _ _ _) fun s hs => ?_
  refine Ends.bind (Ends.foldlM (fun _ _ h => saveQueue_keeps h _ _ _) _ hs) fun s hs => ?_
  refine Ends.bind (Ends.foldlM (fun _ _ h => savePosition_keeps h _ _ _) _ hs) fun s hs => ?_
  refine Ends.bind (State.seqWrite_keeps hs _ _ _ _) fun s hs => ?_
  refine Ends.bind (State.seqWrite_keeps hs _ _ _ _) fun s hs => ?_
  simpa using hs

omit hs in
theorem StepKeeps.canonical {x : Except State State} (h : StepKeeps x) : Canonical (match x with | .ok t => t | .error t => t).mem := by
  cases x with
  | ok t => exact h.2 t rfl
  | error t => exact h.1 t rfl

@[simp] theorem State.saveCtx_canonical (d ctx : Nat) : Canonical (s.saveCtx d ctx).mem := (saveSteps_keeps hs d ctx).canonical

theorem imageRecord_keeps (d ctx i : Nat) : Ends (fun t => Canonical t.mem) (fun _ => True) (imageRecord s d ctx i) := by
  simp only [imageRecord]
  split
  · simp
  · simpa using hs

theorem restoreRead_keeps (d ctx : Nat) : StepKeeps (restoreRead d ctx s) := by
  have bad : Canonical (s.graphFault d ctx 0x0F (s.ctxAt d ctx).desc.csave 0 0 0).mem := by simpa using hs
  unfold restoreRead
  refine Ends.bind (State.seqRead_keeps hs _ _ _ _) fun ws _ => ?_
  dsimp only
  rw [ends_ite, ends_error_bind]
  split
  · exact bad
  · refine Ends.bind (State.seqRead_keeps hs _ _ _ _) fun rs _ => ?_
    rw [ends_ite, ends_error_bind]
    split
    · exact bad
    · exact Ends.bind (State.seqRead_keeps hs _ _ _ _) fun hw _ => (ends_pure _).2 hs

theorem restoreSweep_keeps (d ctx n : Nat) : StepKeeps (restoreSweep d ctx n s) := by
  have installed (w : Sweep) (ask : Option Nat) (asked : State) (ha : Canonical asked.mem) (f : Nat → Ctx → Ctx) :
      StepKeeps (match s.addSweep d ask w (some w.oldId) with
        | none => .error asked
        | some (id, t) =>
          let t := (t.updCtx d ctx (f id)).retireDone d id
          if (t.ctxAt d ctx).st = .preempted then .ok t else .error t) := by
    unfold StepKeeps
    split
    · simpa using ha
    · next added =>
      simp only [ends_ite, ends_ok, ends_error, ite_self]
      exact State.retireDone_canonical (by rw [State.updCtx_mem, State.addSweep_mem added]; exact hs) _ _
  unfold restoreSweep StepKeeps
  dsimp only
  rw [ends_ite, ends_pure]
  split
  · exact hs
  cases (s.ctxAt d ctx).want with
  | some w => exact installed _ _ _ hs _
  | none =>
    dsimp only
    generalize s.readFrontier d ctx _ = read
    cases read with
    | ok w => exact installed _ _ _ (by exact hs) _
    | error e => exact (ends_error _).2 (by simpa using hs)

theorem restoreQueue_keeps (d ctx : Nat) (m : Tbl Nat) (role : Nat) : StepKeeps (restoreQueue d ctx m role s) := by
  unfold restoreQueue
  refine Ends.bind (Ends.mapM (fun i => ?_) _) fun rs _ => ?_
  · refine Ends.bind (State.seqRead_keeps hs _ _ _ _) fun bs _ => ?_
    split
    · simp
    · simpa using hs
  · refine (ends_ok _).2 (foldl_canonical (fun s r h => ?_) rs (by exact hs))
    cases queued : s.enqueue d r with
    | none => exact h
    | some t => exact State.enqueue_canonical h queued

theorem restoreRecord_keeps (d ctx : Nat) (m : Tbl Nat) (p : Nat × Record) : StepKeeps (restoreRecord d ctx m s p) := by
  unfold restoreRecord StepKeeps
  dsimp only
  rw [ends_ite, ends_pure]
  split
  · simpa using hs
  rw [ends_ite, ends_error_bind]
  split
  · exact hs
  · exact Ends.bind (State.seqRead_keeps hs _ _ _ _) fun bs _ => (ends_pure _).2 (by exact hs)

theorem restoreSteps_keeps (d ctx : Nat) : StepKeeps (restoreSteps d ctx s) := by
  unfold restoreSteps
  dsimp only
  refine Ends.ite_bind (restoreRead_keeps hs d ctx) ((ends_ok _).2 hs) fun s hs => ?_
  refine Ends.bind (Ends.foldlM (fun _ _ h => restoreSweep_keeps h _ _ _) _ hs) fun s hs => ?_
  refine Ends.ite_bind (Ends.foldlM (fun _ _ h => restoreQueue_keeps h _ _ _ _) _ hs) ((ends_ok _).2 hs) fun s hs => ?_
  refine Ends.bind (Ends.foldlM (fun _ _ h => Ends.bind (imageRecord_keeps h _ _ _) fun _ _ => restoreRecord_keeps h _ _ _ _) _ (by exact hs))
    fun s hs => ?_
  rw [ends_ite, ends_error_bind, ends_pure, State.irqDie_mem, State.updCtx_mem]
  have plans (l : List (Nat × Nat)) (f : Nat → DWord) : (l.foldl (restorePlan d ctx f) s).mem = s.mem :=
    State.foldl_mem (fun s p => restorePlan_mem s d ctx f p) l s
  split
  · exact hs
  · rw [plans]; exact hs

@[simp] theorem State.restoreCtx_canonical (d ctx : Nat) : Canonical (s.restoreCtx d ctx).mem := (restoreSteps_keeps hs d ctx).canonical

@[simp] theorem ctxsw_okMem (f : SysR) : OkMem Canonical (ctxsw s f) := by
  simp only [ctxsw, okMem_bind, okMem_ok, State.writeS_mem]
  intro _ _ _ _ _ _
  split
  · split <;> simp [hs]
  · split
    · simp only [State.mem_ite, canonical_ite]
      split
      · exact State.restoreCtx_canonical (by exact hs) _ _
      · exact hs
    · exact hs
  · split <;> simp [hs]

/-! ## Built-in operators -/

/-- An operator that answers a state and a tensor answers a state whose memory is canonical. -/
def OpKeeps (x : Op (State × Ten)) : Prop := Ends (fun _ => True) (fun r => Canonical r.1.mem) x

omit hs in
theorem ends_any {α : Type} (x : Op α) : Ends (fun _ => True) (fun _ => True) x := ⟨fun _ _ => trivial, fun _ _ => trivial⟩

theorem State.opWrite_keeps (d ctx hn a : Nat) (bs : List Byte) :
    Ends (fun _ => True) (fun t => Canonical t.mem) (s.opWrite d ctx hn a bs) := by
  unfold State.opWrite
  split
  · next written => exact (ends_ok _).2 (State.engineWrite_canonical hs written)
  · simp

theorem State.tenPut_keeps (d ctx : Nat) (t : Ten) (i : List Nat) (x : Nat) : OpKeeps (s.tenPut d ctx t i x) := by
  unfold State.tenPut OpKeeps
  dsimp only
  split
  · exact (ends_ok _).2 hs
  · rw [ends_ite]
    split
    · exact Ends.bind (ends_any _) fun _ _ => Ends.bind (State.opWrite_keeps hs _ _ _ _ _) fun _ h => (ends_ok _).2 h
    · exact Ends.bind (State.opWrite_keeps hs _ _ _ _ _) fun _ h => (ends_ok _).2 h

theorem State.tenPutBlock_keeps (d ctx : Nat) (t : Ten) (b : Int) (xs : List (Int × Fv)) : OpKeeps (s.tenPutBlock d ctx t b xs) := by
  unfold State.tenPutBlock OpKeeps
  dsimp only
  split
  · exact (ends_ok _).2 hs
  · exact Ends.bind (State.opWrite_keeps hs _ _ _ _ _) fun _ h => Ends.bind (State.opWrite_keeps h _ _ _ _ _) fun _ h => (ends_ok _).2 h

theorem State.tenUpdate_keeps (d ctx : Nat) (t : Ten) (i : List Nat) (v : Fv) : OpKeeps (s.tenUpdate d ctx t i v) := by
  unfold State.tenUpdate
  split
  · exact State.tenPut_keeps hs _ _ _ _ _
  · exact Ends.bind (ends_any _) fun _ _ => State.tenPutBlock_keeps hs _ _ _ _ _

theorem State.tenStore_keeps (d ctx : Nat) (t : Ten) (rs : Results) : OpKeeps (s.tenStore d ctx t rs) := by
  unfold State.tenStore
  split
  · exact Ends.foldlM (fun _ _ h => State.tenPut_keeps h _ _ _ _ _) _ hs
  · exact Ends.foldlM (fun _ _ h => State.tenPutBlock_keeps h _ _ _ _ _) _ hs

omit hs in
theorem OpCtx.scatterAdd_keeps {c : OpCtx} (hc : Canonical c.s.mem) (y idx u : Ten) : OpKeeps (c.scatterAdd y idx u) := by
  unfold OpCtx.scatterAdd
  refine Ends.bind (ends_any _) fun _ _ => Ends.bind (ends_any _) fun _ _ => Ends.bind (ends_any _) fun _ _ => ?_
  refine Ends.foldlM (fun a j h => ?_) _ hc
  dsimp only
  rw [ends_ite]
  split
  · exact (ends_ok _).2 h
  · refine Ends.bind (ends_any _) fun _ _ => Ends.bind (ends_any _) fun _ _ => ?_
    exact State.tenUpdate_keeps h _ _ _ _ _

theorem State.runBuiltin_keeps (d c : Nat) (b : Block) (j : Nat) (e : Entry) :
    Ends (fun _ => True) (fun t => Canonical t.mem) (s.runBuiltin d c b j e) := by
  unfold State.runBuiltin
  dsimp only
  refine Ends.bind (ends_any _) fun _ _ => Ends.bind (ends_any _) fun _ _ => ?_
  rw [ends_ite]
  split
  · exact Ends.bind (ends_any _) fun _ _ => Ends.bind (OpCtx.scatterAdd_keeps hs _ _ _) fun r h => (ends_ok _).2 h
  · split
    · exact Ends.bind (ends_any _) fun _ _ => Ends.bind (State.tenStore_keeps hs _ _ _ _) fun r h => (ends_ok _).2 h
    · refine Ends.bind (ends_any _) fun _ _ => Ends.bind (State.tenStore_keeps hs _ _ _ _) fun r h => (ends_ok _).2 ?_
      rw [State.fillRegions_mem]
      exact h

omit hs in
@[simp] theorem State.issueEntry_mem (s : State) (d c : Nat) (b : Block) (j : Nat) (e : Entry) : (s.issueEntry d c b j e).mem = s.mem := by
  simp only [State.issueEntry]
  split
  · simp
  · simp

@[simp] theorem State.startCollective_canonical (d c : Nat) (b : Block) (j : Nat) (e : Entry) (it : Nat × Nat × Nat × Nat × Bool) :
    Canonical (s.startCollective d c b j e it).mem := by
  simp only [State.startCollective]
  split
  · simpa using hs
  · have joined (f : Ctx → Ctx) (m : Member) (line : Nat) : Canonical ((s.updCtx d c f).joinMember m line).mem :=
      State.joinMember_canonical (by exact hs) m line
    split
    · rw [State.updCtx_mem]; exact joined _ _ _
    · exact joined _ _ _

@[simp] theorem State.completeEntry_canonical (d c : Nat) (b : Block) (j : Nat) (e : Entry) :
    Canonical (s.completeEntry d c b j e).mem := by
  unfold State.completeEntry
  split
  · split <;> simp [hs]
  · split <;> simp [hs]

end Sys2Proof.Machine
end


section
set_option Elab.async false
/-! SUPPORT. The canonical form of the memory through the graph words. -/

namespace Sys2Proof.Machine

/-- The memory of the state in which a word waits satisfies P. -/
def NoWord.Mem (P : Memory → Prop) : NoWord → Prop
  | .wait t => P t.mem
  | .fault .. => True

/-- What the acceptance of a word answers, or waits in, has a memory that satisfies P. -/
abbrev AccMem (P : Memory → Prop) (x : Acc State) : Prop := Ends (NoWord.Mem P) (fun t => P t.mem) x

section
variable {α β : Type} {P : Memory → Prop} {s : State} (hs : P s.mem)

@[simp] theorem noWord_mem_fault (code : Nat) (addr : Option Nat) (opid handle info : Nat) :
    (NoWord.fault code addr opid handle info).Mem P :=
  trivial

@[simp] theorem stopsIn_pure {E : NoWord → Prop} (a : α) : StopsIn E (pure a : Acc α) := stopsIn_ok a

@[simp] theorem stopsIn_gfault (code handle : Nat) : StopsIn (NoWord.Mem P) (gfault code handle : Acc α) := by
  simp [gfault]

@[simp] theorem stopsIn_opFault (code : Nat) (w : OpWord) (handle : Nat) : StopsIn (NoWord.Mem P) (opFault code w handle : Acc α) := by
  simp [opFault]

@[simp] theorem accMem_gfault (code handle : Nat) : AccMem P (gfault code handle) := by simp [gfault]

@[simp] theorem accMem_seqFault (kind : Nat) (e : XlErr × Nat) : AccMem P (seqFault kind e) := by simp [seqFault]

@[simp] theorem stopsIn_orFault (b : Bool) (code handle : Nat) : StopsIn (NoWord.Mem P) (orFault b code handle) := by
  cases b <;> simp [orFault]

@[simp] theorem stopsIn_need (x : Ctx) (h : Nat) : StopsIn (NoWord.Mem P) (x.need h) := by
  unfold Ctx.need
  split <;> simp

@[simp] theorem stopsIn_descOf (x : Ctx) (w : List DWord) (h : Nat) : StopsIn (NoWord.Mem P) (x.descOf w h) := by
  unfold Ctx.descOf
  split
  · split <;> simp
  · simp

theorem StopsIn.bind {E : NoWord → Prop} {x : Acc α} {f : α → Acc β} (hx : StopsIn E x) (hf : ∀ a, StopsIn E (f a)) :
    StopsIn E (x >>= f) := by
  cases x with
  | error e => exact (stopsIn_error e).2 (hx e rfl)
  | ok a => exact hf a

theorem StopsIn.checked {E : NoWord → Prop} {c : Prop} [Decidable c] {x : Acc Unit} {f : Unit → Acc β}
    (hx : StopsIn E x) (hf : StopsIn E (f ())) :
    StopsIn E (if c then x >>= f else f ()) := by
  split
  · exact hx.bind fun _ => hf
  · exact hf

theorem StopsIn.ends {E : NoWord → Prop} {x : Acc α} (hx : StopsIn E x) : Ends E (fun _ => True) x := ⟨hx, fun _ _ => trivial⟩

@[simp] theorem stopsIn_rootsOf (x : Ctx) (w : OpWord) : StopsIn (NoWord.Mem P) (x.rootsOf w) := by
  refine (Ends.mapM (fun r => StopsIn.ends ?_) w.refs).1
  split
  · simp
  · split <;> simp

@[simp] theorem stopsIn_acceptEntry (x : Ctx) (b : Block) (w : OpWord) (addr j n : Nat) :
    StopsIn (NoWord.Mem P) (x.acceptEntry b w addr j n) := by
  unfold Ctx.acceptEntry
  exact StopsIn.checked (stopsIn_opFault _ _ _) ((stopsIn_rootsOf x w).bind fun roots => StopsIn.checked (stopsIn_opFault _ _ _) (stopsIn_ok _))

@[simp] theorem stopsIn_acceptDecomposed (x : Ctx) (b : Block) (w : OpWord) (addr : Nat) (ws : List (BitVec 64)) :
    StopsIn (NoWord.Mem P) (x.acceptDecomposed b w addr ws) := by
  unfold Ctx.acceptDecomposed
  split
  · simp
  · next budget os _ =>
    have entries (a : Ctx × Block) (l : List (Nat × OpWord)) : StopsIn (NoWord.Mem P)
        (l.foldlM (fun (a : Ctx × Block) p => match substitute w p.2 with
        | none => opFault 0x02 w
        | some o => match a.1.acceptEntry a.2 o addr p.1 os.length with
          | .ok r => .ok r
          | .error (.fault code ad _ handle info) => .error (.fault code ad w.opid.toNat handle info)
          | .error e => .error e) a) := by
      refine (Ends.foldlM (Q := fun _ => True) (fun a p _ => StopsIn.ends ?_) l trivial).1
      split
      · simp
      · next o _ =>
        split
        · simp
        · simp
        · next e _ stopped => exact (stopsIn_error _).2 (stopsIn_acceptEntry a.1 a.2 o addr p.1 os.length e stopped)
    dsimp only
    exact StopsIn.checked ((stopsIn_error _).2 trivial) (entries _ _)

include hs

@[simp] theorem stopsIn_holdUntil (b : Bool) : StopsIn (NoWord.Mem P) (holdUntil s b) := by
  cases b <;> simp [holdUntil, NoWord.Mem, hs]

/-- A graph word keeps what its body keeps. -/
theorem accept_outMem (n : Nat) (isOp : Bool) {body : State → Nat → Nat → Ctx → Acc State}
    (hb : ∀ t : State, P t.mem → ∀ d c x, AccMem P (body t d c x)) : OutMem P (accept s n isOp body) := by
  unfold accept
  split
  · dsimp only
    split
    · simp [hs]
    · split
      · next accepted => simpa using (hb _ (by exact hs) _ _ _).2 _ accepted
      · next waits => simpa [NoWord.Mem] using (hb _ (by exact hs) _ _ _).1 _ waits
      · simp [hs]
  · simp

/-- Shape arithmetic leaves the memory. -/
theorem shapeWord_outMem (g : GcWord) {fn : DWord → DWord → Acc DWord} (hf : ∀ a b, StopsIn (NoWord.Mem P) (fn a b)) :
    OutMem P (shapeWord s g fn) := by
  refine accept_outMem hs _ _ fun t ht d c x => ?_
  cases done : fn (x.shape g.hb) (x.shape g.hc) with
  | error e => exact (ends_error e).2 (hf _ _ e done)
  | ok v => exact (ends_ok _).2 ht

end

variable {s : State} (hs : Canonical s.mem)
include hs

/-! ## Control flow -/

theorem execEgbLoop_canonical (g : GcWord) : OutMem Canonical (execEgbLoop g s) :=
  accept_outMem hs _ _ fun t ht d c x => by
    dsimp only
    split <;> simp [ends_bind, State.setShape, ht]

theorem execEndloop_canonical (g : GcWord) : OutMem Canonical (execEndloop g s) :=
  accept_outMem hs _ _ fun t ht d c x => by
    dsimp only
    split
    · simp
    · split <;> simp [State.setShape, ht]

theorem egbReturn_canonical (d c : Nat) (x : Ctx) : AccMem Canonical (egbReturn s d c x) := by
  unfold egbReturn
  split <;> simp [hs]

theorem execCapend_canonical (g : GcWord) : OutMem Canonical (execCapend g s) :=
  accept_outMem hs _ _ fun t ht d c x => by
    have ended (k : Nat) : AccMem Canonical (execCapend.capEnd t d c x k) := by
      unfold execCapend.capEnd
      split <;> simp [ht]
    dsimp only
    split
    · split
      · exact egbReturn_canonical ht d c x
      · exact ended _
    · exact ended _

theorem execReplay_canonical (g : GcWord) : OutMem Canonical (execReplay g s) :=
  accept_outMem hs _ _ fun t ht d c x => by
    dsimp only
    split
    · split <;> simp [ends_bind, ht]
    · simp

/-! ## Parameters and signals -/

theorem execParam_canonical (g : GhWord) : OutMem Canonical (execParam g s) :=
  accept_outMem hs _ _ fun t ht d c x => by
    split <;> simp [State.setShape, ht]

/-- SIGNAL is the graph word that writes global memory. -/
theorem execSignal_canonical (g : GcWord) : OutMem Canonical (execSignal g s) :=
  accept_outMem hs _ _ fun t ht d c x => by
    refine (ends_bind _ _).2 ⟨stopsIn_holdUntil ht _, fun _ _ => ?_⟩
    split
    · simp
    · next written => simpa using State.engineWrite_canonical ht written

/-! ## Operators and control stores -/

theorem execOp_canonical (w : OpWord) : OutMem Canonical (execOp w s) :=
  accept_outMem hs _ _ fun t ht d c x => by
    refine (ends_bind _ _).2 ⟨stopsIn_holdUntil ht _, fun _ _ => ?_⟩
    dsimp only
    generalize (if x.inBlock then x.blocks.getLastD _ else _ : Block) = b
    generalize (if x.inBlock then { x with blocks := x.blocks.dropLast } else { x with nextSerial := x.nextSerial + 1 } : Ctx) = y
    generalize (if w.opid.toNat < 0x100 then none else Tbl.get? (x.bank b.bank).decs w.opid.toNat) = dec
    cases dec with
    | none => simp [ends_bind, ht]
    | some ws =>
      dsimp only
      split <;> simp [ends_bind, ht]

theorem execCsload_canonical (g : GhWord) : OutMem Canonical (execCsload g s) :=
  accept_outMem hs _ _ fun t ht d c x => by
    refine (ends_bind _ _).2 ⟨stopsIn_holdUntil ht _, fun _ _ => ?_⟩
    split <;> simp [ht]

end Sys2Proof.Machine
end


section
set_option Elab.async false
/-! SUPPORT. The canonical form of the memory through the events from outside: Ethernet frames and the host port. -/

namespace Sys2Proof.Machine

variable {s : State} (hs : Canonical s.mem)
include hs

/-- An event of a die or of the pod keeps what its effect keeps. -/
theorem happen_canonical (b : Bool) {t : State} (ht : Canonical t.mem) : OutMem Canonical (happen s b t) := by
  cases b <;> simp [hs, ht]

/-- An event of a unit keeps what its effect keeps. -/
theorem atUnit_canonical (u : Nat) (b : Bool) {t : State} (ht : Canonical t.mem) : OutMem Canonical (atUnit s u b t) := by
  unfold atUnit
  split
  · exact happen_canonical hs b ht
  · simp

theorem ethWrite_canonical (p r : Nat) (v : DWord) : OutMem Canonical (ethWrite s p r v) := happen_canonical hs _ hs

@[simp] theorem State.partialFrame_canonical (d buf a : Nat) (bs : List Byte) : Canonical (s.partialFrame d buf a bs).mem := by
  unfold State.partialFrame
  split
  · split
    · next written => exact State.engineWrite_canonical (by exact hs) written
    · exact hs
  · exact hs

@[simp] theorem State.takeFrame_canonical (p : Nat) (bs : List Byte) : Canonical (s.takeFrame p bs).mem := by
  unfold State.takeFrame
  dsimp only
  split
  · exact hs
  split
  · exact hs
  split
  · exact hs
  split
  · simp [hs]
  · next written =>
    have ht := State.engineWrite_canonical hs written
    split
    · exact ht
    · next completed => simpa using State.engineWrite_canonical ht completed

@[simp] theorem State.receiveFrame_canonical (p : Nat) (good : Bool) (bs : List Byte) : Canonical (s.receiveFrame p good bs).mem := by
  unfold State.receiveFrame
  split
  · exact hs
  · split <;> simp [hs]

@[simp] theorem State.completeTx_canonical (p a : Nat) (w1 : DWord) (refused : Bool) : Canonical (s.completeTx p a w1 refused).mem := by
  unfold State.completeTx
  dsimp only
  split
  · exact hs
  · next written =>
    have ht := State.engineWrite_canonical hs written
    split <;> exact ht

@[simp] theorem State.sendFrame_canonical (p : Nat) : Canonical (s.sendFrame p).mem := by
  unfold State.sendFrame
  dsimp only
  split
  · exact hs
  split
  · simp [hs]
  split
  · exact hs
  · exact State.completeTx_canonical (by exact hs) _ _ _ _

@[simp] theorem State.hostAccess_canonical (p o n : Nat) (wr : Bool) (bs : List Byte) : Canonical (s.hostAccess p o n wr bs).mem := by
  unfold State.hostAccess
  dsimp only
  split
  · split <;> simp [hs]
  · split <;> exact hs

end Sys2Proof.Machine
end


section
set_option Elab.async false
/-! SUPPORT. The canonical form of the memory through the fetch of a group and what begins, pre-empts and ends it. -/

namespace Sys2Proof.Machine

/-! ## The fetch of a group -/

theorem State.fetchBlock_mem {s t : State} {va : Nat} {bs : List Byte} (h : s.fetchBlock va = .ok (bs, t)) : t.mem = s.mem := by
  unfold State.fetchBlock at h
  dsimp only at h
  split at h
  · cases h; rfl
  split at h
  · split at h <;> cases h
    rfl
  split at h
  · cases h
  split at h <;> cases h
  rfl

theorem State.readBlocks_mem {s t : State} {bs : List Byte} {next n : Nat} {g : List Bundle} (h : s.readBlocks bs next n = .ok (g, t)) :
    t.mem = s.mem := by
  induction n generalizing s bs next with
  | zero => cases h
  | succ n ih =>
    unfold State.readBlocks at h
    split at h
    · cases h; rfl
    · cases h
    split at h
    · cases h
    · next fetched => exact (ih h).trans (State.fetchBlock_mem fetched)

theorem State.fetchGroup_mem {s t : State} {g : List Bundle} (h : s.fetchGroup = .ok (g, t)) : t.mem = s.mem := by
  unfold State.fetchGroup at h
  split at h
  · split at h <;> cases h
    rfl
  dsimp only at h
  split at h
  · cases h
  · next fetched => exact (State.readBlocks_mem h).trans (State.fetchBlock_mem fetched)

theorem State.groupCheckpoint_mem {s t : State} {g : List Bundle} {is : List Instr} {must forced : Bool}
    (h : s.groupCheckpoint g is must forced = some t) : t.mem = s.mem := by
  unfold State.groupCheckpoint at h
  dsimp only at h
  split at h
  · cases h; rfl
  split at h
  · cases h; rfl
  split at h <;> cases h
  exact State.nextCycle_mem _

theorem State.stopRequested_mem {s t : State} {u : Nat} (h : s.stopRequested u = some t) : t.mem = s.mem := by
  unfold State.stopRequested at h
  dsimp only at h
  split at h
  · cases h; rfl
  split at h <;> cases h
  exact State.endByClass_mem _ _ _ _ _ _

variable {s : State} (hs : Canonical s.mem)
include hs

theorem State.groupCheckpoint_canonical {t : State} {g : List Bundle} {is : List Instr} {must forced : Bool}
    (h : s.groupCheckpoint g is must forced = some t) : Canonical t.mem := by
  rw [State.groupCheckpoint_mem h]
  exact hs

/-! ## Pre-emption and the end of a group -/

theorem State.preemptAt_canonical {t : State} (h : s.preemptAt = some t) : Canonical t.mem := by
  unfold State.preemptAt at h
  dsimp only at h
  split at h
  · split at h <;> cases h
    · exact State.suspend_canonical (by exact hs) _ _ _ _ _ _ _
    · simpa using hs
  · cases h

theorem State.preemptNow_canonical {t : State} (h : s.preemptNow = some t) : Canonical t.mem := by
  unfold State.preemptNow at h
  split at h
  · exact State.preemptAt_canonical hs h
  · cases h

theorem State.preemptBetween_canonical {t : State} (h : s.preemptBetween = some t) : Canonical t.mem := by
  unfold State.preemptBetween at h
  split at h
  · exact State.preemptAt_canonical (by exact hs) h
  · cases h

theorem State.withdrawBar_canonical {t : State} (h : s.withdrawBar = some t) : Canonical t.mem := by
  unfold State.withdrawBar at h
  split at h
  · dsimp only at h
    split at h
    · exact State.preemptBetween_canonical (by exact hs) h
    · cases h
  · cases h

@[simp] theorem State.endStopped_canonical (e : Stop) : Canonical (s.endStopped e).mem := State.stopGroup_canonical hs e

@[simp] theorem State.endGroup_canonical (g : List Bundle) (ws : List SlotWord) : Canonical (s.endGroup g ws).mem :=
  State.finish_canonical (by simpa using hs) _

theorem State.builtinTurn_canonical {t : State} {u : Nat} (h : s.builtinTurn u = some t) : Canonical t.mem := by
  unfold State.builtinTurn at h
  dsimp only at h
  split at h
  · split at h <;> cases h
    split
    · next done => simpa using (State.runBuiltin_keeps hs _ _ _ _ _).2 _ done
    · simpa using hs
  · cases h

@[simp] theorem State.issueEmpty_canonical (ck : Bool) : Canonical (s.issueEmpty ck).mem := by
  unfold State.issueEmpty
  dsimp only
  split
  · simpa using hs
  split
  · exact State.endStopped_canonical (by simpa using hs) _
  · next taken =>
    have base := State.groupCheckpoint_canonical (by simpa using hs) taken
    split
    · next preempted => exact State.preemptNow_canonical base preempted
    · exact State.endGroup_canonical base _ _

end Sys2Proof.Machine
end


section
set_option Elab.async false
/-! SUPPORT. The canonical form of the memory through the meaning of every instruction and event. -/

namespace Sys2Proof.Machine

variable {s : State} (hs : Canonical s.mem)
include hs

theorem execPswait_canonical (f : MemWord) : OutMem Canonical (execPswait f s) := by
  refine run_canonical hs _ ?_
  simp only [okMem_bind]
  intro p _
  split
  · simp
  · split <;> simp [hs]

/-! ## Events -/

theorem execMatrixStart_canonical : OutMem Canonical (execMatrixStart s) := by
  unfold execMatrixStart
  dsimp only
  split
  · exact atUnit_canonical hs _ _ (by simp [hs])
  · split
    · exact atUnit_canonical hs _ _ hs
    · exact atUnit_canonical hs _ _ hs

theorem execPageWalkComplete_canonical : OutMem Canonical (execPageWalkComplete s) := by
  unfold execPageWalkComplete
  split
  · split
    · exact happen_canonical hs _ (by simp [hs])
    · exact happen_canonical hs _ hs
  · exact happen_canonical hs _ hs

theorem execContextSave_canonical : OutMem Canonical (execContextSave s) := by
  unfold execContextSave
  dsimp only
  split
  · exact happen_canonical hs _ hs
  · exact happen_canonical hs _ (by simp [hs])
  · exact happen_canonical hs _ (by simp [hs])

theorem execOperatorIssue_canonical : OutMem Canonical (execOperatorIssue s) := by
  unfold execOperatorIssue
  dsimp only
  split
  · split
    · exact happen_canonical hs _ (by simp [hs])
    · refine happen_canonical hs _ ?_
      split
      · split <;> simp [hs]
      · simp [hs]
  · exact happen_canonical hs _ hs

theorem ringStop_canonical : OutMem Canonical (execRingStop s) := by
  unfold execRingStop
  dsimp only
  split
  · exact ethWrite_canonical hs _ _ _
  · exact ethWrite_canonical hs _ _ _

/-! ## The dispatch -/

/-- What an instruction or event leaves has a canonical memory. -/
theorem exec_canonical (i : Instr) : OutMem Canonical (exec i s) := by
  cases i
  -- Events that look up what they concern.
  case drainRowDelivery | loadBind | producerWriteback | storePerform | deadlineExpiry | preemptBoundExpiry | tileWriteComplete |
      waitLimitExpiry | fillComplete =>
    simp only [exec, execDrainRowDelivery, execLoadBind, execProducerWriteback, execStorePerform, execDeadlineExpiry,
        execPreemptBoundExpiry, execTileWriteComplete, execWaitLimitExpiry, execFillComplete]
    split
    · exact atUnit_canonical hs _ _ (by simp [hs])
    · exact atUnit_canonical hs _ _ hs
  case copyPerform | landingUnitArrival | flagPostArrival | qpushArrival | contributionArrival | memberCompletion | abortTokenArrival |
      shootdownComplete | agePromotion | pointComplete | operatorComplete | blockCommit | registerWrite | attestationRequest =>
    simp only [exec, execCopyPerform, execLandingUnitArrival, execFlagPostArrival, execQpushArrival, execContributionArrival,
        execMemberCompletion, execAbortTokenArrival, execShootdownComplete, execAgePromotion, execPointComplete, execOperatorComplete,
        execBlockCommit, execRegisterWrite, execAttestationRequest]
    split
    · exact happen_canonical hs _ (by simp [hs])
    · exact happen_canonical hs _ hs
  case matrixStart => exact execMatrixStart_canonical hs
  case pageWalkComplete => exact execPageWalkComplete_canonical hs
  case contextSave => exact execContextSave_canonical hs
  case operatorIssue => exact execOperatorIssue_canonical hs
  case ringStop => exact ringStop_canonical hs
  -- Events of one effect.
  case trapEntry | recordTake | cctlOffline | cctlOnline | cctlRestart | spvWarnClear | traceEnable | traceDisable | firmwareUpdate |
      emptyBundle => exact atUnit_canonical hs _ _ (by simp [hs])
  case erxtailWrite | etxtailWrite | ringEnable | estatClr => exact ethWrite_canonical hs _ _ _
  case pointFire | glaunchWrite | gpatchWrite | gstatFaultClear | dsvcDrain | dsvcReenable | frameReceive | frameTransmit | hostBar2Access |
      powerOnReset | dieReset | laneRetrain | rowSparing | flitRetry | linkRetryLimit | thermalTrip | stackSparesExhausted | illegalWord =>
    exact happen_canonical hs _ (by simp [hs])
  -- Graph words.
  case op a => exact execOp_canonical hs a
  case egbLoop a => exact execEgbLoop_canonical hs a
  case endloop a => exact execEndloop_canonical hs a
  case capend a => exact execCapend_canonical hs a
  case replay a => exact execReplay_canonical hs a
  case param a => exact execParam_canonical hs a
  case signal a => exact execSignal_canonical hs a
  case csload a => exact execCsload_canonical hs a
  case egbRet a => exact accept_outMem hs _ _ fun t ht d c x => egbReturn_canonical ht d c x
  case egbBr | brc | egbCall | gend | capbeg | hld | hdef | hfree | hreshape | hshard | halias | waith | egbStep | chload | chloadOff | block =>
    simp only [exec]
    exact accept_outMem hs _ _ fun t ht d c x => by simp [ends_bind, ht]
  case hset | hadd | hmul | hmin | hmax =>
    simp only [exec]
    exact shapeWord_outMem hs _ fun _ _ => stopsIn_ok _
  case hdiv a =>
    simp only [exec]
    exact shapeWord_outMem hs _ fun _ _ => by split <;> simp
  -- Slots.
  case pswait a => exact execPswait_canonical hs a
  all_goals
    simp only [exec]
    exact run_canonical hs _ (by simp [hs])

end Sys2Proof.Machine
end


section
set_option Elab.async false
/-! SUPPORT. The canonical form of the memory through the groups of a unit, its graph words, and every turn. -/

namespace Sys2Proof.Machine

variable {s : State} (hs : Canonical s.mem)
include hs

/-! ## Groups -/

theorem runLater_canonical (slot bpc : Nat) (i : Instr) : OutMem Canonical (runLater s slot bpc i) := by
  unfold runLater
  split
  · split
    · simp only [outMem_next, State.mem_ite, canonical_ite]
      split <;> simp [hs]
    · simp [hs]
  · simp
  · simp

theorem runSlots_canonical (gpc : Nat) (g : List Bundle) (l : List (SlotWord × Instr)) : OutMem Canonical (runSlots gpc g s l) := by
  induction l generalizing s with
  | nil => simpa [runSlots] using hs
  | cons p l ih =>
    have slot : OutMem Canonical (if s.core.after.any After.fences && accesses p.1.slot p.2 then runLater s p.1.slot (bundleAddr gpc g p.1.slot) p.2
        else exec p.2 (s.upd fun c => { c with slot := p.1.slot, bpc := bundleAddr gpc g p.1.slot })) := by
      split
      · exact runLater_canonical hs _ _ _
      · exact exec_canonical (by exact hs) _
    unfold runSlots
    dsimp only
    split
    · next executed =>
      have ht := slot _ executed
      split
      · simpa using ht
      · exact ih ht
    · simp
    · simp

theorem issueSlots_canonical (g : List Bundle) (ws : List (SlotWord × Instr)) (must : Bool) :
    OutMem Canonical (issueSlots s g ws must) := by
  unfold issueSlots
  dsimp only
  split
  · simp [hs]
  split
  · simp [hs]
  next base taken =>
  have hb := State.groupCheckpoint_canonical hs taken
  split
  · next preempted => simpa using State.preemptNow_canonical hb preempted
  split
  · simp [hb]
  split
  · next t executed =>
    have ht := runSlots_canonical (s := { base with groupCore := base.core, groupDie := base.dieAt (dieOf base.cur) }) hb _ _ _ t executed
    split
    · rw [outMem_next]
      refine State.endStopped_canonical ?_ _
      split
      · cases again : s.groupCheckpoint g (ws.map fun p => p.2) must true with
        | none => exact hb
        | some u => exact State.groupCheckpoint_canonical hs again
      · exact hb
    · rw [outMem_next]
      split
      · simp [hb]
      · simp [ht]
  · simp
  · simp

theorem issueDecoded_canonical (g : List Bundle) (ws : List (SlotWord × Instr)) : OutMem Canonical (issueDecoded s g ws) := by
  unfold issueDecoded
  split
  · next issued =>
    split
    · exact issueSlots_canonical hs _ _ _
    · simpa using issueSlots_canonical hs _ _ _ _ issued
  · simp
  · simp

theorem executeGroup_canonical : OutMem Canonical (executeGroup s) := by
  unfold executeGroup
  dsimp only
  split
  · exact (outMem_next _).2 (State.endStopped_canonical (by simpa using hs) _)
  · next t fetched =>
    have ht : Canonical t.mem := by
      rw [State.fetchGroup_mem fetched]
      simpa using hs
    split
    · simpa using ht
    split
    · exact (outMem_next _).2 (State.endStopped_canonical (by simpa using ht) _)
    · exact issueDecoded_canonical (by simpa using ht) _ _

theorem runLate_canonical (slot bpc : Nat) (i : Instr) (rest : List After) : OutMem Canonical (runLate s slot bpc i rest) := by
  unfold runLate
  dsimp only
  split
  · next t executed =>
    have ht : Canonical t.mem := exec_canonical (by exact hs) i t executed
    split
    · exact (outMem_next _).2 (State.finish_canonical (by simpa using ht) _)
    all_goals simp [hs]
  · simp
  · simp

theorem issueRest_canonical : OutMem Canonical (issueRest s) := by
  unfold issueRest
  split
  · exact runLate_canonical hs _ _ _ _
  · simp [hs]

theorem issueGroup_canonical : OutMem Canonical (issueGroup s) := by
  unfold issueGroup
  split
  · next executed =>
    have ht := executeGroup_canonical hs _ executed
    simp only [outMem_next, State.mem_ite, canonical_ite]
    split
    · exact ht
    · exact State.endStopped_canonical (by simpa using hs) _
  · simp
  · simp

/-! ## The moves of a unit -/

theorem acceptWord_canonical (d ctx : Nat) : OutMem Canonical (acceptWord s d ctx) := by
  unfold acceptWord
  dsimp only
  split
  · simp [hs]
  split
  · simp [hs]
  split
  · simp [hs]
  split
  · exact exec_canonical (by exact hs) _
  split
  · simp [hs]
  split
  · exact exec_canonical hs _
  · simp [hs]

theorem issueUnit_canonical (u : Nat) : OutMem Canonical (issueUnit s u) := by
  unfold issueUnit
  dsimp only
  have hu : Canonical ({ s with cur := u } : State).mem := hs
  split
  · simp
  split
  · exact acceptWord_canonical hu _ _
  split
  · simp [hu]
  · have ha : Canonical (State.upd { s with cur := u } fun c => c.arrive s.now).mem := hs
    split
    · next turn => simpa using State.builtinTurn_canonical ha turn
    split
    · next ends => simpa [State.stopRequested_mem ends] using hs
    split
    · split
      · next withdrawn => simpa using State.withdrawBar_canonical ha withdrawn
      split
      · next rest =>
        have ht := issueRest_canonical ha _ rest
        simp only [outMem_next, State.mem_ite, canonical_ite]
        split
        · exact ht
        · exact hs
      · simp
      · simp
    · split
      · next preempted => simpa using State.preemptBetween_canonical ha preempted
      · exact issueGroup_canonical ha
  · exact (outMem_next _).2 hs

/-! ## Events in their place, and turns -/

@[simp] theorem State.stagedOr_canonical {t : State} (ht : Canonical t.mem) : Canonical (s.stagedOr t).mem := by
  unfold State.stagedOr
  split
  · exact ht
  · exact hs

theorem pushTurn_canonical {t : State} (ht : Canonical t.mem) (x : Push) : OutMem Canonical (pushTurn s t x) := by
  unfold pushTurn
  split
  · simp [hs]
  split
  · simp [ht]
  split
  · next issued =>
    have hr := issueUnit_canonical ht _ _ issued
    split
    · simp [hr]
    split
    · simp [hs]
    dsimp only
    split
    · next again => simpa using issueUnit_canonical (by exact hs) _ _ again
    · simp
    · simp
  · simp
  · simp

theorem occur_canonical (i : Instr) (a : EvArgs) : OutMem Canonical (occur s i a) := by
  unfold occur
  split
  · split
    · next executed =>
      have ht := exec_canonical (by exact hs) i _ executed
      split
      · exact pushTurn_canonical hs ht _
      · simp only [outMem_next, State.mem_ite, canonical_ite]
        split <;> simp [hs, ht]
    · simp
    · simp
  · simp [hs]

theorem doTurn_canonical (t : Turn) : OutMem Canonical (doTurn s t) := by
  cases t with
  | issue u =>
    unfold doTurn
    dsimp only
    split
    · next issued => simpa using issueUnit_canonical (by split <;> simp [hs]) _ _ issued
    · simp
    · simp
  | event i a =>
    unfold doTurn
    dsimp only
    split
    · next occurred => simpa using occur_canonical hs _ _ _ occurred
    · simp
    · simp
  | evict u what i =>
    unfold doTurn
    dsimp only
    split <;> simp [hs]
  | fill d t va =>
    unfold doTurn
    dsimp only
    split <;> simp [hs]
  | upset u kind i =>
    unfold doTurn
    dsimp only
    split <;> simp [hs]
  | late n =>
    unfold doTurn
    dsimp only
    split <;> simp [hs]
  | hostReg p o v =>
    unfold doTurn
    dsimp only
    split <;> simp [hs]
  | tick n => simp [doTurn, hs]
  | prefetch u n => simp [doTurn, hs]
  | walkStep d n => simp [doTurn, hs]
  | bank u n => simp [doTurn, hs]
  | irq u host => simp [doTurn, hs]
  | stage u n => simp [doTurn, hs]

/-- A step of a state with a canonical memory leaves it canonical. -/
theorem step_canonical : OutMem Canonical (step s) := by
  unfold step
  split
  · exact doTurn_canonical (by exact hs) _
  · exact doTurn_canonical hs _

end Sys2Proof.Machine
end


section
set_option Elab.async false
/-! OBLIGATION O59. -/

namespace Sys2Proof.Machine

/-- Settles O59: the memory changes by `Memory.writeN` alone, which keeps the canonical form, in every instruction, event and turn. -/
theorem stepKeepsMemory : Obligations.StepKeepsMemory := by
  unfold Obligations.StepKeepsMemory
  intro s t hs stepped
  exact t.memOk_iff.2 (step_canonical (s.memOk_iff.1 hs) t stepped)

end Sys2Proof.Machine
end


section
set_option Elab.async false
/-! OBLIGATION O60. -/

namespace Sys2Proof.Machine

theorem State.reset_coreAt (u : Nat) : State.reset.coreAt u = Core.reset u := rfl

theorem State.reset_dieAt (d : Nat) : State.reset.dieAt d = {} := rfl

theorem State.reset_ctxAt (d c : Nat) : State.reset.ctxAt d c = {} := rfl

theorem Core.reset_sReg (u k : Nat) : (Core.reset u).live.sReg k = { val := 0 } := by
  unfold Regs.sReg
  split <;> rfl

/-- `CCTL` of a reset core: neither halted nor offline. -/
theorem Core.reset_cctl (u : Nat) : (Core.reset u).cctl = 0 := by simp [Core.cctl, Core.reset]

/-- `GSTAT` of a reset die: four Free contexts and no refused launch. -/
theorem State.reset_gstat (d : Nat) : State.reset.gstat d = 0 := by
  simp only [State.gstat, State.reset_ctxAt, State.reset_dieAt]
  decide

/-- Settles O60: a reset state lists no unit and no die, so each reads as its default. -/
theorem resetState : Obligations.ResetState := by
  unfold Obligations.ResetState
  refine ⟨rfl, fun a => rfl, rfl, rfl, rfl, rfl, rfl, fun u => ?_, fun d => ?_⟩
  · dsimp only
    simp only [State.reset_coreAt, Core.reset_cctl, Core.reset_sReg]
    refine ⟨rfl, rfl, rfl, rfl, rfl, rfl, rfl, rfl, rfl, rfl, rfl, rfl, rfl, trivial, rfl, rfl, rfl, rfl, rfl, rfl, rfl, rfl, rfl, rfl,
      fun k => ?_⟩
    exact ⟨rfl, trivial, trivial, rfl, rfl, rfl, rfl, rfl, rfl, rfl, rfl, rfl, rfl, rfl⟩
  · simp [State.reset_dieAt, State.reset_ctxAt, State.reset_gstat]

end Sys2Proof.Machine
end


section
set_option Elab.async false
/-! OBLIGATION O53. -/

namespace Sys2Proof.Machine

/-- Die 0 as reset leaves it but for FAULT of its context 0, which is Free; `GLAUNCH` is written with 0, whose descriptor is all zeros. -/
def faultStands : State := { dies := [(0, { ctxs := [(0, { fault := true })] })] }

/-- The launch stops the context with graph fault 0x0F, and as FAULT stood before, no interrupt is raised (R334, R336). -/
theorem glaunchWrite_faultStands {t : State} (h : exec .glaunchWrite faultStands = .next t) : (t.coreAt 72).irqPend = 0 := by
  have effect : exec .glaunchWrite faultStands = .next (faultStands.graphFault 0 0 0x0F 0 0 0 0) := rfl
  rw [effect] at h
  cases h
  decide

/-- Refutes O53: a launch with a bad descriptor does not set `IRQ_PEND` bit 1 where FAULT of the Free context it takes stands at 1. -/
theorem not_deviceRegisters : ¬ Obligations.DeviceRegisters := by
  unfold Obligations.DeviceRegisters
  intro holds
  obtain ⟨-, -, launches, -⟩ := holds faultStands
  have stops := ((launches (by decide)).2 0 (by decide) (by decide) (by omega) (by decide) (by decide) (by decide) (by decide)).2 (Or.inl (by decide))
  obtain ⟨t, launched, -, -, noted, -⟩ := stops
  have pending := noted 72 (Or.inl rfl)
  rw [show faultStands.ev.u * 128 + 72 = 72 from rfl, glaunchWrite_faultStands launched] at pending
  exact absurd pending (by decide)

end Sys2Proof.Machine
end


section
set_option Elab.async false
/-! SUPPORT. Little-endian words, and what an engine reads and writes beside a change of an Ethernet port's registers. -/

namespace Sys2Proof.Machine

/-! ## Little-endian numbers -/

theorem leNat_lt (bs : List Byte) : leNat bs < 2 ^ (8 * bs.length) := by
  induction bs with
  | nil => simp [leNat]
  | cons b t ih =>
    have hb : b.toNat < 256 := b.isLt
    have hp : 2 ^ (8 * (t.length + 1)) = 256 * 2 ^ (8 * t.length) := by rw [Nat.mul_succ, Nat.pow_add, Nat.mul_comm]
    rw [leNat, List.length_cons, hp]
    omega

/-- The first bytes of a list that are the low bytes of a number spell that number. -/
theorem leNat_take_eq {bs : List Byte} {x n : Nat} (hn : n ≤ bs.length) (h : ∀ i, i < n → bs.getD i 0 = BitVec.ofNat 8 (x / 2 ^ (8 * i))) :
    leNat (bs.take n) = x % 2 ^ (8 * n) := by
  induction n generalizing bs x with
  | zero => simp [leNat, Nat.mod_one]
  | succ n ih =>
    cases bs with
    | nil => simp at hn
    | cons b t =>
      have hb : b = BitVec.ofNat 8 x := by simpa using h 0 (by omega)
      have ht : leNat (t.take n) = x / 256 % 2 ^ (8 * n) := ih (by simpa using hn) fun i hi => by
        have := h (i + 1) (by omega)
        rw [List.getD_cons_succ] at this
        rw [this, Nat.div_div_eq_div_mul, show 8 * (i + 1) = 8 + 8 * i by omega, Nat.pow_add]
      rw [List.take_succ_cons, leNat, ht, hb, BitVec.toNat_ofNat, show 8 * (n + 1) = 8 + 8 * n by omega, Nat.pow_add]
      exact (Nat.mod_mul).symm

/-- A field of a little-endian word is the field of its number. -/
theorem bits_leWord (bs : List Byte) {hi lo : Nat} (hl : lo ≤ hi) (hh : hi < 64) :
    bits (leWord bs) hi lo = leNat bs / 2 ^ lo % 2 ^ (hi - lo + 1) := by
  rw [bits, leWord, BitVec.toNat_ofNat, show (64 : Nat) = lo + (64 - lo) by omega, Nat.pow_add, Nat.mod_mul_right_div_self,
    Nat.mod_mod_of_dvd _ (Nat.pow_dvd_pow 2 (by omega))]

theorem getLsbD_leWord (bs : List Byte) {i : Nat} (hi : i < 64) : (leWord bs).getLsbD i = decide (leNat bs / 2 ^ i % 2 = 1) := by
  rw [leWord, BitVec.getLsbD_ofNat, Nat.testBit_eq_decide_div_mod_eq]
  simp [hi]

theorem toNat_leWord_mod (bs : List Byte) {n : Nat} (hn : n ≤ 64) : (leWord bs).toNat % 2 ^ n = leNat bs % 2 ^ n := by
  rw [leWord, BitVec.toNat_ofNat, Nat.mod_mod_of_dvd _ (Nat.pow_dvd_pow 2 hn)]

/-! ## An engine's read -/

theorem Memory.length_readFrom (m : Memory) (a n : Nat) : (Memory.readFrom m a n).length = n := by
  induction n generalizing m a with
  | zero => cases m <;> rfl
  | succ n ih =>
    cases m with
    | nil => simp [Memory.readFrom, ih]
    | cons p t =>
      simp only [Memory.readFrom]
      split <;> simp [ih]

variable (s : State)

theorem State.engineLines_zero {d tsid f va : Nat} {bs : List Byte} (h : s.engineLines d tsid f va 0 = .ok bs) : bs = [] := by
  cases f with
  | zero => cases h; rfl
  | succ f =>
    simp only [State.engineLines, if_true] at h
    cases h; rfl

theorem State.engineLines_length {d tsid f va n : Nat} {bs : List Byte} (h : s.engineLines d tsid f va n = .ok bs) (hf : n + va % 128 ≤ 128 * f) :
    bs.length = n := by
  induction f generalizing va n bs with
  | zero =>
    cases h
    simp
    omega
  | succ f ih =>
    unfold State.engineLines at h
    split at h
    · cases h
      simp_all
    dsimp only at h
    split at h
    · cases h
    split at h
    · cases h
    · next rest =>
      cases h
      rw [List.length_append, State.readMem, Memory.readN, Memory.length_readFrom]
      by_cases hk : n ≤ 128 - va % 128
      · rw [Nat.min_eq_left hk, Nat.sub_self] at rest
        rw [s.engineLines_zero rest, Nat.min_eq_left hk]
        rfl
      · rw [Nat.min_eq_right (by omega)] at rest ⊢
        rw [ih rest (by omega)]
        omega

theorem State.engineRead_length {d tsid va n : Nat} {bs : List Byte} (h : s.engineRead d tsid va n = .ok bs) : bs.length = n :=
  s.engineLines_length h (by omega)

/-! ## A port's registers and the accesses of engines -/

section
variable (p : Nat) (f : EthPort → EthPort)

@[simp] theorem State.eth_updEth : (s.updEth p f).eth p = f (s.eth p) := by
  simp [State.eth, State.updEth]

theorem State.dieAt_updEth (k : Nat) :
    (s.updEth p f).dieAt k = { s.dieAt k with eth := if k = portDie p then f (s.eth p) else (s.dieAt k).eth } :=
  by
  rw [State.updEth, State.dieAt_updDie]
  split
  · next e => subst e; rfl
  · rfl

theorem State.homeOk_updEth (d pa : Nat) : (s.updEth p f).homeOk d pa = s.homeOk d pa := by
  simp only [State.homeOk, State.dieReach, State.dieAt_updEth]
  rfl

theorem State.walkFrom_updEth (d tsid va level table : Nat) :
    (s.updEth p f).walkFrom d tsid va level table = s.walkFrom d tsid va level table := by
  induction level generalizing table with
  | zero =>
    unfold State.walkFrom
    simp only [State.homeOk_updEth]
    rfl
  | succ l ih =>
    unfold State.walkFrom
    simp only [State.homeOk_updEth, ih]
    rfl

theorem State.rootOf_updEth (d tsid : Nat) : (s.updEth p f).rootOf d tsid = s.rootOf d tsid := by
  simp only [State.rootOf, State.ctxAt, State.dieAt_updEth]
  rfl

theorem State.walkNow_updEth (d tsid va : Nat) : (s.updEth p f).walkNow d tsid va = s.walkNow d tsid va := by
  simp only [State.walkNow, State.walkFrom_updEth, State.rootOf_updEth]

theorem State.enginePa_updEth (d tsid va kind : Nat) : (s.updEth p f).enginePa d tsid va kind = s.enginePa d tsid va kind := by
  simp only [State.enginePa, State.engineXl, State.homeOk_updEth, State.walkNow_updEth, State.dieAt_updEth]
  rfl

/-- Two changes of a die of which each leaves the other's fields. -/
theorem State.updDie_comm (d : Nat) {g h : Die → Die} (hc : ∀ x, g (h x) = h (g x)) :
    (s.updDie d g).updDie d h = (s.updDie d h).updDie d g := by
  simp only [State.updDie, State.dieAt, Tbl.getD_set_same, Tbl.set_set, hc]

theorem State.engineFill_updEth (tsid va : Nat) :
    (s.updEth p f).engineFill (portDie p) tsid va = (s.engineFill (portDie p) tsid va).updEth p f := by
  simp only [State.engineFill, State.walkNow_updEth, State.dieAt_updEth]
  split
  · rfl
  · split
    · exact State.updDie_comm s (portDie p) fun x => by unfold Die.knows; split <;> rfl
    · rfl

/-- An engine of the port's die writes the same bytes whatever the port's registers. -/
theorem State.engineStore_updEth (tsid n va : Nat) (bs : List Byte) :
    (s.updEth p f).engineStore (portDie p) tsid n va bs = (s.engineStore (portDie p) tsid n va bs).map fun t => t.updEth p f := by
  induction n generalizing s va bs with
  | zero => rfl
  | succ n ih =>
    simp only [State.engineStore, State.enginePa_updEth, State.engineFill_updEth]
    split
    · rfl
    · split
      · rfl
      · exact ih ((s.engineFill (portDie p) tsid va).writeMem _ _) _ _

theorem State.engineWrite_updEth (tsid va : Nat) (bs : List Byte) :
    (s.updEth p f).engineWrite (portDie p) tsid va bs = (s.engineWrite (portDie p) tsid va bs).map fun t => t.updEth p f :=
  s.engineStore_updEth p f tsid _ va bs

end

theorem State.engineFill_eth (d tsid va p : Nat) : (s.engineFill d tsid va).eth p = s.eth p := by
  unfold State.engineFill
  split
  · rfl
  · split
    · unfold State.eth State.l2Fill
      rw [State.dieAt_updDie]
      split
      · next e => subst e; unfold Die.knows; split <;> rfl
      · rfl
    · rfl

theorem State.engineStore_eth {t : State} {d tsid n va p : Nat} {bs : List Byte} (h : s.engineStore d tsid n va bs = .ok t) :
    t.eth p = s.eth p := by
  induction n generalizing s va bs with
  | zero => cases h; rfl
  | succ n ih =>
    simp only [State.engineStore] at h
    split at h
    · cases h; rfl
    split at h
    · cases h
    · exact (ih _ h).trans (s.engineFill_eth d tsid va p)

/-- An engine's write leaves the registers of the ports. -/
theorem State.engineWrite_eth {t : State} {d tsid va p : Nat} {bs : List Byte} (h : s.engineWrite d tsid va bs = .ok t) :
    t.eth p = s.eth p :=
  s.engineStore_eth h

end Sys2Proof.Machine
end


section
set_option Elab.async false
/-! SUPPORT. The frames of an Ethernet port (R467): what arrives and what is sent. -/

namespace Sys2Proof.Machine

variable (s : State)

/-! ## Interrupts and faults of a port -/

theorem State.ethIrq_noted (p : Nat) : EthNoted (s.ethIrq p) p := by
  simp [EthNoted, State.ethIrq, State.irq, portDie]

@[simp] theorem State.eth_ethIrq (p q : Nat) : (s.ethIrq p).eth q = s.eth q := rfl

/-- EN of a ring word is clear once the ring has been stopped. -/
theorem ringOff_disabled (cfg : DWord) : (ringOff cfg).getLsbD 8 = false := by
  rw [ringOff, setBits, BitVec.getLsbD_ofNat, Nat.testBit_eq_decide_div_mod_eq]
  simp
  omega

theorem State.ethFault_noted (p : Nat) (tx : Bool) (a : Nat) : EthNoted (s.ethFault p tx a) p := State.ethIrq_noted _ p

theorem State.eth_ethFault (p : Nat) (tx : Bool) (a : Nat) : (s.ethFault p tx a).eth p = { s.eth p with
    faultV := true, faultA := a % 2 ^ 56
    rxCfg := if tx then (s.eth p).rxCfg else ringOff (s.eth p).rxCfg
    txCfg := if tx then ringOff (s.eth p).txCfg else (s.eth p).txCfg } := by
  rw [State.ethFault, State.eth_ethIrq, State.eth_updEth]

/-! ## Reception -/

theorem portDie_exists {p : Nat} (hp : p < 8) : dieExists (portDie p) = true := by
  simp only [dieExists, portDie]
  exact decide_eq_true (by omega)

theorem exec_frameReceive {s : State} (hp : s.ev.u < 8) : exec .frameReceive s = .next (s.receiveFrame s.ev.u s.ev.flag s.ev.bytes) := by
  simp [exec, execFrameReceive, atDie, happen, portDie_exists hp]

section
variable {s : State} {p : Nat} {bs : List Byte}

/-- A frame that is damaged or of no length of R467 is counted. -/
theorem receiveFrame_bad {good : Bool} (h : good = false ∨ bs.length < 60 ∨ 9212 < bs.length) :
    s.receiveFrame p good bs = s.updEth p fun e => { e with bad := min 0xFFFF (e.bad + 1) } := by
  have hc : !good ∨ bs.length + 4 < 64 ∨ 9216 < bs.length + 4 := by
    rcases h with h | h | h
    · simp [h]
    · exact .inr (.inl (by omega))
    · exact .inr (.inr (by omega))
  rw [State.receiveFrame, if_pos hc]
  rfl

/-- A good frame is taken where the ring is on and the port accepts its address. -/
theorem receiveFrame_good (h1 : 60 ≤ bs.length) (h2 : bs.length ≤ 9212) :
    s.receiveFrame p true bs = if (ringOn (s.eth p).rxCfg && (s.eth p).accepts (bs.take 6)) = true then s.takeFrame p bs else s := by
  rw [State.receiveFrame, if_neg (by simp; omega)]

/-- The port's own address, or any address under EN of all, is accepted. -/
theorem EthPort.accepts_known {e : EthPort} (hl : 6 ≤ bs.length)
    (h : (∀ i, i < 6 → bs.getD i 0 = BitVec.ofNat 8 (e.emac.toNat / 2 ^ (8 * i))) ∨ e.emac.getLsbD 49 = true) :
    e.accepts (bs.take 6) = true := by
  rcases h with h | h
  · have own : leNat (bs.take 6) = bits e.emac 47 0 := by
      rw [leNat_take_eq hl h]
      simp [bits]
    simp [EthPort.accepts, own]
  · simp [EthPort.accepts, h]

theorem takeFrame_noDesc (h : (s.eth p).rxHead = (s.eth p).rxTail) :
    s.takeFrame p bs = s.updEth p fun e => { e with noDesc := min 0xFFFF (e.noDesc + 1) } := by
  simp only [State.takeFrame, h, if_true]
  rfl

/-- The descriptor at the head of the receive ring cannot be read. -/
theorem takeFrame_fault (h : (s.eth p).rxHead ≠ (s.eth p).rxTail) {x : XlErr × Nat}
    (hx : s.engineRead (portDie p) 4 (ringEntry (s.eth p).rxBase (s.eth p).rxCfg (s.eth p).rxHead) 16 = .error x) :
    s.takeFrame p bs = s.ethFault p false x.2 := by
  have hx' : s.engineRead (portDie p) 4 (ringDesc (s.eth p).rxBase (s.eth p).rxCfg (s.eth p).rxHead) 16 = .error x := hx
  simp only [State.takeFrame, if_neg h, hx']

section
variable {w : List Byte} (h : (s.eth p).rxHead ≠ (s.eth p).rxTail)
  (hw : s.engineRead (portDie p) 4 (ringEntry (s.eth p).rxBase (s.eth p).rxCfg (s.eth p).rxHead) 16 = .ok w)
include h hw

theorem takeFrame_tooBig (hn : leNat (w.drop 8) % 65536 < bs.length) :
    s.takeFrame p bs = s.updEth p fun e => { e with tooBig := min 0xFFFF (e.tooBig + 1) } := by
  have hw' : s.engineRead (portDie p) 4 (ringDesc (s.eth p).rxBase (s.eth p).rxCfg (s.eth p).rxHead) 16 = .ok w := hw
  have hs : bits (leWord (w.drop 8)) 15 0 < bs.length := by
    rw [bits_leWord _ (by omega) (by omega)]
    simpa using hn
  simp only [State.takeFrame, if_neg h, hw', if_pos hs]
  rfl

/-- A frame that fits is written to its buffer, its descriptor completed, and the head moves on. -/
theorem takeFrame_taken (hn : bs.length ≤ leNat (w.drop 8) % 65536) {t1 t2 : State}
    (h1 : s.engineWrite (portDie p) 4 (leNat (w.take 8) % 2 ^ 56) bs = .ok t1)
    (h2 : t1.engineWrite (portDie p) 4 (ringEntry (s.eth p).rxBase (s.eth p).rxCfg (s.eth p).rxHead + 8)
      (toBytes 8 (2 ^ 63 + bs.length * 2 ^ 16 + leNat (w.drop 8) % 65536)) = .ok t2) :
    s.takeFrame p bs = (t2.updEth p fun e => { e with rxHead := (e.rxHead + 1) % 2 ^ 32 }).ethIrq p := by
  have hw' : s.engineRead (portDie p) 4 (ringDesc (s.eth p).rxBase (s.eth p).rxCfg (s.eth p).rxHead) 16 = .ok w := hw
  have size : bits (leWord (w.drop 8)) 15 0 = leNat (w.drop 8) % 65536 := by
    rw [bits_leWord _ (by omega) (by omega)]
    simp
  have buf : bits (leWord (w.take 8)) 55 0 = leNat (w.take 8) % 2 ^ 56 := by
    rw [bits_leWord _ (by omega) (by omega)]
    simp
  have h2' : t1.engineWrite (portDie p) 4 (ringDesc (s.eth p).rxBase (s.eth p).rxCfg (s.eth p).rxHead + 8)
      (toBytes 8 (2 ^ 63 + bs.length * 2 ^ 16 + leNat (w.drop 8) % 65536)) = .ok t2 := h2
  simp only [State.takeFrame, if_neg h, hw', size, buf, if_neg (Nat.not_lt.2 hn), h1, h2']

end
end

/-! ## Transmission -/

/-- The port has sent a padded frame, with its frame check sequence. -/
def EthPort.send (e : EthPort) (g : List Byte) : EthPort := { e with sent := e.sent ++ [g ++ frameCheck g] }

theorem exec_frameTransmit {s : State} (hp : s.ev.u < 8) (on : (s.eth s.ev.u).txCfg.getLsbD 8 = true)
    (ne : (s.eth s.ev.u).txHead ≠ (s.eth s.ev.u).txTail) : exec .frameTransmit s = .next (s.sendFrame s.ev.u) := by
  simp [exec, execFrameTransmit, atDie, happen, portDie_exists hp, ringOn, on, ne]

section
variable {s : State} {p : Nat}

/-- A descriptor whose completion is written: the head moves on, and a batch's end interrupts. -/
theorem completeTx_written {a : Nat} {l : List Byte} {refused : Bool} {t : State}
    (h : s.engineWrite (portDie p) 4 (a + 8)
      (toBytes 8 (leNat l % 2 ^ 61 + leNat l / 2 ^ 62 % 2 * 2 ^ 62 + refused.toNat * 2 ^ 61 + 2 ^ 63)) = .ok t) :
    (s.completeTx p a (leWord l) refused).mem = t.mem ∧
      (s.completeTx p a (leWord l) refused).eth p = { s.eth p with txHead := ((s.eth p).txHead + 1) % 2 ^ 32 } ∧
      (leNat l / 2 ^ 62 % 2 = 1 → EthNoted (s.completeTx p a (leWord l) refused) p) := by
  have word : (leWord l).toNat % 2 ^ 61 + bits (leWord l) 62 62 * 2 ^ 62 + refused.toNat * 2 ^ 61 + 2 ^ 63 =
      leNat l % 2 ^ 61 + leNat l / 2 ^ 62 % 2 * 2 ^ 62 + refused.toNat * 2 ^ 61 + 2 ^ 63 := by
    rw [toNat_leWord_mod _ (by omega), bits_leWord _ (by omega) (by omega), Nat.sub_self, Nat.zero_add, Nat.pow_one]
  have batch : (leWord l).getLsbD 62 = decide (leNat l / 2 ^ 62 % 2 = 1) := getLsbD_leWord l (by omega)
  have same := s.engineWrite_eth (p := p) h
  have done : s.completeTx p a (leWord l) refused =
      if (leWord l).getLsbD 62 = true then (t.updEth p fun e => { e with txHead := (e.txHead + 1) % 2 ^ 32 }).ethIrq p
      else t.updEth p fun e => { e with txHead := (e.txHead + 1) % 2 ^ 32 } := by
    simp only [State.completeTx, word, h]
  rw [done, batch]
  by_cases hb : leNat l / 2 ^ 62 % 2 = 1
  · simp only [hb, decide_true, if_true]
    exact ⟨rfl, by simp [same], fun _ => State.ethIrq_noted _ p⟩
  · simp only [hb, decide_false, Bool.false_eq_true, if_false]
    exact ⟨rfl, by simp [same], fun h => h.elim⟩

section
variable {w : List Byte} (hw : s.engineRead (portDie p) 4 (ringEntry (s.eth p).txBase (s.eth p).txCfg (s.eth p).txHead) 16 = .ok w)
include hw

/-- The frame f of a transmit descriptor, padded to 60 bytes (R467). -/
def txPadded (w f : List Byte) : List Byte := f ++ List.replicate (60 - leNat (w.drop 8) % 2 ^ 14) 0

/-- A transmit descriptor that R467 allows. -/
def txLegal (w : List Byte) : Prop :=
  leNat (w.take 8) / 2 ^ 56 = 0 ∧ leNat (w.drop 8) / 2 ^ 14 % 2 ^ 47 = 0 ∧ 14 ≤ leNat (w.drop 8) % 2 ^ 14 ∧ leNat (w.drop 8) % 2 ^ 14 ≤ 9212

omit hw in
theorem txLegal_iff (w : List Byte) : txLegal w ↔ ¬(bits (leWord (w.take 8)) 63 56 ≠ 0 ∨ bits (leWord (w.drop 8)) 60 14 ≠ 0 ∨
    bits (leWord (w.drop 8)) 13 0 < 14 ∨ 9212 < bits (leWord (w.drop 8)) 13 0) := by
  have small : leNat (w.take 8) / 2 ^ 56 < 2 ^ 8 := by
    have := leNat_lt (w.take 8)
    have : leNat (w.take 8) < 2 ^ 64 := lt_of_lt_of_le this (Nat.pow_le_pow_right (by omega) (by simp; omega))
    omega
  rw [bits_leWord _ (by omega) (by omega), bits_leWord _ (by omega) (by omega), bits_leWord _ (by omega) (by omega), txLegal]
  simp only [Nat.pow_zero, Nat.div_one]
  omega

theorem sendFrame_refused (hl : ¬txLegal w) :
    s.sendFrame p = s.completeTx p (ringEntry (s.eth p).txBase (s.eth p).txCfg (s.eth p).txHead) (leWord (w.drop 8)) true := by
  have hw' : s.engineRead (portDie p) 4 (ringDesc (s.eth p).txBase (s.eth p).txCfg (s.eth p).txHead) 16 = .ok w := hw
  simp only [State.sendFrame, hw']
  rw [if_pos (not_not.1 (mt (txLegal_iff w).2 hl))]
  rfl

theorem sendFrame_sent (hl : txLegal w) {f : List Byte}
    (hf : s.engineRead (portDie p) 4 (leNat (w.take 8)) (leNat (w.drop 8) % 2 ^ 14) = .ok f) :
    s.sendFrame p = (s.updEth p fun e => e.send (txPadded w f)).completeTx p
      (ringEntry (s.eth p).txBase (s.eth p).txCfg (s.eth p).txHead) (leWord (w.drop 8)) false := by
  have hw' : s.engineRead (portDie p) 4 (ringDesc (s.eth p).txBase (s.eth p).txCfg (s.eth p).txHead) 16 = .ok w := hw
  have len : bits (leWord (w.drop 8)) 13 0 = leNat (w.drop 8) % 2 ^ 14 := by
    rw [bits_leWord _ (by omega) (by omega)]
    simp
  have buf : bits (leWord (w.take 8)) 55 0 = leNat (w.take 8) := by
    have := hl.1
    rw [bits_leWord _ (by omega) (by omega)]
    omega
  have hf' : s.engineRead (portDie p) 4 (bits (leWord (w.take 8)) 55 0) (bits (leWord (w.drop 8)) 13 0) = .ok f := by rw [buf, len]; exact hf
  simp only [State.sendFrame, hw', hf']
  rw [if_neg ((txLegal_iff w).1 hl), s.engineRead_length hf]
  rfl

end
end

end Sys2Proof.Machine
end


section
set_option Elab.async false
/-! SUPPORT. The host port's window (R465), and what power-on, the reset of a die and a firmware update leave (R7, R468, R473). -/

namespace Sys2Proof.Machine

/-! ## The host port -/

section
variable {s : State} {p o n : Nat} {bs : List Byte}

/-- BAR2 reaches n bytes at offset o of package p (R465). -/
theorem barReach_iff : s.barReach p o n = true ↔
    o + n ≤ 2 ^ 36 ∧ (bits (s.dieAt (p * 32)).hwin 51 0 + o) / 2 ^ 42 = p ∧
      (bits (s.dieAt (p * 32)).hwin 51 0 + o + n - 1) / 2 ^ 37 = (bits (s.dieAt (p * 32)).hwin 51 0 + o) / 2 ^ 37 ∧
      (bits (s.dieAt (p * 32)).hwin 51 0 + o + n - 1) % 2 ^ 37 < 0xC00000000 ∧
      (bits (s.dieAt (p * 32)).hwin 51 0 + o) / 2 ^ 37 ∉ s.offlineStacks := by
  simp only [State.barReach, Bool.and_eq_true, decide_eq_true_eq, Bool.not_eq_true', List.contains_eq_mem, decide_eq_false_iff_not, and_assoc]

theorem exec_hostBar2Access (hp : s.ev.u < 768) :
    exec .hostBar2Access s = .next (s.hostAccess s.ev.u s.ev.k s.ev.m s.ev.flag s.ev.bytes) := by
  simp [exec, execHostBar2Access, happen, hp]

theorem hostAccess_write (h : s.barReach p o bs.length = true) :
    s.hostAccess p o n true bs = s.writeMem (bits (s.dieAt (p * 32)).hwin 51 0 + o) bs := by
  simp [State.hostAccess, h]

theorem hostAccess_read (h : s.barReach p o n = true) : s.hostAccess p o n false bs =
    { s with hostReads := s.hostReads ++ [some ((List.range n).map (s.hostByte (bits (s.dieAt (p * 32)).hwin 51 0 + o)))], free := s.free + n } := by
  simp [State.hostAccess, h]

theorem hostAccess_unreached {wr : Bool} (h : s.barReach p o (if wr then bs.length else n) = false) :
    s.hostAccess p o n wr bs = if wr then s else { s with hostReads := s.hostReads ++ [none] } := by
  cases wr <;> simp_all [State.hostAccess]

theorem writeMem_sameOutside (hs : s.memOk = true) (a : Nat) : SameOutside s (s.writeMem a bs) a bs.length := by
  intro x hx
  rw [State.writeMem, Memory.read_writeN hs, if_neg (by omega)]

theorem read_writeMem (hs : s.memOk = true) (a : Nat) {k : Nat} (hk : k < bs.length) :
    Memory.read (s.writeMem a bs).mem (a + k) = bs.getD k 0 := by
  rw [State.writeMem, Memory.read_writeN hs, if_pos (by omega), Nat.add_sub_cancel_left]

end

/-! ## Weirs, which a reset or an offline core may complete -/

section
variable (s : State)

theorem State.updAll_frame (us : List Nat) (f : Core → Core) : s.updAll us f = { s with cores := (s.updAll us f).cores } := by
  induction us generalizing s with
  | nil => rfl
  | cons u us ih => exact ih (s.updAt u f)

theorem State.coreAt_updAll_of_notMem {us : List Nat} {u : Nat} (h : u ∉ us) (f : Core → Core) : (s.updAll us f).coreAt u = s.coreAt u := by
  induction us generalizing s with
  | nil => rfl
  | cons v us ih =>
    obtain ⟨hv, hus⟩ := not_or.1 (mt List.mem_cons.2 h)
    exact (ih (s.updAt v f) hus).trans (s.coreAt_updAt_ne f hv)

theorem State.weirCheck_frame (u scope : Nat) : s.weirCheck u scope = { s with cores := (s.weirCheck u scope).cores } := by
  unfold State.weirCheck
  dsimp only
  split
  · exact s.updAll_frame _ _
  · rfl

/-- A unit that stands at no weir keeps its state: a round that counts it does not complete (R422). -/
theorem State.coreAt_weirCheck {v : Nat} (h : (s.coreAt v).barArrived = none) (u scope : Nat) :
    (s.weirCheck u scope).coreAt v = s.coreAt v := by
  unfold State.weirCheck
  dsimp only
  split
  · next complete =>
    refine s.coreAt_updAll_of_notMem (fun member => ?_) _
    have arrived := List.all_eq_true.1 complete v member
    simp [State.arrivedWith, h] at arrived
  · rfl

theorem State.weirsRecheck_frame : s.weirsRecheck = { s with cores := s.weirsRecheck.cores } := by
  unfold State.weirsRecheck
  generalize s.cores = l
  induction l generalizing s with
  | nil => rfl
  | cons p l ih =>
    rw [List.foldl_cons]
    split
    · rw [ih, s.weirCheck_frame]
    · exact ih s

theorem State.coreAt_weirsRecheck {v : Nat} (h : (s.coreAt v).barArrived = none) : s.weirsRecheck.coreAt v = s.coreAt v := by
  unfold State.weirsRecheck
  generalize s.cores = l
  induction l generalizing s with
  | nil => rfl
  | cons p l ih =>
    rw [List.foldl_cons]
    split
    · have kept := s.coreAt_weirCheck h p.1
      rw [ih _ (by rw [kept]; exact h), kept]
    · exact ih s h

theorem State.abortInsts_frame (q : Inst → Bool) (cause : Nat) (exempt : Option (Nat × Nat)) :
    s.abortInsts q cause exempt = { s with insts := (s.abortInsts q cause exempt).insts, ended := (s.abortInsts q cause exempt).ended } := by
  unfold State.abortInsts
  generalize s.insts.filter _ = l
  induction l generalizing s with
  | nil => rfl
  | cons i l ih =>
    rw [List.foldl_cons, ih]
    rfl

theorem State.dieAt_abortInsts (q : Inst → Bool) (cause : Nat) (exempt : Option (Nat × Nat)) (d : Nat) :
    (s.abortInsts q cause exempt).dieAt d = s.dieAt d := by
  rw [s.abortInsts_frame]
  rfl

end

/-! ## The reset of a die -/

section
variable (s : State)

/-- Entries of other keys stay where some are dropped by their key. -/
theorem Tbl.get?_filter {α : Type} (t : Tbl α) (q : Nat → Bool) (k : Nat) :
    Tbl.get? (t.filter fun x => q x.1) k = if q k = true then Tbl.get? t k else none := by
  induction t with
  | nil => simp [Tbl.get?]
  | cons x t ih =>
    obtain ⟨k', v⟩ := x
    rw [List.filter_cons]
    by_cases hk : k' = k
    · subst hk
      by_cases hq : q k' = true <;> simp [Tbl.get?, hq, ih]
    · by_cases hq : q k' = true <;> simp [Tbl.get?, hq, hk, ih]

/-- The die's units as reset leaves them, before weirs that they have left are looked at again. -/
theorem State.coreAt_resetDie (d u : Nat) (h : dieOf u = d ∨ s.coreAt u = Core.reset u) : (s.resetDie d).coreAt u = Core.reset u := by
  have dropped (t : State) (ht : t.coreAt u = Core.reset u) : t.weirsRecheck.coreAt u = Core.reset u := by
    rw [t.coreAt_weirsRecheck (by rw [ht]; rfl), ht]
  unfold State.resetDie
  refine dropped _ ?_
  rw [s.abortInsts_frame]
  unfold State.coreAt Tbl.getD
  rw [Tbl.get?_filter _ (fun k => decide (k / 128 ≠ d))]
  split
  · next other =>
    rcases h with h | h
    · exact absurd h (of_decide_eq_true other)
    · exact h
  · rfl

theorem State.dieAt_resetDie (d k : Nat) : (s.resetDie d).dieAt k = if k = d then { since := s.now } else s.dieAt k := by
  unfold State.resetDie
  rw [State.weirsRecheck_frame, s.abortInsts_frame]
  exact Tbl.getD_set _ k d _ _

end

/-! ## Power-on -/

/-- The images, the flash and what a package's start reports are as they were. -/
structure FirmwareKept (s t : State) : Prop where
  mem : t.mem = s.mem
  flash : t.flash = s.flash
  image : t.image = s.image
  coreImage : t.coreImage = s.coreImage
  packages : t.packages = s.packages
  fabric : t.fabric = s.fabric
  bootFailed : t.bootFailed = s.bootFailed

theorem FirmwareKept.refl (s : State) : FirmwareKept s s := ⟨rfl, rfl, rfl, rfl, rfl, rfl, rfl⟩

theorem FirmwareKept.trans {s t u : State} (h : FirmwareKept s t) (g : FirmwareKept t u) : FirmwareKept s u :=
  ⟨g.mem.trans h.mem, g.flash.trans h.flash, g.image.trans h.image, g.coreImage.trans h.coreImage, g.packages.trans h.packages,
    g.fabric.trans h.fabric, g.bootFailed.trans h.bootFailed⟩

theorem FirmwareKept.foldl {α : Type} {f : State → α → State} (hf : ∀ s a, FirmwareKept s (f s a)) (l : List α) (s : State) :
    FirmwareKept s (l.foldl f s) := by
  induction l generalizing s with
  | nil => exact .refl s
  | cons a l ih => exact (hf s a).trans (ih _)

theorem State.resetDie_firmware (s : State) (d : Nat) : FirmwareKept s (s.resetDie d) := by
  unfold State.resetDie
  rw [State.weirsRecheck_frame, s.abortInsts_frame]
  exact ⟨rfl, rfl, rfl, rfl, rfl, rfl, rfl⟩

theorem State.startControl_firmware (s : State) (u : Nat) : FirmwareKept s (s.startControl u) := ⟨rfl, rfl, rfl, rfl, rfl, rfl, rfl⟩

theorem FirmwareKept.startVector {s t : State} (h : FirmwareKept s t) (u : Nat) : t.startVector u = s.startVector u := by
  simp only [State.startVector, h.coreImage, h.image]

/-- A control core that starts runs from its start vector, or idles where it has none. -/
theorem State.startControl_runs (s : State) (u : Nat) :
    ((s.startControl u).coreAt u).run = (if s.startVector u = 0 then .idle else .running) ∧ ((s.startControl u).coreAt u).pc = s.startVector u := by
  simp [State.startControl]

/-- Of control cores that start one after another each runs from its start vector. -/
theorem State.startAll_runs (s : State) {us : List Nat} {u : Nat} (h : u ∈ us) :
    ((us.foldl State.startControl s).coreAt u).run = (if s.startVector u = 0 then .idle else .running) ∧
      ((us.foldl State.startControl s).coreAt u).pc = s.startVector u := by
  induction us using List.reverseRecOn with
  | nil => simp at h
  | append_singleton us v ih =>
    rw [List.foldl_append, List.foldl_cons, List.foldl_nil]
    by_cases hv : u = v
    · subst hv
      rw [← (FirmwareKept.foldl State.startControl_firmware us s).startVector u]
      exact State.startControl_runs _ u
    · have kept : ((us.foldl State.startControl s).startControl v).coreAt u = (us.foldl State.startControl s).coreAt u :=
        State.coreAt_updAt_ne _ _ hv
      rw [kept]
      exact ih (by simpa [hv] using h)

/-- A die that has been reset stays so while other dies are. -/
theorem State.coreAt_resetDies (s : State) (p n : Nat) {u : Nat} (h : p * 32 ≤ dieOf u ∧ dieOf u < p * 32 + n) :
    (((List.range n).foldl (fun s k => s.resetDie (p * 32 + k)) s).coreAt u) = Core.reset u := by
  induction n with
  | zero => omega
  | succ n ih =>
    rw [List.range_succ, List.foldl_append, List.foldl_cons, List.foldl_nil]
    refine State.coreAt_resetDie _ _ _ ?_
    by_cases hn : dieOf u = p * 32 + n
    · exact .inl hn
    · exact .inr (ih (by omega))

/-- Dropping a key, then reading it. -/
theorem Tbl.get?_del_same {α : Type} (t : Tbl α) (k : Nat) : Tbl.get? (Tbl.del t k) k = none := by
  induction t with
  | nil => rfl
  | cons x t ih =>
    obtain ⟨k', v⟩ := x
    unfold Tbl.del
    split
    · exact ih
    · next ne => simp [Tbl.get?, ne, ih]

/-- The start vectors lie in the head of the flash that every image takes. -/
theorem vector_imageOf (f : List Byte) {n : Nat} (hn : n < 64) : leNat (((imageOf f).drop (64 + 8 * n)).take 8) = vectorOf f n := by
  rw [vectorOf, imageOf, List.drop_take, List.take_take, Nat.min_eq_left (by omega)]

section
variable (s : State) (p : Nat)

/-- The dies of a package reset, and its poison and fabric configuration gone: the state in which its image is verified (R468). -/
def State.packageReset : State :=
  let t := (List.range 32).foldl (fun s k => s.resetDie (p * 32 + k)) s
  { t with poison := t.poison.filter fun l => decide (l / 2 ^ 35 ≠ p), fabric := t.fabric.filter fun x => decide (x ≠ p) }

/-- The package joins the pod with its verified image. -/
def State.withImage : State :=
  let f := Tbl.getD s.flash p []
  { s with
    image := Tbl.set s.image p (imageOf f), fabric := s.fabric ++ [p]
    coreImage := s.coreImage.filter fun x => decide (x.1 / 4096 ≠ p)
    packages := (s.packages.filter fun x => decide (x < p)) ++ p :: s.packages.filter fun x => decide (p < x) }

/-- The control cores of a package in the order in which they start. -/
def packageControls : List Nat := (List.range 32).flatMap fun k => controlUnits (p * 32 + k)

theorem State.resetDies_firmware (n : Nat) : FirmwareKept s ((List.range n).foldl (fun s k => s.resetDie (p * 32 + k)) s) :=
  FirmwareKept.foldl (fun s k => s.resetDie_firmware (p * 32 + k)) _ s

theorem State.packageReset_mem : (s.packageReset p).mem = s.mem := by
  simpa only [State.packageReset] using (s.resetDies_firmware p 32).mem

theorem State.packageReset_flash : (s.packageReset p).flash = s.flash := by
  simpa only [State.packageReset] using (s.resetDies_firmware p 32).flash

theorem State.packageReset_image : (s.packageReset p).image = s.image := by
  simpa only [State.packageReset] using (s.resetDies_firmware p 32).image

theorem State.packageReset_packages : (s.packageReset p).packages = s.packages := by
  simpa only [State.packageReset] using (s.resetDies_firmware p 32).packages

theorem State.packageReset_bootFailed : (s.packageReset p).bootFailed = s.bootFailed := by
  simpa only [State.packageReset] using (s.resetDies_firmware p 32).bootFailed

theorem State.coreAt_packageReset {u : Nat} (h : dieOf u / 32 = p) : (s.packageReset p).coreAt u = Core.reset u := by
  simpa only [State.packageReset, State.coreAt] using s.coreAt_resetDies p 32 (u := u) (by omega)

/-- Power-on, said through its parts. -/
theorem State.powerOn_eq : s.powerOn p = if flashVerifies (Tbl.getD (s.packageReset p).flash p []) = true then
      (packageControls p).foldl State.startControl ((s.packageReset p).withImage p)
    else { s.packageReset p with image := Tbl.del (s.packageReset p).image p, bootFailed := (s.packageReset p).bootFailed ++ [p] } := by
  unfold State.powerOn State.withImage State.packageReset packageControls
  rw [List.foldl_flatMap]

theorem State.powerOn_verified (hf : flashVerifies (Tbl.getD s.flash p []) = true) :
    s.powerOn p = (packageControls p).foldl State.startControl ((s.packageReset p).withImage p) := by
  rw [s.powerOn_eq, s.packageReset_flash, if_pos hf]

theorem State.powerOn_unverified (hf : flashVerifies (Tbl.getD s.flash p []) = false) :
    s.powerOn p = { s.packageReset p with image := Tbl.del s.image p, bootFailed := s.bootFailed ++ [p] } := by
  rw [s.powerOn_eq, s.packageReset_flash, if_neg (by rw [hf]; exact Bool.false_ne_true), s.packageReset_image, s.packageReset_bootFailed]

theorem mem_packageControls {n : Nat} (hn : n < 64) : p * 4096 + n / 2 * 128 + 72 + n % 2 ∈ packageControls p := by
  refine List.mem_flatMap.2 ⟨n / 2, List.mem_range.2 (by omega), ?_⟩
  simp only [controlUnits, List.mem_cons, List.not_mem_nil, or_false]
  omega

/-- The start vector of a control core of a package that has just taken its image. -/
theorem State.startVector_withImage {n : Nat} (hn : n < 64) :
    (s.withImage p).startVector (p * 4096 + n / 2 * 128 + 72 + n % 2) = vectorOf (Tbl.getD s.flash p []) n := by
  have package : (p * 4096 + n / 2 * 128 + 72 + n % 2) / 4096 = p := by omega
  have place : 2 * (dieOf (p * 4096 + n / 2 * 128 + 72 + n % 2) % 32) + ((p * 4096 + n / 2 * 128 + 72 + n % 2) % 128 - 72) = n := by
    unfold dieOf
    omega
  have image : Tbl.getD (s.withImage p).coreImage (p * 4096 + n / 2 * 128 + 72 + n % 2)
      (Tbl.getD (s.withImage p).image ((p * 4096 + n / 2 * 128 + 72 + n % 2) / 4096) []) = imageOf (Tbl.getD s.flash p []) := by
    rw [package]
    unfold State.withImage Tbl.getD
    simp only
    rw [Tbl.get?_filter _ (fun k => decide (k / 4096 ≠ p)), package]
    simp
  rw [State.startVector, image, place, vector_imageOf _ hn]

end

end Sys2Proof.Machine
end


section
set_option Elab.async false
/-! SUPPORT. Replace requests, and what goes offline (R45, R471, R473). -/

namespace Sys2Proof.Machine

/-! ## Replace requests -/

section
variable (s : State)

/-- A replace request none of whose dies has a row being spared takes effect at once. -/
theorem State.placeReplace_now {x : HwUnit} (h : ∀ d ∈ x.dies, (s.dieAt d).sparing = none) :
    s.placeReplace x = { s with replace := s.replace ++ [x] } :=
  by
  have none : x.dies.find? (fun d => (s.dieAt d).sparing.isSome) = none := List.find?_eq_none.2 fun d hd => by simp [h d hd]
  unfold State.placeReplace
  rw [none]

theorem State.placeReplace_all {l : List HwUnit} (h : ∀ x ∈ l, ∀ d ∈ x.dies, (s.dieAt d).sparing = none) :
    l.foldl State.placeReplace s = { s with replace := s.replace ++ l } := by
  induction l generalizing s with
  | nil => simp
  | cons x l ih =>
    rw [List.foldl_cons, s.placeReplace_now (h x List.mem_cons_self), ih]
    · simp
    · exact fun y hy => h y (List.mem_cons_of_mem x hy)

theorem State.placeReplace_frame (x : HwUnit) :
    s.placeReplace x = { s with dies := (s.placeReplace x).dies, replace := (s.placeReplace x).replace } := by
  unfold State.placeReplace
  split <;> rfl

theorem State.dieAt_placeReplace (x : HwUnit) (d : Nat) : ∃ l, (s.placeReplace x).dieAt d = { s.dieAt d with replWait := l } := by
  unfold State.placeReplace
  split
  · rw [State.dieAt_updDie]
    split
    · next e => subst e; exact ⟨_, rfl⟩
    · exact ⟨_, rfl⟩
  · exact ⟨_, rfl⟩

/-- A change of several dies, at one of them and elsewhere. -/
theorem State.dieAt_updDies {f : Die → Die} (hf : ∀ x, f (f x) = f x) (ds : List Nat) (d : Nat) :
    (ds.foldl (fun (s : State) d => s.updDie d f) s).dieAt d = if d ∈ ds then f (s.dieAt d) else s.dieAt d := by
  induction ds generalizing s with
  | nil => simp
  | cons e ds ih =>
    rw [List.foldl_cons, ih, State.dieAt_updDie]
    by_cases h1 : d = e
    · subst h1
      by_cases h2 : d ∈ ds <;> simp [h2, hf]
    · simp [h1]

theorem State.updDies_frame (f : Die → Die) (ds : List Nat) :
    ds.foldl (fun (s : State) d => s.updDie d f) s = { s with dies := (ds.foldl (fun (s : State) d => s.updDie d f) s).dies } := by
  induction ds generalizing s with
  | nil => rfl
  | cons e ds ih =>
    rw [List.foldl_cons, ih]
    rfl

theorem State.requestReplace_frame (x : HwUnit) :
    s.requestReplace x = { s with dies := (s.requestReplace x).dies, replace := (s.requestReplace x).replace } := by
  unfold State.requestReplace
  rw [State.placeReplace_frame, s.updDies_frame]

/-- REPLREQ of the unit's dies is set; nothing else of a die changes but the requests that wait there. -/
theorem State.dieAt_requestReplace (x : HwUnit) (d : Nat) :
    ∃ l, (s.requestReplace x).dieAt d = { s.dieAt d with replreq := (s.dieAt d).replreq || decide (d ∈ x.dies), replWait := l } := by
  obtain ⟨l, placed⟩ := State.dieAt_placeReplace (x.dies.foldl (fun (s : State) d => s.updDie d fun y => { y with replreq := true }) s) x d
  refine ⟨l, placed.trans ?_⟩
  rw [s.dieAt_updDies (f := fun y => { y with replreq := true }) fun _ => rfl]
  by_cases h : d ∈ x.dies <;> simp [h]

/-- The request takes effect where no row of its dies is being spared. -/
theorem State.requestReplace_now {x : HwUnit} (h : ∀ d ∈ x.dies, (s.dieAt d).sparing = none) : x ∈ (s.requestReplace x).replace := by
  unfold State.requestReplace
  rw [State.placeReplace_now]
  · simp
  · intro d hd
    rw [s.dieAt_updDies (f := fun y => { y with replreq := true }) fun _ => rfl, if_pos hd]
    exact h d hd

end

/-! ## What an abort leaves of the dies' service state -/

/-- OFFLINE and REPLREQ of every die and the replace requests are as they were. -/
structure ServiceKept (s t : State) : Prop where
  replace : t.replace = s.replace
  offline : ∀ d, (t.dieAt d).offline = (s.dieAt d).offline
  replreq : ∀ d, (t.dieAt d).replreq = (s.dieAt d).replreq

theorem ServiceKept.refl (s : State) : ServiceKept s s := ⟨rfl, fun _ => rfl, fun _ => rfl⟩

theorem ServiceKept.trans {s t u : State} (h : ServiceKept s t) (g : ServiceKept t u) : ServiceKept s u :=
  ⟨g.replace.trans h.replace, fun d => (g.offline d).trans (h.offline d), fun d => (g.replreq d).trans (h.replreq d)⟩

theorem ServiceKept.foldl {α : Type} {f : State → α → State} (hf : ∀ s a, ServiceKept s (f s a)) (l : List α) (s : State) :
    ServiceKept s (l.foldl f s) := by
  induction l generalizing s with
  | nil => exact .refl s
  | cons a l ih => exact (hf s a).trans (ih _)

/-- What leaves the dies and the requests. -/
theorem ServiceKept.of_eq {s t : State} (hd : t.dies = s.dies) (hr : t.replace = s.replace) : ServiceKept s t :=
  ⟨hr, fun d => by rw [State.dieAt, hd]; rfl, fun d => by rw [State.dieAt, hd]; rfl⟩

section
variable (s : State)

theorem State.updAt_service (u : Nat) (f : Core → Core) : ServiceKept s (s.updAt u f) := .of_eq rfl rfl

theorem State.updDie_service (d : Nat) {f : Die → Die} (hf : ∀ x, (f x).offline = x.offline ∧ (f x).replreq = x.replreq) :
    ServiceKept s (s.updDie d f) := by
  refine ⟨rfl, fun k => ?_, fun k => ?_⟩
  · rw [State.dieAt_updDie]
    split
    · next e => rw [e, (hf _).1]
    · rfl
  · rw [State.dieAt_updDie]
    split
    · next e => rw [e, (hf _).2]
    · rfl

theorem State.updCtx_service (d c : Nat) (f : Ctx → Ctx) : ServiceKept s (s.updCtx d c f) := s.updDie_service d fun _ => ⟨rfl, rfl⟩

theorem State.restartPoint_service (d : Nat) (r : Record) : ServiceKept s (s.restartPoint d r) := by
  unfold State.restartPoint
  split
  · exact .refl s
  · exact s.updDie_service d fun x => by split <;> exact ⟨rfl, rfl⟩

theorem State.reapLeaving_service (u : Nat) : ServiceKept s (s.reapLeaving u) :=
  ServiceKept.foldl (fun s id => by
    split
    · exact .refl s
    · exact s.updAt_service _ _) _ _

theorem State.reapResume_service (u : Nat) : ServiceKept s (s.reapResume u) := by
  refine (s.reapLeaving_service u).trans (ServiceKept.foldl (fun s p => ?_) _ _)
  split
  · split
    · exact .refl s
    · dsimp only
      split
      · exact (s.updAt_service _ _).trans (State.restartPoint_service _ _ _)
      · exact s.updAt_service _ _
  · exact .refl s

theorem State.abortInsts_service (q : Inst → Bool) (cause : Nat) (exempt : Option (Nat × Nat)) :
    ServiceKept s (s.abortInsts q cause exempt) := by
  rw [s.abortInsts_frame]
  exact .of_eq rfl rfl

theorem State.freeOperGrans_service (d ctx : Nat) (blk : Option Nat) : ServiceKept s (s.freeOperGrans d ctx blk) := .of_eq rfl rfl

theorem State.dropCtxWork_service (d ctx : Nat) : ServiceKept s (s.dropCtxWork d ctx) := by
  unfold State.dropCtxWork
  dsimp only
  refine ServiceKept.trans ?_ (ServiceKept.foldl (fun s (p : Nat × Core) => s.reapResume_service p.1) _ _)
  refine ServiceKept.trans ?_ (State.freeOperGrans_service _ d ctx none)
  refine ServiceKept.trans ?_ (State.updCtx_service _ d ctx _)
  refine ServiceKept.trans ?_ (State.updDie_service _ d fun _ => ⟨rfl, rfl⟩)
  exact .of_eq rfl rfl

theorem State.graphFault_service (d ctx code addr opid handle info : Nat) :
    ServiceKept s (s.graphFault d ctx code addr opid handle info) := by
  have stopped := ((s.dropCtxWork_service d ctx).trans (State.abortInsts_service _
      (fun i => i.members.any fun m => decide (m.u / 128 = d ∧ m.tsid = ctx) && !m.done) 0x05 none)).trans
    (State.updCtx_service _ d ctx fun c => { c with
      st := .faulted, fault := true, handles := Tbl.mapV (fun h => { h with resident := 0 }) c.handles
      recA := BitVec.ofNat 64 (code * 2 ^ 56 + addr % 2 ^ 56)
      recB := BitVec.ofNat 64 (opid % 1024 * 2 ^ 48 + handle % 4096 * 2 ^ 32 + info % 65536) })
  unfold State.graphFault
  dsimp only
  split
  · exact stopped
  · exact stopped.trans (.of_eq rfl rfl)

theorem State.endByClass_service (u why addr info : Nat) (dest : Run) : ServiceKept s (s.endByClass u why addr info dest) := by
  unfold State.endByClass
  split
  · exact s.updAt_service _ _
  · split
    · exact s.updAt_service _ _
    · exact (s.updAt_service _ _).trans (State.graphFault_service _ _ _ _ _ _ _ _)

theorem State.abortPos_service (u k why info : Nat) : ServiceKept s (s.abortPos u k why info) := by
  unfold State.abortPos
  split
  · exact .refl s
  · split
    · exact .refl s
    · split
      · exact (s.updAt_service _ _).trans (State.reapResume_service _ _)
      · exact s.graphFault_service _ _ _ _ _ _ _

theorem State.weirsRecheck_service : ServiceKept s s.weirsRecheck := by
  rw [s.weirsRecheck_frame]
  exact .of_eq rfl rfl

theorem State.takeOffline_service (u : Nat) : ServiceKept s (s.takeOffline u) := by
  unfold State.takeOffline
  dsimp only
  split
  · exact .refl s
  · refine (ServiceKept.trans ?_ (ServiceKept.foldl (fun s (p : Nat × ResumePos) => s.abortPos_service u p.1 3 0) _ _)).trans
      (State.weirsRecheck_service _)
    split
    · exact (State.abortInsts_service _ _ _ _).trans (State.endByClass_service _ _ _ _ _ _)
    · split <;> exact (State.abortInsts_service _ _ _ _).trans (State.updAt_service _ _ _)

/-- A die that goes offline: the flag, its replace request, and no core of it online (R45, R471). -/
theorem State.dieOffline_service (d : Nat) :
    ServiceKept ((s.updDie d fun x => { x with offline := true }).requestReplace (.die d)) (s.dieOffline d) :=
  ((State.abortInsts_service _ _ _ _).trans (ServiceKept.foldl (fun s (p : Nat × Core) => s.takeOffline_service p.1) _ _)).trans
    (State.weirsRecheck_service _)

theorem State.online_of_offline {u : Nat} (h : (s.dieAt (dieOf u)).offline = true) : s.online u = false := by
  simp [State.online, h]

end

end Sys2Proof.Machine
end


section
set_option Elab.async false
/-! SUPPORT. The events of Ethernet frames, the host port, reset and degraded operation, each with what it leaves (R465 to R473). -/

namespace Sys2Proof.Machine

variable {s : State}

/-! ## Frames -/

/-- A frame that fits its buffer, as an event (R467). -/
theorem frameReceive_taken (hp : s.ev.u < 8) (good : s.ev.flag = true) (h1 : 60 ≤ s.ev.bytes.length) (h2 : s.ev.bytes.length ≤ 9212)
    (on : (s.eth s.ev.u).rxCfg.getLsbD 8 = true) (ours : (s.eth s.ev.u).accepts (s.ev.bytes.take 6) = true) :
    exec .frameReceive s = .next (s.takeFrame s.ev.u s.ev.bytes) := by
  rw [exec_frameReceive hp, good, receiveFrame_good h1 h2, if_pos (by simp [ringOn, on, ours])]

theorem frameReceive_ignored (hp : s.ev.u < 8) (good : s.ev.flag = true) (h1 : 60 ≤ s.ev.bytes.length) (h2 : s.ev.bytes.length ≤ 9212)
    (off : (s.eth s.ev.u).rxCfg.getLsbD 8 = false) : exec .frameReceive s = .next s := by
  rw [exec_frameReceive hp, good, receiveFrame_good h1 h2, if_neg (by rw [ringOn, off]; simp)]

/-- The descriptor word of a frame that is sent. -/
theorem legal_word {l : List Byte} (h : leNat l / 2 ^ 14 % 2 ^ 47 = 0) :
    leNat l % 2 ^ 61 + leNat l / 2 ^ 62 % 2 * 2 ^ 62 + false.toNat * 2 ^ 61 + 2 ^ 63 = 2 ^ 63 + leNat l / 2 ^ 62 % 2 * 2 ^ 62 + leNat l % 2 ^ 14 := by
  simp only [Bool.toNat_false]
  omega

theorem refused_word (l : List Byte) :
    leNat l % 2 ^ 61 + leNat l / 2 ^ 62 % 2 * 2 ^ 62 + true.toNat * 2 ^ 61 + 2 ^ 63 =
      leNat l % 2 ^ 61 + 2 ^ 63 + leNat l / 2 ^ 62 % 2 * 2 ^ 62 + 2 ^ 61 := by
  simp only [Bool.toNat_true]
  omega

/-! ## Power-on and resets -/

theorem exec_powerOnReset (hp : s.ev.u < 768) : exec .powerOnReset s = .next (s.powerOn s.ev.u) := by
  simp [exec, execPowerOnReset, happen, hp]

/-- A package with a verified image starts its control cores (R468). -/
theorem powerOn_started (p : Nat) (hf : flashVerifies (Tbl.getD s.flash p []) = true) :
    Tbl.get? (s.powerOn p).image p = some (imageOf (Tbl.getD s.flash p [])) ∧
      (∀ q, q ∈ (s.powerOn p).packages ↔ q = p ∨ q ∈ s.packages) ∧
      (s.packages.Pairwise (· < ·) → (s.powerOn p).packages.Pairwise (· < ·)) ∧ p ∈ (s.powerOn p).fabric ∧
      ∀ n, n < 64 → let x := (s.powerOn p).coreAt (p * 4096 + n / 2 * 128 + 72 + n % 2)
        (vectorOf (Tbl.getD s.flash p []) n ≠ 0 → x.run = .running ∧ x.pc = vectorOf (Tbl.getD s.flash p []) n) ∧
          (vectorOf (Tbl.getD s.flash p []) n = 0 → x.run = .idle) := by
  have kept := FirmwareKept.foldl State.startControl_firmware (packageControls p) ((s.packageReset p).withImage p)
  have flash := s.packageReset_flash p
  have packages : (s.powerOn p).packages = (s.packages.filter fun x => decide (x < p)) ++ p :: s.packages.filter fun x => decide (p < x) := by
    rw [s.powerOn_verified p hf, kept.packages, State.withImage, s.packageReset_packages]
  refine ⟨?_, fun q => ?_, fun sorted => ?_, ?_, fun n hn => ?_⟩
  · rw [s.powerOn_verified p hf, kept.image, State.withImage, flash, Tbl.get?_set_same]
  · rw [packages]
    simp only [List.mem_append, List.mem_filter, List.mem_cons, decide_eq_true_eq]
    constructor
    · rintro (⟨hq, -⟩ | rfl | ⟨hq, -⟩)
      · exact .inr hq
      · exact .inl rfl
      · exact .inr hq
    · rintro (rfl | hq)
      · exact .inr (.inl rfl)
      · rcases lt_trichotomy q p with lt | rfl | gt
        · exact .inl ⟨hq, lt⟩
        · exact .inr (.inl rfl)
        · exact .inr (.inr ⟨hq, gt⟩)
  · rw [packages, List.pairwise_append, List.pairwise_cons]
    refine ⟨sorted.filter _, ⟨fun q hq => ?_, sorted.filter _⟩, fun a ha b hb => ?_⟩
    · exact of_decide_eq_true (List.mem_filter.1 hq).2
    · have below : a < p := of_decide_eq_true (List.mem_filter.1 ha).2
      rcases List.mem_cons.1 hb with rfl | hb
      · exact below
      · exact below.trans (of_decide_eq_true (List.mem_filter.1 hb).2)
  · rw [s.powerOn_verified p hf, kept.fabric, State.withImage]
    simp
  · have runs := ((s.packageReset p).withImage p).startAll_runs (mem_packageControls p hn)
    rw [State.startVector_withImage _ p hn, flash, ← s.powerOn_verified p hf] at runs
    refine ⟨fun nz => ⟨by rw [runs.1, if_neg nz], runs.2⟩, fun z => by rw [runs.1, if_pos z]⟩

theorem State.coreAt_withBoot (s : State) (image : Tbl (List Byte)) (failed : List Nat) (u : Nat) :
    State.coreAt { s with image := image, bootFailed := failed } u = s.coreAt u := rfl

/-- A package whose image does not verify stays still and is reported (R468). -/
theorem powerOn_failed (p : Nat) (hf : flashVerifies (Tbl.getD s.flash p []) = false) :
    Tbl.get? (s.powerOn p).image p = none ∧ (s.powerOn p).bootFailed = s.bootFailed ++ [p] ∧
      ∀ d k, d < 32 → k < 128 → ((s.powerOn p).coreAt ((p * 32 + d) * 128 + k)).run = .idle := by
  rw [s.powerOn_unverified p hf]
  refine ⟨Tbl.get?_del_same _ _, rfl, fun d k hd hk => ?_⟩
  have still := s.coreAt_packageReset p (u := (p * 32 + d) * 128 + k) (by unfold dieOf; omega)
  rw [State.coreAt_withBoot, still]
  rfl

theorem exec_dieReset (hd : dieExists s.ev.u = true) : exec .dieReset s = .next (s.resetDie s.ev.u) := by
  simp [exec, execDieReset, atDie, happen, hd]

/-- A control core that reloads from a verified image (R473). -/
theorem exec_firmwareUpdate (hu : unitExists s.ev.u = true) (hc : isControl s.ev.u = true) (on : s.online s.ev.u = true)
    (level : (s.coreAt s.ev.u).tlevel = 0) (hf : flashVerifies (Tbl.getD s.flash (s.ev.u / 4096) []) = true) :
    exec .firmwareUpdate s =
      .next (State.startControl { s with coreImage := Tbl.set s.coreImage s.ev.u (imageOf (Tbl.getD s.flash (s.ev.u / 4096) [])) } s.ev.u) := by
  simp [exec, execFirmwareUpdate, atUnit, happen, hu, hc, on, level, hf]

theorem exec_firmwareUpdate_failed (hu : unitExists s.ev.u = true) (hf : flashVerifies (Tbl.getD s.flash (s.ev.u / 4096) []) = false) :
    exec .firmwareUpdate s = .next s := by
  simp [exec, execFirmwareUpdate, atUnit, happen, hu, hf]

/-- The start vector of a control core that has its own image. -/
theorem startVector_updated {u : Nat} (hc : isControl u = true) (f : List Byte) :
    State.startVector { s with coreImage := Tbl.set s.coreImage u (imageOf f) } u = vectorOf f (u / 128 % 32 * 2 + (u % 128 - 72)) := by
  have place : u / 128 % 32 * 2 + (u % 128 - 72) < 64 := by
    have := of_decide_eq_true hc
    omega
  rw [State.startVector, Tbl.getD_set_same, ← vector_imageOf f place, dieOf, Nat.mul_comm 2]

/-! ## Sparing and what goes offline -/

theorem exec_rowSparing (hd : dieExists s.ev.u = true) : exec .rowSparing s = .next (s.spareRow s.ev.u s.ev.k) := by
  simp [exec, execRowSparing, atDie, happen, hd]

/-- The copy of a row ends: the row is spared, and the requests that waited take effect (R473). -/
theorem spareRow_ends {d row r : Nat} (hr : (s.dieAt d).sparing = some r)
    (free : ∀ x ∈ (s.dieAt d).replWait, ∀ k ∈ x.dies, k ≠ d → (s.dieAt k).sparing = none) :
    s.spareRow d row = { s.updDie d fun x => { x with sparing := none, replWait := [] } with
      spared := s.spared ++ [(d, r)], replace := s.replace ++ (s.dieAt d).replWait } := by
  unfold State.spareRow
  rw [hr]
  dsimp only
  rw [State.placeReplace_all]
  · rfl
  · intro x hx k hk
    rw [State.dieAt_updDie]
    split
    · rfl
    · next ne => exact free x hx k hk ne

theorem exec_thermalTrip (hd : dieExists s.ev.u = true) (on : (s.dieAt s.ev.u).offline = false) :
    exec .thermalTrip s = .next (s.dieOffline s.ev.u) := by
  simp [exec, execThermalTrip, atDie, happen, hd, on]

/-- A die that goes offline asks for its replacement (R471). -/
theorem dieOffline_leaves (d : Nat) : ((s.dieOffline d).dieAt d).offline = true ∧ ((s.dieOffline d).dieAt d).replreq = true ∧
    ((s.dieAt d).sparing = none → .die d ∈ (s.dieOffline d).replace) := by
  obtain ⟨replace, offline, replreq⟩ := s.dieOffline_service d
  obtain ⟨l, requested⟩ := (s.updDie d fun x => { x with offline := true }).dieAt_requestReplace (.die d) d
  rw [State.dieAt_updDie_same] at requested
  refine ⟨by rw [offline, requested], ?_, fun free => ?_⟩
  · rw [replreq, requested]
    simp [HwUnit.dies]
  · rw [replace]
    refine State.requestReplace_now _ fun k hk => ?_
    rw [List.mem_singleton.1 hk, State.dieAt_updDie_same]
    exact free

theorem exec_stackSparesExhausted (hd : dieExists s.ev.u = true) (on : s.ev.u ∉ s.offlineStacks) :
    exec .stackSparesExhausted s = .next (s.stackOffline s.ev.u) := by
  simp [exec, execStackSparesExhausted, atDie, happen, hd, on]

/-- A stack that goes offline, with its replace request (R471). -/
theorem stackOffline_leaves (d : Nat) :
    (s.stackOffline d).offlineStacks = s.offlineStacks ++ [d] ∧ ((s.stackOffline d).dieAt d).replreq = true ∧
    ((s.dieAt d).sparing = none → .stack d ∈ (s.stackOffline d).replace) := by
  unfold State.stackOffline State.stackAborts
  dsimp only
  rw [State.abortInsts_frame]
  refine ⟨by rw [State.requestReplace_frame], ?_, fun free => ?_⟩
  · obtain ⟨l, requested⟩ := State.dieAt_requestReplace _ (.stack d) d
    rw [requested]
    simp [HwUnit.dies]
  · refine State.requestReplace_now _ fun k hk => ?_
    rw [List.mem_singleton.1 hk]
    exact free

theorem exec_linkRetryLimit (hl : linkExists s.ev.u = true) (on : s.ev.u ∉ s.offlineLinks) (fails : 16 ≤ Tbl.getD s.retries s.ev.u 0) :
    exec .linkRetryLimit s = .next (s.linkOffline s.ev.u) := by
  simp [exec, execLinkRetryLimit, happen, hl, on, fails]

/-- The link is in the list of those offline, and its dies have logged the error: the state in which its replacement is asked for. -/
def State.linkLost (s : State) (l : Nat) : State :=
  (linkDies l).foldl (fun (s : State) d => s.updDie d fun x => { x with eclass := linkClass l }) { s with offlineLinks := s.offlineLinks ++ [l] }

theorem State.dieAt_linkOffline (l d : Nat) : (s.linkOffline l).dieAt d = ((s.linkLost l).requestReplace (.link l)).dieAt d := by
  unfold State.linkOffline
  dsimp only
  rw [State.dieAt_abortInsts]
  rfl

/-- A link that goes offline is reported at each of its dies (R470, R471). -/
theorem linkOffline_leaves (l : Nat) : (s.linkOffline l).cores = s.cores ∧ (s.linkOffline l).offlineLinks = s.offlineLinks ++ [l] ∧
    ∀ d ∈ linkDies l, ((s.linkOffline l).dieAt d).eclass = linkClass l ∧ ((s.linkOffline l).dieAt d).replreq = true := by
  refine ⟨?_, ?_, fun d hd => ?_⟩
  · unfold State.linkOffline
    dsimp only
    rw [State.abortInsts_frame, State.requestReplace_frame, State.updDies_frame]
  · unfold State.linkOffline
    dsimp only
    rw [State.abortInsts_frame, State.requestReplace_frame, State.updDies_frame]
  · obtain ⟨w, requested⟩ := (s.linkLost l).dieAt_requestReplace (.link l) d
    rw [s.dieAt_linkOffline, requested, State.linkLost,
      State.dieAt_updDies (f := fun x => { x with eclass := linkClass l }) (hf := fun _ => rfl), if_pos hd]
    simp [HwUnit.dies, hd]

end Sys2Proof.Machine
end


section
set_option Elab.async false
/-! OBLIGATION O54. -/

namespace Sys2Proof.Machine

variable {s : State}

/-- A good frame for the port (R467). -/
theorem frameReceive_accepted (hp : s.ev.u < 8) (good : s.ev.flag = true) (h1 : 60 ≤ s.ev.bytes.length) (h2 : s.ev.bytes.length ≤ 9212)
    (on : (s.eth s.ev.u).rxCfg.getLsbD 8 = true) (ours : (s.eth s.ev.u).accepts (s.ev.bytes.take 6) = true) :
    let p := s.ev.u
    let e := s.eth p
    let bs := s.ev.bytes
    let a := ringEntry e.rxBase e.rxCfg e.rxHead
    (e.rxHead = e.rxTail → exec .frameReceive s = .next (s.updEth p fun e => { e with noDesc := min 0xFFFF (e.noDesc + 1) })) ∧
    (e.rxHead ≠ e.rxTail → ∀ w, s.engineRead (4 * p) 4 a 16 = .ok w →
      (leNat (w.drop 8) % 65536 < bs.length → exec .frameReceive s = .next (s.updEth p fun e => { e with tooBig := min 0xFFFF (e.tooBig + 1) })) ∧
      (bs.length ≤ leNat (w.drop 8) % 65536 → ∀ t1 t2 : State, s.engineWrite (4 * p) 4 (leNat (w.take 8) % 2 ^ 56) bs = .ok t1 →
        t1.engineWrite (4 * p) 4 (a + 8) (toBytes 8 (2 ^ 63 + bs.length * 2 ^ 16 + leNat (w.drop 8) % 65536)) = .ok t2 →
        ∃ t, exec .frameReceive s = .next t ∧ t.mem = t2.mem ∧ t.eth p = { e with rxHead := (e.rxHead + 1) % 2 ^ 32 } ∧ EthNoted t p)) ∧
    (e.rxHead ≠ e.rxTail → ∀ x, s.engineRead (4 * p) 4 a 16 = .error x → ∃ t, exec .frameReceive s = .next t ∧ t.mem = s.mem ∧
      (t.eth p).faultV = true ∧ (t.eth p).faultA = x.2 % 2 ^ 56 ∧ (t.eth p).rxCfg.getLsbD 8 = false ∧
        (t.eth p).rxHead = e.rxHead ∧ EthNoted t p) := by
  dsimp only
  rw [frameReceive_taken hp good h1 h2 on ours]
  refine ⟨fun full => by rw [takeFrame_noDesc full],
    fun more w hw => ⟨fun big => by rw [takeFrame_tooBig more hw big], fun fits t1 t2 w1 w2 => ?_⟩,
    fun more x hx => ?_⟩
  · rw [takeFrame_taken more hw fits w1 w2]
    refine ⟨_, rfl, rfl, ?_, State.ethIrq_noted _ _⟩
    rw [State.eth_ethIrq, State.eth_updEth, t1.engineWrite_eth w2, s.engineWrite_eth w1]
  · rw [takeFrame_fault more hx]
    refine ⟨_, rfl, rfl, ?_, ?_, ?_, ?_, State.ethFault_noted _ _ _ _⟩ <;> rw [State.eth_ethFault]
    exact ringOff_disabled _

/-- A frame or a refusal at the head of the transmit ring (R467). -/
theorem frameTransmit_leaves (hp : s.ev.u < 8) :
    let p := s.ev.u
    let e := s.eth p
    let o := ringEntry e.txBase e.txCfg e.txHead
    e.txCfg.getLsbD 8 = true → e.txHead ≠ e.txTail → ∀ w, s.engineRead (4 * p) 4 o 16 = .ok w →
      let len := leNat (w.drop 8) % 2 ^ 14
      let batch := leNat (w.drop 8) / 2 ^ 62 % 2
      (∀ f, ∀ t1 : State, txLegal w → s.engineRead (4 * p) 4 (leNat (w.take 8)) len = .ok f →
        s.engineWrite (4 * p) 4 (o + 8) (toBytes 8 (2 ^ 63 + batch * 2 ^ 62 + len)) = .ok t1 →
        ∃ t, exec .frameTransmit s = .next t ∧ t.mem = t1.mem ∧ (batch = 1 → EthNoted t p) ∧
          t.eth p = { e with
            txHead := (e.txHead + 1) % 2 ^ 32, sent := e.sent ++ [let g := f ++ List.replicate (60 - len) 0; g ++ frameCheck g] }) ∧
      (∀ t1 : State, ¬txLegal w →
        s.engineWrite (4 * p) 4 (o + 8) (toBytes 8 (leNat (w.drop 8) % 2 ^ 61 + 2 ^ 63 + batch * 2 ^ 62 + 2 ^ 61)) = .ok t1 →
        ∃ t, exec .frameTransmit s = .next t ∧ t.mem = t1.mem ∧ t.eth p = { e with txHead := (e.txHead + 1) % 2 ^ 32 } ∧
          (batch = 1 → EthNoted t p)) := by
  intro p e o on more w hw
  rw [exec_frameTransmit hp on more]
  refine ⟨fun f t1 legal read written => ?_, fun t1 illegal written => ?_⟩
  · have completed : State.engineWrite (s.updEth p fun e => e.send (txPadded w f)) (portDie p) 4 (o + 8)
        (toBytes 8 (leNat (w.drop 8) % 2 ^ 61 + leNat (w.drop 8) / 2 ^ 62 % 2 * 2 ^ 62 + false.toNat * 2 ^ 61 + 2 ^ 63)) =
          .ok (t1.updEth p fun e => e.send (txPadded w f)) := by
      rw [State.engineWrite_updEth, legal_word legal.2.1]
      exact congrArg (Except.map _) written
    obtain ⟨mem, eth, batch⟩ := completeTx_written completed
    rw [sendFrame_sent hw legal read]
    refine ⟨_, rfl, mem, batch, eth.trans ?_⟩
    rw [State.eth_updEth]
    rfl
  · rw [← refused_word] at written
    obtain ⟨mem, eth, batch⟩ := completeTx_written written
    rw [sendFrame_refused hw illegal]
    exact ⟨_, rfl, mem, eth, batch⟩

/-- A request of the host through the window (R465). -/
theorem hostBar2Access_leaves (hp : s.ev.u < 768) :
    let pa := bits (s.dieAt (s.ev.u * 32)).hwin 51 0 + s.ev.k
    let n := if s.ev.flag then s.ev.bytes.length else s.ev.m
    let reached : Prop := s.barReach s.ev.u s.ev.k n = true
    (reached → s.ev.flag = true → s.memOk = true → ∃ t, exec .hostBar2Access s = .next t ∧
      t = { s with mem := t.mem } ∧ SameOutside s t pa n ∧
      ∀ k, k < n → Memory.read t.mem (pa + k) = s.ev.bytes.getD k 0) ∧
    (reached → s.ev.flag = false → (∀ k, k < n → s.poisoned (pa + k) = false) → ∃ bs, exec .hostBar2Access s =
        .next { s with hostReads := s.hostReads ++ [some bs], free := s.free + n } ∧ bs.length = n ∧
        ∀ k, k < n → bs.getD k 0 = Memory.read s.mem (pa + k)) ∧
    (¬reached → exec .hostBar2Access s = .next (if s.ev.flag then s else { s with hostReads := s.hostReads ++ [none] })) := by
  intro pa n reached
  rw [exec_hostBar2Access hp]
  refine ⟨fun hr wr ok => ?_, fun hr rd clean => ?_, fun hr => ?_⟩
  · have hn : n = s.ev.bytes.length := if_pos wr
    have hb : s.barReach s.ev.u s.ev.k s.ev.bytes.length = true := hn ▸ hr
    rw [wr, hostAccess_write hb, hn]
    exact ⟨_, rfl, rfl, writeMem_sameOutside ok pa, fun k hk => read_writeMem ok pa hk⟩
  · have hn : n = s.ev.m := if_neg (by simp [rd])
    have hb : s.barReach s.ev.u s.ev.k s.ev.m = true := hn ▸ hr
    rw [rd, hostAccess_read hb, hn]
    refine ⟨_, rfl, by simp, fun k hk => ?_⟩
    have byte : s.hostByte pa k = Memory.read s.mem (pa + k) := by
      rw [State.hostByte, clean k (by omega)]
      simp
    rw [← byte]
    simp [hk, pa]
  · rw [hostAccess_unreached (by simpa [reached, n] using hr)]

/-- Settles O54, clause by clause: frames, the host port, power-on, the reset and the service of a die, a control core's update, links. -/
theorem framesHostAndService : Obligations.FramesHostAndService := by
  unfold Obligations.FramesHostAndService
  refine ⟨?frames, ?host, ?power, ?die, ?update, ?link⟩
  case frames =>
    intro s p e bs known a o hp
    refine ⟨fun bad => ?_, fun good h1 h2 => ⟨frameReceive_ignored hp good h1 h2, fun on ours => ?_⟩, frameTransmit_leaves hp⟩
    · rw [exec_frameReceive hp, receiveFrame_bad bad]
    · exact frameReceive_accepted hp good h1 h2 on (EthPort.accepts_known (Nat.le_trans (by decide) h1) ours)
  case host =>
    intro s hp pa n reached
    have same : reached ↔ s.barReach s.ev.u s.ev.k n = true := barReach_iff.symm
    rw [same]
    exact hostBar2Access_leaves hp
  case power =>
    intro s hp f
    exact ⟨_, exec_powerOnReset hp, s.powerOn_mem _, powerOn_started _, powerOn_failed _⟩
  case die =>
    intro s hd
    refine ⟨⟨_, exec_dieReset hd, s.resetDie_mem _, fun k hk => s.coreAt_resetDie _ _ (.inl ?_), ?_, fun d ne => ?_⟩,
      fun f hf nonce => ?_, fun r idle hr => ?_,
      fun r copying free => ⟨_, exec_rowSparing hd, s.spareRow_mem _ _, ?_⟩, fun on _ => ⟨_, exec_thermalTrip hd on, s.dieOffline_mem _, ?_⟩,
      fun on => ⟨_, exec_stackSparesExhausted hd on, s.stackOffline_mem _, stackOffline_leaves _⟩⟩
    · unfold dieOf
      omega
    · rw [s.dieAt_resetDie, if_pos rfl]
    · rw [s.dieAt_resetDie, if_neg ne]
    · simp [exec, execAttestationRequest, atDie, happen, hd, hf, nonce]
    · rw [exec_rowSparing hd, State.spareRow, idle, hr]
    · rw [spareRow_ends copying free]
      exact ⟨rfl, by simp, rfl, s.dieAt_updDie_same s.ev.u fun x => { x with sparing := none, replWait := [] }⟩
    · obtain ⟨offline, replreq, replace⟩ := dieOffline_leaves (s := s) s.ev.u
      refine ⟨offline, replreq, replace, fun k hk => State.online_of_offline _ ?_⟩
      rw [show dieOf (s.ev.u * 128 + k) = s.ev.u by unfold dieOf; omega]
      exact offline
  case update =>
    intro s hu hc on level f
    refine ⟨exec_firmwareUpdate_failed hu, fun hf => ⟨_, exec_firmwareUpdate hu hc on level hf, rfl, rfl, Tbl.get?_set_same _ _ _,
      fun u ne => Tbl.get?_set_ne _ _ ne, fun u ne => State.coreAt_updAt_ne _ _ ne, fun started => ?_⟩⟩
    have runs := State.startControl_runs { s with coreImage := Tbl.set s.coreImage s.ev.u (imageOf f) } s.ev.u
    rw [startVector_updated hc, if_neg started] at runs
    exact runs
  case link =>
    intro s l fails hl
    refine ⟨by simp [exec, execLaneRetrain, happen], fun on few => ?_,
      fun on many => ⟨_, exec_linkRetryLimit hl on many, s.linkOffline_mem _, linkOffline_leaves _⟩, fun few => ?_⟩
    · simp only [l] at on
      simp [exec, execFlitRetry, happen, hl, on, few, l, fails]
    · simp [exec, execLinkRetryLimit, happen, few, l, fails]

end Sys2Proof.Machine
end


section
set_option Elab.async false
/-! SUPPORT. What is left to do after a unit's group, through the operations of a core: none of them adds to it. -/

namespace Sys2Proof.Machine

theorem Core.foldl_after {α : Type} {f : Core → α → Core} (hf : ∀ c a, (f c a).after = c.after) (l : List α) (c : Core) :
    (l.foldl f c).after = c.after := by
  induction l generalizing c with
  | nil => rfl
  | cons a l ih => exact (ih _).trans (hf c a)

theorem Core.foldr_after {α : Type} {f : α → Core → Core} (hf : ∀ a c, (f a c).after = c.after) (l : List α) (c : Core) :
    (l.foldr f c).after = c.after := by
  induction l with
  | nil => rfl
  | cons a l ih => exact (hf a _).trans ih

variable (c : Core)

@[simp] theorem Core.after_ite (p : Prop) [Decidable p] (a b : Core) : (if p then a else b).after = if p then a.after else b.after := by
  split <;> rfl

/-! ## Counters and the trace -/

@[simp] theorem Core.count_after (ev k : Nat) : (c.count ev k).after = c.after := by
  unfold Core.count
  split
  · rfl
  · exact Core.foldl_after (fun c n => by split <;> rfl) _ _

@[simp] theorem Core.traceBytes_after (bs : List Byte) : (c.traceBytes bs).after = c.after := by
  unfold Core.traceBytes
  split <;> rfl

@[simp] theorem Core.flushAtoms_after : c.flushAtoms.after = c.after := by
  unfold Core.flushAtoms
  split
  · rfl
  · exact c.traceBytes_after _

@[simp] theorem Core.sync_after (cycle : Nat) : (c.sync cycle).after = c.after := by simp [Core.sync]

@[simp] theorem Core.packet_after (cycle : Nat) (bs : List Byte) : (c.packet cycle bs).after = c.after := by simp [Core.packet]

@[simp] theorem Core.traceTrap_after (cycle level cause ckpt entry : Nat) : (c.traceTrap cycle level cause ckpt entry).after = c.after :=
  c.packet_after _ _

/-! ## Results, tags and checkpoints -/

@[simp] theorem Core.setTag_after (j : Nat) (t : Tag) : (c.setTag j t).after = c.after := rfl

@[simp] theorem Core.freeTags_after : c.freeTags.after = c.after := Core.foldl_after (fun c j => by simp) _ _

@[simp] theorem Core.arrive_after (now : Nat) : (c.arrive now).after = c.after := (c.settlePipe now).freeTags_after

@[simp] theorem Core.setSlot_after (n : Nat) (x : OpSlot) : (c.setSlot n x).after = c.after := rfl

@[simp] theorem Core.tryRelease_after (n : Nat) : (c.tryRelease n).after = c.after := by
  unfold Core.tryRelease
  dsimp only
  split <;> rfl

theorem Core.releases_after (l : List Nat) : (l.foldl Core.tryRelease c).after = c.after := Core.foldl_after Core.tryRelease_after l c

@[simp] theorem Core.releasePoint_after : c.releasePoint.after = c.after := Core.foldl_after (fun c n => by simp) _ _

@[simp] theorem Core.performFrees_after : c.performFrees.after = c.after := Core.foldl_after (f := Core.freeRegion) (fun _ _ => rfl) _ _

@[simp] theorem Core.checkpoint_after (r : Regs) (a : Nat) : (c.checkpoint r a).after = c.after := by simp [Core.checkpoint]

@[simp] theorem Core.discardWithheld_after : c.discardWithheld.after = c.after :=
  Core.foldr_after (fun e c => by
    split
    · rfl
    · split
      · split <;> rfl
      · rfl
      · rfl) _ _

@[simp] theorem Core.rollback_after : c.rollback.after = c.after := by simp [Core.rollback, Core.restoreShadow]

/-! ## The end of a task, traps -/

@[simp] theorem Core.abort_after (kind : Nat) (dest : Run) : (c.abort kind dest).after = [] := rfl

@[simp] theorem Core.freeTask_after (id : Nat) : (c.freeTask id).after = c.after := Core.foldl_after (fun c n => by simp) _ _

@[simp] theorem Core.request_after (k : Nat) : (c.request k).after = c.after := by simp [Core.request]

theorem Core.stopCtx_after {c : Core} (h : c.after = []) (ctx : Nat) : (c.stopCtx ctx).after = [] := by
  unfold Core.stopCtx
  dsimp only
  generalize hk : List.foldl _ _ _ = k
  have kept : k.after = [] := by
    subst hk
    exact (Core.foldl_after (by intros; rfl) _ _).trans (by simp [h])
  split
  · exact kept
  · simp [kept]

@[simp] theorem Core.record_after (cause : Nat) (info : DWord) (ckpt opid : Nat) (handle : Option Nat) (done level : Nat) :
    (c.record cause info ckpt opid handle done level).after = c.after := rfl

@[simp] theorem Core.enter_after (rs : RetState) (vec : Nat) : (c.enter rs vec).after = [] := rfl

/-! ## The scratchpad and the matrix engine -/

theorem Core.spadPuts_after (bs : Tbl Byte) : (bs.foldl (fun c b => c.spadPut b.1 b.2) c).after = c.after :=
  Core.foldl_after (by intros; rfl) bs c

@[simp] theorem Core.bankThese_after (l : List Nat) : (c.bankThese l).after = c.after := by
  unfold Core.bankThese
  exact Core.foldl_after (fun c (w : Nat × Tbl Byte) => c.spadPuts_after w.2) _ c

@[simp] theorem Core.haveRead_after (free : Nat) (us : List (Nat × List Nat)) : (c.haveRead free us).after = c.after := by simp [Core.haveRead]

@[simp] theorem Core.logUninit_after (ws : List Nat) : (c.logUninit ws).after = c.after := by
  unfold Core.logUninit
  split <;> rfl

@[simp] theorem Core.fillRead_after (f : Fill) (free : Nat) (us : List (Nat × List Nat)) : (c.fillRead f free us).after = c.after :=
  c.haveRead_after _ _

@[simp] theorem Core.fillFault_after (n cause : Nat) : (c.fillFault n cause).after = c.after := rfl

@[simp] theorem Core.fillWith_after (f : Fill) (b : Int) (rd : Nat → Int → Nat) : (c.fillWith f b rd).after = c.after := rfl

@[simp] theorem Core.endFill_after (f : Fill) (free : Nat) : (c.endFill f free).after = c.after := by
  unfold Core.endFill
  dsimp only
  split
  · simp
  · split <;> simp

@[simp] theorem Core.setLive_after (t : Nat) (b pre : Bool) : (c.setLive t b pre).after = c.after := rfl

@[simp] theorem Core.putTile_after (t : Nat) (row : Nat → VReg) (pre : Bool) : (c.putTile t row pre).after = c.after := rfl

@[simp] theorem Core.deliver_after (now id val : Nat) : (c.deliver now id val).after = c.after := by
  unfold Core.deliver
  split
  · rfl
  · split <;> rfl

@[simp] theorem Core.moveLine_after (now : Nat) (e : MxEnt) : (c.moveLine now e).after = c.after := by
  unfold Core.moveLine
  split
  · exact c.deliver_after _ _ _
  · rfl
  · rfl

theorem settleLines_after (now : Nat) (done : List MxEnt) (busy : List Nat) (l : List MxEnt) (c : Core) :
    (settleLines now done busy l c).after = c.after := by
  induction l generalizing done busy c with
  | nil => rfl
  | cons e t ih =>
    unfold settleLines
    split
    · exact (ih _ _ _).trans (c.moveLine_after _ _)
    · exact ih _ _ _

@[simp] theorem Core.settleTiles_after (now : Nat) : (c.settleTiles now).after = c.after := settleLines_after _ _ _ _ _

@[simp] theorem Core.writeTile_after (e : MxEnt) : (c.writeTile e).after = c.after := by
  unfold Core.writeTile
  split <;> simp

@[simp] theorem Core.endMx_after (now : Nat) (e : MxEnt) : (c.endMx now e).after = c.after := by
  simp [Core.endMx, Core.releases_after]

@[simp] theorem Core.deliverRow_after (now : Nat) (d : Draining) : (c.deliverRow now d).after = c.after := by
  unfold Core.deliverRow
  split
  · rfl
  · dsimp only
    split <;> simp

@[simp] theorem Core.startMx_after (now : Nat) (e : MxEnt) : (c.startMx now e).after = c.after := by
  unfold Core.startMx
  dsimp only
  cases e.op with
  | fill n => cases c.fills <;> rfl
  | _ => simp

@[simp] theorem Core.nextCycle_after (now : Nat) : (c.nextCycle now).after = c.after := by
  unfold Core.nextCycle
  simp

end Sys2Proof.Machine
end


section
set_option Elab.async false
/-! SUPPORT. A cycle that passes, and a checkpoint, give no unit anything to do after its group: engines that end, start or trap, tasks and
contexts that stop, records that wake. -/

namespace Sys2Proof.Machine

/-- The unit in progress stays the same, and a unit with nothing to do after its group has nothing to do after it. -/
structure AfterKept (s t : State) : Prop where
  cur : t.cur = s.cur
  after : ∀ u, (s.coreAt u).after = [] → (t.coreAt u).after = []

theorem AfterKept.refl (s : State) : AfterKept s s := ⟨rfl, fun _ h => h⟩

theorem AfterKept.trans {s t u : State} (h : AfterKept s t) (g : AfterKept t u) : AfterKept s u :=
  ⟨g.cur.trans h.cur, fun k hk => g.after k (h.after k hk)⟩

theorem AfterKept.foldl {α : Type} {f : State → α → State} (hf : ∀ s a, AfterKept s (f s a)) (l : List α) (s : State) :
    AfterKept s (l.foldl f s) := by
  induction l generalizing s with
  | nil => exact .refl s
  | cons a l ih => exact (hf s a).trans (ih _)

/-- What leaves the cores. -/
theorem AfterKept.of_eq {s t : State} (hu : t.cur = s.cur) (hc : t.cores = s.cores) : AfterKept s t :=
  ⟨hu, fun u h => by rwa [State.coreAt, hc]⟩

theorem AfterKept.core {s t : State} (h : AfterKept s t) (hs : s.core.after = []) : t.core.after = [] := by
  rw [State.core, h.cur]
  exact h.after _ hs

/-- An entry of a table whose entries change in place, with their numbers. -/
theorem Tbl.get?_map {α : Type} {F : Nat × α → Nat × α} (hF : ∀ p, (F p).1 = p.1) (t : Tbl α) (k : Nat) :
    Tbl.get? (t.map F) k = (Tbl.get? t k).map fun v => (F (k, v)).2 := by
  induction t with
  | nil => rfl
  | cons p t ih =>
    obtain ⟨j, v⟩ := p
    have hj : F (j, v) = (j, (F (j, v)).2) := Prod.ext (hF _) rfl
    rw [List.map_cons, hj]
    by_cases e : j = k
    · subst e
      simp [Tbl.get?]
    · simp [Tbl.get?, e, ih]

/-- What changes each core in place. -/
theorem AfterKept.of_map {s t : State} (hu : t.cur = s.cur) {F : Nat × Core → Nat × Core} (hc : t.cores = s.cores.map F)
    (hF : ∀ p, (F p).1 = p.1) (ha : ∀ p, p.2.after = [] → (F p).2.after = []) : AfterKept s t := by
  refine ⟨hu, fun u h => ?_⟩
  rw [State.coreAt, hc, Tbl.getD, Tbl.get?_map hF]
  rw [State.coreAt, Tbl.getD] at h
  cases found : Tbl.get? s.cores u with
  | none => rfl
  | some c =>
    rw [found] at h
    exact ha (u, c) h

theorem State.updAt_afterKept (s : State) {u : Nat} {f : Core → Core} (hf : (s.coreAt u).after = [] → (f (s.coreAt u)).after = []) :
    AfterKept s (s.updAt u f) := by
  refine ⟨rfl, fun k h => ?_⟩
  rw [State.coreAt_updAt]
  split
  · next e => exact hf (e ▸ h)
  · exact h

variable (s : State)

/-! ## Tasks and contexts that stop -/

theorem State.irq_afterKept (u bit : Nat) : AfterKept s (s.irq u bit) := by
  unfold State.irq
  refine AfterKept.trans ?_ (State.updAt_afterKept _ fun h => h)
  exact .of_eq rfl rfl

theorem State.irqDie_afterKept (d bit : Nat) : AfterKept s (s.irqDie d bit) :=
  AfterKept.foldl (f := fun t u => t.irq u bit) (fun s u => s.irq_afterKept u bit) _ s

theorem State.restartPoint_afterKept (d : Nat) (r : Record) : AfterKept s (s.restartPoint d r) := by
  unfold State.restartPoint
  split
  · exact .refl s
  · exact .of_eq rfl rfl

theorem State.reapLeaving_afterKept (u : Nat) : AfterKept s (s.reapLeaving u) :=
  AfterKept.foldl (fun s id => by
    split
    · exact .refl s
    · exact s.updAt_afterKept fun h => by simpa using h) _ _

theorem State.reapResume_afterKept (u : Nat) : AfterKept s (s.reapResume u) := by
  refine (s.reapLeaving_afterKept u).trans (AfterKept.foldl (fun s p => ?_) _ _)
  split
  · split
    · exact .refl s
    · dsimp only
      have freed : AfterKept s (s.updAt u fun c => { c.freeTask p.2.id with resume := Tbl.del c.resume p.1 }) :=
        s.updAt_afterKept fun h => by simpa using h
      split
      · exact freed.trans (State.restartPoint_afterKept _ _ _)
      · exact freed
  · exact .refl s

theorem State.abortInsts_afterKept (q : Inst → Bool) (cause : Nat) (exempt : Option (Nat × Nat)) :
    AfterKept s (s.abortInsts q cause exempt) := by
  rw [s.abortInsts_frame]
  exact .of_eq rfl rfl

theorem State.freeOperGrans_afterKept (d ctx : Nat) (blk : Option Nat) : AfterKept s (s.freeOperGrans d ctx blk) :=
  .of_map rfl rfl (fun p => by split <;> rfl) fun p h => by split <;> exact h

theorem State.dropCtxWork_afterKept (d ctx : Nat) : AfterKept s (s.dropCtxWork d ctx) := by
  unfold State.dropCtxWork
  dsimp only
  refine AfterKept.trans ?_ (AfterKept.foldl (fun s (p : Nat × Core) => s.reapResume_afterKept p.1) _ _)
  refine AfterKept.trans ?_ (State.freeOperGrans_afterKept _ d ctx none)
  refine AfterKept.of_map rfl rfl (fun p => ?_) fun p h => ?_
  · split <;> rfl
  · split
    · exact Core.stopCtx_after h ctx
    · exact h

theorem State.graphFault_afterKept (d ctx code addr opid handle info : Nat) :
    AfterKept s (s.graphFault d ctx code addr opid handle info) := by
  unfold State.graphFault
  dsimp only
  have stopped := (s.dropCtxWork_afterKept d ctx).trans (State.abortInsts_afterKept _
    (fun i => i.members.any fun m => decide (m.u / 128 = d ∧ m.tsid = ctx) && !m.done) 0x05 none)
  split
  · exact stopped.trans (.of_eq rfl rfl)
  · refine AfterKept.trans ?_ (State.irqDie_afterKept _ _ _)
    exact stopped.trans (.of_eq rfl rfl)

theorem State.endByClass_afterKept (u why addr info : Nat) (dest : Run) : AfterKept s (s.endByClass u why addr info dest) := by
  unfold State.endByClass
  split
  · exact s.updAt_afterKept fun h => h
  · have aborted (kind : Nat) : AfterKept s (s.updAt u fun c => c.abort kind dest) := s.updAt_afterKept fun _ => rfl
    split
    · exact aborted 1
    · exact (aborted 2).trans (State.graphFault_afterKept _ _ _ _ _ _ _ _)

theorem State.abandon_afterKept (u cause : Nat) (inPlace byHandler : Bool) : AfterKept s (s.abandon u cause inPlace byHandler) :=
  ((s.updAt_afterKept fun h => h).trans (State.endByClass_afterKept _ _ _ _ _ _)).trans (State.irqDie_afterKept _ _ _)

theorem State.abortPos_afterKept (u k why info : Nat) : AfterKept s (s.abortPos u k why info) := by
  unfold State.abortPos
  split
  · exact .refl s
  split
  · exact .refl s
  split
  · exact (s.updAt_afterKept fun h => h).trans (State.reapResume_afterKept _ _)
  · exact s.graphFault_afterKept _ _ _ _ _ _ _

theorem State.abortResume_afterKept (u info : Nat) : AfterKept s (s.abortResume u info) :=
  AfterKept.foldl (fun s (p : Nat × ResumePos) => s.abortPos_afterKept u p.1 3 info) _ _

/-! ## Traps -/

theorem State.doubleFault_afterKept (u cause : Nat) (info : DWord) : AfterKept s (s.doubleFault u cause info) := by
  unfold State.doubleFault
  dsimp only
  by_cases control : isControl u = true
  · rw [if_pos control, if_pos control]
    refine AfterKept.trans (AfterKept.trans ?_ (State.irq_afterKept _ _ _)) (State.updAt_afterKept _ fun _ => rfl)
    exact s.updAt_afterKept fun h => by simpa using h
  · rw [if_neg control, if_neg control]
    refine AfterKept.trans (AfterKept.trans (AfterKept.trans ?_ (State.irqDie_afterKept _ _ _)) (State.endByClass_afterKept _ _ _ _ _ _))
      (State.abortResume_afterKept _ _ _)
    exact s.updAt_afterKept fun h => by simpa using h

theorem State.planTrap_afterKept (u cause : Nat) (info : DWord) : AfterKept s (s.planTrap u cause info) := by
  unfold State.planTrap
  dsimp only
  split
  · exact s.graphFault_afterKept _ _ _ _ _ _ _
  split <;> exact s.graphFault_afterKept _ _ _ _ _ _ _

theorem State.enterHandler_afterKept (u cause : Nat) (info : DWord) (done vec : Nat) :
    AfterKept s (s.enterHandler u cause info done vec) := by
  unfold State.enterHandler
  exact s.updAt_afterKept fun _ => by simp

theorem State.trapAt_afterKept (u cause : Nat) (info : DWord) (done : Nat) : AfterKept s (s.trapAt u cause info done) := by
  unfold State.trapAt
  dsimp only
  split
  · exact s.planTrap_afterKept _ _ _
  split
  · exact AfterKept.trans (s.updAt_afterKept fun h => by simpa using h) (State.abandon_afterKept _ _ _ _ _)
  split
  · exact s.doubleFault_afterKept _ _ _
  · exact s.enterHandler_afterKept _ _ _ _ _

/-! ## The matrix engine -/

theorem State.wake_afterKept (u : Nat) : AfterKept s (s.wake u) := by
  unfold State.wake
  exact s.updAt_afterKept fun h => h

theorem fillEnds_afterKept (u : Nat) (f : Fill) : AfterKept s (fillEnds s u f) := by
  unfold fillEnds
  refine AfterKept.trans (AfterKept.trans ?_ (State.updAt_afterKept _ fun h => by simpa using h)) (State.wake_afterKept _ u)
  exact .of_eq rfl rfl

theorem mmaRecheck_afterKept (u : Nat) (e : MxEnt) : AfterKept s (mmaRecheck s u e) := by
  unfold mmaRecheck
  dsimp only
  split
  · split
    · exact AfterKept.trans (s.updAt_afterKept fun h => h) (State.trapAt_afterKept _ _ _ _ _)
    · exact s.updAt_afterKept fun h => h
  · exact .refl s

theorem State.engineAct_afterKept {t : State} {u : Nat} (h : s.engineAct u = some t) : AfterKept s t := by
  unfold State.engineAct at h
  dsimp only at h
  split at h
  · cases h
    exact fillEnds_afterKept s u _
  split at h
  · cases h
    exact mmaRecheck_afterKept s u _
  split at h
  · cases h
    exact AfterKept.trans (s.updAt_afterKept fun h => by simpa using h) (State.wake_afterKept _ u)
  split at h
  · cases h
    exact s.updAt_afterKept fun h => by simpa using h
  · obtain ⟨e, -, rfl⟩ := Option.map_eq_some_iff.1 h
    exact s.updAt_afterKept fun h => by simpa using h

theorem State.engineActs_afterKept (u n : Nat) : AfterKept s (s.engineActs u n) := by
  induction n generalizing s with
  | zero => exact .refl s
  | succ n ih =>
    unfold State.engineActs
    split
    · next acted => exact (s.engineAct_afterKept acted).trans (ih _)
    · exact .refl s

theorem State.engineDue_afterKept (u : Nat) : AfterKept s (s.engineDue u) := s.engineActs_afterKept u _

/-! ## Cycles and checkpoints -/

theorem State.readyRecords_afterKept (u : Nat) : AfterKept s (s.readyRecords u) := by
  unfold State.readyRecords
  exact (s.wake_afterKept u).trans (State.updAt_afterKept _ fun h => h)

theorem coresNextCycle_afterKept :
    AfterKept s { s with now := s.now + 1, cores := Tbl.mapV (fun (c : Core) => c.nextCycle (s.now + 1)) s.cores } :=
  .of_map rfl rfl (fun _ => rfl) fun p h => by simpa using h

theorem State.oneCycle_afterKept : AfterKept s s.oneCycle := by
  unfold State.oneCycle
  dsimp only
  exact ((AfterKept.foldl (fun s (p : Nat × Core) => s.engineDue_afterKept p.1) _ _).trans (coresNextCycle_afterKept _)).trans
    (AfterKept.foldl (fun s (p : Nat × Core) => s.readyRecords_afterKept p.1) _ _)

theorem State.advance_afterKept (n : Nat) : AfterKept s (s.advance n) := by
  induction n generalizing s with
  | zero => exact .refl s
  | succ n ih => exact s.oneCycle_afterKept.trans (ih _)

theorem State.nextCycle_afterKept : AfterKept s s.nextCycle := by
  unfold State.nextCycle
  exact (s.advance_afterKept 1).trans (State.updAt_afterKept _ fun h => by simpa using h)

theorem State.ckBefore_afterKept (ev : Nat) : AfterKept s (s.ckBefore ev) := by
  unfold State.ckBefore
  exact s.updAt_afterKept fun h => by simpa using h

theorem State.groupCheckpoint_afterKept {s t : State} {g : List Bundle} {is : List Instr} {must forced : Bool}
    (h : s.groupCheckpoint g is must forced = some t) : AfterKept s t := by
  unfold State.groupCheckpoint at h
  dsimp only at h
  split at h
  · cases h
    exact .refl s
  split at h
  · cases h
    exact s.updAt_afterKept fun h => h
  split at h
  · cases h
  · cases h
    exact ((s.ckBefore_afterKept _).trans (State.updAt_afterKept _ fun h => h)).trans (State.nextCycle_afterKept _)

end Sys2Proof.Machine
end


section
set_option Elab.async false
/-! SUPPORT. The group of one explicit slot: how its bundle is fetched, read, decoded and issued (R69 to R77, R435). -/

namespace Sys2Proof.Machine

/-! ## The bytes of a bundle -/

@[simp] theorem length_toBytes (n x : Nat) : (toBytes n x).length = n := by
  induction n generalizing x with
  | zero => rfl
  | succ n ih => simp [toBytes, ih]

theorem leNat_toBytes (n x : Nat) : leNat (toBytes n x) = x % 256 ^ n := by
  induction n generalizing x with
  | zero => simp [toBytes, leNat, Nat.mod_one]
  | succ n ih => rw [toBytes, leNat, ih, BitVec.toNat_ofNat, pow_succ' 256 n, Nat.mod_mul]

/-- The number whose bytes stand first. -/
theorem leNat_take_toBytes {n x : Nat} (hx : x < 256 ^ n) (l : List Byte) : leNat ((toBytes n x ++ l).take n) = x := by
  rw [List.take_left' (length_toBytes n x), leNat_toBytes, Nat.mod_eq_of_lt hx]

theorem drop_toBytes (n x : Nat) (l : List Byte) : (toBytes n x ++ l).drop n = l := List.drop_left' (length_toBytes n x)

/-- The fields of the header of a bundle with ST = 1 and one explicit slot (R69, R71). -/
theorem soloHeader_fields : ∀ n, n < 8 →
    0xA0100000 + 2 ^ n < 256 ^ 4 ∧ (0xA0100000 + 2 ^ n) % 256 = 2 ^ n ∧ (0xA0100000 + 2 ^ n) / 256 % 256 = 0 ∧
    (0xA0100000 + 2 ^ n) / 2 ^ 16 % 16 = 0 ∧ (0xA0100000 + 2 ^ n) / 2 ^ 28 = 0xA ∧ (0xA0100000 + 2 ^ n) / 2 ^ 22 % 64 = 0 ∧
    maskBit (0xA0100000 + 2 ^ n) 21 = false ∧ maskBit (0xA0100000 + 2 ^ n) 20 = true := by
  decide +kernel

/-- The one slot of the mask 2^n. -/
theorem slots_of_mask : ∀ n, n < 8 → (List.range 8).filter (fun i => maskBit (2 ^ n) i) = [n] := by
  decide +kernel

theorem maskBit_zero (i : Nat) : maskBit 0 i = false := by simp [maskBit]

variable {n : Nat} {w : BitVec 64}

theorem readWords_solo (hw : w.toNat < 256 ^ (slotClass false n).bytes) (more : List Byte) :
    readWords false [n] (toBytes (slotClass false n).bytes w.toNat ++ more) = some ([⟨n, w, 0, 0⟩], more) := by
  simp [readWords, leNat_toBytes, Nat.mod_eq_of_lt hw]

theorem readLits_solo (hl : (slotClass false n).lits (w.toNat / 2 ^ 24 % 256) = 0) (more : List Byte) :
    readLits false [⟨n, w, 0, 0⟩] more = some ([⟨n, w, 0, 0⟩], more) := by
  have noLits : (slotClass false n).lits (w.toNat >>> 24 % 256) = 0 := by
    rw [Nat.shiftRight_eq_div_pow]
    exact hl
  simp [readLits, noLits]

theorem readBundle_solo (hn : n < 8) (hw : w.toNat < 256 ^ (slotClass false n).bytes)
    (hl : (slotClass false n).lits (w.toNat / 2 ^ 24 % 256) = 0) (more : List Byte) :
    readBundle false (toBytes 4 (0xA0100000 + 2 ^ n) ++ toBytes (slotClass false n).bytes w.toNat ++ more) = .ok (soloBundle n w) := by
  obtain ⟨small, hp, hd, hinc, magic, reserved, ck, st⟩ := soloHeader_fields n hn
  rw [List.append_assoc]
  unfold readBundle
  rw [if_neg (by simp), leNat_take_toBytes small, drop_toBytes]
  dsimp only
  rw [hp, hd, hinc, magic, reserved, ck, st, if_neg (by simp)]
  simp only [maskBit_zero, Bool.not_false, Bool.and_true]
  rw [slots_of_mask n hn, readWords_solo hw]
  dsimp only
  rw [readLits_solo hl]
  simp [soloBundle, sintN]
  omega

theorem readGroup_solo (hn : n < 8) (hw : w.toNat < 256 ^ (slotClass false n).bytes)
    (hl : (slotClass false n).lits (w.toNat / 2 ^ 24 % 256) = 0) (more : List Byte) :
    readGroup false (toBytes 4 (0xA0100000 + 2 ^ n) ++ toBytes (slotClass false n).bytes w.toNat ++ more) = .ok [soloBundle n w] := by
  rw [readGroup, readBundle_solo hn hw hl]
  rfl

variable {s s2 t r : State} {i : Instr}

theorem State.fetchGroup_solo (hp : isPlan s.cur = false) (hn : n < 8) (hw : w.toNat < 256 ^ (slotClass false n).bytes)
    (hl : (slotClass false n).lits (w.toNat / 2 ^ 24 % 256) = 0) {line more : List Byte} (fetched : s.fetchBlock s.core.pc = .ok (line, s2))
    (hb : line.drop (s.core.pc % 64) = toBytes 4 (0xA0100000 + 2 ^ n) ++ toBytes (slotClass false n).bytes w.toNat ++ more) :
    s.fetchGroup = .ok ([soloBundle n w], s2) := by
  unfold State.fetchGroup
  rw [hp, if_neg Bool.false_ne_true]
  dsimp only
  rw [fetched]
  dsimp only
  rw [hb, State.readBlocks, readGroup_solo hn hw hl]

theorem State.fetchBlock_afterKept {va : Nat} {bs : List Byte} (h : s.fetchBlock va = .ok (bs, t)) : AfterKept s t := by
  unfold State.fetchBlock at h
  dsimp only at h
  split at h
  · cases h
    exact .refl s
  split at h
  · split at h
    · cases h
    · cases h
      exact s.updAt_afterKept fun h => h
  split at h
  · cases h
  split at h
  · cases h
  · cases h
    have filled (e : TlbEnt) : AfterKept s (s.tlbFill s.cur e) := by
      unfold State.tlbFill
      exact s.updAt_afterKept fun h => by simpa using h
    exact (filled _).trans (State.updAt_afterKept _ fun h => h)

/-! ## Its decoding -/

theorem bundleSlots_solo (hn : n < 8) (plan : Bool) (latch : Tbl Latch) :
    bundleSlots plan latch (soloBundle n w) = some [⟨n, w, 0, 0⟩] := by
  simp [bundleSlots, soloBundle, slots_of_mask n hn, maskBit_zero]

/-- A control core has no vector and no matrix slot (R70). -/
theorem mask_control : ∀ n, n < 8 → n ≠ 2 ∧ n ≠ 3 → 2 ^ n &&& 0x0C = 0 := by
  decide +kernel

theorem groupSlots_solo (hp : isPlan s.cur = false) (hn : n < 8) (hc : isControl s.cur = true → n ≠ 2 ∧ n ≠ 3) :
    groupSlots s [soloBundle n w] = some [⟨n, w, 0, 0⟩] := by
  have present : (isControl s.cur && (2 ^ n &&& 0x0C != 0)) = false := by
    cases control : isControl s.cur with
    | false => rfl
    | true => simp [mask_control n hn (hc control)]
  have mask : ([soloBundle n w].map fun b => b.p).foldl (· ||| ·) 0 = 2 ^ n := by simp [soloBundle]
  unfold groupSlots
  dsimp only
  rw [mask, present, hp]
  simp [bundleSlots_solo hn]

theorem State.decodeGroup_solo (hp : isPlan s.cur = false) (hn : n < 8) (hc : isControl s.cur = true → n ≠ 2 ∧ n ≠ 3)
    (hi : decodeSlot (slotClass false n) w 0 0 = .ok i) (accepted : guard i (s.upd fun c => { c with slot := n }) = .ok ())
    (distinct : destsClear [.ok i] = true) : s.decodeGroup [soloBundle n w] = .ok [(⟨n, w, 0, 0⟩, i)] := by
  have word : decodeWord (isPlan s.cur) ⟨n, w, 0, 0⟩ = .ok i := by
    rw [hp]
    exact hi
  unfold State.decodeGroup
  rw [groupSlots_solo hp hn hc]
  simp only [List.map_cons, List.map_nil, word, distinct]
  simp [groupCheck, slotCheck, accepted, decAny]

/-! ## Its slots -/

/-- A slot with no fence before it is executed on the state so far; what stops it at once ends the slots. -/
theorem runSlots_exec {gpc : Nat} {g : List Bundle} {x : SlotWord} {l : List (SlotWord × Instr)}
    (h : s.core.after.any After.fences = false ∨ accesses x.slot i = false)
    (executed : exec i (s.upd fun c => { c with slot := x.slot, bpc := bundleAddr gpc g x.slot }) = .next t) :
    runSlots gpc g s ((x, i) :: l) = if stopsHere t.core.sig then .next t else runSlots gpc g t l := by
  have now : (s.core.after.any After.fences && accesses x.slot i) = false := by
    rcases h with h | h <;> simp [h]
  rw [runSlots]
  rw [now, if_neg Bool.false_ne_true, executed]

/-- A slot behind a fence waits for it (log 79). -/
theorem runSlots_later {gpc : Nat} {g : List Bundle} {x : SlotWord} {l : List (SlotWord × Instr)}
    (fenced : s.core.after.any After.fences = true) (access : accesses x.slot i = true)
    (later : runLater s x.slot (bundleAddr gpc g x.slot) i = .next t) :
    runSlots gpc g s ((x, i) :: l) = if stopsHere t.core.sig then .next t else runSlots gpc g t l := by
  rw [runSlots]
  rw [fenced, access, if_pos (Bool.and_self true), later]

theorem runSlots_solo {gpc : Nat} (idle : s.core.after = []) (executed : exec i (s.upd fun c => { c with slot := n, bpc := gpc }) = .next t) :
    runSlots gpc [soloBundle n w] s [(⟨n, w, 0, 0⟩, i)] = .next t := by
  have clear : s.core.after.any After.fences = false := by rw [idle, List.any_nil]
  rw [runSlots_exec (g := [soloBundle n w]) (x := ⟨n, w, 0, 0⟩) (.inl clear) executed]
  split <;> rfl

/-! ## Its issue -/

theorem issueSlots_of_groupRuns {must : Bool} (idle : s.core.after = []) (runs : GroupRuns s n w i must t r) :
    issueSlots s [soloBundle n w] [(⟨n, w, 0, 0⟩, i)] must = .next r := by
  obtain ⟨free, ready, base, taken, stays, inTime, executed, rfl⟩ := runs
  have fills : ((must || once i) && s.mmaFirst [i]) = false := by
    cases h : must || once i with
    | false => rfl
    | true => rw [ready (by simpa using h), Bool.true_and]
  have before : base.core.after = [] := (State.groupCheckpoint_afterKept taken).core idle
  have slots := runSlots_solo (s := { base with groupCore := base.core, groupDie := base.dieAt (dieOf base.cur) }) (w := w) before executed
  unfold issueSlots
  simp only [List.map_cons, List.map_nil, List.any_cons, List.any_nil, Bool.or_false]
  rw [free, fills, Bool.or_false, if_neg Bool.false_ne_true, taken]
  dsimp only
  rw [stays, inTime]
  dsimp only
  rw [slots]
  dsimp only
  cases t.core.sig <;> rfl

/-- A group that reached no device register has issued. -/
theorem issueDecoded_of_groupRuns (idle : s.core.after = []) (runs : GroupRuns s n w i false t r)
    (done : r.core.sig ≠ some .checkpoint ∨ r.core.holding = false) : issueDecoded s [soloBundle n w] [(⟨n, w, 0, 0⟩, i)] = .next r := by
  have settled : (decide (r.core.sig = some .checkpoint) && r.core.holding) = false := by
    rcases done with h | h <;> simp [h]
  rw [issueDecoded, issueSlots_of_groupRuns idle runs]
  dsimp only
  rw [settled, if_neg Bool.false_ne_true]

/-- One that reached a device register issues behind a checkpoint (R275). -/
theorem issueDecoded_retries {t' r' : State} (idle : s.core.after = []) (runs : GroupRuns s n w i false t r)
    (asks : r.core.sig = some .checkpoint) (holds : r.core.holding = true) (again : GroupRuns s n w i true t' r') :
    issueDecoded s [soloBundle n w] [(⟨n, w, 0, 0⟩, i)] = .next r' := by
  rw [issueDecoded, issueSlots_of_groupRuns idle runs]
  dsimp only
  rw [asks, holds, if_pos (by decide), issueSlots_of_groupRuns idle again]

end Sys2Proof.Machine
end


section
set_option Elab.async false
/-! OBLIGATION O58. -/

namespace Sys2Proof.Machine

variable {s s2 t r : State} {rest : List Turn}

/-! ## A group at the unit in progress -/

theorem executeGroup_later {g : List Bundle} (fetched : s.beginGroup.fetchGroup = .ok (g, s2)) (bubble : (s2.placeGroup g).lineBubble = true) :
    executeGroup s = .next (s2.placeGroup g).later := by
  rw [executeGroup, fetched]
  exact if_pos bubble

theorem executeGroup_decoded {g : List Bundle} {ws : List (SlotWord × Instr)} (fetched : s.beginGroup.fetchGroup = .ok (g, s2))
    (straight : (s2.placeGroup g).lineBubble = false)
    (decoded : ((s2.placeGroup g).upd fun c => { c with redirected := false }).decodeGroup g = .ok ws) :
    executeGroup s = issueDecoded ((s2.placeGroup g).upd fun c => { c with redirected := false }) g ws := by
  rw [executeGroup, fetched]
  dsimp only
  rw [straight, if_neg Bool.false_ne_true, decoded]

theorem isPlan_of_core {u : Nat} (h : isCompute u = true ∨ isControl u = true) : isPlan u = false := by
  simp only [isCompute, isControl, decide_eq_true_eq] at h
  simp only [isPlan, decide_eq_false_iff_not]
  omega

/-- A core that runs, with nothing to stop it and nothing left of its last group, issues a group. -/
theorem issueUnit_group {u : Nat} (unit : unitExists u = true) (core : isCompute u = true ∨ isControl u = true)
    (runs : ({ s with cur := u } : State).core.run = .running) {s0 : State}
    (arrived : s0 = ({ s with cur := u } : State).upd fun c => c.arrive s.now) (idle : s0.core.after = []) (goes : s0.core.stopReq = 0)
    (stays : s0.preemptBetween = none) : issueUnit s u = issueGroup s0 := by
  have notCtx : ¬96 ≤ u % 128 := by
    simp only [isCompute, isControl, decide_eq_true_eq] at core
    omega
  have cur : s0.cur = u := by rw [arrived]; rfl
  have builtin : s0.builtinTurn u = none := by
    unfold State.builtinTurn
    dsimp only
    split
    · rw [isPlan_of_core core]
      rfl
    · rfl
  have stop : s0.stopRequested u = none := by
    have at' : (s0.coreAt u).stopReq = 0 := by
      rw [← cur]
      exact goes
    unfold State.stopRequested
    simp [at']
  unfold issueUnit
  dsimp only
  rw [unit, if_neg (by decide), if_neg notCtx, runs]
  dsimp only
  rw [← arrived, builtin, stop, if_neg (not_not_intro idle), stays]

/-- A running context accepts the word at its address (R101). -/
theorem issueUnit_word {d c : Nat} (hd : dieExists d = true) (hc : c < 4)
    (runs : (s.ctxAt d c).st = .running) (goes : (s.ctxAt d c).pre = .none) (stays : (s.ctxAt d c).stopping = false)
    (aligned : (s.ctxAt d c).pc % 8 = 0) {w : BitVec 64} {ts : List (BitVec 64)} {i : Instr}
    (fetched : ({ s with cur := d * 128 + 96 + c } : State).egbWord d c = .ok (w, ts)) (decoded : decodeEgb w ts = some i)
    (refs : wordRefsClear w ts = true) (order : flipComes { s with cur := d * 128 + 96 + c } i = false)
    (executed : exec i { s with cur := d * 128 + 96 + c } = .next t) : issueUnit s (d * 128 + 96 + c) = .next t := by
  have bound : d < 768 * 32 := of_decide_eq_true hd
  have unit : unitExists (d * 128 + 96 + c) = true := by
    simp [unitExists]
    omega
  have die : dieOf (d * 128 + 96 + c) = d := by
    unfold dieOf
    omega
  have ctx : (d * 128 + 96 + c) % 128 - 96 = c := by omega
  unfold issueUnit
  dsimp only
  rw [unit, if_neg (by decide), if_pos (by omega), die, ctx]
  have same : ({ s with cur := d * 128 + 96 + c } : State).ctxAt d c = s.ctxAt d c := rfl
  unfold acceptWord
  dsimp only
  rw [same, if_neg (by simp [runs, goes, stays]), if_neg (not_not_intro aligned), fetched]
  dsimp only
  rw [decoded]
  dsimp only
  rw [order, if_neg Bool.false_ne_true, if_pos refs, executed]

/-- The next turn of the tape is the issue of a unit that may issue now (R474). -/
theorem step_issue {u : Nat} (turn : s.turns = .issue u :: rest) (due : (s.coreAt u).notBefore ≤ s.now)
    (issued : issueUnit (State.engineDue { s with turns := rest } u) u = .next t) : step s = .next (t.issued u) := by
  have now : ¬({ s with turns := rest } : State).now < (({ s with turns := rest } : State).coreAt u).notBefore := Nat.not_lt.2 due
  rw [step, turn]
  dsimp only
  rw [doTurn, if_neg now, issued]

/-! ## A slot behind a fence -/

/-- What a slot behind a fence would do on the state from before its group leaves it behind the fence (log 79). -/
theorem runLater_left {slot bpc : Nat} {i : Instr}
    (executed : exec i (s.prior.upd fun c => { c with slot := slot, bpc := bpc, sig := none }) = .next t) (goes : t.core.sig = none) :
    runLater s slot bpc i = .next (s.leave (.late slot bpc i)) := by
  rw [runLater, executed]
  dsimp only
  rw [goes]

/-- A stop that what precedes the slot cannot change stops its group. -/
theorem runLater_stopped {slot bpc : Nat} {i : Instr} {e : Stop}
    (executed : exec i (s.prior.upd fun c => { c with slot := slot, bpc := bpc, sig := none }) = .next t) (stops : t.core.sig = some e)
    (data : e.ofData = false) : runLater s slot bpc i = .next (s.upd fun c => { c with sig := some e }) := by
  rw [runLater, executed]
  dsimp only
  rw [stops]
  dsimp only
  rw [data, if_neg Bool.false_ne_true]

/-! ## An event in its turn -/

/-- An event's turn is the event in its place in the cycle. -/
theorem step_event {i : Instr} {a : EvArgs} (turn : s.turns = .event i a :: rest) (occurs : occur { s with turns := rest } i a = .next t) :
    step s = .next { t with tried := [] } := by
  rw [step, turn]
  dsimp only
  rw [doTurn, occurs]

theorem occur_push {a : EvArgs} {x : Push} (executed : exec .qpushArrival { s with ev := a, cur := a.u } = .next t)
    (sent : (s.pushes.find? fun y => decide (y.id = a.u)) = some x) : occur s .qpushArrival a = pushTurn s t x := by
  rw [occur, if_pos (show isEvent .qpushArrival = true from rfl), executed]
  dsimp only
  rw [sent]

theorem occur_placed {i : Instr} {a : EvArgs} (event : isEvent i = true) (executed : exec i { s with ev := a, cur := a.u } = .next t)
    (unsent : i = .qpushArrival → ∀ x ∈ s.pushes, x.id ≠ a.u) :
    occur s i a = .next (if s.targetIssues i a || (reaches i && s.comesLater t) then s else s.stagedOr t) := by
  rw [occur, if_pos event, executed]
  dsimp only
  split
  · next found =>
    have known := List.find?_some found
    exact absurd (of_decide_eq_true known) (unsent rfl _ (List.mem_of_find?_eq_some found))
  · rfl

/-- The trace unit's staging has room for what the event adds (R431). -/
theorem State.stagedOr_fits (fits : ∀ p ∈ t.cores, p.2.stagingFits = true) : s.stagedOr t = t := if_pos (List.all_eq_true.2 fits)

theorem State.stagedOr_full (full : ∃ p ∈ t.cores, p.2.stagingFits = false) : s.stagedOr t = s := by
  obtain ⟨p, hp, overflows⟩ := full
  refine if_neg fun fits => ?_
  rw [List.all_eq_true.1 fits p hp] at overflows
  cases overflows

/-- A push waits for the cycle after it was sent, and for what its receiver issues in the cycle (R305, R310). -/
theorem pushTurn_early {x : Push} (early : s.now ≤ x.sentAt ∨ s.yetToIssue x.dst = true) : pushTurn s t x = .next s :=
  if_pos (by simpa using early)

theorem pushTurn_unapplied {x : Push} (sent : x.sentAt < s.now) (issued : s.yetToIssue x.dst = false)
    (free : (t.coreAt x.src).push ≠ .applied) : pushTurn s t x = .next t := by
  rw [pushTurn, if_neg (by simp [issued, sent]), if_pos free]

/-- A turn of the tape's core whose group executed: it stalls instead where the trace unit's staging overflows (R431). -/
theorem step_group {u : Nat} (turn : s.turns = .issue u :: rest) (due : (s.coreAt u).notBefore ≤ s.now) {s0 : State}
    (group : issueUnit (State.engineDue { s with turns := rest } u) u = issueGroup s0) (executed : executeGroup s0 = .next t) :
    step s = .next ((if t.core.stagingFits then t else s0.beginGroup.endStopped (.wait .trace false false)).issued u) := by
  refine step_issue turn due ?_
  rw [group, issueGroup, executed]

/-- Settles O58: the turn of a core, of a context and of an event, then the slots of a group one by one. That a slot is executed and not
kept behind a fence rests on `AfterKept`: the cycle a checkpoint takes leaves nothing to do after the group. -/
theorem stepRunsDecoded : Obligations.StepRunsDecoded := by
  unfold Obligations.StepRunsDecoded
  intro s rest
  refine ⟨?core, ?context, ?event, ?slot, ?fenced⟩
  case core =>
    intro u turn unit core notBefore due s0 runs idle goes stays s1 done n w line more s2 i hn hc fetched bytes hw hl decoded placed s3
    have group : issueUnit (State.engineDue { s with turns := rest } u) u = issueGroup s0 :=
      issueUnit_group unit core runs rfl idle goes stays
    have notPlan : isPlan s1.cur = false := isPlan_of_core core
    have kept := State.fetchBlock_afterKept fetched
    have cur : s3.cur = u := kept.cur
    have bundle : s0.beginGroup.fetchGroup = .ok ([soloBundle n w], s2) := State.fetchGroup_solo notPlan hn hw hl fetched bytes
    refine ⟨fun bubble => step_group turn notBefore group (executeGroup_later bundle bubble), fun straight accepted distinct t r issues => ?_⟩
    have before : s3.core.after = [] := by
      have after : s2.core.after = [] := kept.core (by simp [s1, State.beginGroup])
      simpa [s3, placed, State.placeGroup] using after
    have word := State.decodeGroup_solo (s := s3) (by rw [cur]; exact notPlan) hn (by rw [cur]; exact hc) decoded accepted distinct
    have executes := executeGroup_decoded bundle straight word
    refine ⟨fun finished => ?_, fun asks holds t' r' again => ?_⟩
    · exact step_group turn notBefore group (executes.trans (issueDecoded_of_groupRuns before issues finished))
    · exact step_group turn notBefore group (executes.trans (issueDecoded_retries before issues asks holds again))
  case context =>
    intro d c turn hd hc notBefore u s1 x runs goes stays aligned w ts i fetched decoded refs order t executed
    exact step_issue turn notBefore (issueUnit_word hd hc runs goes stays aligned fetched decoded refs order executed)
  case event =>
    intro i a turn event t executed s1 later
    refine ⟨fun unsent => ?_, fun x arrival sent => ?_⟩
    · have placed := step_event turn (occur_placed event executed unsent)
      have comes : later ↔ (s1.targetIssues i a || (reaches i && s1.comesLater t)) = true := by simp [later]
      refine ⟨fun now fits => ?_, fun waits => ?_⟩
      · rw [placed, if_neg (fun h => now (comes.2 h)), State.stagedOr_fits fits]
      · by_cases h : later
        · rw [placed, if_pos (comes.1 h)]
        · rw [placed, if_neg (fun k => h (comes.2 k)), State.stagedOr_full (waits.resolve_left h)]
    · subst arrival
      have occurs : occur s1 .qpushArrival a = pushTurn s1 t x := occur_push executed sent
      exact ⟨fun early => step_event turn (occurs.trans (pushTurn_early early)),
        fun before issued free => step_event turn (occurs.trans (pushTurn_unapplied before issued free))⟩
  case slot =>
    intro gpc g w i l t clear executed
    rw [runSlots_exec clear executed]
    exact ⟨fun goes => by rw [goes]; rfl, fun e stops now => by rw [stops, stopsHere, now]; rfl⟩
  case fenced =>
    intro gpc g w i l t fences access executed r
    refine ⟨fun goes left => ?_, fun e stops data now => ?_⟩
    · rw [runSlots_later fences access (runLater_left executed goes), left]
      rfl
    · rw [runSlots_later fences access (runLater_stopped executed stops data)]
      simp [stopsHere, now]

end Sys2Proof.Machine
end


section
set_option Elab.async false
/-! SUPPORT. Registers by name: what a write of one leaves of the others, and what a result on its way to its write changes (R109 to R113, R475). -/

namespace Sys2Proof.Machine

/-! ## A write of a register by name -/

section
variable (r : Regs) (d : RegName) (val : Nat) (full : Bool) (m : Taint)

theorem Regs.put_frame : r.put d val full m = { r with s := (r.put d val full m).s, v := (r.put d val full m).v, p := (r.put d val full m).p } := by
  cases d with
  | s n => unfold Regs.put Regs.setS; dsimp only; split <;> rfl
  | v n => rfl
  | p n => rfl

theorem Regs.sReg_put (n : Nat) : (r.put d val full m).sReg n = if d = .s n ∧ n ≠ 0 then ⟨BitVec.ofNat 64 val, full, m⟩ else r.sReg n := by
  cases d with
  | s k =>
    simp only [Regs.put, RegName.s.injEq]
    by_cases hk : k = 0
    · subst hk
      rw [Regs.setS_zero, if_neg (fun h => h.2 h.1.symm)]
    · rw [Regs.sReg_setS _ _ _ _ hk]
      by_cases e : n = k
      · subst e; simp [hk]
      · rw [if_neg e, if_neg (fun h => e h.1.symm)]
  | v k => simp [Regs.put, Regs.setV, Regs.sReg]
  | p k => simp [Regs.put, Regs.setP, Regs.sReg]

theorem Regs.vReg_put (n : Nat) : (r.put d val full m).vReg n = if d = .v n then ⟨BitVec.ofNat 4096 val, full, m⟩ else r.vReg n := by
  cases d with
  | s k => simp only [Regs.put, Regs.setS, Regs.vReg]; split <;> simp
  | v k =>
    simp only [Regs.put, Regs.vReg_setV, RegName.v.injEq, eq_comm]
  | p k => simp [Regs.put, Regs.setP, Regs.vReg]

theorem Regs.pReg_put (n : Nat) : (r.put d val full m).pReg n = if d = .p n then ⟨BitVec.ofNat 512 val, full, m⟩ else r.pReg n := by
  cases d with
  | s k => simp only [Regs.put, Regs.setS, Regs.pReg]; split <;> simp
  | v k => simp [Regs.put, Regs.setV, Regs.pReg]
  | p k =>
    simp only [Regs.put, Regs.pReg_setP, RegName.p.injEq, eq_comm]

/-! A new taint mask alone. -/

theorem Regs.sReg_taintTo (n : Nat) : (r.taintTo d m).sReg n = if d = .s n ∧ n ≠ 0 then { r.sReg n with taint := m } else r.sReg n := by
  unfold Regs.taintTo
  rw [Regs.sReg_put]
  split
  · next h => obtain ⟨rfl, _⟩ := h; simp [Regs.valOf, Regs.fullOf]
  · rfl

theorem Regs.vReg_taintTo (n : Nat) : (r.taintTo d m).vReg n = if d = .v n then { r.vReg n with taint := m } else r.vReg n := by
  unfold Regs.taintTo
  rw [Regs.vReg_put]
  split
  · next h => subst h; simp [Regs.valOf, Regs.fullOf]
  · rfl

theorem Regs.pReg_taintTo (n : Nat) : (r.taintTo d m).pReg n = if d = .p n then { r.pReg n with taint := m } else r.pReg n := by
  unfold Regs.taintTo
  rw [Regs.pReg_put]
  split
  · next h => subst h; simp [Regs.valOf, Regs.fullOf]
  · rfl

end

theorem RegName.isZero_iff (d : RegName) : d.isZero = true ↔ d = .s 0 := by
  unfold RegName.isZero
  split <;> simp_all

/-! ## A change of the unit in progress -/

variable {s : State}

theorem OnlyCore.refl (s : State) : OnlyCore s s := ⟨rfl, fun _ _ => rfl⟩

theorem State.upd_onlyCore (f : Core → Core) : OnlyCore s (s.upd f) := ⟨rfl, fun _ h => s.coreAt_updAt_ne f h⟩

theorem State.live_onlyCore (f : Regs → Regs) : OnlyCore s (s.live f) := s.upd_onlyCore _

theorem State.result_onlyCore (d : RegName) (v : Nat) (m : Taint) (L : Nat) (fp : BitVec 5) (vx : Bool) :
    OnlyCore s (s.result d v m L fp vx) := by
  unfold State.result
  split
  · exact State.live_onlyCore _
  · exact State.upd_onlyCore _

/-! ## The pipe -/

/-- With one result on its way, the cycle decides: it stays, or it alone is written. -/
theorem Core.settlePipe_single {c : Core} {w : PipeWrite} (h : c.pipe = [w]) (now : Nat) :
    c.settlePipe now = if w.due ≤ now then
      { c with live := w.land c.live, shadow := { c.shadow with regs := if w.preCk then w.land c.shadow.regs else c.shadow.regs }, pipe := [] }
    else c := by
  unfold Core.settlePipe
  by_cases due : w.due ≤ now
  · cases hw : w.preCk <;> simp [h, due, insertDue, hw]
  · simp [h, due]
    rw [← h]

end Sys2Proof.Machine
end


section
set_option Elab.async false
/-! OBLIGATION O7. -/

namespace Sys2Proof.Machine

/-- Settles O7: a plan routine writes its register at once; another unit's result enters the pipe, and its one write is `PipeWrite.land`. -/
theorem resultFrame : Obligations.ResultFrame := by
  unfold Obligations.ResultFrame
  refine ⟨fun s d v L m fp vx => ⟨State.result_onlyCore .., fun plan => ?_, fun core => ⟨?_, fun ex => ?_, fun il => ?_⟩⟩,
    fun c w now one => ⟨fun early => ?_, fun due => ?_⟩⟩
  · rw [result_plan plan, State.core_live]
    exact ⟨rfl, Regs.put_frame .., Regs.sReg_put _ _ _ _ _, Regs.vReg_put _ _ _ _ _, Regs.pReg_put _ _ _ _ _⟩
  · simp [State.result, core, RegName.isZero_iff]
  · rw [result_exposed core ex, State.core_upd]
  · rw [result_interlocked core il, State.core_upd]
    exact ⟨Regs.put_frame .., Regs.sReg_taintTo _ _ _, Regs.vReg_taintTo _ _ _, Regs.pReg_taintTo _ _ _⟩
  · rw [Core.settlePipe_single one, if_neg (by omega)]
  · rw [Core.settlePipe_single one, if_pos due]
    exact ⟨rfl, rfl, rfl, rfl⟩

end Sys2Proof.Machine
end


section
set_option Elab.async false
/-! SUPPORT. The repetitions of a vector instruction (R144, R146, R477, R478): where each does what a rule says, the instruction's next state is the rule's. -/

namespace Sys2Proof.Machine

variable {s : State}

/-! ## A slot that decoding accepts -/

/-- What decoding accepts has its reserved fields clear and its operands in their limits (R77, R374). -/
theorem wf_of_accepts {i : Instr} (h : Accepts s i) : i.wf = true := by
  obtain ⟨-, checks⟩ := h
  unfold guard at checks
  split at checks
  · simp only [planOk, eff_bind_eq_ok, need_eq_ok, Bool.and_eq_true] at checks
    obtain ⟨-, -, ⟨wf, -⟩, -⟩ := checks
    exact wf
  · simp only [operandsOk, eff_bind_eq_ok, need_eq_ok, Bool.and_eq_true] at checks
    obtain ⟨-, -, -, -, ⟨⟨⟨⟨⟨wf, -⟩, -⟩, -⟩, -⟩, -⟩⟩ := checks
    exact wf

/-- An accepted instruction leaves what its body answers. -/
theorem exec_of_body {i : Instr} {body : State → Eff State} {t : State} (accepts : Accepts s i) (meaning : ∀ s, exec i s = run i s body)
    (answers : body s = .ok t) : exec i s = .next t := by
  rw [meaning, run_accepted accepts, answers, settle_ok]

/-! ## Elements -/

theorem lane_in_predicate {w i : Nat} (h : i < 4096 / w) : w * i / 8 < 512 := by
  have : w * (i + 1) ≤ 4096 := (Nat.mul_le_mul_left w h).trans (Nat.mul_div_le 4096 w)
  have : 0 < w := Nat.pos_of_ne_zero fun e => by simp [e] at h
  have : w * i < 4096 := by rw [Nat.mul_add] at *; omega
  omega

theorem splat_eq_lanes (w x : Nat) : splat w x = lanes w fun _ => x % 2 ^ w := by
  simp [splat, lanes, List.map_const']

theorem lanes_congr {w : Nat} {g h : Nat → Nat} (e : ∀ i, i < 4096 / w → g i = h i) : lanes w g = lanes w h := by
  unfold lanes
  rw [List.map_congr_left fun i hi => e i (List.mem_range.1 hi)]

/-- Conditions gathered over the elements that satisfy a test. -/
theorem foldl_or_filter (act : Nat → Bool) (fl : Nat → Fl) (l : List Nat) (z : Fl) :
    (l.filter act).foldl (fun z i => z ||| fl i) z = l.foldl (fun z i => z ||| if act i then fl i else 0) z := by
  induction l generalizing z with
  | nil => rfl
  | cons i l ih =>
    rw [List.filter_cons, List.foldl_cons]
    cases act i <;> simp [ih]

theorem foldl_or_start {α : Type} {n : Nat} (g : α → BitVec n) (l : List α) (z : BitVec n) :
    l.foldl (fun z m => z ||| g m) z = z ||| l.foldl (fun z m => z ||| g m) 0 := by
  induction l generalizing z with
  | nil => simp
  | cons m l ih => simp only [List.foldl_cons]; rw [ih, ih (0 ||| g m)]; simp [BitVec.or_assoc]

theorem foldl_or_append {α : Type} {n : Nat} (g : α → BitVec n) (l l' : List α) :
    (l ++ l').foldl (fun z m => z ||| g m) 0 = l.foldl (fun z m => z ||| g m) 0 ||| l'.foldl (fun z m => z ||| g m) 0 := by
  rw [List.foldl_append, foldl_or_start]

theorem foldl_or_ite {α : Type} {n : Nat} (g : α → BitVec n) (c : Prop) [Decidable c] (m : α) :
    (if c then [m] else []).foldl (fun z m => z ||| g m) 0 = if c then g m else 0 := by
  split <;> simp

theorem foldl_or_congr {α : Type} {g h : α → Fl} {l : List α} (e : ∀ i ∈ l, g i = h i) (z : Fl) :
    l.foldl (fun z i => z ||| g i) z = l.foldl (fun z i => z ||| h i) z := by
  induction l generalizing z with
  | nil => rfl
  | cons i l ih =>
    simp only [List.foldl_cons, e i (.head _)]
    exact ih (fun j hj => e j (.tail _ hj)) _

/-- The elements of a destination where the active ones are computed, and their conditions alone are set (R143). -/
theorem blend_eq (p : PReg) (w : Nat) (old : VReg) (fn : Nat → Nat × Fl) :
    blend p w old fn = (lanes w fun i => if activeIn p w i then (fn i).1 else elem w old i,
      ((List.range (4096 / w)).filter (activeIn p w)).foldl (fun z i => z ||| (fn i).2) 0) := by
  unfold blend lanes
  simp only [List.map_map, List.foldl_map, foldl_or_filter]
  congr 2
  · exact List.map_congr_left fun i _ => apply_ite Prod.fst _ _ _
  · funext z i
    simp only [apply_ite Prod.snd]

/-! ## The vector file a repetition sees -/

/-- The file where earlier repetitions have written `prior` (R144). -/
def fileOf (s : State) (prior : Tbl (VReg × Taint)) : VFile :=
  fun m => (Tbl.get? prior m).getD ((s.pre.vReg m).val, (s.pre.vReg m).taint)

theorem fileOf_nil : fileOf s [] = fun m => ((s.pre.vReg m).val, (s.pre.vReg m).taint) := rfl

theorem fileOf_writes (outs : List (Nat × VReg)) (t : Taint) (prior : Tbl (VReg × Taint)) :
    fileOf s (outs.foldl (fun z w => Tbl.set z w.1 (w.2, t)) prior) =
      outs.foldl (fun z w m => if m = w.1 then (w.2, t) else z m) (fileOf s prior) := by
  induction outs generalizing prior with
  | nil => rfl
  | cons w outs ih =>
    rw [List.foldl_cons, List.foldl_cons, ih]
    congr 1
    funext m
    simp only [fileOf, Tbl.get?_set]
    split <;> rfl

theorem isSome_writes (outs : List (Nat × VReg)) (t : Taint) (prior : Tbl (VReg × Taint)) (m : Nat) :
    (Tbl.get? (outs.foldl (fun z w => Tbl.set z w.1 (w.2, t)) prior) m).isSome = ((Tbl.get? prior m).isSome || (outs.map Prod.fst).contains m) := by
  induction outs generalizing prior with
  | nil => simp
  | cons w outs ih =>
    rw [List.foldl_cons, ih, Tbl.get?_set]
    by_cases h : m = w.1 <;> simp [h]

/-! ## Sources of a repetition -/

theorem Rep.vec_ready {k m : Nat} (prior : Tbl (VReg × Taint)) (h : Readable s (.v m)) (e : Bool) :
    (Rep.vec { s := s, k := k, prior := prior } m e) = .ok (fileOf s prior m) := by
  unfold Rep.vec fileOf
  split
  · next hp => rw [hp]; rfl
  · next hp => rw [hp, srcV_readable h]; rfl

theorem Rep.src_ready {k m : Nat} (prior : Tbl (VReg × Taint)) (use : Bool) (h : use = true → Readable s (.v m)) (e : Bool) :
    (Rep.src { s := s, k := k, prior := prior } use m e) = .ok
      { val := if use then (fileOf s prior m).1 else 0, taint := if use then (fileOf s prior m).2 else 0, reads := if use then [m] else [] } := by
  cases use with
  | false => rfl
  | true => simp [Rep.src, Rep.vec_ready prior (h rfl)]

theorem Rep.srcB_ready {k : Nat} (prior : Tbl (VReg × Taint)) (use : Bool) (f : VWord) (w : Nat)
    (hv : (use && !f.bs) = true → Readable s (.v (f.vb.toNat + k))) (hs : (use && f.bs) = true → Readable s (.s f.vb.toNat)) :
    (Rep.srcB { s := s, k := k, prior := prior } use f w) = .ok
      { val := if use then (if f.bs then lanes w fun _ => (s.sv f.vb).toNat % 2 ^ w else (fileOf s prior (f.vb.toNat + k)).1) else 0
        taint := if use then (if f.bs then (s.pre.sReg f.vb.toNat).taint else (fileOf s prior (f.vb.toNat + k)).2) else 0
        reads := if use && !f.bs then [f.vb.toNat + k] else [] } := by
  cases hb : f.bs with
  | false =>
    simp only [Rep.srcB, hb, Bool.and_false, Bool.false_eq_true, if_false, Bool.not_false, Bool.and_true]
    exact Rep.src_ready prior use (fun h => hv (by simp [h, hb])) f.eb
  | true =>
    cases use with
    | false => simp [Rep.srcB, Rep.src]
    | true => simp [Rep.srcB, hb, srcS_readable (hs (by simp [hb])), splat_eq_lanes, taintS, State.sv]

/-- The governing predicate of an instruction that can read it: every bit is set without one (R143). -/
theorem predOf_ready {pen : Bool} {pg : BitVec 3} (h : pen = true → Readable s (.p pg.toNat)) : predOf s pen pg =
    .ok (if pen then (s.pre.pReg pg.toNat).val else BitVec.allOnes 512, if pen then (s.pre.pReg pg.toNat).taint else 0) := by
  cases pen with
  | false => rfl
  | true => simp [predOf, srcP_readable (h rfl)]

theorem activeIn_pred (pen : Bool) (p : PReg) {w i : Nat} (h : i < 4096 / w) :
    activeIn (if pen then p else BitVec.allOnes 512) w i = (!pen || p.getLsbD (w * i / 8)) := by
  cases pen with
  | false =>
    show (BitVec.allOnes 512).getLsbD (w * i / 8) = true
    rw [BitVec.getLsbD_allOnes, decide_eq_true (lane_in_predicate h)]
  | true => rfl

/-! ## Repetitions that follow a rule -/

/-- A repetition's effect as a rule gives it. -/
def RepRule.out (r : RepRule) (s : State) (file : VFile) (k : Nat) : RepOut :=
  { outs := (r.one s file k).outs, taint := (r.one s file k).taint, reads := r.reads k, fl := (r.one s file k).fl }

/-- The body of an instruction does in each repetition what the rule says. -/
structure RepRule.Meets (r : RepRule) (s : State) (one : Rep → Eff RepOut) : Prop where
  length : ∀ file k, (r.outs file k).1.length = (r.dests k).length
  does : ∀ k prior, k ≤ r.f.rpt.toNat → one { s := s, k := k, prior := prior } = .ok (r.out s (fileOf s prior) k)

namespace RepRule

variable {r : RepRule} {one : Rep → Eff RepOut}

theorem dests_one (hm : r.Meets s one) (file : VFile) (k : Nat) : (r.one s file k).outs.map Prod.fst = r.dests k := by
  simp only [RepRule.one]
  exact List.map_fst_zip (Nat.le_of_eq (hm.length _ k).symm)

theorem k_of_mem_run {n k : Nat} {file : VFile} {d : RepDone} (h : d ∈ r.run s n k file) : d.k < k + n := by
  induction n generalizing k file with
  | zero => simp [RepRule.run] at h
  | succ n ih =>
    rcases List.mem_cons.1 h with rfl | h
    · simp only [RepRule.one]; omega
    · have := ih h; omega

theorem dests_of_mem_run (hm : r.Meets s one) {n k : Nat} {file : VFile} {d : RepDone} (h : d ∈ r.run s n k file) :
    d.outs.map Prod.fst = r.dests d.k := by
  induction n generalizing k file with
  | zero => simp [RepRule.run] at h
  | succ n ih =>
    rcases List.mem_cons.1 h with rfl | h
    · exact dests_one hm file k
    · exact ih h

/-- A repetition of the rule as the instruction's body answers it. -/
def done (r : RepRule) (d : RepDone) : Nat × RepOut := (d.k, { outs := d.outs, taint := d.taint, reads := r.reads d.k, fl := d.fl })

/-- The repetitions in their order: their results are the rule's, and the chain is found where the rule has one (R478). -/
theorem runReps_meets (hm : r.Meets s one) (n k : Nat) (prior : Tbl (VReg × Taint)) (hk : k + n ≤ r.f.rpt.toNat + 1)
    (hp : ∀ m, (Tbl.get? prior m).isSome = (List.range k).any fun j => (r.dests j).contains m) :
    runReps s one n k prior = .ok ((r.run s n k (fileOf s prior)).map r.done,
      (List.range' k n).any fun i => (List.range i).any fun j => (r.reads i).any fun m => (r.dests j).contains m) := by
  induction n generalizing k prior with
  | zero => rfl
  | succ n ih =>
    have next : ∀ m, (Tbl.get? ((r.one s (fileOf s prior) k).outs.foldl
        (fun t w => Tbl.set t w.1 (w.2, (r.one s (fileOf s prior) k).taint)) prior) m).isSome =
        (List.range (k + 1)).any fun j => (r.dests j).contains m := by
      intro m
      rw [isSome_writes, dests_one hm, hp m, List.range_succ, List.any_append]
      simp
    have chain : ((r.reads k).any fun m => (Tbl.get? prior m).isSome) =
        (List.range k).any fun j => (r.reads k).any fun m => (r.dests j).contains m := by
      rw [Bool.eq_iff_iff]
      simp only [hp, List.any_eq_true]
      exact ⟨fun ⟨m, a, j, b, c⟩ => ⟨j, b, m, a, c⟩, fun ⟨j, b, m, a, c⟩ => ⟨m, a, j, b, c⟩⟩
    have rest := ih (k + 1) _ (by omega) next
    simp only [runReps, hm.does k prior (by omega), RepRule.out, rest, chain, List.range'_succ, List.any_cons, fileOf_writes,
      RepRule.run, List.map_cons, Bool.or_comm]
    rfl

theorem forM_ok {α : Type} {g : α → Eff Unit} {l : List α} (h : ∀ x ∈ l, g x = .ok ()) : l.forM g = .ok () := by
  induction l with
  | nil => rfl
  | cons x l ih =>
    rw [List.forM_eq_forM, List.forM_cons, h x (.head _), eff_ok_bind]
    exact ih fun y hy => h y (.tail _ hy)

/-- A vector instruction whose body follows the rule has the rule's next state (R144, R477, R478). -/
theorem repeats_meets (hm : r.Meets s one) (ready : r.ready s) : repeats s r.f r.lat r.occ one = .ok (r.next s) := by
  obtain ⟨vectors, -, -⟩ := ready
  have runs := runReps_meets hm (r.f.rpt.toNat + 1) 0 [] (by omega) fun m => rfl
  have writable : (((r.run s (r.f.rpt.toNat + 1) 0 (fileOf s [])).map r.done).flatMap fun o => o.2.outs).forM (fun w => destOk s (.v w.1)) = .ok () := by
    refine forM_ok fun w hw => destOk_readable ?_
    obtain ⟨o, ho, hw⟩ := List.mem_flatMap.1 hw
    obtain ⟨d, hd, rfl⟩ := List.mem_map.1 ho
    have below := k_of_mem_run hd
    refine vectors d.k (by omega) w.1 (List.mem_append_right _ ?_)
    rw [← dests_of_mem_run hm hd]
    exact List.mem_map_of_mem hw
  unfold repeats
  rw [runs, eff_ok_bind]
  dsimp only
  rw [writable, eff_ok_bind, List.foldl_map, ← List.range_eq_range']
  rfl

end RepRule

/-! ## The template of R146 -/

/-- An elementwise instruction follows its rule where, element by element, the two agree on the sources it reads. -/
theorem elementwise_laneRule {f : VWord} {u : Use} {L occ : Nat} {scal : List (BitVec 6)} {preds : List (BitVec 3)} {extra : Taint}
    {fn fn' : VReg → VReg → VReg → Nat → Nat × Fl} (ready : (laneRule s f u.a u.b u.c L occ scal preds fn').ready s)
    (taint : extra = srcTaint s scal ||| preds.foldl (fun z p => z ||| (s.pre.pReg p.toNat).taint) 0)
    (agree : ∀ x x' y y' z z' i, (u.a = true → x = x') → (u.b = true → y = y') → (u.c = true → z = z') → i < 4096 / typeW f.typ.toNat →
      fn x y z i = fn' x' y' z' i) :
    elementwise s f u extra L occ fn = .ok ((laneRule s f u.a u.b u.c L occ scal preds fn').next s) := by
  refine RepRule.repeats_meets (r := laneRule s f u.a u.b u.c L occ scal preds fn') ⟨fun _ _ => rfl, fun k prior hk => ?_⟩ ready
  obtain ⟨vectors, scalars, predicates⟩ := ready
  have reads (m : Nat) (h : m ∈ (laneRule s f u.a u.b u.c L occ scal preds fn').reads k) : Readable s (.v m) :=
    vectors k hk m (List.mem_append_left _ h)
  simp only [laneRule] at reads scalars predicates
  have ha := Rep.src_ready (s := s) (k := k) prior u.a (fun h => reads (f.va.toNat + k) (by simp [h])) f.ea
  have hb := Rep.srcB_ready (s := s) (k := k) prior u.b f (typeW f.typ.toNat) (fun h => reads (f.vb.toNat + k) (by simp at h; simp [h]))
    (fun h => scalars f.vb (by simp at h; simp [h]))
  have hc := Rep.src_ready (s := s) (k := k) prior u.c (fun h => reads (f.vc.toNat + k) (by simp [h])) f.ec
  have hp := predOf_ready (s := s) (pen := f.pen) (pg := f.pg) (fun h => predicates f.pg (by simp [h]))
  have ho := Rep.src_ready (s := s) (k := k) prior f.pen (fun h => reads (f.vd.toNat + k) (by simp [h])) false
  simp only [ha, hb, hc, hp, ho, eff_ok_bind, blend_eq, RepRule.out, RepRule.one, laneRule, List.zip_cons_cons, List.zip_nil_right]
  have act (i : Nat) (hi : i < 4096 / typeW f.typ.toNat) := activeIn_pred f.pen (s.pre.pReg f.pg.toNat).val hi
  have same (i : Nat) (hi : i < 4096 / typeW f.typ.toNat) := agree
    (if u.a then (fileOf s prior (f.va.toNat + k)).1 else 0) (fileOf s prior (f.va.toNat + k)).1
    (if u.b then if f.bs then lanes (typeW f.typ.toNat) fun _ => (s.sv f.vb).toNat % 2 ^ typeW f.typ.toNat else (fileOf s prior (f.vb.toNat + k)).1 else 0)
    (if f.bs then lanes (typeW f.typ.toNat) fun _ => (s.sv f.vb).toNat % 2 ^ typeW f.typ.toNat else (fileOf s prior (f.vb.toNat + k)).1)
    (if u.c then (fileOf s prior (f.vc.toNat + k)).1 else 0) (fileOf s prior (f.vc.toNat + k)).1 i
    (fun h => if_pos h) (fun h => if_pos h) (fun h => if_pos h) hi
  congr 2
  · congr 2
    refine lanes_congr fun i hi => ?_
    rw [act i hi, same i hi]
    cases hp : f.pen <;> simp
  · subst taint
    simp only [srcTaint, foldl_or_append, foldl_or_ite]
    cases f.bs <;> simp <;> ac_rfl
  · have filtered := List.filter_congr fun i hi => act i (List.mem_range.1 hi)
    rw [filtered]
    exact foldl_or_congr (fun i hi => congrArg Prod.snd (same i (List.mem_range.1 (List.mem_of_mem_filter hi)))) 0

end Sys2Proof.Machine
end


section
set_option Elab.async false
/-! SUPPORT. Elementwise arithmetic (R147): integer elements as a statement reads and writes them, and the instructions by their two functions. -/

namespace Sys2Proof.Machine

variable {s : State}

/-! ## Integer elements (R56, R79) -/

theorem elem_lt (w : Nat) (x : VReg) (i : Nat) : elem w x i < 2 ^ w := Nat.mod_lt _ (Nat.two_pow_pos w)

theorem intOf_eq_laneInt {t x : Nat} (h : x < 2 ^ typeW t) : intOf t x = laneInt t x := by
  unfold intOf laneInt typeSigned sintN
  rw [Nat.mod_eq_of_lt h]
  by_cases signed : t % 2 = 0
  · by_cases high : 2 ^ (typeW t - 1) ≤ x
    · simp [signed, high, Nat.not_lt.2 high]
    · simp [signed, high, Nat.lt_of_not_le high]
  · simp [signed]

theorem intOf_elem (t : Nat) (x : VReg) (i : Nat) : intOf t (elem (typeW t) x i) = laneInt t (elem (typeW t) x i) :=
  intOf_eq_laneInt (elem_lt _ x i)

theorem intLo_le_intHi (t : Nat) : intLo t ≤ intHi t := by
  have := Nat.two_pow_pos (typeW t - 1)
  have := Nat.two_pow_pos (typeW t)
  unfold intLo intHi
  split <;> omega

theorem intTo_eq_fitInt (t : Nat) (sat : Bool) (v : Int) : intTo t sat v = fitInt t sat v := by
  have order := intLo_le_intHi t
  have clamp : (if v < intLo t then intLo t else if intHi t < v then intHi t else v) = max (intLo t) (min (intHi t) v) := by
    split
    · omega
    · split <;> omega
  unfold intTo fitInt
  simp only [clamp]
  cases sat <;> simp [intLo, intHi, typeSigned]

/-! ## The instructions of R147 -/

/-- |x| by the sign of x (R58). -/
theorem Fv.abs_eq (x : Fv) : x.abs = if x.isNeg then x.neg else x.abs := by
  cases x with
  | nan => rfl
  | inf neg => cases neg <;> rfl
  | fin neg m e => cases neg <;> rfl

/-- The sources of an instruction of R147. -/
def useOf (b c : Bool) : Use := { a := true, b := b, c := c }

/-- An instruction of R147 on integers: wrapped or saturated exact results, element by element. -/
theorem varith_int {f : VWord} {b c : Bool} {li lf : Nat} {iop op : Int → Int → Int → Int} {fop : Fv → Fv → Fv → Fv × Fl}
    (int : typeIsFp f.typ.toNat = false)
    (agree : ∀ x y y' z z', (b = true → y = y') → (c = true → z = z') → iop x y z = op x y' z') :
    let r := laneRule s f true b c li 1 [] [] fun x y z k =>
      (fitInt f.typ.toNat f.sat (op (laneInt f.typ.toNat (elem (typeW f.typ.toNat) x k)) (laneInt f.typ.toNat (elem (typeW f.typ.toNat) y k))
        (laneInt f.typ.toNat (elem (typeW f.typ.toNat) z k))), 0)
    r.ready s → varith s f (useOf b c) li lf iop fop = .ok (r.next s) := by
  intro r ready
  unfold varith
  simp only [int, Bool.false_eq_true, if_false]
  refine elementwise_laneRule (u := useOf b c) ready (by simp [srcTaint]) fun x x' y y' z z' i hx hy hz _ => ?_
  rw [hx rfl, intTo_eq_fitInt, intOf_elem, intOf_elem, intOf_elem]
  rw [agree _ _ _ _ _ (fun h => by rw [hy h]) (fun h => by rw [hz h])]

/-- An instruction of R147 on floating-point values: each exact result rounded once. -/
theorem varith_fp {f : VWord} {b c : Bool} {li lf : Nat} {iop : Int → Int → Int → Int} {fop op : Fv → Fv → Fv → Fv × Fl}
    (fp : typeIsFp f.typ.toNat = true)
    (agree : ∀ x y y' z z', (b = true → y = y') → (c = true → z = z') → fop x y z = op x y' z') :
    let val (x : VReg) (k : Nat) : Fv := (fmtOf f.typ.toNat).read s.pre.exposed (elem (typeW f.typ.toNat) x k)
    let r := laneRule s f true b c lf 1 [] [] fun x y z k => roundLane s f f.typ.toNat (op (val x k) (val y k) (val z k))
    r.ready s → varith s f (useOf b c) li lf iop fop = .ok (r.next s) := by
  intro val r ready
  unfold varith
  simp only [fp, if_true]
  refine elementwise_laneRule (u := useOf b c) ready (by simp [srcTaint]) fun x x' y y' z z' i hx hy hz _ => ?_
  rw [hx rfl, agree _ _ _ _ _ (fun h => by rw [hy h]) (fun h => by rw [hz h])]
  rfl

/-- The integer function of each instruction of R147 is the one its statement names, on the sources it reads. -/
theorem exec_vectorInt {i : Instr} {f : VWord} {b c : Bool} {lat : Nat} {op : Int → Int → Int → Int} (h : vectorInt i = some (f, b, c, lat, op)) :
    ∃ lf iop fop, (∀ s, exec i s = run i s (fun s => varith s f (useOf b c) lat lf iop fop)) ∧
      ∀ x y y' z z', (b = true → y = y') → (c = true → z = z') → iop x y z = op x y' z' := by
  unfold vectorInt at h
  split at h <;> cases h
  all_goals refine ⟨_, _, _, fun _ => rfl, fun x y y' z z' hy hz => ?_⟩
  case h_1 | h_2 | h_3 | h_4 => rw [hy rfl]
  case h_5 | h_6 | h_7 => rw [hy rfl, hz rfl]
  case h_8 => dsimp only; omega
  case h_9 => rfl
  case h_10 => rw [hy rfl]; exact (Int.min_def x y').symm
  case h_11 => rw [hy rfl]; exact (Int.max_def x y').symm
  case h_12 => rw [hy rfl, hz rfl]; simp only [Int.max_def, Int.min_def]

/-- The same of the exact functions on floating-point values. -/
theorem exec_vectorFp {i : Instr} {f : VWord} {b c : Bool} {lat : Nat} {op : Fv → Fv → Fv → Fv × Fl} (h : vectorFp i = some (f, b, c, lat, op)) :
    ∃ li iop fop, (∀ s, exec i s = run i s (fun s => varith s f (useOf b c) li lat iop fop)) ∧
      ∀ x y y' z z', (b = true → y = y') → (c = true → z = z') → fop x y z = op x y' z' := by
  unfold vectorFp at h
  split at h <;> cases h
  all_goals refine ⟨_, _, _, fun _ => rfl, fun x y y' z z' hy hz => ?_⟩
  case h_1 | h_2 | h_3 | h_9 | h_10 => rw [hy rfl]
  case h_4 | h_5 | h_6 | h_11 => rw [hy rfl, hz rfl]
  case h_7 => exact congrArg (·, 0) (Fv.abs_eq x)
  case h_8 => rfl

end Sys2Proof.Machine
end


section
set_option Elab.async false
/-! OBLIGATION O11. -/

namespace Sys2Proof.Machine

/-- Settles O11: every repetition follows the rule of its lanes, and the integer function of each instruction is the exact one. -/
theorem vectorInteger : Obligations.VectorInteger := by
  unfold Obligations.VectorInteger
  intro s i f b c lat op rule int accepts w t r ready
  obtain ⟨lf, iop, fop, meaning, agree⟩ := exec_vectorInt rule
  exact exec_of_body accepts meaning (varith_int int agree ready)

end Sys2Proof.Machine
end


section
set_option Elab.async false
/-! OBLIGATION O12. -/

namespace Sys2Proof.Machine

/-- Settles O12: every repetition follows the rule of its lanes, and each element is the exact value of its function rounded once. -/
theorem vectorFloatingPoint : Obligations.VectorFloatingPoint := by
  unfold Obligations.VectorFloatingPoint
  intro s i f b c lat op rule fp accepts t val r ready
  obtain ⟨li, iop, fop, meaning, agree⟩ := exec_vectorFp rule
  exact exec_of_body accepts meaning (varith_fp fp agree ready)

end Sys2Proof.Machine
end


section
set_option Elab.async false
/-! SUPPORT. Conversions and block floating point (R154 to R157): one element, and the repetitions that read or write several registers. -/

namespace Sys2Proof.Machine

variable {s : State}

/-! ## One element (R56, R155) -/

/-- A conversion of an element of the source type is the one the rule names. -/
theorem convert_eq (f : VWord) (dst : Nat) {src x : Nat} (h : x < 2 ^ typeW src) :
    convert (roundCtl s f) dst src x = convertLane s f dst src x := by
  unfold convert convertLane roundLane
  simp only [intOf_eq_laneInt h, intTo_eq_fitInt]
  split
  · simp [roundCtl]
  · split
    · simp [roundCtl, intLo, intHi, typeSigned]
    · rfl

/-! ## Gathered conditions -/

theorem getLsbD_foldl_or {α : Type} {n : Nat} (g : α → BitVec n) (l : List α) (j : Nat) :
    (l.foldl (fun z x => z ||| g x) 0).getLsbD j = l.any fun x => (g x).getLsbD j := by
  induction l with
  | nil => simp
  | cons x l ih => rw [List.foldl_cons, foldl_or_start, BitVec.getLsbD_or, ih]; simp

/-- Conditions gathered over two lists are the same where each raises what the other does. -/
theorem foldl_or_eq {α β : Type} {g : α → Fl} {h : β → Fl} {l : List α} {l' : List β} (le : ∀ x ∈ l, ∃ y ∈ l', g x = h y)
    (ge : ∀ y ∈ l', ∃ x ∈ l, g x = h y) : l.foldl (fun z x => z ||| g x) 0 = l'.foldl (fun z y => z ||| h y) 0 := by
  refine BitVec.eq_of_getLsbD_eq fun j _ => ?_
  rw [getLsbD_foldl_or, getLsbD_foldl_or, Bool.eq_iff_iff, List.any_eq_true, List.any_eq_true]
  constructor
  · rintro ⟨x, hx, e⟩
    obtain ⟨y, hy, same⟩ := le x hx
    exact ⟨y, hy, same ▸ e⟩
  · rintro ⟨y, hy, e⟩
    obtain ⟨x, hx, same⟩ := ge y hy
    exact ⟨x, hx, same ▸ e⟩

/-! ## Widening and narrowing (R155) -/

theorem widen_rule {f : VWord} {q : Nat} (hq : 0 < q) (ready : (widenRule s f q).ready s) : widen s f q = .ok ((widenRule s f q).next s) := by
  refine RepRule.repeats_meets (r := widenRule s f q) ⟨fun _ _ => by simp [widenRule], fun k prior hk => ?_⟩ ready
  have reads : Readable s (.v (f.va.toNat + k)) := ready.1 k hk _ (by simp [widenRule])
  rw [Rep.src_ready prior true (fun _ => reads) f.ea]
  simp only [eff_ok_bind, if_true, RepRule.out, RepRule.one, widenRule, convert_eq f _ (elem_lt _ _ _), List.zip_map', lanes, List.map_map]
  congr 2
  · simp [srcTaint]
  · rw [← List.foldl_flatten]
    refine foldl_or_eq (g := fun x : Nat × Fl => x.2) (fun x hx => ?_) fun j hj => ?_
    · simp only [List.mem_flatten, List.mem_map, List.mem_range] at hx
      obtain ⟨l, ⟨p, hp, rfl⟩, hx⟩ := hx
      obtain ⟨i, hi, rfl⟩ := List.mem_map.1 hx
      refine ⟨q * i + p, List.mem_range.2 ?_, rfl⟩
      calc q * i + p < q * (i + 1) := by rw [Nat.mul_add]; omega
        _ ≤ q * typeN f.typ.toNat := Nat.mul_le_mul_left q (List.mem_range.1 hi)
    · have hj := List.mem_range.1 hj
      refine ⟨_, List.mem_flatten.2 ⟨_, List.mem_map_of_mem (List.mem_range.2 (Nat.mod_lt j hq)),
        List.mem_map_of_mem (List.mem_range.2 (Nat.div_lt_of_lt_mul hj))⟩, ?_⟩
      rw [Nat.div_add_mod]

theorem mapM_ok {α β : Type} {g : α → Eff β} {h : α → β} {l : List α} (e : ∀ x ∈ l, g x = .ok (h x)) : l.mapM g = .ok (l.map h) := by
  induction l with
  | nil => rfl
  | cons x l ih => rw [List.mapM_cons, e x (.head _), ih fun y hy => e y (.tail _ hy)]; rfl

theorem narrow_rule {f : VWord} {q : Nat} (hq : 0 < q) (ready : (narrowRule s f q).ready s) : narrow s f q = .ok ((narrowRule s f q).next s) := by
  refine RepRule.repeats_meets (r := narrowRule s f q) ⟨fun _ _ => by simp [narrowRule], fun k prior hk => ?_⟩ ready
  have reads (p : Nat) (hp : p < q) : Readable s (.v (f.va.toNat + q * k + p)) :=
    ready.1 k hk _ (List.mem_append_left _ (List.mem_map.2 ⟨p, List.mem_range.2 hp, rfl⟩))
  rw [mapM_ok fun p hp => Rep.src_ready prior true (fun _ => reads p (List.mem_range.1 hp)) f.ea]
  simp only [eff_ok_bind, if_true, RepRule.out, RepRule.one, narrowRule, convert_eq f _ (elem_lt _ _ _), lanes, List.map_map]
  have picked (g : Nat → VReg) (j : Nat) : ((List.range q).map g).getD (j % q) 0 = g (j % q) := by
    simp [List.getD_eq_getElem?_getD, List.getElem?_range (Nat.mod_lt j hq)]
  simp only [picked, List.foldl_map, List.flatMap_map]
  simp [srcTaint, typeN, Function.comp_def, ← List.map_eq_flatMap]

/-! ## Block floating point (R156, R157) -/

/-- A list cut into whole pieces. -/
theorem chunks_range {α : Type} {c : Nat} (hc : 0 < c) (g : Nat → α) (m fuel a : Nat) (hf : m ≤ fuel) :
    chunks c fuel ((List.range' a (c * m)).map g) = (List.range m).map fun b => (List.range c).map fun i => g (a + c * b + i) := by
  induction m generalizing fuel a with
  | zero => cases fuel <;> simp [chunks]
  | succ m ih =>
    obtain ⟨fuel, rfl⟩ : ∃ n, fuel = n + 1 := ⟨fuel - 1, by omega⟩
    have head : List.range' a (c * (m + 1)) = List.range' a c ++ List.range' (a + c) (c * m) := by
      rw [Nat.mul_succ, Nat.add_comm (c * m), List.range'_append_1]
    have first : (List.range' a c).map g = (List.range c).map fun i => g (a + i) := by
      rw [List.range'_eq_map_range, List.map_map]; rfl
    rw [head, List.map_append, chunks, if_neg (by simp; omega), List.take_left' (by simp), List.drop_left' (by simp), ih fuel (a + c) (by omega),
      List.range_succ_eq_map, List.map_cons, List.map_map, first]
    refine congrArg₂ _ rfl (List.map_congr_left fun b _ => ?_)
    simp only [Function.comp, Nat.mul_succ]
    exact List.map_congr_left fun i _ => congrArg g (by omega)

/-- `VBPACK` quantises each 16 elements of the source to one block (R156). -/
def packRule (s : State) (f : VWord) : RepRule :=
  { f := f, lat := 6, occ := 4, reads := fun k => [f.va.toNat + k], dests := fun k => [f.vd.toNat + k, f.vc.toNat + k]
    outs := fun file k =>
      let src := f.imm.toNat % 16
      let m := f.imm.toNat / 16
      let w := typeW src
      let block (b : Nat) := bfpQuantise ((List.range 16).map fun i =>
        (fmtOf src).read s.pre.exposed (elem w (file (f.va.toNat + k)) (16 * b + i))) m (Rm.ofCode f.rm.toNat)
      let bs := (List.range (4096 / w / 16)).map block
      ([vecOf m (bs.flatMap fun b => b.2.1), vecOf 8 (bs.map fun b => b.1)], bs.foldl (fun z b => z ||| b.2.2) 0) }

theorem whole_blocks {t : Nat} (h : typeIsFp t = true) : typeN t = 16 * (4096 / typeW t / 16) := by
  simp only [typeIsFp, decide_eq_true_eq] at h
  obtain ⟨low, high⟩ := h
  interval_cases t <;> decide

theorem pack_rule {f : VWord} (fp : typeIsFp (f.imm.toNat % 16) = true) (ready : (packRule s f).ready s) : bfpPack s f = .ok ((packRule s f).next s) := by
  refine RepRule.repeats_meets (r := packRule s f) ⟨fun _ _ => rfl, fun k prior hk => ?_⟩ ready
  have reads : Readable s (.v (f.va.toNat + k)) := ready.1 k hk _ (by simp [packRule])
  have blocks (g : Nat → Fv) : chunks 16 (typeN (f.imm.toNat % 16)) ((List.range (typeN (f.imm.toNat % 16))).map g) =
      (List.range (4096 / typeW (f.imm.toNat % 16) / 16)).map fun b => (List.range 16).map fun i => g (16 * b + i) := by
    have cut := chunks_range (by omega : 0 < 16) g (4096 / typeW (f.imm.toNat % 16) / 16) (typeN (f.imm.toNat % 16)) 0
      (by rw [whole_blocks fp]; omega)
    simpa only [← whole_blocks fp, ← List.range_eq_range', Nat.zero_add] using cut
  rw [Rep.src_ready prior true (fun _ => reads) f.ea]
  simp only [eff_ok_bind, if_true, RepRule.out, RepRule.one, packRule, elems, List.map_map, List.length_map, List.length_range, blocks,
    Function.comp_def]
  simp [srcTaint]

theorem unpack_rule {f : VWord} :
    let m := f.imm.toNat / 16
    let r := laneRule s f true false true 6 4 [] [] fun a _ c i => roundLane s f f.typ.toNat (bfpRead m (elem m a i) (elem 8 c (i / 16)), 0)
    r.ready s → bfpUnpack s f = .ok (r.next s) := by
  intro m r ready
  unfold bfpUnpack
  refine elementwise_laneRule (u := { a := true, c := true }) ready (by simp [srcTaint]) fun x x' y y' z z' i hx hy hz _ => ?_
  rw [hx rfl, hz rfl]
  simp only [fpTo, roundLane, roundCtl, m]

/-! ## Special functions (R163) -/

theorem special_rule {f : VWord} {op : Sp} (ready : (vectorConvert.special s f op).ready s) :
    special s f op = .ok ((vectorConvert.special s f op).next s) := by
  unfold special
  unfold vectorConvert.special at ready ⊢
  refine elementwise_laneRule (u := useA) ready (by simp [srcTaint]) fun x x' y y' z z' i hx hy hz _ => ?_
  rw [hx rfl, roundCtl]

/-! ## Conversion in place (R154) -/

theorem convert_rule {f : VWord} (same : typeW f.typ.toNat = typeW (f.imm.toNat % 16)) :
    let r := laneRule s f true false false 4 1 [] [] fun a _ _ i => convertLane s f f.typ.toNat (f.imm.toNat % 16) (elem (typeW f.typ.toNat) a i)
    r.ready s → (elementwise s f useA 0 4 1 fun a _ _ i =>
      convert (roundCtl s f) f.typ.toNat (f.imm.toNat % 16) (elem (typeW f.typ.toNat) a i)) = .ok (r.next s) := by
  intro r ready
  refine elementwise_laneRule (u := useA) ready (by simp [srcTaint]) fun x x' y y' z z' i hx hy hz _ => ?_
  rw [hx rfl]
  exact convert_eq f _ (same ▸ elem_lt _ _ _)

end Sys2Proof.Machine
end


section
set_option Elab.async false
/-! OBLIGATION O14. -/

namespace Sys2Proof.Machine

/-- Settles O14, instruction by instruction: each body does in every repetition what its rule says. -/
theorem vectorConversions : Obligations.VectorConversions := by
  unfold Obligations.VectorConversions
  intro s i r rule accepts ready
  have wf := wf_of_accepts accepts
  unfold vectorConvert at rule
  split at rule <;> cases rule
  case h_1 f =>
    simp only [Instr.wf, cvtFits, Bool.and_eq_true, decide_eq_true_eq] at wf
    obtain ⟨⟨-, -, width⟩, -⟩ := wf
    refine exec_of_body accepts (fun _ => rfl) ?_; exact convert_rule (by omega) ready
  case h_2 f => refine exec_of_body accepts (fun _ => rfl) ?_; exact widen_rule (by omega) ready
  case h_3 f => refine exec_of_body accepts (fun _ => rfl) ?_; exact widen_rule (by omega) ready
  case h_4 f => refine exec_of_body accepts (fun _ => rfl) ?_; exact narrow_rule (by omega) ready
  case h_5 f => refine exec_of_body accepts (fun _ => rfl) ?_; exact narrow_rule (by omega) ready
  case h_6 f =>
    simp only [Instr.wf, Bool.and_eq_true] at wf
    obtain ⟨⟨⟨⟨-, -⟩, fp⟩, -⟩, -⟩ := wf
    refine exec_of_body accepts (fun _ => rfl) ?_; exact pack_rule fp ready
  case h_7 f => refine exec_of_body accepts (fun _ => rfl) ?_; exact unpack_rule ready
  all_goals refine exec_of_body accepts (fun _ => rfl) ?_; exact special_rule ready

end Sys2Proof.Machine
end


section
set_option Elab.async false
/-! SUPPORT. Packed elements (R139), and the predicate instructions (R150, R152) on registers that can be read. -/

namespace Sys2Proof.Machine

variable {s : State}

/-! ## Packed elements (R139) -/

theorem packElems_elem (w : Nat) (l : List Nat) (i : Nat) : packElems w l / 2 ^ (w * i) % 2 ^ w = l.getD i 0 % 2 ^ w := by
  induction l generalizing i with
  | nil => simp [packElems]
  | cons x l ih =>
    rw [packElems]
    cases i with
    | zero => simp
    | succ i =>
      have past : (x % 2 ^ w + 2 ^ w * packElems w l) / 2 ^ w = packElems w l := by
        rw [Nat.add_mul_div_left _ _ (Nat.two_pow_pos w), Nat.div_eq_of_lt (Nat.mod_lt _ (Nat.two_pow_pos w)), Nat.zero_add]
      rw [Nat.mul_succ, Nat.add_comm (w * i), Nat.pow_add, ← Nat.div_div_eq_div_mul, past, ih, List.getD_cons_succ]

/-- The low bits of a number, cut at a whole number of fields, keep each of those fields. -/
theorem field_of_mod {w i n : Nat} (x : Nat) (h : w * i + w ≤ n) : x % 2 ^ n / 2 ^ (w * i) % 2 ^ w = x / 2 ^ (w * i) % 2 ^ w := by
  obtain ⟨m, rfl⟩ := Nat.exists_eq_add_of_le h
  rw [Nat.add_assoc, Nat.pow_add, Nat.mod_mul_right_div_self, Nat.pow_add, Nat.mod_mod_of_dvd _ (Nat.dvd_mul_right _ _)]

theorem lane_fits {w i : Nat} (h : i < 4096 / w) : w * i + w ≤ 4096 := by
  rw [← Nat.mul_succ]
  exact (Nat.mul_le_mul_left w h).trans (Nat.mul_div_le 4096 w)

theorem elem_vecOf {w i : Nat} (h : i < 4096 / w) (l : List Nat) : elem w (vecOf w l) i = l.getD i 0 % 2 ^ w := by
  unfold elem vecOf
  rw [BitVec.toNat_ofNat, field_of_mod _ (lane_fits h), packElems_elem]

theorem elem_lanes {w i : Nat} (h : i < 4096 / w) (g : Nat → Nat) : elem w (lanes w g) i = g i % 2 ^ w := by
  rw [lanes, elem_vecOf h]
  simp [List.getD_eq_getElem?_getD, List.getElem?_range h]

/-- Bit k of packed fields of width w stands in field k / w. -/
theorem testBit_packElems {w : Nat} (hw : 0 < w) (l : List Nat) (k : Nat) :
    (packElems w l).testBit k = (l.getD (k / w) 0).testBit (k % w) := by
  have field := congrArg (Nat.testBit · (k % w)) (packElems_elem w l (k / w))
  simpa [Nat.testBit_mod_two_pow, Nat.testBit_div_two_pow, Nat.mod_lt k hw, Nat.mod_add_div] using field

/-! ## Predicate sources and destinations (R152) -/

theorem predOf_field {n : BitVec 6} (h : Readable s (.p (n.toNat % 8))) :
    predOf s true (n.setWidth 3) = .ok (s.pv n, (s.pre.pReg (n.toNat % 8)).taint) := by
  have name : (n.setWidth 3).toNat = n.toNat % 8 := by simp
  rw [predOf_ready (fun _ => name ▸ h), if_pos rfl, if_pos rfl, name]
  rfl

theorem predResult_ready {d : BitVec 6} (h : Readable s (.p d.toNat)) (v : PReg) (m : Taint) :
    predResult s d v m = .ok (s.result (.p d.toNat) v.toNat m 2 0 true) := by
  rw [predResult, destOk_readable h, eff_ok_bind]

theorem pred2_ready {f : VWord} (ha : Readable s (.p (f.va.toNat % 8))) (hb : Readable s (.p (f.vb.toNat % 8)))
    (hd : Readable s (.p f.vd.toNat)) (op : PReg → PReg → PReg) :
    pred2 s f op = .ok (s.result (.p f.vd.toNat) (op (s.pv f.va) (s.pv f.vb)).toNat (predsTaint s [f.va, f.vb]) 2 0 true) := by
  rw [pred2, predOf_field ha, eff_ok_bind, predOf_field hb, eff_ok_bind, predResult_ready hd]
  simp [predsTaint]

theorem pred1_ready {f : VWord} (ha : Readable s (.p (f.va.toNat % 8))) (hd : Readable s (.p f.vd.toNat)) (op : PReg → PReg) :
    pred1 s f op = .ok (s.result (.p f.vd.toNat) (op (s.pv f.va)).toNat (predsTaint s [f.va]) 2 0 true) := by
  rw [pred1, predOf_field ha, eff_ok_bind, predResult_ready hd]
  simp [predsTaint]

/-- The value of a predicate instruction of R152, with its bits. -/
theorem exec_predRule {i : Instr} {f : VWord} {l : List (BitVec 6)} {bit : Nat → Bool} (rule : predRule s i = some (f, l, bit)) (accepts : Accepts s i)
    (sources : ∀ n ∈ l, Readable s (.p (n.toNat % 8))) (dest : Readable s (.p f.vd.toNat)) :
    ∃ v : PReg, exec i s = .next (s.result (.p f.vd.toNat) v.toNat (predsTaint s l) 2 0 true) ∧ ∀ k, k < 512 → v.getLsbD k = bit k := by
  unfold predRule at rule
  split at rule <;> cases rule
  case h_1 | h_2 | h_3 =>
    have ha := sources f.va (by simp)
    have hb := sources f.vb (by simp)
    exact ⟨_, exec_of_body accepts (fun _ => rfl) (pred2_ready ha hb dest _), fun k hk => by simp⟩
  case h_4 | h_5 =>
    have ha := sources f.va (by simp)
    exact ⟨_, exec_of_body accepts (fun _ => rfl) (pred1_ready ha dest _), fun k hk => by simp [hk]⟩

/-! ## `PSET` and `PCNT` (R152) -/

/-- The first n bits set. -/
theorem getLsbD_lowBits (n : Nat) {k : Nat} (hk : k < 512) : (BitVec.ofNat 512 (2 ^ min n 512 - 1)).getLsbD k = decide (k < n) := by
  rw [BitVec.getLsbD_ofNat, Nat.testBit_two_pow_sub_one]
  simp [hk]

theorem exec_pset {f : VWord} (accepts : Accepts s (.pset f)) (source : f.imm.toNat = 2 → Readable s (.s f.vb.toNat)) (dest : Readable s (.p f.vd.toNat)) :
    ∃ v : PReg, exec (.pset f) s = .next (s.result (.p f.vd.toNat) v.toNat (if f.imm.toNat = 2 then srcTaint s [f.vb] else 0) 2 0 true) ∧
      ∀ k, k < 512 → v.getLsbD k = (if f.imm.toNat = 0 then false else if f.imm.toNat = 1 then true else decide (k < (s.sv f.vb).toNat)) := by
  have wf := wf_of_accepts accepts
  have code : f.imm.toNat = 0 ∨ f.imm.toNat = 1 ∨ f.imm.toNat = 2 := by
    simp only [Instr.wf, Bool.and_eq_true] at wf
    obtain ⟨-, coded⟩ := wf
    split at coded <;> simp_all
  rcases code with e | e | e
  · refine ⟨0, exec_of_body accepts (fun _ => rfl) ?_, fun k _ => by simp [e]⟩
    simp only [pset, e, predResult_ready dest]
    rfl
  · refine ⟨BitVec.allOnes 512, exec_of_body accepts (fun _ => rfl) ?_, fun k hk => by rw [BitVec.getLsbD_allOnes]; simp [e, hk]⟩
    simp only [pset, e, predResult_ready dest]
    rfl
  · refine ⟨_, exec_of_body accepts (fun _ => rfl) ?_, fun k hk => (getLsbD_lowBits (s.sv f.vb).toNat hk).trans (by simp [e])⟩
    simp [pset, e, srcS_readable (source e), predResult_ready dest, srcTaint, taintS, State.sv]

theorem exec_pcnt {f : VWord} (accepts : Accepts s (.pcnt f)) (source : Readable s (.p (f.va.toNat % 8))) (dest : Readable s (.s f.vd.toNat)) :
    exec (.pcnt f) s = .next (s.produce (.s f.vd.toNat) ((List.range 512).countP fun k => (s.pv f.va).getLsbD k) (predsTaint s [f.va]) 3 0 true) := by
  refine exec_of_body accepts (fun _ => rfl) ?_
  simp [pcount, predOf_field source, destOk_readable dest, List.countP_eq_length_filter, predsTaint]

/-! ## `VCMP` (R83, R150) -/

theorem Fv.not_nan_of_lt {a b : Fv} (h : a.lt b = true) : a.isNan = false ∧ b.isNan = false := by
  cases a <;> cases b <;> simp_all [Fv.lt, Fv.isNan]

theorem vcmpHolds_fp {f : VWord} (fp : typeIsFp f.typ.toNat = true) (x y : Nat) :
    vcmpHolds s f x y = true ↔ compareFp f.imm.toNat (fpOf s f x) (fpOf s f y) := by
  unfold vcmpHolds compareFp
  simp only [fp, if_true]
  split
  all_goals simp [Fv.eq, or_assoc, and_assoc]
  case h_3 => exact ⟨fun h => ⟨(Fv.not_nan_of_lt h).1, (Fv.not_nan_of_lt h).2, h⟩, fun h => h.2.2⟩
  case h_6 => exact ⟨fun h => ⟨(Fv.not_nan_of_lt h).2, (Fv.not_nan_of_lt h).1, h⟩, fun h => h.2.2⟩

theorem vcmpHolds_int {f : VWord} (int : typeIsFp f.typ.toNat = false) {x y : Nat} (hx : x < 2 ^ typeW f.typ.toNat) (hy : y < 2 ^ typeW f.typ.toNat) :
    vcmpHolds s f x y = true ↔ compareInt f.imm.toNat f.typ.toNat x y := by
  unfold vcmpHolds compareInt
  simp only [int, Bool.false_eq_true, if_false, intOf_eq_laneInt hx, intOf_eq_laneInt hy]
  split
  all_goals simp

/-- A predicate bit of a field of g bits for each element. -/
theorem getLsbD_fields {g n : Nat} (hg : 0 < g) (whole : Nat → Nat) {k : Nat} (hk : k < 512) (hn : k / g < n) :
    (BitVec.ofNat 512 (packElems g ((List.range n).map whole))).getLsbD k = (whole (k / g)).testBit (k % g) := by
  rw [BitVec.getLsbD_ofNat, decide_eq_true hk, Bool.true_and, testBit_packElems hg]
  simp [List.getD_eq_getElem?_getD, List.getElem?_range hn]

/-- The bytes of an element of a type of 8 bits or more. -/
theorem typeW_bytes {t : Nat} (h : 2 ≤ t ∧ t ≤ 12) :
    typeW t = 8 * (typeW t / 8) ∧ 0 < typeW t / 8 ∧ 512 = typeW t / 8 * (4096 / typeW t) := by
  obtain ⟨low, high⟩ := h
  interval_cases t <;> decide

theorem compared_lt {f : VWord} (i : Nat) : laneB s f i < 2 ^ typeW f.typ.toNat := by
  unfold laneB
  split
  · exact Nat.mod_lt _ (Nat.two_pow_pos _)
  · exact elem_lt _ _ _

/-- What `VCMP` compares with (R146). -/
theorem elem_sourceB {f : VWord} {i : Nat} (hi : i < 4096 / typeW f.typ.toNat) :
    elem (typeW f.typ.toNat) (if f.bs then lanes (typeW f.typ.toNat) fun _ => (s.sv f.vb).toNat % 2 ^ typeW f.typ.toNat else (s.pre.vReg f.vb.toNat).val) i =
      laneB s f i := by
  unfold laneB
  split
  · rw [elem_lanes hi, Nat.mod_mod]
  · rfl

/-- The bits of an element: set together where it is active and its comparison holds, kept where it is inactive (R150). -/
def comparedField (s : State) (f : VWord) (g i : Nat) : Nat :=
  if activeIn (if f.pen then (s.pre.pReg f.pg.toNat).val else BitVec.allOnes 512) (typeW f.typ.toNat) i then
    (if vcmpHolds s f (laneA s f i) (laneB s f i) then 2 ^ g - 1 else 0)
  else (s.pre.pReg f.vd.toNat).val.toNat / 2 ^ (g * i) % 2 ^ g

theorem active_iff (s : State) (f : VWord) (i : Nat) :
    active s f i ↔ (!f.pen || (s.pre.pReg f.pg.toNat).val.getLsbD (typeW f.typ.toNat * i / 8)) = true := by
  simp [active]

theorem vcmpHolds_iff (s : State) (f : VWord) (i : Nat) : vcmpHolds s f (laneA s f i) (laneB s f i) = true ↔
    if typeIsFp f.typ.toNat then compareFp f.imm.toNat (fpOf s f (laneA s f i)) (fpOf s f (laneB s f i))
      else compareInt f.imm.toNat f.typ.toNat (laneA s f i) (laneB s f i) := by
  split
  · next fp => exact vcmpHolds_fp fp _ _
  · next int => exact vcmpHolds_int (Bool.eq_false_of_not_eq_true int) (elem_lt _ _ _) (compared_lt i)

theorem testBit_comparedField_active {f : VWord} {g i j : Nat} (hi : i < 4096 / typeW f.typ.toNat) (hj : j < g) (act : active s f i) :
    (comparedField s f g i).testBit j = vcmpHolds s f (laneA s f i) (laneB s f i) := by
  rw [comparedField, activeIn_pred _ _ hi, if_pos ((active_iff s f i).1 act)]
  cases vcmpHolds s f (laneA s f i) (laneB s f i) <;> simp [hj]

theorem testBit_comparedField_inactive {f : VWord} {g i j : Nat} (hi : i < 4096 / typeW f.typ.toNat) (hj : j < g) (idle : ¬active s f i) :
    (comparedField s f g i).testBit j = (s.pre.pReg f.vd.toNat).val.getLsbD (j + g * i) := by
  rw [comparedField, activeIn_pred _ _ hi, if_neg (fun h => idle ((active_iff s f i).2 h)), Nat.testBit_mod_two_pow, decide_eq_true hj,
    Bool.true_and, Nat.testBit_div_two_pow]
  rfl

theorem vcmp_type {f : VWord} (accepts : Accepts s (.vcmp f)) : 2 ≤ f.typ.toNat ∧ f.typ.toNat ≤ 12 := by
  have wf := wf_of_accepts accepts
  simp only [Instr.wf, VWord.fits, TyClass.has, Bool.and_eq_true, decide_eq_true_eq] at wf
  omega

theorem vcmp_ready {f : VWord} (accepts : Accepts s (.vcmp f)) (ha : Readable s (.v f.va.toNat))
    (hb : if f.bs then Readable s (.s f.vb.toNat) else Readable s (.v f.vb.toNat)) (hp : f.pen = true → Readable s (.p f.pg.toNat))
    (hd : Readable s (.p f.vd.toNat)) :
    vcmp s f = .ok (s.result (.p f.vd.toNat) (BitVec.ofNat 512 (packElems (typeW f.typ.toNat / 8)
        ((List.range (4096 / typeW f.typ.toNat)).map (comparedField s f (typeW f.typ.toNat / 8))))).toNat
      ((s.pre.vReg f.va.toNat).taint ||| (if f.bs then srcTaint s [f.vb] else (s.pre.vReg f.vb.toNat).taint) |||
        (if f.pen then (s.pre.pReg f.pg.toNat).taint ||| (s.pre.pReg f.vd.toNat).taint else 0)) 2 0 true) := by
  have low : f.vd.toNat < 8 := by
    have wf := wf_of_accepts accepts
    simp only [Instr.wf, Bool.and_eq_true, predField, decide_eq_true_eq] at wf
    omega
  have name : (f.vd.setWidth 3).toNat = f.vd.toNat := by simp [Nat.mod_eq_of_lt low]
  have sourceA := Rep.src_ready (s := s) (k := 0) [] true (fun _ => ha) f.ea
  have sourceB := Rep.srcB_ready (s := s) (k := 0) [] true f (typeW f.typ.toNat) (fun h => by simpa [(by simpa using h : f.bs = false)] using hb)
    (fun h => by simpa [(by simpa using h : f.bs = true)] using hb)
  have pred := predOf_ready hp
  have old := predOf_ready (s := s) (pen := f.pen) (pg := f.vd.setWidth 3) (fun _ => name ▸ hd)
  simp only [vcmp, sourceA, sourceB, pred, old, eff_ok_bind, if_true, predResult_ready hd, name, fileOf_nil, Nat.add_zero]
  refine congrArg Except.ok (congrArg₂ (fun (v : PReg) m => s.result (.p f.vd.toNat) v.toNat m 2 0 true) ?_ ?_)
  · refine congrArg (fun l => BitVec.ofNat 512 (packElems _ l)) (List.map_congr_left fun i hi => ?_)
    have hi := List.mem_range.1 hi
    rw [elem_sourceB hi, comparedField, activeIn_pred _ _ hi]
    cases f.pen with
    | false => simp only [Bool.not_false, Bool.true_or, if_true]; rfl
    | true => rfl
  · cases f.bs <;> cases f.pen <;> simp [srcTaint, BitVec.or_assoc]

end Sys2Proof.Machine
end


section
set_option Elab.async false
/-! OBLIGATION O15. -/

namespace Sys2Proof.Machine

/-- Settles O15: each value is written out, and its bits are read off. -/
theorem predicatesAndCompares : Obligations.PredicatesAndCompares := by
  unfold Obligations.PredicatesAndCompares
  refine ⟨fun s i f l bit rule accepts sources dest => exec_predRule rule accepts sources dest, fun s f accepts source dest => exec_pset accepts source dest,
    fun s f accepts source dest => exec_pcnt accepts source dest, fun s f accepts ha hb hp hd => ?_⟩
  refine ⟨_, _, exec_of_body accepts (fun _ => rfl) (vcmp_ready accepts ha hb hp hd), rfl, fun k hk => ?_⟩
  obtain ⟨bytes, positive, whole⟩ := typeW_bytes (vcmp_type accepts)
  dsimp only
  have field : 8 * k / typeW f.typ.toNat = k / (typeW f.typ.toNat / 8) := by
    rw [bytes, Nat.mul_div_mul_left _ _ (by omega), Nat.mul_div_cancel_left _ (by omega)]
  have inside : k / (typeW f.typ.toNat / 8) < 4096 / typeW f.typ.toNat := Nat.div_lt_of_lt_mul (whole ▸ hk)
  have low := Nat.mod_lt k positive
  rw [field, getLsbD_fields positive _ hk inside]
  refine ⟨fun act => ?_, fun idle => ?_⟩
  · rw [testBit_comparedField_active inside low act]
    exact vcmpHolds_iff s f _
  · rw [testBit_comparedField_inactive inside low idle, Nat.mod_add_div]

end Sys2Proof.Machine
end


section
set_option Elab.async false
/-! SUPPORT. The reduction tree (R66): over an operation that adds, and over one that chooses. -/

namespace Sys2Proof.Machine

variable {α : Type}

/-! ## Levels -/

theorem treeLevel_length (op : α → α → α × Fl) : ∀ l : List α, (treeLevel op l).1.length = (l.length + 1) / 2
  | [] => by simp [treeLevel]
  | [_] => by simp [treeLevel]
  | a :: b :: t => by simp only [treeLevel, List.length_cons, treeLevel_length op t]; omega

/-- A tree over 2^k leaves ends in one value, of which holds whatever each level keeps. -/
theorem treeLevels_keeps {op : α → α → α × Fl} {C : List α → Prop} (keeps : ∀ l, C l → C (treeLevel op l).1) (k : Nat) {l : List α}
    (leaves : l.length = 2 ^ k) (start : C l) : ∃ x, (treeLevels op k l).1 = [x] ∧ C [x] := by
  induction k generalizing l with
  | zero =>
    obtain ⟨x, rfl⟩ := List.length_eq_one_iff.1 leaves
    exact ⟨x, rfl, start⟩
  | succ k ih => exact ih (by rw [treeLevel_length, leaves, Nat.pow_succ]; omega) (keeps l start)

theorem le_two_pow_treeDepth (n : Nat) : n ≤ 2 ^ treeDepth n := by
  unfold treeDepth
  split
  · simpa
  · have := Nat.lt_log2_self (n := n - 1)
    omega

/-- What each level of the tree keeps holds of its result. -/
theorem treeReduce_keeps {op : α → α → α × Fl} {C : List α → Prop} (keeps : ∀ l, C l → C (treeLevel op l).1) (ident : α) (xs : List α)
    (start : C (xs ++ List.replicate (2 ^ treeDepth xs.length - xs.length) ident)) : C [(treeReduce op ident xs).1] := by
  have leaves : (xs ++ List.replicate (2 ^ treeDepth xs.length - xs.length) ident).length = 2 ^ treeDepth xs.length := by
    have := le_two_pow_treeDepth xs.length
    simp; omega
  obtain ⟨x, root, holds⟩ := treeLevels_keeps keeps _ leaves start
  simpa [treeReduce, root] using holds

/-! ## Addition -/

theorem treeLevel_sum {n : Nat} {op : BitVec n → BitVec n → BitVec n × Fl} (adds : ∀ x y, (op x y).1 = x + y) :
    ∀ l : List (BitVec n), (treeLevel op l).1.sum = l.sum
  | [] => rfl
  | [_] => rfl
  | a :: b :: t => by simp [treeLevel, adds, treeLevel_sum adds t, add_assoc]

theorem treeReduce_sum {n : Nat} {op : BitVec n → BitVec n → BitVec n × Fl} (adds : ∀ x y, (op x y).1 = x + y) (xs : List (BitVec n)) :
    (treeReduce op 0 xs).1 = xs.sum := by
  have total := treeReduce_keeps (C := fun l => l.sum = xs.sum) (fun l h => (treeLevel_sum adds l).trans h) 0 xs (by simp)
  simpa using total

/-! ## Choice -/

/-- Every value of l stands in `leaves`, and each of `leaves` has one in l that is at most it. -/
def Chosen (le : α → α → Prop) (leaves l : List α) : Prop := (∀ y ∈ l, y ∈ leaves) ∧ ∀ x ∈ leaves, ∃ y ∈ l, le y x

section
variable {op : α → α → α × Fl} {le : α → α → Prop} (refl : ∀ x, le x x) (trans : ∀ x y z, le x y → le y z → le x z)
  (chooses : ∀ x y, ((op x y).1 = x ∨ (op x y).1 = y) ∧ le (op x y).1 x ∧ le (op x y).1 y)
include refl chooses

theorem treeLevel_chosen : ∀ l : List α, Chosen le l (treeLevel op l).1
  | [] => ⟨fun _ h => h, fun x h => ⟨x, h, refl x⟩⟩
  | [a] => ⟨fun _ h => h, fun x h => ⟨x, h, refl x⟩⟩
  | a :: b :: t => by
    obtain ⟨inside, below⟩ := treeLevel_chosen t
    obtain ⟨one, first, second⟩ := chooses a b
    refine ⟨fun y h => ?_, fun x h => ?_⟩
    · rcases List.mem_cons.1 h with rfl | h
      · rcases one with e | e <;> simp [e]
      · simp [inside y h]
    · rcases List.mem_cons.1 h with rfl | h
      · exact ⟨_, .head _, first⟩
      · rcases List.mem_cons.1 h with rfl | h
        · exact ⟨_, .head _, second⟩
        · obtain ⟨y, hy, le⟩ := below x h
          exact ⟨y, .tail _ hy, le⟩

include trans

/-- The result is one of the leaves, and at most each of them. -/
theorem treeReduce_chosen (ident : α) (xs : List α) :
    let leaves := xs ++ List.replicate (2 ^ treeDepth xs.length - xs.length) ident
    (treeReduce op ident xs).1 ∈ leaves ∧ ∀ x ∈ leaves, le (treeReduce op ident xs).1 x := by
  intro leaves
  have keeps (l : List α) (h : Chosen le leaves l) : Chosen le leaves (treeLevel op l).1 := by
    obtain ⟨inside, below⟩ := treeLevel_chosen refl chooses l
    refine ⟨fun y hy => h.1 y (inside y hy), fun x hx => ?_⟩
    obtain ⟨y, hy, first⟩ := h.2 x hx
    obtain ⟨z, hz, second⟩ := below y hy
    exact ⟨z, hz, trans z y x second first⟩
  obtain ⟨inside, below⟩ := treeReduce_keeps keeps ident xs ⟨fun y h => h, fun x h => ⟨x, h, refl x⟩⟩
  exact ⟨inside _ (.head _), fun x hx => by simpa using below x hx⟩

/-- Over leaves that are the identity where they are inactive, the result is at most each active one, and is one of them if there is any. -/
theorem treeReduce_active (antisymm : ∀ x y, le x y → le y x → x = y) {ident : α} (top : ∀ x, le x ident) (n : Nat) (act : Nat → Bool)
    (val : Nat → α) :
    let r := (treeReduce op ident ((List.range n).map fun k => if act k then val k else ident)).1
    (∀ k, k < n → act k = true → le r (val k)) ∧ ((∃ k, k < n ∧ act k = true ∧ r = val k) ∨ (∀ k, k < n → act k = false) ∧ r = ident) := by
  intro r
  obtain ⟨inside, below⟩ := treeReduce_chosen refl trans chooses ident ((List.range n).map fun k => if act k then val k else ident)
  have least (k : Nat) (hk : k < n) (ha : act k = true) : le r (val k) :=
    below _ (List.mem_append_left _ (List.mem_map.2 ⟨k, List.mem_range.2 hk, if_pos ha⟩))
  have value : (∃ k, k < n ∧ act k = true ∧ r = val k) ∨ r = ident := by
    rcases List.mem_append.1 inside with h | h
    · obtain ⟨k, hk, e⟩ := List.mem_map.1 h
      cases ha : act k with
      | true => exact .inl ⟨k, List.mem_range.1 hk, ha, by simpa [ha] using e.symm⟩
      | false => exact .inr (by simpa [ha] using e.symm)
    · exact .inr (List.eq_of_mem_replicate h)
  refine ⟨least, ?_⟩
  rcases value with one | last
  · exact .inl one
  · by_cases any : ∃ k, k < n ∧ act k = true
    · obtain ⟨k, hk, ha⟩ := any
      exact .inl ⟨k, hk, ha, antisymm _ _ (least k hk ha) (last ▸ top _)⟩
    · exact .inr ⟨fun k hk => by simpa using fun h => any ⟨k, hk, h⟩, last⟩

end

/-! ## Integer reductions (R158) -/

/-- The integer a 32-bit node stands for. -/
def nodeInt (uns : Bool) (x : BitVec 32) : Int := if uns then x.toNat else x.toInt

theorem nodeInt_inj {uns : Bool} {x y : BitVec 32} (h : nodeInt uns x = nodeInt uns y) : x = y := by
  cases uns with
  | false => exact BitVec.eq_of_toInt_eq h
  | true => exact BitVec.eq_of_toNat_eq (Int.ofNat.inj h)

theorem ofInt_nodeInt (uns : Bool) (x : BitVec 32) : BitVec.ofInt 32 (nodeInt uns x) = x := by
  cases uns <;> simp [nodeInt]

theorem wrapped_eq (r : Int) (uns : Bool) :
    wrapped r true uns = if uns then (BitVec.ofInt 32 r).setWidth 64 else (BitVec.ofInt 32 r).signExtend 64 := by
  have low : (r % (2 ^ wide true : Nat)).toNat = (BitVec.ofInt 32 r).toNat := (BitVec.toNat_ofInt r).symm
  simp only [wrapped, low]
  generalize BitVec.ofInt 32 r = x
  have hx := x.isLt
  refine BitVec.eq_of_toNat_eq ?_
  cases uns with
  | true => simp
  | false =>
    rw [if_neg Bool.false_ne_true, BitVec.toNat_signExtend, BitVec.msb_eq_decide, BitVec.toNat_setWidth]
    by_cases h : x.toNat < 2 ^ 31
    · rw [if_pos (by simpa [wide] using h), if_neg (by simpa using h), BitVec.toNat_ofNat]
      omega
    · rw [if_neg (by simpa [wide] using h), if_pos (by simpa using h), BitVec.toNat_ofNat]
      simp only [wide, if_true]
      omega

theorem nodeInt_ofInt {uns : Bool} {v : Int} (h : if uns then 0 ≤ v ∧ v < 2 ^ 32 else -2 ^ 31 ≤ v ∧ v < 2 ^ 31) : nodeInt uns (BitVec.ofInt 32 v) = v := by
  cases uns with
  | false =>
    simp at h
    simp only [nodeInt, Bool.false_eq_true, if_false]
    exact BitVec.toInt_ofInt_eq_self (by decide) (by omega) (by omega)
  | true =>
    simp at h
    simp [nodeInt]
    omega

theorem laneInt_range {t x : Nat} (ht : typeW t ≤ 32) (hx : x < 2 ^ typeW t) :
    if decide (t % 2 = 1) then 0 ≤ laneInt t x ∧ laneInt t x < 2 ^ 32 else -2 ^ 31 ≤ laneInt t x ∧ laneInt t x < 2 ^ 31 := by
  have whole : 2 ^ typeW t ≤ 2 ^ 32 := Nat.pow_le_pow_right (by decide) ht
  have half : 2 ^ (typeW t - 1) ≤ 2 ^ 31 := Nat.pow_le_pow_right (by decide) (by omega)
  have halves : 2 ^ typeW t ≤ 2 * 2 ^ (typeW t - 1) := by
    rw [← Nat.pow_succ']
    exact Nat.pow_le_pow_right (by decide) (by omega)
  unfold laneInt
  by_cases signed : t % 2 = 0
  · rw [if_neg (by simp [signed])]
    split
    · omega
    · omega
  · rw [if_pos (by simp; omega), if_neg (by omega)]
    omega

theorem intRound_add (uns : Bool) (x y : BitVec 32) : (RedOp.add.intRound uns x y).1 = x + y := rfl

theorem intRound_min (uns : Bool) (x y : BitVec 32) : (RedOp.min.intRound uns x y).1 = if nodeInt uns x < nodeInt uns y then x else y := by
  cases uns <;> simp [RedOp.intRound, nodeInt]

theorem intRound_max (uns : Bool) (x y : BitVec 32) : (RedOp.max.intRound uns x y).1 = if nodeInt uns x < nodeInt uns y then y else x := by
  cases uns <;> simp [RedOp.intRound, nodeInt]

theorem intIdent_min (uns : Bool) (x : BitVec 32) : nodeInt uns x ≤ nodeInt uns (RedOp.min.intIdent uns) := by
  cases uns with
  | false => have := x.toInt_lt; simp [nodeInt, RedOp.intIdent]; omega
  | true => have := x.isLt; simp [nodeInt, RedOp.intIdent]; omega

theorem intIdent_max (uns : Bool) (x : BitVec 32) : nodeInt uns (RedOp.max.intIdent uns) ≤ nodeInt uns x := by
  cases uns with
  | false => have := x.le_toInt; simp [nodeInt, RedOp.intIdent]; omega
  | true => simp [nodeInt, RedOp.intIdent]

/-! ## The instructions (R158) -/

variable {s : State}

/-- Element k of a reduction is active. -/
def counted (s : State) (f : VWord) (k : Nat) : Bool := !f.pen || (s.pre.pReg f.pg.toNat).val.getLsbD (typeW f.typ.toNat * k / 8)

/-- The root of an integer reduction, on 32 bits. -/
def reducedInt (s : State) (f : VWord) (op : RedOp) : BitVec 32 :=
  (treeReduce (op.intRound (decide (f.typ.toNat % 2 = 1))) (op.intIdent (decide (f.typ.toNat % 2 = 1)))
    ((List.range (4096 / typeW f.typ.toNat)).map fun k =>
      if counted s f k then BitVec.ofInt 32 (laneInt f.typ.toNat (laneA s f k)) else op.intIdent (decide (f.typ.toNat % 2 = 1)))).1

/-- The root of a floating-point reduction, with its conditions. -/
def reducedFp (s : State) (f : VWord) (op : RedOp) : Nat × Fl :=
  treeReduce (op.fpRound .f32 s.pre.exposed) (op.fpIdent .f32) ((List.range (4096 / typeW f.typ.toNat)).map fun k =>
    if counted s f k then
      (if f.typ.toNat = 12 then laneA s f k else (Fmt.f32.round {} ((fmtOf f.typ.toNat).read s.pre.exposed (laneA s f k))).1)
    else op.fpIdent .f32)

/-- Value and conditions that a reduction writes. -/
def reduced (s : State) (f : VWord) (op : RedOp) : DWord × Fl :=
  if typeIsFp f.typ.toNat then (BitVec.ofNat 64 (reducedFp s f op).1, (reducedFp s f op).2)
  else (wrapped (nodeInt (decide (f.typ.toNat % 2 = 1)) (reducedInt s f op)) true (decide (f.typ.toNat % 2 = 1)), 0)

theorem reduce_ready {f : VWord} (op : RedOp) (ha : Readable s (.v f.va.toNat)) (hp : f.pen = true → Readable s (.p f.pg.toNat))
    (hd : Readable s (.s f.vd.toNat)) :
    reduce s f op = .ok ((s.produce (.s f.vd.toNat) (reduced s f op).1.toNat
      ((s.pre.vReg f.va.toNat).taint ||| (if f.pen then (s.pre.pReg f.pg.toNat).taint else 0)) (5 + treeDepth (4096 / typeW f.typ.toNat))
      (reduced s f op).2 true).upd fun c => { c with vxFree := s.now + 2 }) := by
  have source := Rep.src_ready (s := s) (k := 0) [] true (fun _ => ha) f.ea
  have uns : (!typeSigned f.typ.toNat) = decide (f.typ.toNat % 2 = 1) := by
    unfold typeSigned
    rcases Nat.mod_two_eq_zero_or_one f.typ.toNat with h | h <;> simp [h]
  have leaves {β : Type} (val : Nat → β) (ident : β) :
      ((List.range (4096 / typeW f.typ.toNat)).map fun k =>
        if activeIn (if f.pen then (s.pre.pReg f.pg.toNat).val else BitVec.allOnes 512) (typeW f.typ.toNat) k then val k else ident) =
      (List.range (4096 / typeW f.typ.toNat)).map fun k => if counted s f k then val k else ident :=
    List.map_congr_left fun k hk => by rw [activeIn_pred _ _ (List.mem_range.1 hk)]; rfl
  simp only [reduce, source, predOf_ready hp, destOk_readable hd, eff_ok_bind, if_true, uns, fileOf_nil, List.map_map, Function.comp_def, leaves,
    intOf_elem, reduced, reducedFp, reducedInt, wrapped_eq, ofInt_nodeInt, laneA]

theorem reduceRule_type {i : Instr} {f : VWord} {op : RedOp} (rule : reduceRule i = some (f, op)) (accepts : Accepts s i) :
    (∀ s, exec i s = run i s fun s => reduce s f op) ∧ f.typ.toNat ≤ 12 := by
  have wf := wf_of_accepts accepts
  unfold reduceRule at rule
  split at rule <;> cases rule
  all_goals
    simp only [Instr.wf, VWord.fits, TyClass.has, typeIsFp, Bool.and_eq_true, Bool.or_eq_true, decide_eq_true_eq] at wf
    exact ⟨fun _ => rfl, by omega⟩

theorem treeDepth_type {t : Nat} (h : t ≤ 12) : treeDepth (4096 / typeW t) =
    if 4096 / typeW t = 1024 then 10 else if 4096 / typeW t = 512 then 9 else if 4096 / typeW t = 256 then 8 else 7 := by
  interval_cases t <;> decide

theorem typeW_le {t : Nat} (h : t ≤ 12) : typeW t ≤ 32 := by
  interval_cases t <;> decide

/-! ## What an integer reduction is -/

theorem counted_iff (f : VWord) (k : Nat) : counted s f k = true ↔ active s f k := (active_iff s f k).symm

theorem counted_eq_false (f : VWord) (k : Nat) : counted s f k = false ↔ ¬active s f k := by
  rw [← counted_iff, Bool.not_eq_true]

theorem nodeInt_lane {f : VWord} (ht : f.typ.toNat ≤ 12) (k : Nat) :
    nodeInt (decide (f.typ.toNat % 2 = 1)) (BitVec.ofInt 32 (laneInt f.typ.toNat (laneA s f k))) = laneInt f.typ.toNat (laneA s f k) :=
  nodeInt_ofInt (laneInt_range (typeW_le ht) (elem_lt _ _ _))

theorem sum_ofInt (g : Nat → Int) (l : List Nat) : (l.map fun k => BitVec.ofInt 32 (g k)).sum = BitVec.ofInt 32 (l.map g).sum := by
  induction l with
  | nil => rfl
  | cons k l ih => simp [ih, BitVec.ofInt_add]

theorem reducedInt_add (f : VWord) :
    reducedInt s f .add = BitVec.ofInt 32 ((List.range (4096 / typeW f.typ.toNat)).map fun k => if counted s f k then laneInt f.typ.toNat (laneA s f k) else 0).sum := by
  rw [← sum_ofInt]
  refine (treeReduce_sum (intRound_add _) _).trans (congrArg List.sum (List.map_congr_left fun k _ => ?_))
  cases counted s f k <;> rfl

theorem reducedInt_min {f : VWord} (ht : f.typ.toNat ≤ 12) :
    let t := f.typ.toNat
    let n := 4096 / typeW t
    let r := nodeInt (decide (t % 2 = 1)) (reducedInt s f .min)
    (∀ k, k < n → active s f k → r ≤ laneInt t (laneA s f k)) ∧
      ((∃ k, k < n ∧ active s f k ∧ r = laneInt t (laneA s f k)) ∨
        (∀ k, k < n → ¬active s f k) ∧ r = if t % 2 = 1 then 2 ^ 32 - 1 else 2 ^ 31 - 1) := by
  intro t n r
  obtain ⟨least, one⟩ := treeReduce_active (op := RedOp.min.intRound (decide (t % 2 = 1))) (le := fun x y => nodeInt (decide (t % 2 = 1)) x ≤ nodeInt (decide (t % 2 = 1)) y)
    (fun _ => Int.le_refl _) (fun _ _ _ => Int.le_trans)
    (fun x y => by rw [intRound_min]; split <;> simp <;> omega)
    (fun _ _ h h' => nodeInt_inj (Int.le_antisymm h h')) (intIdent_min _) n (counted s f) fun k => BitVec.ofInt 32 (laneInt t (laneA s f k))
  simp only [counted_iff, counted_eq_false, t, nodeInt_lane ht] at least one
  refine ⟨least, one.imp (fun ⟨k, hk, act, e⟩ => ⟨k, hk, act, (congrArg _ e).trans (nodeInt_lane ht k)⟩)
    fun ⟨idle, e⟩ => ⟨idle, (congrArg (nodeInt (decide (f.typ.toNat % 2 = 1))) e).trans ?_⟩⟩
  by_cases odd : f.typ.toNat % 2 = 1 <;> simp [t, odd, nodeInt, RedOp.intIdent]

theorem reducedInt_max {f : VWord} (ht : f.typ.toNat ≤ 12) :
    let t := f.typ.toNat
    let n := 4096 / typeW t
    let r := nodeInt (decide (t % 2 = 1)) (reducedInt s f .max)
    (∀ k, k < n → active s f k → laneInt t (laneA s f k) ≤ r) ∧
      ((∃ k, k < n ∧ active s f k ∧ r = laneInt t (laneA s f k)) ∨
        (∀ k, k < n → ¬active s f k) ∧ r = if t % 2 = 1 then 0 else -(2 ^ 31)) := by
  intro t n r
  obtain ⟨most, one⟩ := treeReduce_active (op := RedOp.max.intRound (decide (t % 2 = 1))) (le := fun x y => nodeInt (decide (t % 2 = 1)) y ≤ nodeInt (decide (t % 2 = 1)) x)
    (fun _ => Int.le_refl _) (fun _ _ _ h h' => Int.le_trans h' h)
    (fun x y => by rw [intRound_max]; split <;> simp <;> omega)
    (fun _ _ h h' => nodeInt_inj (Int.le_antisymm h' h)) (intIdent_max _) n (counted s f) fun k => BitVec.ofInt 32 (laneInt t (laneA s f k))
  simp only [counted_iff, counted_eq_false, t, nodeInt_lane ht] at most one
  refine ⟨most, one.imp (fun ⟨k, hk, act, e⟩ => ⟨k, hk, act, (congrArg _ e).trans (nodeInt_lane ht k)⟩)
    fun ⟨idle, e⟩ => ⟨idle, (congrArg (nodeInt (decide (f.typ.toNat % 2 = 1))) e).trans ?_⟩⟩
  by_cases odd : f.typ.toNat % 2 = 1 <;> simp [t, odd, nodeInt, RedOp.intIdent]

end Sys2Proof.Machine
end


section
set_option Elab.async false
/-! OBLIGATION O16. -/

namespace Sys2Proof.Machine

/-- Settles O16: the tree over integers is the wrapped sum, or chooses an extreme leaf; over FP32 it is the statement's. -/
theorem reductions : Obligations.Reductions := by
  unfold Obligations.Reductions
  intro s i f op rule accepts ha hp hd t n m
  obtain ⟨meaning, ht⟩ := reduceRule_type rule accepts
  have next := exec_of_body accepts meaning (reduce_ready op ha hp hd)
  rw [treeDepth_type ht] at next
  refine ⟨(reduced s f op).1, (reduced s f op).2, next, fun int => ?_, fun fp => ?_⟩
  · simp only [reduced, t, int, Bool.false_eq_true, if_false, true_and]
    cases op with
    | add => exact ⟨_, by rw [reducedInt_add, wrapped_eq, wrapped_eq, ofInt_nodeInt]; rfl, rfl⟩
    | min => exact ⟨_, rfl, reducedInt_min ht⟩
    | max => exact ⟨_, rfl, reducedInt_max ht⟩
  · simp only [reduced, t, fp, if_true]
    exact ⟨rfl, rfl⟩

end Sys2Proof.Machine
end


section
set_option Elab.async false
/-! SUPPORT. What a read of a control register returns (R136, R204 to R211, R429, R431). -/

namespace Sys2Proof.Machine

variable {s : State}

/-! ## Tags and streams (R123, R196) -/

theorem getLsbD_tagMask {l : List Nat} {j : Nat} (h : j < 16) : (tagMask l).getLsbD j = decide (j ∈ l) := by
  unfold tagMask
  rw [getLsbD_foldl_or, Bool.eq_iff_iff, List.any_eq_true, decide_eq_true_iff]
  simp only [tagBit, BitVec.getLsbD_ofNat, Nat.testBit_two_pow, h, decide_true, Bool.true_and, decide_eq_true_iff, exists_eq_right]

theorem getLsbD_tagsIn (c : Core) (f : Tag → Bool) {j : Nat} (h : j < 16) : (tagMask (c.tagsIn f)).getLsbD j = f (c.tag j) := by
  rw [getLsbD_tagMask h, Bool.eq_iff_iff, decide_eq_true_iff]
  simp [Core.tagsIn, h]

/-- `TAG_STAT` is four masks of 16 bits (R123). -/
theorem Core.tagStat_packed (c : Core) (ct : Taint) : c.tagStat ct = packElems 16 [ct.toNat, c.pendingMask.toNat,
    (tagMask (c.tagsIn fun t => decide (t.st = .bound))).toNat, (tagMask (c.tagsIn fun t => t.hold)).toNat] := by
  simp only [Core.tagStat, packElems, Nat.mod_eq_of_lt (BitVec.isLt _)]
  omega

theorem Core.tagStat_bit (c : Core) (ct : Taint) {j : Nat} (h : j < 16) : (c.tagStat ct).testBit j = ct.getLsbD j ∧
    (c.tagStat ct).testBit (16 + j) = decide ((c.tag j).st = .pending) ∧ (c.tagStat ct).testBit (32 + j) = decide ((c.tag j).st = .bound) ∧
    (c.tagStat ct).testBit (48 + j) = (c.tag j).hold := by
  have field (k : Nat) : (c.tagStat ct).testBit (16 * k + j) = _ := c.tagStat_packed ct ▸ testBit_packElems (by decide) _ (16 * k + j)
  simp only [Nat.mul_add_div (show 0 < 16 by decide), Nat.div_eq_of_lt h, Nat.mul_add_mod, Nat.mod_eq_of_lt h] at field
  refine ⟨(congrArg _ (Nat.zero_add j).symm).trans (field 0), ?_, ?_, ?_⟩
  · rw [← getLsbD_tagsIn c (fun t => decide (t.st = .pending)) h]; exact field 1
  · rw [← getLsbD_tagsIn c (fun t => decide (t.st = .bound)) h]; exact field 2
  · rw [← getLsbD_tagsIn c (fun t => t.hold) h]; exact field 3

theorem Core.tagStat_lt (c : Core) (ct : Taint) : c.tagStat ct < 2 ^ 64 := by
  have := ct.isLt
  have := c.pendingMask.isLt
  have := (tagMask (c.tagsIn fun t => decide (t.st = .bound))).isLt
  have := (tagMask (c.tagsIn fun t => t.hold)).isLt
  unfold Core.tagStat
  omega

theorem packElems_lt (w : Nat) (l : List Nat) : packElems w l < 2 ^ (w * l.length) := by
  induction l with
  | nil => simp [packElems]
  | cons x l ih =>
    have := Nat.mod_lt x (Nat.two_pow_pos w)
    have := Nat.mul_le_mul_left (2 ^ w) ih
    rw [packElems, List.length_cons, Nat.mul_succ, Nat.add_comm (w * _), Nat.pow_add]
    rw [Nat.mul_succ] at this
    omega

theorem Core.tagGen_lt (c : Core) : c.tagGen < 2 ^ 48 :=
  (packElems_lt 3 _).trans_eq (by simp)

theorem Core.tagGen_field (c : Core) {j : Nat} (h : j < 16) : c.tagGen / 8 ^ j % 8 = (c.tag j).gen.toNat := by
  have field := packElems_elem 3 ((List.range 16).map fun j => (c.tag j).gen.toNat) j
  rw [Nat.pow_mul] at field
  refine field.trans ?_
  simp [List.getD_eq_getElem?_getD, List.getElem?_range h, Nat.mod_eq_of_lt (c.tag j).gen.isLt]

theorem Regs.streamTaint_bit (r : Regs) (n j : Nat) :
    (r.streamTaint n).getLsbD j = true ↔ ∃ k, k < 4 ∧ (Tbl.getD r.sd (n * 4 + k) {}).taint.getLsbD j = true := by
  unfold Regs.streamTaint
  rw [getLsbD_foldl_or, List.any_eq_true]
  simp [Nat.mul_comm 4]

/-! ## The state a read sees (R76) -/

/-- The unit before the group, with the registers that sources read. -/
def State.crView (s : State) : State := s.prior.updAt s.cur fun c => { c with pre := s.pre }

theorem State.prior_now : s.prior.now = s.now := by unfold State.prior; split <;> rfl

theorem State.prior_cur : s.prior.cur = s.cur := by unfold State.prior; split <;> rfl

theorem State.prior_fabric : s.prior.fabric = s.fabric := by unfold State.prior; split <;> rfl

theorem State.core_crView : s.crView.core = { s.prior.core with pre := s.pre } := by
  unfold State.crView State.core
  rw [State.updAt_cur, State.prior_cur, State.coreAt_updAt_same]

/-- The register reads as the number x, with no taint. -/
def CrReads (s : State) (n x : Nat) : Prop := (s.readCr n).1.toNat = x % 2 ^ 64 ∧ (s.readCr n).2 = 0

/-- A number of the unit that its registers have no part in. -/
theorem crReads_nat {n : Nat} (field : Core → Nat) (read : s.readCr n = (BitVec.ofNat 64 (field s.crView.core), 0))
    (free : ∀ c r, field { c with pre := r } = field c) : CrReads s n (field s.prior.core) := by
  unfold CrReads
  rw [read, State.core_crView, free]
  exact ⟨rfl, rfl⟩

/-- A word of the unit that its registers have no part in. -/
theorem crReads_word {n : Nat} (field : Core → DWord) (read : s.readCr n = (field s.crView.core, 0))
    (free : ∀ c r, field { c with pre := r } = field c) : CrReads s n (field s.prior.core).toNat := by
  unfold CrReads
  rw [read, State.core_crView, free]
  exact ⟨(Nat.mod_eq_of_lt (BitVec.isLt _)).symm, rfl⟩

/-- A field of the running task's record. -/
theorem crReads_task {n : Nat} (field : Record → Nat) (read : s.readCr n = (BitVec.ofNat 64 (s.crView.core.ofTask field), 0)) :
    (∀ k, s.prior.core.task = some k → CrReads s n (field k.r)) ∧ (s.prior.core.task = none → CrReads s n 0) := by
  have reads := crReads_nat (fun c => c.ofTask field) read fun _ _ => rfl
  constructor
  · intro k running
    simpa only [Core.ofTask, running] using reads
  · intro idle
    simpa only [Core.ofTask, idle] using reads

theorem crReads_coreId : (s.cur / 128 / 32 ∈ s.fabric → CrReads s 0 (coreIdRule (s.cur / 128 / 32) s.cur)) ∧
    (s.cur / 128 / 32 ∉ s.fabric → CrReads s 0 (coreIdRule 0 s.cur)) := by
  have read : CrReads s 0 (s.crView.coreId s.crView.cur) := ⟨rfl, rfl⟩
  have fabric : s.crView.fabric = s.fabric := State.prior_fabric
  have cur : s.crView.cur = s.cur := State.prior_cur
  constructor <;> intro known <;>
    simpa [State.coreId, fabric, cur, known, dieOf, isControl, coreIdRule] using read

/-! A number in a range names one of a row of registers. -/

section
variable {n : Nat}

theorem pre_crView : s.crView.core.pre = s.pre := by rw [State.core_crView]

theorem readCr_bTarget (lo : 0x018 ≤ n) (hi : n < 0x020) : s.readCr n = (s.pre.bReg (n - 0x018)).pair := by
  rw [← pre_crView]
  exact if_pos ⟨lo, hi⟩

theorem readCr_stream (lo : 0x040 ≤ n) (hi : n < 0x080) :
    s.readCr n = ((Tbl.getD s.pre.sd (n - 0x040) {}).val, s.pre.streamTaint ((n - 0x040) / 4)) := by
  rw [← pre_crView]
  exact (if_neg (by omega)).trans (if_pos ⟨lo, hi⟩)

theorem readCr_copyStaging (lo : 0x080 ≤ n) (hi : n < 0x0A0) : s.readCr n = (Tbl.getD s.pre.ck (n - 0x080) {}).pair := by
  rw [← pre_crView]
  exact (if_neg (by omega)).trans ((if_neg (by omega)).trans (if_pos ⟨lo, hi⟩))

theorem readCr_collectiveStaging (lo : 0x0A0 ≤ n) (hi : n < 0x0B0) : s.readCr n = (Tbl.getD s.pre.cl (n - 0x0A0) {}).pair := by
  rw [← pre_crView]
  exact (if_neg (by omega)).trans ((if_neg (by omega)).trans ((if_neg (by omega)).trans (if_pos ⟨lo, hi⟩)))

theorem crReads_counter (lo : 0x0C0 ≤ n) (hi : n < 0x0C8) : CrReads s n (Tbl.getD s.prior.core.pmc (n - 0x0C0) 0).toNat :=
  crReads_word (fun c => Tbl.getD c.pmc (n - 0x0C0) 0) ((if_neg (by omega)).trans ((if_neg (by omega)).trans ((if_neg (by omega)).trans
    ((if_neg (by omega)).trans (if_pos ⟨lo, hi⟩))))) fun _ _ => rfl

theorem crReads_counterEvent (lo : 0x0C8 ≤ n) (hi : n < 0x0D0) : CrReads s n (Tbl.getD s.prior.core.pmsel (n - 0x0C8) 0).toNat :=
  crReads_word (fun c => Tbl.getD c.pmsel (n - 0x0C8) 0) ((if_neg (by omega)).trans ((if_neg (by omega)).trans ((if_neg (by omega)).trans
    ((if_neg (by omega)).trans ((if_neg (by omega)).trans (if_pos ⟨lo, hi⟩)))))) fun _ _ => rfl

end

/-! Registers that show more than the unit. -/

theorem crReads_cycle : CrReads s 0x020 (s.now - (s.prior.dieAt (s.cur / 128)).since) := by
  have read : CrReads s 0x020 (s.prior.now - (s.prior.dieAt (dieOf s.prior.cur)).since) := ⟨rfl, rfl⟩
  rwa [State.prior_now, State.prior_cur] at read

/-- A field of the running task's context. -/
theorem crReads_context {n : Nat} (field : Ctx → Nat)
    (read : s.readCr n = (BitVec.ofNat 64 (s.crView.core.ofTask fun r => field (s.prior.ctxAt (dieOf s.prior.cur) r.ctx)), 0)) :
    (∀ k, s.prior.core.task = some k → CrReads s n (field (s.prior.ctxAt (s.cur / 128) k.r.ctx))) ∧ (s.prior.core.task = none → CrReads s n 0) := by
  rw [State.prior_cur] at read
  exact crReads_task _ read

theorem crReads_partition : CrReads s 0x201 (s.prior.dieAt (s.cur / 128)).partition := by
  have read : CrReads s 0x201 (s.prior.dieAt (dieOf s.prior.cur)).partition := ⟨rfl, rfl⟩
  rwa [State.prior_cur] at read

theorem crReads_pinLost : CrReads s 0x030 (if s.prior.core.pinLost then 1 else 0) := by
  have read : CrReads s 0x030 s.prior.core.pinLost.toNat := crReads_nat (fun c => c.pinLost.toNat) rfl fun _ _ => rfl
  cases lost : s.prior.core.pinLost <;> simpa [lost] using read

theorem crReads_traceStat : CrReads s 0x0D1
    ((if s.prior.core.traceStopped then 2 ^ 15 else 0) + (if s.prior.core.traceWrapped then 2 ^ 14 else 0) + s.prior.core.traceW % 2 ^ 14) := by
  have read : CrReads s 0x0D1 s.prior.core.traceStat := crReads_nat Core.traceStat rfl fun _ _ => rfl
  rw [Core.traceStat] at read
  cases stopped : s.prior.core.traceStopped <;> cases wrapped : s.prior.core.traceWrapped <;> simpa [stopped, wrapped] using read

theorem crReads_tagStat : (s.readCr 0x010).2 = 0 ∧ (s.readCr 0x010).1.toNat = s.prior.core.tagStat s.pre.ct := by
  have read : s.readCr 0x010 = (BitVec.ofNat 64 (s.crView.core.tagStat s.crView.core.pre.ct), 0) := rfl
  rw [read, State.core_crView, BitVec.toNat_ofNat, Nat.mod_eq_of_lt (Core.tagStat_lt _ _)]
  exact ⟨rfl, rfl⟩

theorem crReads_tagGen : (s.readCr 0x011).2 = 0 ∧ (s.readCr 0x011).1.toNat = s.prior.core.tagGen := by
  have read : s.readCr 0x011 = (BitVec.ofNat 64 s.crView.core.tagGen, 0) := rfl
  rw [read, State.core_crView, BitVec.toNat_ofNat, Nat.mod_eq_of_lt ((Core.tagGen_lt _).trans (by decide))]
  exact ⟨rfl, rfl⟩

/-! ## The instruction -/

theorem exec_crRead {i : Instr} {f : CrK} (reads : crRead i = some f) (accepts : Accepts s i) (dest : Readable s (.s f.r.toNat))
    (settled : f.crn.toNat = 0x002 → s.pre.exposed = true ∨ fpPending s = false) :
    exec i s = .next (s.result (.s f.r.toNat) (s.readCr f.crn.toNat).1.toNat (s.readCr f.crn.toNat).2 2 0) := by
  have meaning : ∀ s, exec i s = run i s fun s => moveFromCr s f.r f.crn.toNat := by
    unfold crRead at reads
    split at reads
    · cases reads; exact fun _ => rfl
    · cases reads; exact fun _ => rfl
    · cases reads
  refine exec_of_body accepts meaning ?_
  have waits : (!(decide (f.crn.toNat = 0x002) && !s.pre.exposed && s.prior.core.vectorBusy)) = true := by
    by_cases h : f.crn.toNat = 0x002
    · rcases settled h with e | e
      · simp [e]
      · rw [show s.prior.core.vectorBusy = false from e, Bool.and_false]; rfl
    · simp [h]
  rw [moveFromCr, waits, need_true, eff_ok_bind, dstS_readable dest, eff_ok_bind]
  rfl

end Sys2Proof.Machine
end


section
set_option Elab.async false
/-! SUPPORT. What a write of a control register changes (R136, R206, R429, R431). -/

namespace Sys2Proof.Machine

variable {s : State}

/-! ## Fields of a word -/

theorem testBit_bits (x : DWord) (hi lo k : Nat) : (bits x hi lo).testBit k = (decide (k < hi - lo + 1) && x.getLsbD (lo + k)) := by
  rw [bits, Nat.testBit_mod_two_pow, Nat.testBit_div_two_pow, Nat.add_comm k lo]
  rfl

theorem getLsbD_setBits (x : DWord) {hi lo : Nat} (v : Nat) (order : lo ≤ hi) (inside : hi < 64) (k : Nat) :
    (setBits x hi lo v).getLsbD k = if lo ≤ k ∧ k ≤ hi then v.testBit (k - lo) else x.getLsbD k := by
  have low := Nat.mod_lt x.toNat (Nat.two_pow_pos lo)
  have mid := Nat.mod_lt v (Nat.two_pow_pos (hi - lo + 1))
  have width : 2 ^ lo * 2 ^ (hi - lo + 1) = 2 ^ (hi + 1) := by rw [← Nat.pow_add]; congr 1; omega
  have inner : 2 ^ lo * (v % 2 ^ (hi - lo + 1)) + x.toNat % 2 ^ lo < 2 ^ (hi + 1) := by
    have := Nat.mul_le_mul_left (2 ^ lo) mid
    rw [Nat.mul_succ] at this
    omega
  have shape : x.toNat % 2 ^ lo + (v % 2 ^ (hi - lo + 1)) * 2 ^ lo + x.toNat / 2 ^ (hi + 1) * 2 ^ (hi + 1) =
      2 ^ (hi + 1) * (x.toNat / 2 ^ (hi + 1)) + (2 ^ lo * (v % 2 ^ (hi - lo + 1)) + x.toNat % 2 ^ lo) := by ring
  rw [setBits, BitVec.getLsbD_ofNat, shape, Nat.testBit_two_pow_mul_add _ inner, Nat.testBit_two_pow_mul_add _ low]
  simp only [Nat.testBit_mod_two_pow, Nat.testBit_div_two_pow]
  rcases Nat.lt_or_ge k 64 with small | large
  · by_cases above : hi < k
    · rw [if_neg (by omega), if_neg (by omega), Nat.sub_add_cancel above, decide_eq_true small]
      rfl
    · rw [if_pos (by omega)]
      by_cases below : k < lo
      · rw [if_pos below, if_neg (by omega), decide_eq_true small, decide_eq_true below]
        rfl
      · rw [if_neg below, if_pos (by omega), decide_eq_true small, decide_eq_true (by omega)]
        rfl
  · rw [if_neg (by omega), BitVec.getLsbD_of_ge x k large, decide_eq_false (by omega), Bool.false_and]
    exact (if_neg (by omega)).symm

/-- The two low bits go (R114, R210). -/
theorem align4_eq_shifts (v : DWord) : align4 v = v >>> 2 <<< 2 := by
  have mask : ~~~3#64 = BitVec.allOnes 64 <<< 2 := by decide
  refine BitVec.eq_of_getLsbD_eq fun k hk => ?_
  simp only [align4, mask, BitVec.getLsbD_and, BitVec.getLsbD_shiftLeft, BitVec.getLsbD_ushiftRight, BitVec.getLsbD_allOnes]
  by_cases low : k < 2
  · simp [low]
  · rw [Nat.add_sub_cancel' (Nat.not_lt.mp low)]
    simp [low, hk, (Nat.sub_le k 2).trans_lt hk]

theorem toNat_align4 (v : DWord) : (align4 v).toNat = v.toNat / 4 * 4 := by
  have := v.isLt
  rw [align4_eq_shifts, BitVec.toNat_shiftLeft, BitVec.toNat_ushiftRight, Nat.shiftRight_eq_div_pow, Nat.shiftLeft_eq]
  omega

theorem toBytes_eq_map (n x : Nat) : toBytes n x = (List.range n).map fun k => BitVec.ofNat 8 (x / 256 ^ k) := by
  induction n generalizing x with
  | zero => rfl
  | succ n ih =>
    rw [toBytes, ih, List.range_succ_eq_map, List.map_cons, List.map_map]
    simp [Function.comp_def, Nat.div_div_eq_div_mul, Nat.pow_succ']

theorem pmselWrite_bit (old v : DWord) (j : Nat) :
    (pmselWrite old v).getLsbD j = if j = 62 then old.getLsbD 62 && !v.getLsbD 62 else decide (j = 63 ∨ j < 8) && v.getLsbD j := by
  have top : bits v 63 63 < 2 ^ 1 := Nat.mod_lt _ (by decide)
  have low : bits v 7 0 < 2 ^ 62 := (Nat.mod_lt _ (by decide)).trans (by decide : 2 ^ 8 < 2 ^ 62)
  have overflow : (if v.getLsbD 62 then 0 else bits old 62 62) < 2 ^ 1 := by
    split
    · decide
    · exact Nat.mod_lt _ (by decide)
  have shape : bits v 63 63 * 2 ^ 63 + (if v.getLsbD 62 then 0 else bits old 62 62) * 2 ^ 62 + bits v 7 0 =
      2 ^ 62 * (2 ^ 1 * bits v 63 63 + if v.getLsbD 62 then 0 else bits old 62 62) + bits v 7 0 := by ring
  rw [pmselWrite, shape, BitVec.getLsbD_ofNat, Nat.testBit_two_pow_mul_add _ low, Nat.testBit_two_pow_mul_add _ overflow, testBit_bits, testBit_bits,
    apply_ite (Nat.testBit · _), testBit_bits]
  rcases Nat.lt_or_ge j 62 with below | above
  · rw [if_pos below, if_neg (by omega), decide_eq_true (by omega : j < 64), Nat.zero_add, Bool.true_and]
    congr 1
    exact decide_eq_decide.mpr (by omega)
  · obtain ⟨k, rfl⟩ := Nat.exists_eq_add_of_le above
    rcases k with _ | _ | k
    · cases v.getLsbD 62 <;> simp
    · simp
    · rw [decide_eq_false (by omega), Bool.false_and, if_neg (by omega), BitVec.getLsbD_of_ge v (62 + (k + 1 + 1)) (by omega), Bool.and_false]

theorem spvWrite_bit (old v : DWord) (j : Nat) :
    (spvWrite old v).getLsbD j = if j = 0 then v.getLsbD 0 else old.getLsbD j && !v.getLsbD 1 := by
  rw [spvWrite, getLsbD_setBits _ _ (Nat.le_refl 0) (by decide)]
  by_cases mode : j = 0
  · rw [if_pos (by omega), if_pos mode, testBit_bits, mode]
    simp
  · rw [if_neg (by omega), if_neg mode]
    cases v.getLsbD 1 <;> simp

/-! ## Counters and the trace (R429, R431) -/

theorem getLsbD_setOverflow (x : DWord) (b : Bool) (j : Nat) : (setBits x 62 62 b.toNat).getLsbD j = if j = 62 then b else x.getLsbD j := by
  rw [getLsbD_setBits _ _ (Nat.le_refl 62) (by decide)]
  by_cases top : j = 62
  · rw [if_pos (by omega), if_pos top, top]
    cases b <;> rfl
  · rw [if_neg (by omega), if_neg top]

theorem addPmc_overflow (c : Core) (n k j : Nat) : (Tbl.getD (c.addPmc n k).pmsel n 0).getLsbD j =
    if j = 62 then decide (2 ^ 64 ≤ (Tbl.getD c.pmc n 0).toNat + k) || (Tbl.getD c.pmsel n 0).getLsbD 62 else (Tbl.getD c.pmsel n 0).getLsbD j := by
  unfold Core.addPmc
  by_cases wraps : 2 ^ 64 ≤ (Tbl.getD c.pmc n 0).toNat + k
  · rw [decide_eq_true wraps, Bool.true_or]
    simp only [wraps, if_true, Tbl.getD_set_same]
    exact getLsbD_setOverflow _ true j
  · rw [decide_eq_false wraps, Bool.false_or]
    simp only [wraps, if_false]
    split
    · next top => rw [top]
    · rfl

theorem setPmc_overflow (c : Core) (n : Nat) (v : DWord) (j : Nat) : (Tbl.getD (c.setPmc n v).pmsel n 0).getLsbD j =
    if j = 62 then !c.ovfNow.contains n && (Tbl.getD c.pmsel n 0).getLsbD 62 else (Tbl.getD c.pmsel n 0).getLsbD j := by
  unfold Core.setPmc
  cases late : c.ovfNow.contains n with
  | true =>
    simp only [if_true, Tbl.getD_set_same]
    exact getLsbD_setOverflow _ false j
  | false =>
    simp only [Bool.false_eq_true, if_false]
    split
    · next top => rw [top]; rfl
    · rfl

/-- A write of a counter, and the events of its cycle after it. -/
theorem addPmc_setPmc (c : Core) (n : Nat) (v : DWord) (k : Nat) :
    let t := (c.setPmc n v).addPmc n k
    t = { c with pmc := t.pmc, pmcNow := t.pmcNow, ovfNow := t.ovfNow, pmsel := t.pmsel } ∧
      (∀ m, Tbl.getD t.pmc m 0 = if m = n then v + BitVec.ofNat 64 k else Tbl.getD c.pmc m 0) ∧
      (∀ m, m ≠ n → Tbl.getD t.pmsel m 0 = Tbl.getD c.pmsel m 0) ∧
      ∀ j, (Tbl.getD t.pmsel n 0).getLsbD j = if j = 62 then
          decide (2 ^ 64 ≤ v.toNat + k) || (!c.ovfNow.contains n && (Tbl.getD c.pmsel n 0).getLsbD 62)
        else (Tbl.getD c.pmsel n 0).getLsbD j := by
  refine ⟨rfl, fun m => ?_, fun m other => ?_, fun j => ?_⟩
  · simp only [Core.addPmc, Core.setPmc, Tbl.getD_set]
    split
    · rw [if_true, BitVec.ofNat_add, BitVec.ofNat_toNat, BitVec.setWidth_eq]
    · rfl
  · simp only [Core.addPmc, Core.setPmc, Tbl.getD_set_same]
    split <;> split <;> simp only [Tbl.getD_set_ne _ _ _ other]
  · have written : Tbl.getD (c.setPmc n v).pmc n 0 = v := Tbl.getD_set_same ..
    rw [addPmc_overflow, setPmc_overflow, setPmc_overflow, written]
    by_cases top : j = 62
    · rw [if_pos top, if_pos top, if_pos rfl]
    · rw [if_neg top, if_neg top, if_neg top]

theorem sync_started (c : Core) (cycle : Nat) (on : c.traceStopped = false) (empty : c.staged = []) (none : c.atoms = []) :
    c.sync cycle = { c with
      staged := 0x10#8 :: ((List.range 8).map fun k => BitVec.ofNat 8 (c.pc / 256 ^ k)) ++ (List.range 6).map fun k => BitVec.ofNat 8 (cycle / 256 ^ k)
      sinceSync := 0, dynB := [] } := by
  have flushed : c.flushAtoms = c := by rw [Core.flushAtoms, none]
  simp only [Core.sync, flushed, Core.traceBytes, on, empty, toBytes_eq_map, Bool.false_eq_true, if_false, List.nil_append]

theorem traceByte_staged (c : Core) (b : Byte) : (c.traceByte b).staged = c.staged := by
  unfold Core.traceByte
  split
  · rfl
  · dsimp only
    split
    · rfl
    · split <;> rfl

theorem traceBytes_staged (bs : List Byte) (c : Core) : (bs.foldl Core.traceByte c).staged = c.staged := by
  induction bs generalizing c with
  | nil => rfl
  | cons b bs ih => rw [List.foldl_cons, ih, traceByte_staged]

theorem writeStaged_all (c : Core) : (c.writeStaged c.staged.length).staged = [] := by
  unfold Core.writeStaged
  dsimp only
  split
  · rfl
  · rw [traceBytes_staged, List.drop_length]

/-- A trace that starts (R431). -/
theorem setTraceCtl_on (c : Core) (cycle : Nat) (v : BitVec 3) (is : v.getLsbD 0 = true) (was : c.traceCtl.getLsbD 0 = false) :
    c.setTraceCtl cycle v = { c with
      traceCtl := v, traceW := 0, traceStopped := false, traceWrapped := false, atoms := [], sinceSync := 0, dynB := []
      staged := 0x10#8 :: ((List.range 8).map fun k => BitVec.ofNat 8 (c.pc / 256 ^ k)) ++ (List.range 6).map fun k => BitVec.ofNat 8 (cycle / 256 ^ k) } := by
  rw [Core.setTraceCtl, if_pos (by rw [is, was]; rfl), sync_started _ _ rfl rfl rfl]

/-- A trace that ends: what is staged is written, and after it END (R431). -/
theorem setTraceCtl_off (c : Core) (cycle : Nat) (v : BitVec 3) (is : v.getLsbD 0 = false) (was : c.traceCtl.getLsbD 0 = true) :
    c.setTraceCtl cycle v = { (c.packet cycle [0xFF#8]).writeStaged (c.packet cycle [0xFF#8]).staged.length with traceCtl := v } := by
  rw [Core.setTraceCtl, if_neg (by rw [is]; simp), if_pos (by rw [is, was]; rfl)]

theorem setTraceCtl_same (c : Core) (cycle : Nat) (v : BitVec 3) (same : v.getLsbD 0 = c.traceCtl.getLsbD 0) :
    c.setTraceCtl cycle v = { c with traceCtl := v } := by
  rw [Core.setTraceCtl, same, Bool.and_not_self, if_neg Bool.false_ne_true, if_neg Bool.false_ne_true]

/-- With nothing staged, END alone is written, in its place. -/
theorem writeEnd (c : Core) (cycle : Nat) (was : c.traceCtl.getLsbD 0 = true) (on : c.traceStopped = false) (empty : c.staged = [])
    (none : c.atoms = []) (recent : c.sinceSync < 1024) (room : c.traceW + 1 < 16384) :
    (c.packet cycle [0xFF#8]).writeStaged (c.packet cycle [0xFF#8]).staged.length =
      { c with traceBuf := Memory.write c.traceBuf c.traceW 0xFF#8, traceW := c.traceW + 1, sinceSync := c.sinceSync + 1 } := by
  have flushed : c.flushAtoms = c := by rw [Core.flushAtoms, none]
  have staged : c.packet cycle [0xFF#8] = { c with staged := [0xFF#8], sinceSync := c.sinceSync + 1 } := by
    simp [Core.packet, was, on, flushed, Nat.not_le.mpr recent, Core.traceBytes, empty]
  simp [staged, Core.writeStaged, Core.traceByte, on, room, empty]

/-! ## The instruction -/

theorem exec_crWrite {i : Instr} {f : CrK} (writes : crWrite i = some f) (accepts : Accepts s i) (source : Readable s (.s f.r.toNat)) :
    exec i s = .next (if s.core.inGroup then s.upd fun c => { c with crw := Tbl.set c.crw f.crn.toNat (s.sv f.r, (s.pre.sReg f.r.toNat).taint) }
      else s.writeCr f.crn.toNat (s.sv f.r) (s.pre.sReg f.r.toNat).taint) := by
  have meaning : ∀ s, exec i s = run i s fun s => moveToCr s f.r f.e f.crn.toNat := by
    unfold crWrite at writes
    split at writes
    · cases writes; exact fun _ => rfl
    · cases writes; exact fun _ => rfl
    · cases writes
  refine exec_of_body accepts meaning ?_
  rw [moveToCr, srcS_readable source, eff_ok_bind]
  rfl

section
variable {n : Nat} (v : DWord) (m : Taint)

/-- Every control register but PARTITION is the unit's own. -/
theorem writeCr_onlyCore (h : n ≠ 0x201) : OnlyCore s (s.writeCr n v m) := by
  unfold State.writeCr
  dsimp only
  split
  · exact State.upd_onlyCore _
  split
  · exact State.live_onlyCore _
  split
  · exact State.live_onlyCore _
  split
  · exact State.upd_onlyCore _
  split
  · exact State.upd_onlyCore _
  split
  · exact State.live_onlyCore _
  · exact State.upd_onlyCore _
  · exact State.upd_onlyCore _
  · exact State.upd_onlyCore _
  · exact State.upd_onlyCore _
  · exact State.upd_onlyCore _
  · exact State.upd_onlyCore _
  · exact State.upd_onlyCore _
  · exact absurd rfl h
  · exact State.upd_onlyCore _
  · exact State.upd_onlyCore _
  · exact OnlyCore.refl s

theorem writeCr_bTarget (lo : 0x018 ≤ n) (hi : n < 0x020) : s.writeCr n v m = s.upd fun c => { c with
    live := c.live.setB (n - 0x018) ⟨align4 v, m⟩, dynB := (n - 0x018) :: c.dynB, bWrote := Tbl.set c.bWrote (n - 0x018) s.now } :=
  if_pos ⟨lo, hi⟩

theorem writeCr_stream (lo : 0x040 ≤ n) (hi : n < 0x080) : s.writeCr n v m = s := by
  unfold State.writeCr
  dsimp only
  rw [if_neg (by omega), if_neg (by omega), if_neg (by omega), if_neg (by omega), if_neg (by omega)]
  split
  any_goals omega
  rfl

theorem writeCr_copyStaging (lo : 0x080 ≤ n) (hi : n < 0x0A0) :
    s.writeCr n v m = s.live fun r => { r with ck := Tbl.set r.ck (n - 0x080) ⟨v, m⟩ } :=
  (if_neg (by omega)).trans (if_pos ⟨lo, hi⟩)

theorem writeCr_collectiveStaging (lo : 0x0A0 ≤ n) (hi : n < 0x0B0) :
    s.writeCr n v m = s.live fun r => { r with cl := Tbl.set r.cl (n - 0x0A0) ⟨v, m⟩ } :=
  (if_neg (by omega)).trans ((if_neg (by omega)).trans (if_pos ⟨lo, hi⟩))

theorem writeCr_counter (lo : 0x0C0 ≤ n) (hi : n < 0x0C8) :
    s.writeCr n v m = s.upd fun c => (c.setPmc (n - 0x0C0) v).addPmc (n - 0x0C0) (Tbl.getD c.pmcNow (n - 0x0C0) 0) :=
  (if_neg (by omega)).trans ((if_neg (by omega)).trans ((if_neg (by omega)).trans (if_pos ⟨lo, hi⟩)))

theorem writeCr_counterEvent (lo : 0x0C8 ≤ n) (hi : n < 0x0D0) :
    s.writeCr n v m = s.upd fun c => { c with pmsel := Tbl.set c.pmsel (n - 0x0C8) (pmselWrite (Tbl.getD c.pmsel (n - 0x0C8) 0) v) } :=
  (if_neg (by omega)).trans ((if_neg (by omega)).trans ((if_neg (by omega)).trans ((if_neg (by omega)).trans (if_pos ⟨lo, hi⟩))))

end

end Sys2Proof.Machine
end


section
set_option Elab.async false
/-! OBLIGATION O9. -/

namespace Sys2Proof.Machine

/-- Settles O9: a read is `readCr` of the state before the group, a write is `writeCr`, at once or after the group, each register by register. -/
theorem controlRegisters : Obligations.ControlRegisters := by
  unfold Obligations.ControlRegisters
  refine ⟨?_, ?_, ?_, ?_⟩
  · intro s i f reads accepts dest settled
    refine ⟨_, _, exec_crRead reads accepts dest settled, ?_⟩
    generalize f.crn.toNat = n
    refine ⟨fun lo hi => ?_, fun lo hi => ?_, fun lo hi => ?_, fun lo hi => ?_, fun e => ?_,
      fun e => e ▸ crReads_word Core.spv rfl fun _ _ => rfl, fun e => e ▸ crReads_cycle, fun e => e ▸ crReads_word Core.trecPc rfl fun _ _ => rfl,
      fun e => e ▸ crReads_word Core.trecCause rfl fun _ _ => rfl, fun e => e ▸ crReads_word Core.trecInfo rfl fun _ _ => rfl,
      fun e => e ▸ crReads_word Core.trecCkpt rfl fun _ _ => rfl, fun e => e ▸ crReads_nat Core.tlevel rfl fun _ _ => rfl,
      fun e => e ▸ crReads_nat Core.tvec1 rfl fun _ _ => rfl, fun e => e ▸ crReads_nat Core.tvec2 rfl fun _ _ => rfl,
      fun e => e ▸ crReads_word Core.tscratch rfl fun _ _ => rfl, fun e => e ▸ crReads_nat Core.ptBase rfl fun _ _ => rfl,
      fun e => e ▸ crReads_nat (fun c => c.irqPend.toNat) rfl fun _ _ => rfl, fun e => e ▸ crReads_nat (fun c => c.irqMask.toNat) rfl fun _ _ => rfl,
      fun k running => ?_, fun idle mem => ?_, fun e => ?_, fun e => ?_, fun e => ?_, fun e => e ▸ crReads_pinLost, crReads_counter, crReads_counterEvent,
      fun e => e ▸ crReads_nat (fun c => c.traceCtl.toNat) rfl fun _ _ => rfl, fun e => e ▸ crReads_traceStat,
      fun e => e ▸ crReads_word Core.trecOp rfl fun _ _ => rfl, fun e => e ▸ crReads_word Core.trecTile rfl fun _ _ => rfl, fun e => e ▸ crReads_partition⟩
    · rw [readCr_bTarget lo hi]
      exact ⟨rfl, rfl⟩
    · rw [readCr_stream lo hi]
      exact ⟨rfl, Regs.streamTaint_bit _ _⟩
    · rw [readCr_copyStaging lo hi]
      exact ⟨rfl, rfl⟩
    · rw [readCr_collectiveStaging lo hi]
      exact ⟨rfl, rfl⟩
    · subst e
      rw [← pre_crView]
      exact ⟨rfl, rfl⟩
    · exact ⟨fun e => e ▸ (crReads_task (fun r => r.coord.toNat) rfl).1 k running, fun e => e ▸ (crReads_task Record.frame rfl).1 k running,
        fun e => e ▸ (crReads_task Record.join rfl).1 k running,
        fun e => e ▸ (crReads_context (fun x => x.desc.agelim) rfl).1 k running,
        fun e => e ▸ (crReads_task (fun r => r.ctx * 256 + r.rclass * 64 + r.role * 16 + r.sweep) rfl).1 k running,
        fun e => e ▸ (crReads_context (fun x => x.step.toNat) rfl).1 k running⟩
    · simp only [List.mem_cons, List.not_mem_nil, or_false] at mem
      rcases mem with e | e | e | e | e | e <;> subst e
      · exact (crReads_context (fun x => x.desc.agelim) rfl).2 idle
      · exact (crReads_task (fun r => r.ctx * 256 + r.rclass * 64 + r.role * 16 + r.sweep) rfl).2 idle
      · exact (crReads_task (fun r => r.coord.toNat) rfl).2 idle
      · exact (crReads_task Record.frame rfl).2 idle
      · exact (crReads_task Record.join rfl).2 idle
      · exact (crReads_context (fun x => x.step.toNat) rfl).2 idle
    · subst e
      exact crReads_coreId
    · subst e
      obtain ⟨clean, value⟩ := crReads_tagStat (s := s)
      refine ⟨clean, BitVec.isLt _, fun j hj => ?_⟩
      rw [value]
      exact Core.tagStat_bit _ _ hj
    · subst e
      obtain ⟨clean, value⟩ := crReads_tagGen (s := s)
      rw [value]
      exact ⟨clean, Core.tagGen_lt _, fun j hj => Core.tagGen_field _ hj⟩
  · intro s i f writes accepts source alone
    refine ⟨s.writeCr f.crn.toNat (s.sv f.r) (s.pre.sReg f.r.toNat).taint, ?_, ?_⟩
    · rw [exec_crWrite writes accepts source, if_neg (by rw [alone]; exact Bool.false_ne_true)]
    generalize s.sv f.r = v
    generalize (s.pre.sReg f.r.toNat).taint = m
    generalize f.crn.toNat = n
    refine ⟨writeCr_onlyCore v m, fun lo hi => ?_, fun lo hi => ?_, fun lo hi => ?_, fun e => ?_, fun e => ?_, fun e => ?_, fun e => ?_, fun e => ?_,
      fun e => ?_, fun e => ?_, fun e => ?_, fun mem => ?_, writeCr_stream v m, fun e => ?_, fun e => ?_, fun lo hi => ?_, fun lo hi => ?_, fun e => ?_⟩
    · rw [writeCr_bTarget v m lo hi, State.core_upd]
      exact ⟨rfl, fun k => Tbl.getD_set _ _ _ _ _⟩
    · rw [writeCr_copyStaging v m lo hi, State.core_live]
      exact ⟨rfl, fun k => Tbl.getD_set _ _ _ _ _⟩
    · rw [writeCr_collectiveStaging v m lo hi, State.core_live]
      exact ⟨rfl, fun k => Tbl.getD_set _ _ _ _ _⟩
    · have next : s.writeCr n v m = s.live fun r => { r with fp := r.fp &&& ~~~(v.setWidth 5) } := by subst e; rfl
      rw [next, State.core_live]
      refine ⟨rfl, fun k hk => ?_⟩
      simp [hk]
    · have next : s.writeCr n v m = s.upd fun c => { c with spv := spvWrite c.spv v } := by subst e; rfl
      rw [next, State.core_upd]
      refine ⟨rfl, ?_, fun k pos _ => ?_⟩
      · rw [spvWrite_bit, if_pos rfl]
      · rw [spvWrite_bit, if_neg (Nat.ne_of_gt pos)]
    · have next : s.writeCr n v m = s.upd fun c => { c with tvec1 := (align4 v).toNat } := by subst e; rfl
      rw [next, State.core_upd, toNat_align4]
    · have next : s.writeCr n v m = s.upd fun c => { c with tvec2 := (align4 v).toNat } := by subst e; rfl
      rw [next, State.core_upd, toNat_align4]
    · have next : s.writeCr n v m = s.upd fun c => { c with tscratch := v } := by subst e; rfl
      rw [next, State.core_upd]
    · have next : s.writeCr n v m = s.updDie (dieOf s.cur) fun x => { x with partition := bits v 7 0 } := by subst e; rfl
      rw [next]
      refine ⟨rfl, ?_⟩
      have die := s.dieAt_updDie_same (dieOf s.cur) fun x => { x with partition := bits v 7 0 }
      exact (congrArg Die.partition die).trans (by simp [bits])
    · have next : s.writeCr n v m = s.upd fun c => { c with irqPend := c.irqPend &&& ~~~(v.setWidth 6) } := by subst e; rfl
      rw [next, State.core_upd]
      refine ⟨rfl, fun k hk => ?_⟩
      simp [hk]
    · have next : s.writeCr n v m = s.upd fun c => { c with irqMask := v.setWidth 6 } := by subst e; rfl
      rw [next, State.core_upd]
      refine ⟨rfl, fun k hk => ?_⟩
      simp [hk]
    · simp only [List.mem_cons, List.not_mem_nil, or_false] at mem
      rcases mem with e | e | e | e | e | e | e | e | e | e | e | e | e | e | e | e | e | e <;> subst e <;> rfl
    · have next : s.writeCr n v m = s.upd fun c => { c with ptBase := bits v 51 12 * 4096 } := by subst e; rfl
      rw [next, State.core_upd]
      rfl
    · have next : s.writeCr n v m = s.upd fun c => { c with pinLost := c.pinLost && !v.getLsbD 0, pinWrote := c.pinWrote || v.getLsbD 0 } := by
        subst e; rfl
      rw [next, State.core_upd]
    · rw [writeCr_counter v m lo hi, State.core_upd]
      obtain ⟨frame, count, others, overflow⟩ := addPmc_setPmc s.core (n - 0x0C0) v (Tbl.getD s.core.pmcNow (n - 0x0C0) 0)
      refine ⟨frame, fun k => (count k).trans ?_, others, overflow⟩
      split
      · next same => rw [same]
      · rfl
    · rw [writeCr_counterEvent v m lo hi, State.core_upd]
      refine ⟨rfl, fun k other => Tbl.getD_set_ne _ _ _ other, fun j => ?_⟩
      dsimp only
      rw [Tbl.getD_set_same, pmselWrite_bit]
    · have next : s.writeCr n v m = s.upd fun c => c.setTraceCtl (s.cycle48 (dieOf s.cur)) (v.setWidth 3) := by subst e; rfl
      have enable : (v.setWidth 3).getLsbD 0 = v.getLsbD 0 := by simp
      rw [next, State.core_upd]
      refine ⟨fun same => setTraceCtl_same _ _ _ (enable.trans same), fun is was => setTraceCtl_on _ _ _ (enable.trans is) was, fun is was => ?_⟩
      rw [setTraceCtl_off _ _ _ (enable.trans is) was]
      refine ⟨rfl, writeStaged_all _, fun on empty none recent room => ?_⟩
      rw [writeEnd _ _ was on empty none recent room]
  · intro s i f writes accepts source
    have next := exec_crWrite writes accepts source
    exact ⟨fun group => by rw [next, if_pos group], fun alone => by rw [next, if_neg (by rw [alone]; exact Bool.false_ne_true)]⟩
  · intro s n v m one
    rw [State.writeCrs, one]
    rfl

end Sys2Proof.Machine
end


section
set_option Elab.async false
/-! SUPPORT. The matrix engine's starts, tile writes and rows (R168, R177, R188 to R190, R479). -/

namespace Sys2Proof.Machine

variable {s : State}

/-! ## Events at a unit -/

theorem atUnit_enabled {u : Nat} {enabled : Bool} (exist : unitExists u = true) (h : enabled = true) (t : State) : atUnit s u enabled t = .next t := by
  rw [atUnit, if_pos exist, happen, if_pos h]

/-- Records that become ready change nothing else of their unit (R302). -/
theorem State.coreAt_wake (u : Nat) : ∃ l, (s.wake u).coreAt u = { s.coreAt u with resume := l } :=
  ⟨_, s.coreAt_updAt_same u _⟩

theorem Core.foldl_keeps {α β : Type} (view : Core → β) {f : Core → α → Core} (keeps : ∀ c a, view (f c a) = view c) (l : List α) (c : Core) :
    view (l.foldl f c) = view c := by
  induction l generalizing c with
  | nil => rfl
  | cons a l ih => exact (ih _).trans (keeps c a)

/-! ## Rows that are drained (R177, R189) -/

theorem exec_drainRowDelivery {d : Draining} (exist : unitExists s.ev.u = true)
    (named : ((s.coreAt s.ev.u).draining.find? fun x => decide (x.id = s.ev.k)) = some d)
    (oldest : ((s.coreAt s.ev.u).draining.find? fun x => decide (x.rq = d.rq)) = some d) (due : d.due ≤ s.now) :
    exec .drainRowDelivery s = .next (s.updAt s.ev.u fun c => c.deliverRow s.now d) := by
  have step : exec .drainRowDelivery s = execDrainRowDelivery s := rfl
  rw [step, execDrainRowDelivery]
  simp only [named, oldest]
  exact atUnit_enabled exist (by simp [due]) _

/-- A row that no `VPOPQ` waits for stands in its queue. -/
theorem deliverRow_queued {c : Core} {d : Draining} {row : VReg} {fl : BitVec 5} {rest : List (VReg × BitVec 5)} (now : Nat)
    (rows : d.rows = (row, fl) :: rest) (free : ∀ p ∈ c.prods, ¬(p.waiting = true ∧ p.fromRq = some d.rq)) :
    let t := c.deliverRow now d
    let tail := Tbl.getD c.live.rqTail d.rq 0
    t.rows = Tbl.set c.rows (d.rq * 2 ^ 32 + tail) row ∧ t.live = { c.live with rqTail := Tbl.set c.live.rqTail d.rq (tail + 1), fp := c.live.fp ||| fl } ∧
      t.promised = Tbl.set c.promised d.rq (Tbl.getD c.promised d.rq 0 - 1) ∧
      t.draining = if rest.isEmpty then c.draining.filter fun x => !decide (x.id = d.id)
        else c.draining.map fun x => if x.id = d.id then { x with rows := rest, due := now + 1 } else x := by
  have none : (c.prods.find? fun p => p.waiting && decide (p.fromRq = some d.rq)) = none :=
    List.find?_eq_none.mpr fun p hp h => free p hp (by simpa using h)
  unfold Core.deliverRow
  simp only [rows, none, and_self]

theorem find?_advanced {l : List Draining} {d : Draining} (named : (l.find? fun x => decide (x.id = d.id)) = some d) (F : Draining → Draining)
    (same : ∀ x, (F x).id = x.id) : ((l.map fun x => if x.id = d.id then F x else x).find? fun x => decide (x.id = d.id)) = some (F d) := by
  have id (x : Draining) : (if x.id = d.id then F x else x).id = x.id := by split <;> simp only [same]
  rw [List.find?_map]
  simp only [Function.comp_def, id, named, Option.map_some, if_true]

/-! ## Tiles (R172, R176, R188, R190) -/

/-- No entry is a line move: the queue stays as it is. -/
theorem settleLines_of_noLines (now : Nat) (l done : List MxEnt) (busy : List Nat) (c : Core) (h : ∀ e ∈ l, e.op.isLine = false) :
    settleLines now done busy l c = { c with mxq := done ++ l } := by
  induction l generalizing done busy with
  | nil => rw [settleLines, List.append_nil]
  | cons e l ih =>
    rw [settleLines, h e (List.mem_cons_self ..), Bool.false_and, if_neg Bool.false_ne_true,
      ih _ _ fun x hx => h x (List.mem_cons_of_mem _ hx), List.append_assoc, List.singleton_append]

theorem Core.settleTiles_of_noLines {c : Core} (h : NoLines c) (now : Nat) : c.settleTiles now = c :=
  settleLines_of_noLines now c.mxq [] [] c h

theorem noLines_filter {c : Core} (h : NoLines c) (q : MxEnt → Bool) {c' : Core} (mxq : c'.mxq = c.mxq.filter q) : NoLines c' := fun e he =>
  h e (List.mem_of_mem_filter (mxq ▸ he))

theorem Tbl.getD_foldl_set {α : Type} (m : Tbl α) (k : Nat) (g : Nat → α) (l : List Nat) (r : Nat) (d : α) :
    Tbl.getD (l.foldl (fun m i => Tbl.set m (k + i) (g i)) m) (k + r) d = if r ∈ l then g r else Tbl.getD m (k + r) d := by
  induction l generalizing m with
  | nil => rfl
  | cons i l ih =>
    rw [List.foldl_cons, ih, Tbl.getD_set]
    by_cases later : r ∈ l
    · rw [if_pos later, if_pos (List.mem_cons_of_mem _ later)]
    · by_cases here : r = i
      · rw [if_neg later, if_pos (by rw [here]), here, if_pos (List.mem_cons_self ..)]
      · rw [if_neg later, if_neg (by omega), if_neg (by simp [here, later])]

theorem elem_zero (w j : Nat) : elem w 0 j = 0 := by
  rw [elem, show (0 : VReg).toNat = 0 from BitVec.toNat_zero, Nat.zero_div, Nat.zero_mod]

theorem Core.tiles_setLive (c : Core) (t : Nat) (b pre : Bool) : (c.setLive t b pre).tiles = c.tiles := rfl

section
variable (c : Core) {t : Nat} (ht : t < 4) (pre : Bool)
include ht

theorem Core.live_setLive (b : Bool) : (c.setLive t b pre).live.live.getLsbD t = b := by
  cases b <;> simp [Core.setLive, ht]

theorem Core.acc_cleared (i j : Nat) : (c.setLive t false pre).acc t i j = 0 := by
  unfold Core.acc Core.tileRow
  rw [if_neg (by rw [Core.live_setLive c ht]; exact Bool.false_ne_true)]
  exact elem_zero 32 j

theorem Core.acc_putTile (row : Nat → VReg) {i : Nat} (hi : i < 128) (j : Nat) : (c.putTile t row pre).acc t i j = elem 32 (row i) j := by
  have live : (c.putTile t row pre).live.live.getLsbD t = true := Core.live_setLive _ ht pre true
  unfold Core.acc Core.tileRow
  rw [if_pos live]
  have stored := Tbl.getD_foldl_set c.tiles (128 * t) row (List.range 128) i 0
  rw [Core.putTile, Core.tiles_setLive, stored, if_pos (List.mem_range.mpr hi)]

end

/-! The end of an instruction. -/

theorem Core.writeTile_mxq (c : Core) (e : MxEnt) : (c.writeTile e).mxq = c.mxq := by
  unfold Core.writeTile
  split
  · rfl
  · rfl
  · rfl
  · split
    · rfl
    · split <;> rfl
  · rfl

theorem Core.writeTile_mma (c : Core) {e : MxEnt} {t a b : Nat} {na nb ad ex : Bool} (op : e.op = .mma t a b na nb ad ex) :
    c.writeTile e = c.putTile t (fun i => if i < (c.opSlot a).rows then mmaRow (c.opSlot a) (c.opSlot b) na nb ad ex (c.tileRow t i) i else c.tileRow t i)
      e.preCk := by
  simp only [Core.writeTile, op]

theorem Core.writeTile_aclr (c : Core) {e : MxEnt} {t : Nat} (op : e.op = .aclr t) : c.writeTile e = c.setLive t false e.preCk := by
  simp only [Core.writeTile, op]

theorem Core.writeTile_aload (c : Core) {e : MxEnt} {t : Nat} {v : VReg} (op : e.op = .aload t v) :
    c.writeTile e = c.putTile t (fun _ => v) e.preCk := by
  simp only [Core.writeTile, op]

/-- A copy of a tile that is not LIVE is a tile of zeros (R190). -/
theorem Core.acc_writeTile_amov (c : Core) {e : MxEnt} {t u : Nat} (op : e.op = .amov t u) (ht : t < 4) {i : Nat} (hi : i < 128) (j : Nat) :
    (c.writeTile e).acc t i j = c.acc u i j := by
  simp only [Core.writeTile, op]
  split
  · next same => rw [same]
  · split
    · exact Core.acc_putTile _ ht _ _ hi j
    · next dead => rw [Core.acc_cleared _ ht, Core.acc, Core.tileRow, if_neg dead, elem_zero]

theorem Core.endMx_tiles {c : Core} (h : NoLines c) (now : Nat) (e : MxEnt) : (c.endMx now e).tiles = (c.writeTile e).tiles ∧
    (c.endMx now e).live = (c.writeTile e).live ∧ (c.endMx now e).mxq = c.mxq.filter fun x => !decide (x.id = e.id) := by
  have released (c' : Core) (n : Nat) : ((c'.tryRelease n).tiles, (c'.tryRelease n).live, (c'.tryRelease n).mxq) = (c'.tiles, c'.live, c'.mxq) := by
    unfold Core.tryRelease
    dsimp only
    split <;> rfl
  have gone : ({ c.writeTile e with mxq := (c.writeTile e).mxq.filter fun x => !decide (x.id = e.id) } : Core).settleTiles now = _ :=
    Core.settleTiles_of_noLines (noLines_filter h _ (by rw [Core.writeTile_mxq])) now
  have kept := Core.foldl_keeps (fun c' => (c'.tiles, c'.live, c'.mxq)) released (List.range 16)
    ({ c.writeTile e with mxq := (c.writeTile e).mxq.filter fun x => !decide (x.id = e.id) } : Core)
  rw [Core.endMx, gone]
  simp only [Prod.mk.injEq] at kept
  obtain ⟨tiles, live, mxq⟩ := kept
  exact ⟨tiles, live, mxq.trans (by rw [Core.writeTile_mxq])⟩

theorem Core.acc_congr {c c' : Core} (tiles : c'.tiles = c.tiles) (live : c'.live = c.live) : c'.acc = c.acc := by
  funext t i j
  unfold Core.acc Core.tileRow
  rw [tiles, live]

theorem elem_mmaRow (a b : OpSlot) (na nb ad flush : Bool) (old : VReg) (i : Nat) {j : Nat} (hj : j < 128) :
    elem 32 (mmaRow a b na nb ad flush old i) j = if j < b.rows then
      (if a.kind = 2 ∨ b.kind = 2 then
        (mmaElementInt (BitVec.ofNat 32 (elem 32 old j)) ad ((List.range (commonK a b)).map fun k => (a.int na i k, b.int nb j k))).toNat
      else mmaElement (elem 32 old j) ad flush (if a.kind = 1 ∨ b.kind = 1 then 16 else 8)
        ((List.range (commonK a b)).map fun k => (a.value b.fmt na flush i k, b.value a.fmt nb flush j k))) % 2 ^ 32
      else elem 32 old j := by
  unfold mmaRow
  rw [elem_vecOf (by omega)]
  simp only [List.getD_eq_getElem?_getD, List.getElem?_map, List.getElem?_range hj, Option.map_some, Option.getD_some, decide_eq_true_eq]
  split
  · rfl
  · rw [elem, Nat.mod_mod]

theorem exec_tileWriteComplete {e : MxEnt} (exist : unitExists s.ev.u = true) (due : duePart s.now [] (s.coreAt s.ev.u).mxq = some e)
    (named : e.id = s.ev.k) : exec .tileWriteComplete s = .next ((s.updAt s.ev.u fun c => c.endMx s.now e).wake s.ev.u) := by
  have step : exec .tileWriteComplete s = execTileWriteComplete s := rfl
  rw [step, execTileWriteComplete]
  simp only [due]
  exact atUnit_enabled exist (decide_eq_true named) _

/-! ## Starts (R479) -/

theorem startable_mayStart {c : Core} {now : Nat} {e : MxEnt} (l earlier : List MxEnt) (h : c.startable now earlier l = some e) :
    ∃ before, c.mayStart now before e = true := by
  induction l generalizing earlier with
  | nil => cases h
  | cons x l ih =>
    rw [Core.startable] at h
    split at h
    · exact ih _ h
    · split at h
      · next may => cases h; exact ⟨_, may⟩
      · cases h

theorem arrayFree_of_startable {c : Core} {now : Nat} {e : MxEnt} (h : c.startable now [] c.mxq = some e) (array : e.op.usesArray = true) :
    c.arrayFree ≤ now := by
  obtain ⟨before, may⟩ := startable_mayStart _ _ h
  unfold Core.mayStart at may
  split at may
  · next op => rw [op] at array; cases array
  · next op => rw [op] at array; cases array
  · simpa [array] using (Bool.and_eq_true_iff.mp may).2

theorem fill_of_startable {c : Core} {now : Nat} {e : MxEnt} {n : Nat} {f : Fill} {rest : List Fill} (h : c.startable now [] c.mxq = some e)
    (op : e.op = .fill n) (fills : c.fills = f :: rest) : f.slot = n ∧ f.due = none := by
  obtain ⟨before, may⟩ := startable_mayStart _ _ h
  simp only [Core.mayStart, op, fills, Bool.and_eq_true, decide_eq_true_eq, Option.isNone_iff_eq_none] at may
  exact may.1

theorem exec_matrixStart {e : MxEnt} (exist : unitExists s.ev.u = true)
    (checked : ∀ x ∈ (s.coreAt s.ev.u).mxq, x.checked = false → x.fills ≠ []) (next : (s.coreAt s.ev.u).startable s.now [] (s.coreAt s.ev.u).mxq = some e) :
    exec .matrixStart s = .next (s.updAt s.ev.u fun c => c.startMx s.now e) := by
  have step : exec .matrixStart s = execMatrixStart s := rfl
  have none : ((s.coreAt s.ev.u).mxq.find? fun x => !x.checked && x.fills.isEmpty) = none :=
    List.find?_eq_none.mpr fun x hx h => by
      simp only [Bool.and_eq_true, Bool.not_eq_true', List.isEmpty_iff] at h
      exact checked x hx h.1 h.2
  rw [step, execMatrixStart]
  simp only [none, next]
  exact atUnit_enabled exist rfl _

theorem busyCycles_eq (x y : OpSlot) :
    busyCycles x y = (if x.zero && y.zero then 1 else planes (if y.zero then x.fmt else y.fmt)) * commonK x y := by
  unfold busyCycles
  cases x.zero <;> cases y.zero <;> rfl

theorem startMx_array (c : Core) (now : Nat) {e : MxEnt} (array : e.op.usesArray = true) : (c.startMx now e).arrayFree = now + (arrayTimes c e.op).1 ∧
    (c.startMx now e).mxq = c.mxq.map fun x => if x.id = e.id then { x with started := true, due := now + (arrayTimes c e.op).2 } else x := by
  cases op : e.op with
  | mma t a b na nb ad ex =>
    simp only [Core.startMx, op, arrayTimes, busyCycles_eq, Nat.add_assoc]
    exact ⟨trivial, trivial⟩
  | aload t v =>
    simp only [Core.startMx, op, arrayTimes]
    exact ⟨trivial, trivial⟩
  | amov t u =>
    simp only [Core.startMx, op, arrayTimes]
    exact ⟨trivial, trivial⟩
  | _ => rw [op] at array; cases array

theorem Fill.cycles_stream (f : Fill) (n : Nat) : f.cycles (if f.dec.isSome then n else 0) = f.cycles n := by
  unfold Fill.cycles
  cases f.dec <;> rfl

theorem startMx_fill {c : Core} {now : Nat} {e : MxEnt} {n : Nat} {f : Fill} {rest : List Fill} (op : e.op = .fill n) (fills : c.fills = f :: rest) :
    c.startMx now e = { c with
      mxq := c.mxq.filter fun x => !decide (x.id = e.id), fills := { f with due := some (now + f.cycles (leNat (c.spadRead f.base 4))) } :: rest } := by
  simp only [Core.startMx, op, fills, Fill.cycles_stream]

theorem elem_drainRows (c : Core) (t mfmt : Nat) (rz sat flush : Bool) (scale : Int) {k : Nat} (hk : k < 128 / drainPack mfmt) :
    ∃ r, (c.drainRows t mfmt rz sat flush scale)[k]? = some r ∧ ∀ j, j < 128 * drainPack mfmt → elem (32 / drainPack mfmt) r.1 j =
      (drainElem mfmt rz sat flush scale (c.acc t (drainPack mfmt * k + j / 128) (j % 128))).1 % 2 ^ (32 / drainPack mfmt) := by
  have pack : 128 * drainPack mfmt = 4096 / (32 / drainPack mfmt) := by
    unfold drainPack
    split
    · rfl
    · split <;> rfl
  unfold Core.drainRows
  dsimp only
  rw [List.getElem?_map, List.getElem?_range hk]
  refine ⟨_, rfl, fun j hj => ?_⟩
  rw [elem_vecOf (pack ▸ hj)]
  simp only [List.getD_eq_getElem?_getD, List.getElem?_map, List.getElem?_range hj, Option.map_some, Option.getD_some]

theorem startMx_drain {c : Core} (h : NoLines c) (now : Nat) {e : MxEnt} {a rq mfmt : Nat} {rz sat : Bool} {sc : Int} {ex : Bool}
    (op : e.op = .drain a rq mfmt rz sat sc ex) :
    (c.startMx now e).draining = c.draining ++ [{ id := e.id, due := now + 6, acc := a, rq := rq, rows := c.drainRows a mfmt rz sat ex sc, preCk := e.preCk }] ∧
      (c.startMx now e).mxq = c.mxq.filter fun x => !decide (x.id = e.id) := by
  unfold Core.startMx
  simp only [op]
  rw [Core.settleTiles_of_noLines (noLines_filter h _ rfl)]
  exact ⟨rfl, rfl⟩

end Sys2Proof.Machine
end


section
set_option Elab.async false
/-! SUPPORT. Fills of the matrix engine (R176, R184, R206, R226, R268, R470). -/

namespace Sys2Proof.Machine

variable {s : State}

/-! ## What the reads of a fill leave -/

/-- The fills, the slots and the queue of the matrix engine. -/
def Core.matrixPart (c : Core) : List Fill × Tbl OpSlot × List MxEnt := (c.fills, c.slots, c.mxq)

theorem Core.matrixPart_spadPuts (bs : Tbl Byte) (c : Core) : (bs.foldl (fun c b => c.spadPut b.1 b.2) c).matrixPart = c.matrixPart :=
  Core.foldl_keeps (f := fun c b => c.spadPut b.1 b.2) Core.matrixPart (fun _ _ => rfl) bs c

theorem Core.matrixPart_bankThese (c : Core) (l : List Nat) : (c.bankThese l).matrixPart = c.matrixPart := by
  have queue (c : Core) (q : List (Tbl Byte)) : ({ c with spq := q } : Core).matrixPart = c.matrixPart := rfl
  rw [Core.bankThese, queue]
  exact Core.foldl_keeps (f := fun c (w : Nat × Tbl Byte) => w.2.foldl (fun c b => c.spadPut b.1 b.2) c) Core.matrixPart
    (fun c w => Core.matrixPart_spadPuts w.2 c) _ c

theorem Core.matrixPart_haveRead (c : Core) (free : Nat) (us : List (Nat × List Nat)) : (c.haveRead free us).matrixPart = c.matrixPart := by
  unfold Core.haveRead
  split
  · rfl
  · exact c.matrixPart_bankThese _

theorem Core.matrixPart_fillRead (c : Core) (f : Fill) (free : Nat) (us : List (Nat × List Nat)) : (c.fillRead f free us).matrixPart = c.matrixPart := by
  have banks (c : Core) (l : List Nat) : (c.engineUses l).matrixPart = c.matrixPart := rfl
  rw [Core.fillRead, banks, Core.matrixPart_haveRead]

theorem Core.matrixPart_logUninit (c : Core) (ws : List Nat) : (c.logUninit ws).matrixPart = c.matrixPart := by
  have mode (v : DWord) : ({ c with spv := v } : Core).matrixPart = c.matrixPart := rfl
  unfold Core.logUninit
  split
  · rfl
  · exact mode _

theorem Core.matrixPart_reads (c : Core) (f : Fill) (bad : List Nat) (free : Nat) (us : List (Nat × List Nat)) :
    ((if f.warn then c.logUninit bad else c).fillRead f free us).matrixPart = c.matrixPart := by
  rw [Core.matrixPart_fillRead]
  split
  · exact c.matrixPart_logUninit bad
  · rfl

/-! ## The end of a fill -/

theorem Core.matrixPart_fillFault {c c' : Core} (same : c'.matrixPart = c.matrixPart) (n cause : Nat) :
    (c'.fillFault n cause).matrixPart = (c.fills, Tbl.set c.slots n { c.opSlot n with st := .faulted, fcause := cause }, c.mxq) := by
  simp only [Core.matrixPart, Prod.mk.injEq] at same
  obtain ⟨fills, slots, mxq⟩ := same
  simp only [Core.matrixPart, Core.fillFault, Core.setSlot, Core.opSlot, fills, slots, mxq]

theorem Core.matrixPart_fillWith {c c' : Core} (same : c'.matrixPart = c.matrixPart) (f : Fill) (b : Int) (rd : Nat → Int → Nat) :
    (c'.fillWith f b rd).matrixPart =
      (c.fills, Tbl.set c.slots f.slot (fillSlot (c.opSlot f.slot) (shapeOf f.w0 f.w1 f.w2) f.mfmt b rd).1, c.mxq) := by
  simp only [Core.matrixPart, Prod.mk.injEq] at same
  obtain ⟨fills, slots, mxq⟩ := same
  simp only [Core.matrixPart, Core.fillWith, Core.setSlot, Core.opSlot, fills, slots, mxq]

/-- t is c but that slot n ends, Ready or Faulted, and what is no part of the matrix engine. -/
def Core.SlotEnds (c t : Core) (n : Nat) : Prop :=
  ∃ x : OpSlot, t.matrixPart = (c.fills, Tbl.set c.slots n x, c.mxq) ∧ (x.st = .ready ∨ x.st = .faulted) ∧ x.relpend = (c.opSlot n).relpend

theorem Core.slotEnds_fillFault {c c' : Core} (same : c'.matrixPart = c.matrixPart) (n cause : Nat) : c.SlotEnds (c'.fillFault n cause) n :=
  ⟨_, Core.matrixPart_fillFault same n cause, .inr rfl, rfl⟩

theorem Core.slotEnds_fillWith {c c' : Core} (same : c'.matrixPart = c.matrixPart) (f : Fill) (b : Int) (rd : Nat → Int → Nat) :
    c.SlotEnds (c'.fillWith f b rd) f.slot :=
  ⟨_, Core.matrixPart_fillWith same f b rd, .inl rfl, rfl⟩

/-- A fill, of a record or of a coded stream, ends its slot. -/
theorem Core.slotEnds_endFill (c : Core) (f : Fill) (free : Nat) : c.SlotEnds (c.endFill f free) f.slot := by
  unfold Core.endFill
  dsimp only
  split
  · have same := c.matrixPart_reads f (c.invalidSeen f free (((shapeOf f.w0 f.w1 f.w2).units f.base).map fun u => (u.1, u.2.map Int.toNat))) free
      (((shapeOf f.w0 f.w1 f.w2).units f.base).map fun u => (u.1, u.2.map Int.toNat))
    split
    · exact Core.slotEnds_fillFault same _ _
    · split
      · exact Core.slotEnds_fillFault same _ _
      · exact Core.slotEnds_fillWith same _ _ _
  · split
    · exact Core.slotEnds_fillFault rfl _ _
    · split
      · exact Core.slotEnds_fillFault (c.matrixPart_reads f _ free _) _ _
      · split
        · exact Core.slotEnds_fillFault (c.matrixPart_reads f _ free _) _ _
        · split
          · exact Core.slotEnds_fillFault (c.matrixPart_reads f _ free _) _ _
          · exact Core.slotEnds_fillWith (c.matrixPart_reads f _ free _) _ _ _

/-- The units of a fill of a record, with their bytes as addresses of the scratchpad. -/
def Fill.recordUnits (f : Fill) : List (Nat × List Nat) := ((shapeOf f.w0 f.w1 f.w2).units f.base).map fun u => (u.1, u.2.map Int.toNat)

/-- The slot of a fill of a record as it ends: an uninitialised read first, then an uncorrectable error (log 37). -/
theorem Core.matrixPart_endFill_record (c : Core) {f : Fill} (record : f.dec = none) (free : Nat) : (c.endFill f free).matrixPart =
    (c.fills, Tbl.set c.slots f.slot (
      if !(c.invalidSeen f free f.recordUnits).isEmpty && !f.warn then { c.opSlot f.slot with st := .faulted, fcause := 0x01 }
      else if (c.spadError (f.recordUnits.flatMap fun u => u.2)).isSome then { c.opSlot f.slot with st := .faulted, fcause := 0x04 }
      else (fillSlot (c.opSlot f.slot) (shapeOf f.w0 f.w1 f.w2) f.mfmt f.base fun i a => (c.fillByte f free i a.toNat).1.toNat).1), c.mxq) := by
  have same := c.matrixPart_reads f (c.invalidSeen f free f.recordUnits) free f.recordUnits
  have step : c.endFill f free =
      let c' := (if f.warn then c.logUninit (c.invalidSeen f free f.recordUnits) else c).fillRead f free f.recordUnits
      if !(c.invalidSeen f free f.recordUnits).isEmpty && !f.warn then c'.fillFault f.slot 0x01
      else if (c.spadError (f.recordUnits.flatMap fun u => u.2)).isSome then c'.fillFault f.slot 0x04
      else c'.fillWith f f.base fun i a => (c.fillByte f free i a.toNat).1.toNat := by
    rw [Core.endFill, record]
    rfl
  rw [step]
  dsimp only
  split
  · exact Core.matrixPart_fillFault same f.slot 0x01
  · split
    · exact Core.matrixPart_fillFault same f.slot 0x04
    · exact Core.matrixPart_fillWith same f f.base _

/-! ## The bytes of a fill -/

/-- The units have, in order, the bytes that the record addresses. -/
theorem Shape.units_bytes (x : Shape) (b : Int) : ((x.units b).flatMap fun u => u.2) = x.addrs b := by
  unfold Shape.units Shape.addrs
  split
  · simp [List.flatMap_append, List.flatMap_assoc, List.map_eq_flatMap]
  · rw [List.flatMap_map]

theorem Fill.recordUnits_bytes (f : Fill) : (f.recordUnits.flatMap fun u => u.2) = ((shapeOf f.w0 f.w1 f.w2).addrs f.base).map Int.toNat := by
  rw [← Shape.units_bytes, List.map_flatMap, Fill.recordUnits, List.flatMap_map]

theorem Core.invalidWords_eq_nil (c : Core) (as : List Nat) : c.invalidWords as = [] ↔ ∀ a ∈ as, (Tbl.get? c.spad (a / 4)).isSome = true := by
  simp only [Core.invalidWords, List.map_eq_nil_iff, List.filter_eq_nil_iff, List.mem_eraseDups, List.mem_map]
  simp [Option.isSome_iff_ne_none]

theorem Core.spadError_isSome (c : Core) (as : List Nat) : (c.spadError as).isSome = true ↔ ∃ a ∈ as, a / 8 ∈ c.spadBad := by
  unfold Core.spadError
  split
  · next none =>
    simpa using none
  · next a l some =>
    have mem : a ∈ as.filter fun a => c.spadBad.contains (a / 8) := some ▸ List.mem_cons_self ..
    exact iff_of_true rfl ⟨a, by simpa using mem⟩

/-- A store that reaches its bank leaves every valid word valid (R225). -/
theorem Core.valid_bank (c : Core) (n : Nat) {w : Nat} (h : (Tbl.get? c.spad w).isSome = true) : (Tbl.get? (c.bank n).spad w).isSome = true := by
  have put (c : Core) (b : Nat × Byte) (h : (Tbl.get? c.spad w).isSome = true) : (Tbl.get? (c.spadPut b.1 b.2).spad w).isSome = true := by
    rw [Core.spadPut, Tbl.get?_set]
    split
    · rfl
    · exact h
  have puts (bs : Tbl Byte) (c : Core) (h : (Tbl.get? c.spad w).isSome = true) :
      (Tbl.get? (bs.foldl (fun c b => c.spadPut b.1 b.2) c).spad w).isSome = true :=
    List.foldlRecOn (motive := fun c => (Tbl.get? c.spad w).isSome = true) bs _ h fun c hc b _ => put c b hc
  exact List.foldlRecOn (motive := fun c => (Tbl.get? c.spad w).isSome = true) (c.spq.take n) _ h fun c hc bs _ => puts bs c hc

theorem Core.sees_le (c : Core) (free : Nat) : c.sees free ≤ c.spq.length := by
  unfold Core.sees
  split
  · exact Nat.zero_le _
  · exact Nat.lt_succ_iff.mp (Nat.mod_lt _ (Nat.succ_pos _))

/-- Nothing read before its end: each unit reads the scratchpad with some of the pending stores (R268). -/
theorem Core.fillByte_fresh (c : Core) {f : Fill} (fresh : f.got = []) (free i a : Nat) :
    c.fillByte f free i a = ((c.seen (free + i)).spadByte a, (Tbl.get? (c.seen (free + i)).spad (a / 4)).isSome) := by
  rw [Core.fillByte, fresh]
  rfl

theorem Core.invalidSeen_of_valid (c : Core) {f : Fill} (fresh : f.got = []) (free : Nat) {us : List (Nat × List Nat)}
    (valid : ∀ a ∈ us.flatMap (fun u => u.2), (Tbl.get? c.spad (a / 4)).isSome = true) : c.invalidSeen f free us = [] := by
  unfold Core.invalidSeen
  split
  · exact (c.invalidWords_eq_nil _).mpr valid
  · have none : (us.flatMap fun u => (u.2.filter fun a => !(c.fillByte f free u.1 a).2).map fun a => 4 * (a / 4)) = [] := by
      refine List.flatMap_eq_nil_iff.mpr fun u hu => ?_
      rw [List.map_eq_nil_iff, List.filter_eq_nil_iff]
      intro a ha
      rw [c.fillByte_fresh fresh, Core.seen, c.valid_bank _ (valid a (List.mem_flatMap.mpr ⟨u, hu, ha⟩))]
      exact Bool.false_ne_true
    rw [none]
    rfl

theorem Core.invalidSeen_of_settled (c : Core) {f : Fill} (fresh : f.got = []) (settled : c.spq = []) (free : Nat) (us : List (Nat × List Nat)) :
    c.invalidSeen f free us = c.invalidWords (us.flatMap fun u => u.2) := by
  rw [Core.invalidSeen, fresh, settled]
  rfl

/-! ## The event -/

theorem exec_fillComplete {f : Fill} {rest : List Fill} (exist : unitExists s.ev.u = true) (fills : (s.coreAt s.ev.u).fills = f :: rest)
    (named : f.slot = s.ev.k) (ends : s.ev.m = 0) (due : ∃ n, f.due = some n ∧ n ≤ s.now) (free : (s.coreAt s.ev.u).mmaHolds f.slot = false) :
    exec .fillComplete s = .next (fillEnds s s.ev.u f) := by
  have step : exec .fillComplete s = execFillComplete s := rfl
  obtain ⟨n, hn, past⟩ := due
  rw [step, execFillComplete]
  simp only [fills, ends, if_true]
  exact atUnit_enabled exist (by simp only [Core.fillDue, free, hn, decide_eq_true named, decide_eq_true past]; rfl) _

theorem Core.tryRelease_of_held {c : Core} {n : Nat} (h : (c.opSlot n).relpend = false) : c.tryRelease n = c := by
  rw [Core.tryRelease, h]
  rfl

/-- What a fill that has ended leaves of the fills and of the instructions that waited for it. -/
def Core.fillLeaves (c : Core) (f : Fill) : Core :=
  { c with fills := c.fills.drop 1, mxq := c.mxq.map fun e => { e with fills := e.fills.filter fun n => !decide (n = f.slot) } }

theorem Core.matrixPart_fillLeaves {c : Core} {fills : List Fill} {slots : Tbl OpSlot} {mxq : List MxEnt} (h : c.matrixPart = (fills, slots, mxq)) (f : Fill) :
    (c.fillLeaves f).matrixPart = (fills.drop 1, slots, mxq.map fun e => { e with fills := e.fills.filter fun n => !decide (n = f.slot) }) := by
  simp only [Core.matrixPart, Prod.mk.injEq] at h
  obtain ⟨rfl, rfl, rfl⟩ := h
  rfl

theorem coreAt_fillEnds (u : Nat) (f : Fill) : ∃ l, (fillEnds s u f).coreAt u =
    { (((s.coreAt u).endFill f s.free).fillLeaves f).tryRelease f.slot with resume := l } := by
  obtain ⟨l, woken⟩ := State.coreAt_wake (s := State.updAt { s with free := s.free + (if (s.coreAt u).spq.isEmpty then 0 else 2 ^ 25) } u fun c =>
    ((c.endFill f s.free).fillLeaves f).tryRelease f.slot) u
  rw [State.coreAt_updAt_same] at woken
  exact ⟨l, woken⟩

/-- A fill that has ended leaves its unit with its slot ended, in the queue no instruction that waits for it, and the next fill the oldest. -/
theorem matrixPart_fillEnds {u : Nat} {f : Fill} {x : OpSlot} (ended : ((s.coreAt u).endFill f s.free).matrixPart =
    ((s.coreAt u).fills, Tbl.set (s.coreAt u).slots f.slot x, (s.coreAt u).mxq)) (held : x.relpend = false) :
    ((fillEnds s u f).coreAt u).matrixPart = ((s.coreAt u).fills.drop 1, Tbl.set (s.coreAt u).slots f.slot x,
      (s.coreAt u).mxq.map fun e => { e with fills := e.fills.filter fun n => !decide (n = f.slot) }) := by
  have woken (c : Core) (l : Tbl ResumePos) : ({ c with resume := l } : Core).matrixPart = c.matrixPart := rfl
  have left := Core.matrixPart_fillLeaves ended f
  have slots := congrArg (fun p => p.2.1) left
  have kept : ((((s.coreAt u).endFill f s.free).fillLeaves f).opSlot f.slot).relpend = false := by
    rw [Core.opSlot, show (((s.coreAt u).endFill f s.free).fillLeaves f).slots = _ from slots, Tbl.getD_set_same, held]
  obtain ⟨l, core⟩ := coreAt_fillEnds (s := s) u f
  rw [core, woken, Core.tryRelease_of_held kept, left]

/-! The slot of a fill of a record that has read nothing before its end. -/

section
variable (c : Core) {f : Fill} {x : OpSlot} (record : f.dec = none) (fresh : f.got = []) (free : Nat)
  (ended : (c.endFill f free).matrixPart = (c.fills, Tbl.set c.slots f.slot x, c.mxq))
include record fresh ended

theorem Core.slot_of_record : x =
      if !(c.invalidSeen f free f.recordUnits).isEmpty && !f.warn then { c.opSlot f.slot with st := .faulted, fcause := 0x01 }
      else if (c.spadError (f.recordUnits.flatMap fun u => u.2)).isSome then { c.opSlot f.slot with st := .faulted, fcause := 0x04 }
      else (fillSlot (c.opSlot f.slot) (shapeOf f.w0 f.w1 f.w2) f.mfmt f.base fun i a => ((c.seen (free + i)).spadByte a.toNat).toNat).1 := by
  have same := congrArg (fun p => Tbl.getD p.2.1 f.slot {}) (ended.symm.trans (c.matrixPart_endFill_record record free))
  simpa only [Tbl.getD_set_same, c.fillByte_fresh fresh] using same

/-- Every word valid (R226): no unit reads an invalid one. -/
theorem Core.slot_of_valid (valid : ∀ a ∈ (shapeOf f.w0 f.w1 f.w2).addrs f.base, (Tbl.get? c.spad (a.toNat / 4)).isSome = true) : x =
      if (c.spadError (f.recordUnits.flatMap fun u => u.2)).isSome then { c.opSlot f.slot with st := .faulted, fcause := 0x04 }
      else (fillSlot (c.opSlot f.slot) (shapeOf f.w0 f.w1 f.w2) f.mfmt f.base fun i a => ((c.seen (free + i)).spadByte a.toNat).toNat).1 := by
  have none : c.invalidSeen f free f.recordUnits = [] := c.invalidSeen_of_valid fresh free (by
    rw [f.recordUnits_bytes]
    exact List.forall_mem_map.mpr valid)
  rw [c.slot_of_record record fresh free ended, none]
  rfl

theorem Core.slot_of_uninitialised (settled : c.spq = []) (trap : f.warn = false)
    (invalid : ¬∀ a ∈ (shapeOf f.w0 f.w1 f.w2).addrs f.base, (Tbl.get? c.spad (a.toNat / 4)).isSome = true) :
    x = { c.opSlot f.slot with st := .faulted, fcause := 0x01 } := by
  have some : c.invalidSeen f free f.recordUnits ≠ [] := fun none => invalid (by
    rw [c.invalidSeen_of_settled fresh settled, Core.invalidWords_eq_nil, f.recordUnits_bytes] at none
    exact List.forall_mem_map.mp none)
  rw [c.slot_of_record record fresh free ended, if_pos (by simp [some, trap])]

end

theorem Core.spadError_record (c : Core) (f : Fill) : (c.spadError (f.recordUnits.flatMap fun u => u.2)).isSome = true ↔
    ∃ a ∈ (shapeOf f.w0 f.w1 f.w2).addrs f.base, a.toNat / 8 ∈ c.spadBad := by
  rw [Core.spadError_isSome, f.recordUnits_bytes]
  simp only [List.mem_map, exists_exists_and_eq_and]

end Sys2Proof.Machine
end


section
set_option Elab.async false
/-! OBLIGATION O21. -/

namespace Sys2Proof.Machine

/-- Settles O21: each event of the engine answers `fillEnds`, `startMx`, `endMx` or `deliverRow`, and each of those what the rules say. -/
theorem matrixEngine : Obligations.MatrixEngine := by
  unfold Obligations.MatrixEngine
  refine ⟨?_, fun s e exist => ⟨?_, ?_, ?_, ?_, ?_⟩, ?_, ?_⟩
  · intro s f rest exist fills named ends due free held
    refine ⟨_, exec_fillComplete exist fills named ends due free, ?_⟩
    obtain ⟨x, ended, state, pending⟩ := Core.slotEnds_endFill (s.coreAt s.ev.u) f s.free
    have part := matrixPart_fillEnds ended (pending.trans held)
    generalize (fillEnds s s.ev.u f).coreAt s.ev.u = c' at part ⊢
    generalize s.coreAt s.ev.u = c at ended part fills ⊢
    simp only [Core.matrixPart, fills, List.drop_one, List.tail_cons, Prod.mk.injEq] at part
    obtain ⟨left, slots, mxq⟩ := part
    have slot (k : Nat) : c'.opSlot k = if k = f.slot then x else c.opSlot k := by
      rw [Core.opSlot, slots, Tbl.getD_set]
      rfl
    have here : c'.opSlot f.slot = x := (slot _).trans (if_pos rfl)
    dsimp only
    rw [here]
    refine ⟨left, fun e he => ?_, fun k other => (slot k).trans (if_neg other), state, fun record fresh valid good => ?_, fun record fresh valid bad => ?_,
      fun record trap fresh settled invalid => c.slot_of_uninitialised record fresh _ ended settled trap invalid⟩
    · rw [mxq] at he
      obtain ⟨y, -, rfl⟩ := List.mem_map.mp he
      simp
    · refine ⟨_, fun i a => ⟨_, c.sees_le (s.free + i), rfl⟩, ?_⟩
      rw [c.slot_of_valid record fresh _ ended valid, if_neg fun error => good ((c.spadError_record f).mp error)]
      rfl
    · rw [c.slot_of_valid record fresh _ ended valid, if_pos ((c.spadError_record f).mpr bad)]
  · intro checked next array
    refine ⟨arrayFree_of_startable next array, _, exec_matrixStart exist checked next, ?_⟩
    rw [State.coreAt_updAt_same]
    exact startMx_array _ _ array
  · intro checked next a op
    refine ⟨_, exec_matrixStart exist checked next, ?_⟩
    rw [State.coreAt_updAt_same]
    simp only [Core.startMx, op]
  · intro checked next op
    refine ⟨_, exec_matrixStart exist checked next, ?_⟩
    rw [State.coreAt_updAt_same]
    simp only [Core.startMx, op]
  · intro checked next n f rest op fills
    obtain ⟨slot, idle⟩ := fill_of_startable next op fills
    refine ⟨slot, idle, _, _, exec_matrixStart exist checked next, ?_, rfl⟩
    rw [State.coreAt_updAt_same, startMx_fill op fills]
    rfl
  · intro checked next noLines a rq mfmt rz sat sc ex op
    obtain ⟨draining, mxq⟩ := startMx_drain noLines s.now op
    have started := s.coreAt_updAt_same s.ev.u fun c => c.startMx s.now e
    rw [← started] at draining mxq
    exact ⟨_, _, exec_matrixStart exist checked next, draining, rfl, rfl, rfl, rfl, mxq, fun k hk => elem_drainRows _ _ _ _ _ _ _ hk⟩
  · intro s e exist c due named noLines
    obtain ⟨l, woken⟩ := State.coreAt_wake (s := s.updAt s.ev.u fun c => c.endMx s.now e) s.ev.u
    rw [State.coreAt_updAt_same] at woken
    refine ⟨_, exec_tileWriteComplete exist due named, ?_⟩
    obtain ⟨tiles, live, mxq⟩ := Core.endMx_tiles noLines s.now e
    generalize (s.coreAt s.ev.u).endMx s.now e = c' at woken tiles live mxq
    have acc : ({ c' with resume := l } : Core).acc = (c.writeTile e).acc := Core.acc_congr tiles live
    rw [woken]
    dsimp only
    rw [acc, live]
    refine ⟨mxq, fun a x y na nb ad ex op ha => ?_, fun a op ha => ?_, fun a v op ha => ?_, fun a b op ha hb i j hi hj => ?_⟩
    · rw [Core.writeTile_mma c op]
      refine ⟨Core.live_setLive _ ha _ true, fun i j hi hj => ?_⟩
      rw [Core.acc_putTile _ ha _ _ hi]
      by_cases inRow : i < ((s.coreAt s.ev.u).opSlot x).rows
      · rw [if_pos inRow, elem_mmaRow _ _ _ _ _ _ _ _ hj]
        exact if_congr (and_iff_right inRow).symm rfl rfl
      · rw [if_neg inRow]
        exact (if_neg fun both => inRow both.1).symm
    · rw [Core.writeTile_aclr c op]
      exact ⟨Core.live_setLive _ ha _ false, Core.acc_cleared _ ha _⟩
    · rw [Core.writeTile_aload c op]
      exact ⟨Core.live_setLive _ ha _ true, fun i j hi _ => Core.acc_putTile _ ha _ _ hi j⟩
    · exact Core.acc_writeTile_amov c op ha hi j
  · intro s d row fl rest exist c named oldest due rows free
    have id : d.id = s.ev.k := by simpa using List.find?_some named
    refine ⟨_, exec_drainRowDelivery exist named oldest due, ?_⟩
    obtain ⟨queue, live, promised, draining⟩ := deliverRow_queued s.now rows free
    dsimp only
    rw [State.coreAt_updAt_same, queue, live, promised, draining, Tbl.getD_set_same, Tbl.getD_set_same, Tbl.getD_set_same]
    refine ⟨rfl, rfl, fun more => ?_, fun last x hx => ?_, rfl, rfl⟩
    · rw [if_neg (by simpa using more)]
      exact find?_advanced (id ▸ named) (fun x => { x with rows := rest, due := s.now + 1 }) fun _ => rfl
    · rw [if_pos (by simpa using last)] at hx
      simpa using (List.mem_filter.mp hx).2

end Sys2Proof.Machine
end


section
set_option Elab.async false
/-! SUPPORT. Slot words (R70 to R96, R376, R423): what the decoder reads of a word that the encoder wrote, form by form, and slot by slot. -/

namespace Sys2Proof.Machine

/-! ## Scalar words (R80 to R82) -/
@[simp] theorem opcode_encArithR (op : BitVec 8) (f : ArithR) : (encArithR op f).extractLsb' 24 8 = op := by
  simp -index only [encArithR, BitVec.extractLsb'_append_eq_of_le, BitVec.extractLsb'_eq_self, Nat.reduceLeDiff, Nat.reduceSub, Nat.reduceAdd]

@[simp] theorem getArithR_encArithR (op : BitVec 8) (f : ArithR) : getArithR (encArithR op f) = f := by
  simp -index only [getArithR, encArithR, BitVec.extractLsb'_append_eq_of_le, BitVec.extractLsb'_append_eq_of_add_le, BitVec.extractLsb'_eq_self,
    BitVec.getLsbD_append, Nat.reduceLeDiff, Nat.reduceSub, Nat.reduceAdd]
  simp

@[simp] theorem reserved_encArithR (op : BitVec 8) (f : ArithR) : (encArithR op f).extractLsb' 2 2 = 0 := by
  simp -index only [encArithR, BitVec.extractLsb'_append_eq_of_le, BitVec.extractLsb'_append_eq_of_add_le, BitVec.extractLsb'_eq_self,
    Nat.reduceLeDiff, Nat.reduceSub, Nat.reduceAdd]
  rfl

@[simp] theorem opcode_encLogicR (op : BitVec 8) (f : LogicR) : (encLogicR op f).extractLsb' 24 8 = op := by
  simp -index only [encLogicR, BitVec.extractLsb'_append_eq_of_le, BitVec.extractLsb'_eq_self, Nat.reduceLeDiff, Nat.reduceSub, Nat.reduceAdd]

@[simp] theorem getLogicR_encLogicR (op : BitVec 8) (f : LogicR) : getLogicR (encLogicR op f) = f := by
  simp -index only [getLogicR, encLogicR, BitVec.extractLsb'_append_eq_of_le, BitVec.extractLsb'_append_eq_of_add_le, BitVec.extractLsb'_eq_self,
    BitVec.getLsbD_append, Nat.reduceLeDiff, Nat.reduceSub, Nat.reduceAdd]
  simp

@[simp] theorem reserved_encLogicR (op : BitVec 8) (f : LogicR) : (encLogicR op f).extractLsb' 1 3 = 0 := by
  simp -index only [encLogicR, BitVec.extractLsb'_append_eq_of_le, BitVec.extractLsb'_append_eq_of_add_le, BitVec.extractLsb'_eq_self,
    Nat.reduceLeDiff, Nat.reduceSub, Nat.reduceAdd]
  rfl

@[simp] theorem opcode_encImmI (op : BitVec 8) (f : ImmI) : (encImmI op f).extractLsb' 24 8 = op := by
  simp -index only [encImmI, BitVec.extractLsb'_append_eq_of_le, BitVec.extractLsb'_eq_self, Nat.reduceLeDiff, Nat.reduceSub, Nat.reduceAdd]

@[simp] theorem getImmI_encImmI (op : BitVec 8) (f : ImmI) : getImmI (encImmI op f) = f := by
  simp -index only [getImmI, encImmI, BitVec.extractLsb'_append_eq_of_le, BitVec.extractLsb'_append_eq_of_add_le, BitVec.extractLsb'_eq_self,
    BitVec.getLsbD_append, Nat.reduceLeDiff, Nat.reduceSub, Nat.reduceAdd]
  simp

@[simp] theorem opcode_encShiftI (op : BitVec 8) (f : ShiftI) : (encShiftI op f).extractLsb' 24 8 = op := by
  simp -index only [encShiftI, BitVec.extractLsb'_append_eq_of_le, BitVec.extractLsb'_eq_self, Nat.reduceLeDiff, Nat.reduceSub, Nat.reduceAdd]

@[simp] theorem getShiftI_encShiftI (op : BitVec 8) (f : ShiftI) : getShiftI (encShiftI op f) = f := by
  simp -index only [getShiftI, encShiftI, BitVec.extractLsb'_append_eq_of_le, BitVec.extractLsb'_append_eq_of_add_le, BitVec.extractLsb'_eq_self,
    BitVec.getLsbD_append, Nat.reduceLeDiff, Nat.reduceSub, Nat.reduceAdd]
  simp

@[simp] theorem reserved_encShiftI (op : BitVec 8) (f : ShiftI) : (encShiftI op f).extractLsb' 6 5 = 0 := by
  simp -index only [encShiftI, BitVec.extractLsb'_append_eq_of_le, BitVec.extractLsb'_append_eq_of_add_le, BitVec.extractLsb'_eq_self,
    Nat.reduceLeDiff, Nat.reduceSub, Nat.reduceAdd]
  rfl

@[simp] theorem opcode_encUnaryR (op : BitVec 8) (f : UnaryR) : (encUnaryR op f).extractLsb' 24 8 = op := by
  simp -index only [encUnaryR, BitVec.extractLsb'_append_eq_of_le, BitVec.extractLsb'_eq_self, Nat.reduceLeDiff, Nat.reduceSub, Nat.reduceAdd]

@[simp] theorem getUnaryR_encUnaryR (op : BitVec 8) (f : UnaryR) : getUnaryR (encUnaryR op f) = f := by
  simp -index only [getUnaryR, encUnaryR, BitVec.extractLsb'_append_eq_of_le, BitVec.extractLsb'_append_eq_of_add_le, BitVec.extractLsb'_eq_self,
    BitVec.getLsbD_append, Nat.reduceLeDiff, Nat.reduceSub, Nat.reduceAdd]
  simp

@[simp] theorem reserved_encUnaryR (op : BitVec 8) (f : UnaryR) : (encUnaryR op f).extractLsb' 0 11 = 0 := by
  simp -index only [encUnaryR, BitVec.extractLsb'_append_eq_of_add_le, BitVec.extractLsb'_eq_self, Nat.reduceLeDiff, Nat.reduceAdd]
  rfl

@[simp] theorem opcode_encBinR (op : BitVec 8) (f : BinR) : (encBinR op f).extractLsb' 24 8 = op := by
  simp -index only [encBinR, BitVec.extractLsb'_append_eq_of_le, BitVec.extractLsb'_eq_self, Nat.reduceLeDiff, Nat.reduceSub, Nat.reduceAdd]

@[simp] theorem getBinR_encBinR (op : BitVec 8) (f : BinR) : getBinR (encBinR op f) = f := by
  simp -index only [getBinR, encBinR, BitVec.extractLsb'_append_eq_of_le, BitVec.extractLsb'_append_eq_of_add_le, BitVec.extractLsb'_eq_self,
    BitVec.getLsbD_append, Nat.reduceLeDiff, Nat.reduceSub, Nat.reduceAdd]
  simp

@[simp] theorem reserved_encBinR (op : BitVec 8) (f : BinR) : (encBinR op f).extractLsb' 0 4 = 0 := by
  simp -index only [encBinR, BitVec.extractLsb'_append_eq_of_add_le, BitVec.extractLsb'_eq_self, Nat.reduceLeDiff, Nat.reduceAdd]
  rfl

@[simp] theorem opcode_encFieldF (op : BitVec 8) (f : FieldF) : (encFieldF op f).extractLsb' 24 8 = op := by
  simp -index only [encFieldF, BitVec.extractLsb'_append_eq_of_le, BitVec.extractLsb'_eq_self, Nat.reduceLeDiff, Nat.reduceSub, Nat.reduceAdd]

@[simp] theorem getFieldF_encFieldF (op : BitVec 8) (f : FieldF) : getFieldF (encFieldF op f) = f := by
  simp -index only [getFieldF, encFieldF, BitVec.extractLsb'_append_eq_of_le, BitVec.extractLsb'_append_eq_of_add_le, BitVec.extractLsb'_eq_self,
    Nat.reduceLeDiff, Nat.reduceSub, Nat.reduceAdd]

@[simp] theorem opcode_encCrK (op : BitVec 8) (f : CrK) : (encCrK op f).extractLsb' 24 8 = op := by
  simp -index only [encCrK, BitVec.extractLsb'_append_eq_of_le, BitVec.extractLsb'_eq_self, Nat.reduceLeDiff, Nat.reduceSub, Nat.reduceAdd]

@[simp] theorem getCrK_encCrK (op : BitVec 8) (f : CrK) : getCrK (encCrK op f) = f := by
  simp -index only [getCrK, encCrK, BitVec.extractLsb'_append_eq_of_le, BitVec.extractLsb'_append_eq_of_add_le, BitVec.extractLsb'_eq_self,
    BitVec.getLsbD_append, Nat.reduceLeDiff, Nat.reduceSub, Nat.reduceAdd]
  simp

@[simp] theorem reserved_encCrK (op : BitVec 8) (f : CrK) : (encCrK op f).extractLsb' 0 5 = 0 := by
  simp -index only [encCrK, BitVec.extractLsb'_append_eq_of_add_le, BitVec.extractLsb'_eq_self, Nat.reduceLeDiff, Nat.reduceAdd]
  rfl
/-- The word of `CMP` (R80, R132). -/
def encCmpR (f : CmpR) : BitVec 32 := 0x24#8 ++ f.d ++ f.a ++ BitVec.ofBool f.e ++ f.b ++ BitVec.ofBool f.f ++ f.cond

/-- The word of `CMPI`. -/
def encCmpC (f : CmpC) : BitVec 32 := 0x25#8 ++ f.d ++ f.a ++ BitVec.ofBool f.e ++ f.cond ++ f.imm

/-- The word of `CMPP`. -/
def encCmppR (f : CmppR) : BitVec 32 := 0x26#8 ++ 0#3 ++ f.p ++ f.a ++ BitVec.ofBool f.e ++ f.b ++ BitVec.ofBool f.f ++ f.cond

/-- The word of `CMPPI`. -/
def encCmppC (f : CmppC) : BitVec 32 := 0x27#8 ++ 0#3 ++ f.p ++ f.a ++ BitVec.ofBool f.e ++ f.cond ++ f.imm

/-- The word of `SEL` (R133). -/
def encSelR (f : SelR) : BitVec 32 :=
  0x28#8 ++ f.d ++ f.a ++ BitVec.ofBool f.e ++ f.b ++ BitVec.ofBool f.f ++ 0#1 ++ f.p

/-- The word of `LEA` (R129). -/
def encLeaR (f : LeaR) : BitVec 32 :=
  0x2A#8 ++ f.d ++ f.a ++ BitVec.ofBool f.e ++ f.b ++ BitVec.ofBool f.f ++ 0#1 ++ f.sh

/-- A word of a destination and 18 bits: `MOVI`, and with these zero `MOVL` and `TCLR` (R135, R137). -/
def encDest (op : BitVec 8) (d : BitVec 6) (imm : BitVec 18) : BitVec 32 := op ++ d ++ imm

theorem opcode_encCmpR (f : CmpR) : (encCmpR f).extractLsb' 24 8 = 0x24#8 := by
  simp -index only [encCmpR, BitVec.extractLsb'_append_eq_of_le, BitVec.extractLsb'_eq_self, Nat.reduceLeDiff, Nat.reduceSub, Nat.reduceAdd]

theorem getCmpR_encCmpR (f : CmpR) : getCmpR (encCmpR f) = f := by
  simp -index only [getCmpR, encCmpR, BitVec.extractLsb'_append_eq_of_le, BitVec.extractLsb'_append_eq_of_add_le, BitVec.extractLsb'_eq_self,
    BitVec.getLsbD_append, Nat.reduceLeDiff, Nat.reduceSub, Nat.reduceAdd]
  simp

theorem opcode_encCmpC (f : CmpC) : (encCmpC f).extractLsb' 24 8 = 0x25#8 := by
  simp -index only [encCmpC, BitVec.extractLsb'_append_eq_of_le, BitVec.extractLsb'_eq_self, Nat.reduceLeDiff, Nat.reduceSub, Nat.reduceAdd]

theorem getCmpC_encCmpC (f : CmpC) : getCmpC (encCmpC f) = f := by
  simp -index only [getCmpC, encCmpC, BitVec.extractLsb'_append_eq_of_le, BitVec.extractLsb'_append_eq_of_add_le, BitVec.extractLsb'_eq_self,
    BitVec.getLsbD_append, Nat.reduceLeDiff, Nat.reduceSub, Nat.reduceAdd]
  simp

theorem opcode_encCmppR (f : CmppR) : (encCmppR f).extractLsb' 24 8 = 0x26#8 := by
  simp -index only [encCmppR, BitVec.extractLsb'_append_eq_of_le, BitVec.extractLsb'_eq_self, Nat.reduceLeDiff, Nat.reduceSub, Nat.reduceAdd]

theorem getCmppR_encCmppR (f : CmppR) : getCmppR (encCmppR f) = f := by
  simp -index only [getCmppR, encCmppR, BitVec.extractLsb'_append_eq_of_le, BitVec.extractLsb'_append_eq_of_add_le, BitVec.extractLsb'_eq_self,
    BitVec.getLsbD_append, Nat.reduceLeDiff, Nat.reduceSub, Nat.reduceAdd]
  simp

theorem reserved_encCmppR (f : CmppR) : (encCmppR f).extractLsb' 21 3 = 0 := by
  simp -index only [encCmppR, BitVec.extractLsb'_append_eq_of_le, BitVec.extractLsb'_append_eq_of_add_le, BitVec.extractLsb'_eq_self,
    Nat.reduceLeDiff, Nat.reduceSub, Nat.reduceAdd]
  rfl

theorem opcode_encCmppC (f : CmppC) : (encCmppC f).extractLsb' 24 8 = 0x27#8 := by
  simp -index only [encCmppC, BitVec.extractLsb'_append_eq_of_le, BitVec.extractLsb'_eq_self, Nat.reduceLeDiff, Nat.reduceSub, Nat.reduceAdd]

theorem getCmppC_encCmppC (f : CmppC) : getCmppC (encCmppC f) = f := by
  simp -index only [getCmppC, encCmppC, BitVec.extractLsb'_append_eq_of_le, BitVec.extractLsb'_append_eq_of_add_le, BitVec.extractLsb'_eq_self,
    BitVec.getLsbD_append, Nat.reduceLeDiff, Nat.reduceSub, Nat.reduceAdd]
  simp

theorem reserved_encCmppC (f : CmppC) : (encCmppC f).extractLsb' 21 3 = 0 := by
  simp -index only [encCmppC, BitVec.extractLsb'_append_eq_of_le, BitVec.extractLsb'_append_eq_of_add_le, BitVec.extractLsb'_eq_self,
    Nat.reduceLeDiff, Nat.reduceSub, Nat.reduceAdd]
  rfl

theorem opcode_encSelR (f : SelR) : (encSelR f).extractLsb' 24 8 = 0x28#8 := by
  simp -index only [encSelR, BitVec.extractLsb'_append_eq_of_le, BitVec.extractLsb'_eq_self, Nat.reduceLeDiff, Nat.reduceSub, Nat.reduceAdd]

theorem getSelR_encSelR (f : SelR) : getSelR (encSelR f) = f := by
  simp -index only [getSelR, encSelR, BitVec.extractLsb'_append_eq_of_le, BitVec.extractLsb'_append_eq_of_add_le, BitVec.extractLsb'_eq_self,
    BitVec.getLsbD_append, Nat.reduceLeDiff, Nat.reduceSub, Nat.reduceAdd]
  simp

theorem reserved_encSelR (f : SelR) : (!(encSelR f).getLsbD 3) = true := by
  simp -index only [encSelR, BitVec.getLsbD_append]
  simp

theorem opcode_encLeaR (f : LeaR) : (encLeaR f).extractLsb' 24 8 = 0x2A#8 := by
  simp -index only [encLeaR, BitVec.extractLsb'_append_eq_of_le, BitVec.extractLsb'_eq_self, Nat.reduceLeDiff, Nat.reduceSub, Nat.reduceAdd]

theorem getLeaR_encLeaR (f : LeaR) : getLeaR (encLeaR f) = f := by
  simp -index only [getLeaR, encLeaR, BitVec.extractLsb'_append_eq_of_le, BitVec.extractLsb'_append_eq_of_add_le, BitVec.extractLsb'_eq_self,
    BitVec.getLsbD_append, Nat.reduceLeDiff, Nat.reduceSub, Nat.reduceAdd]
  simp

theorem reserved_encLeaR (f : LeaR) : (!(encLeaR f).getLsbD 3) = true := by
  simp -index only [encLeaR, BitVec.getLsbD_append]
  simp

theorem opcode_encDest (op : BitVec 8) (d imm) : (encDest op d imm).extractLsb' 24 8 = op := by
  simp -index only [encDest, BitVec.extractLsb'_append_eq_of_le, BitVec.extractLsb'_eq_self, Nat.reduceLeDiff, Nat.reduceSub]

theorem dest_encDest (op : BitVec 8) (d imm) : (encDest op d imm).extractLsb' 18 6 = d := by
  simp -index only [encDest, BitVec.extractLsb'_append_eq_of_le, BitVec.extractLsb'_append_eq_of_add_le, BitVec.extractLsb'_eq_self,
    Nat.reduceLeDiff, Nat.reduceSub, Nat.reduceAdd]

theorem imm_encDest (op : BitVec 8) (d imm) : (encDest op d imm).extractLsb' 0 18 = imm := by
  simp -index only [encDest, BitVec.extractLsb'_append_eq_of_add_le, BitVec.extractLsb'_eq_self, Nat.reduceLeDiff, Nat.reduceAdd]

theorem halves_append (x : BitVec 64) : x.extractLsb' 32 32 ++ x.extractLsb' 0 32 = x := by
  rw [BitVec.extractLsb'_append_extractLsb'_eq_extractLsb' (by rfl)]
  exact BitVec.extractLsb'_eq_self

/-- A word with its reserved bits zero is in order. -/
theorem Dec.of_clear {i : Instr} {p : Prop} [Decidable p] (clear : p) : Dec.of (decide p) i = .ok i :=
  if_pos (decide_eq_true clear)

theorem decodeSlot_sa (x l0 l1 : BitVec 32) : decodeSlot .sa (x.setWidth 64) l0 l1 = decodeScalar x l0 l1 := by
  simp [decodeSlot]

section
variable {i : Instr} {w : BitVec 64} {l0 l1 : BitVec 32}

theorem decodeScalar_encode (h : encode i = some (.slot .sa w l0 l1)) : decodeSlot .sa w l0 l1 = .ok i := by
  cases i
  case add f | sub f | mul f | mulh f | div f | rem f | min f | max f =>
    cases h
    rw [decodeSlot_sa, decodeScalar, opcode_encArithR, getArithR_encArithR]
    exact Dec.of_clear (reserved_encArithR _ _)
  case and f | or f | xor f | andn f | orn f | shl f | shr f | sar f | rol f | ror f =>
    cases h
    rw [decodeSlot_sa, decodeScalar, opcode_encLogicR, getLogicR_encLogicR]
    exact Dec.of_clear (reserved_encLogicR _ _)
  case addi f | rsbi f | muli f | andi f | ori f | xori f =>
    cases h
    rw [decodeSlot_sa, decodeScalar, opcode_encImmI, getImmI_encImmI]
    rfl
  case shli f | shri f | sari f | rori f =>
    cases h
    rw [decodeSlot_sa, decodeScalar, opcode_encShiftI, getShiftI_encShiftI]
    exact Dec.of_clear (reserved_encShiftI _ _)
  case popc f | clz f | tget f | tspill f =>
    cases h
    rw [decodeSlot_sa, decodeScalar, opcode_encUnaryR, getUnaryR_encUnaryR]
    exact Dec.of_clear (reserved_encUnaryR _ _)
  case cmov f | bfx f | bfxs f | bfi f | tfill f =>
    cases h
    rw [decodeSlot_sa, decodeScalar, opcode_encBinR, getBinR_encBinR]
    exact Dec.of_clear (reserved_encBinR _ _)
  case bfxi f | bfxsi f | bfii f =>
    cases h
    rw [decodeSlot_sa, decodeScalar, opcode_encFieldF, getFieldF_encFieldF]
    rfl
  case mfcr f | mtcr f =>
    cases h
    rw [decodeSlot_sa, decodeScalar, opcode_encCrK, getCrK_encCrK]
    exact Dec.of_clear (reserved_encCrK _ _)
  case cmp f =>
    cases h
    change decodeSlot .sa ((encCmpR f).setWidth 64) 0 0 = _
    rw [decodeSlot_sa, decodeScalar, opcode_encCmpR, getCmpR_encCmpR]
    rfl
  case cmpi f =>
    cases h
    change decodeSlot .sa ((encCmpC f).setWidth 64) 0 0 = _
    rw [decodeSlot_sa, decodeScalar, opcode_encCmpC, getCmpC_encCmpC]
    rfl
  case cmpp f =>
    cases h
    change decodeSlot .sa ((encCmppR f).setWidth 64) 0 0 = _
    rw [decodeSlot_sa, decodeScalar, opcode_encCmppR, getCmppR_encCmppR]
    exact Dec.of_clear (reserved_encCmppR f)
  case cmppi f =>
    cases h
    change decodeSlot .sa ((encCmppC f).setWidth 64) 0 0 = _
    rw [decodeSlot_sa, decodeScalar, opcode_encCmppC, getCmppC_encCmppC]
    exact Dec.of_clear (reserved_encCmppC f)
  case sel f =>
    cases h
    change decodeSlot .sa ((encSelR f).setWidth 64) 0 0 = _
    rw [decodeSlot_sa, decodeScalar, opcode_encSelR, getSelR_encSelR]
    exact if_pos (reserved_encSelR f)
  case lea f =>
    cases h
    change decodeSlot .sa ((encLeaR f).setWidth 64) 0 0 = _
    rw [decodeSlot_sa, decodeScalar, opcode_encLeaR, getLeaR_encLeaR]
    exact if_pos (reserved_encLeaR f)
  case movi d imm =>
    cases h
    change decodeSlot .sa ((encDest 0x32 d imm).setWidth 64) 0 0 = _
    rw [decodeSlot_sa, decodeScalar, opcode_encDest, dest_encDest, imm_encDest]
    rfl
  case movl d lit =>
    cases h
    change decodeSlot .sa ((encDest 0x33 d 0).setWidth 64) _ _ = _
    rw [decodeSlot_sa, decodeScalar, opcode_encDest, dest_encDest, imm_encDest, halves_append]
    rfl
  case tclr d =>
    cases h
    change decodeSlot .sa ((encDest 0x36 d 0).setWidth 64) 0 0 = _
    rw [decodeSlot_sa, decodeScalar, opcode_encDest, dest_encDest, imm_encDest]
    rfl
  case tclrC =>
    cases h
    rfl
  all_goals cases h
end

/-! ## 64-bit words (R84 to R92) -/

@[simp] theorem opcode64_encVWord (op : BitVec 8) (f : VWord) : opcode64 (encVWord op f) = op.toNat := by
  simp -index only [opcode64, encVWord, BitVec.extractLsb'_append_eq_of_le, BitVec.extractLsb'_append_eq_of_add_le, BitVec.extractLsb'_eq_self,
    Nat.reduceLeDiff, Nat.reduceSub, Nat.reduceAdd]

@[simp] theorem getVWord_encVWord (op : BitVec 8) (f : VWord) : getVWord (encVWord op f) = f := by
  simp -index only [getVWord, encVWord, BitVec.extractLsb'_append_eq_of_le, BitVec.extractLsb'_append_eq_of_add_le, BitVec.extractLsb'_eq_self,
    BitVec.getLsbD_append, Nat.reduceLeDiff, Nat.reduceSub, Nat.reduceAdd]
  simp

@[simp] theorem opcode64_encMWord (op : BitVec 8) (f : MWord) : opcode64 (encMWord op f) = op.toNat := by
  simp -index only [opcode64, encMWord, BitVec.extractLsb'_append_eq_of_le, BitVec.extractLsb'_append_eq_of_add_le, BitVec.extractLsb'_eq_self,
    Nat.reduceLeDiff, Nat.reduceSub, Nat.reduceAdd]

@[simp] theorem getMWord_encMWord (op : BitVec 8) (f : MWord) : getMWord (encMWord op f) = f := by
  simp -index only [getMWord, encMWord, BitVec.extractLsb'_append_eq_of_le, BitVec.extractLsb'_append_eq_of_add_le, BitVec.extractLsb'_eq_self,
    BitVec.getLsbD_append, Nat.reduceLeDiff, Nat.reduceSub, Nat.reduceAdd]
  simp

@[simp] theorem opcode64_encMemWord (op : BitVec 8) (f : MemWord) : opcode64 (encMemWord op f) = op.toNat := by
  simp -index only [opcode64, encMemWord, BitVec.extractLsb'_append_eq_of_le, BitVec.extractLsb'_append_eq_of_add_le, BitVec.extractLsb'_eq_self,
    Nat.reduceLeDiff, Nat.reduceSub, Nat.reduceAdd]

@[simp] theorem getMemWord_encMemWord (op : BitVec 8) (f : MemWord) : getMemWord (encMemWord op f) = f := by
  simp -index only [getMemWord, encMemWord, BitVec.extractLsb'_append_eq_of_le, BitVec.extractLsb'_append_eq_of_add_le, BitVec.extractLsb'_eq_self,
    BitVec.getLsbD_append, Nat.reduceLeDiff, Nat.reduceSub, Nat.reduceAdd]
  simp

@[simp] theorem opcode64_encCpWord (op : BitVec 8) (f : CpWord) : opcode64 (encCpWord op f) = op.toNat := by
  simp -index only [opcode64, encCpWord, BitVec.extractLsb'_append_eq_of_le, BitVec.extractLsb'_append_eq_of_add_le, BitVec.extractLsb'_eq_self,
    Nat.reduceLeDiff, Nat.reduceSub, Nat.reduceAdd]

@[simp] theorem getCpWord_encCpWord (op : BitVec 8) (f : CpWord) : getCpWord (encCpWord op f) = f := by
  simp -index only [getCpWord, encCpWord, BitVec.extractLsb'_append_eq_of_le, BitVec.extractLsb'_append_eq_of_add_le, BitVec.extractLsb'_eq_self,
    BitVec.getLsbD_append, Nat.reduceLeDiff, Nat.reduceSub, Nat.reduceAdd]
  simp

section
variable {i : Instr} {w : BitVec 64} {l0 l1 : BitVec 32}

theorem decodeVector_encode (h : encode i = some (.slot .vx w l0 l1)) : decodeSlot .vx w l0 l1 = .ok i := by
  cases i <;> cases h <;> (rw [decodeSlot, decodeVector, opcode64_encVWord, getVWord_encVWord]; rfl)

theorem decodeMatrix_encode (h : encode i = some (.slot .mx w l0 l1)) : decodeSlot .mx w l0 l1 = .ok i := by
  cases i <;> cases h <;> (rw [decodeSlot, decodeMatrix, opcode64_encMWord, getMWord_encMWord]; rfl)

theorem decodeMemory_encode (h : encode i = some (.slot .ms w l0 l1)) : decodeSlot .ms w l0 l1 = .ok i := by
  cases i <;> cases h <;> (rw [decodeSlot, decodeMemory, opcode64_encMemWord, getMemWord_encMemWord]; rfl)

theorem decodePlanMemory_encode (h : encode i = some (.slot .pms w l0 l1)) : decodeSlot .pms w l0 l1 = .ok i := by
  cases i <;> cases h <;> (rw [decodeSlot, decodePlanMemory, opcode64_encMemWord, getMemWord_encMemWord]; rfl)

theorem decodeCopy_encode (h : encode i = some (.slot .cp w l0 l1)) : decodeSlot .cp w l0 l1 = .ok i := by
  cases i <;> cases h <;> (rw [decodeSlot, decodeCopy, opcode64_encCpWord, getCpWord_encCpWord]; rfl)
end

/-! ## Sync and branch words (R93 to R96, R423) -/

section
variable (op ix : BitVec 8) (r : BitVec 6) (ea : Bool) (lim : BitVec 5) (sc : BitVec 3)

theorem opcode_encSync : (encSync op ix r ea lim sc).extractLsb' 24 8 = op := by
  simp -index only [encSync, BitVec.extractLsb'_append_eq_of_le, BitVec.extractLsb'_eq_self, Nat.reduceLeDiff, Nat.reduceSub, Nat.reduceAdd]

theorem ix_encSync : (encSync op ix r ea lim sc).extractLsb' 16 8 = ix := by
  simp -index only [encSync, BitVec.extractLsb'_append_eq_of_le, BitVec.extractLsb'_append_eq_of_add_le, BitVec.extractLsb'_eq_self,
    Nat.reduceLeDiff, Nat.reduceSub, Nat.reduceAdd]

theorem reg_encSync : (encSync op ix r ea lim sc).extractLsb' 10 6 = r := by
  simp -index only [encSync, BitVec.extractLsb'_append_eq_of_le, BitVec.extractLsb'_append_eq_of_add_le, BitVec.extractLsb'_eq_self,
    Nat.reduceLeDiff, Nat.reduceSub, Nat.reduceAdd]

theorem ea_encSync : (encSync op ix r ea lim sc).getLsbD 9 = ea := by
  simp -index only [encSync, BitVec.getLsbD_append]
  simp

theorem lim_encSync : (encSync op ix r ea lim sc).extractLsb' 4 5 = lim := by
  simp -index only [encSync, BitVec.extractLsb'_append_eq_of_le, BitVec.extractLsb'_append_eq_of_add_le, BitVec.extractLsb'_eq_self,
    Nat.reduceLeDiff, Nat.reduceSub, Nat.reduceAdd]

theorem scope_encSync : (encSync op ix r ea lim sc).extractLsb' 1 3 = sc := by
  simp -index only [encSync, BitVec.extractLsb'_append_eq_of_le, BitVec.extractLsb'_append_eq_of_add_le, BitVec.extractLsb'_eq_self,
    Nat.reduceLeDiff, Nat.reduceSub, Nat.reduceAdd]

theorem bit0_encSync : (encSync op ix r ea lim sc).getLsbD 0 = false := by
  simp -index only [encSync, BitVec.getLsbD_append]
  simp

theorem tail_encSync : (encSync op ix r ea lim 0).extractLsb' 0 4 = 0 := by
  ext k hk
  simp -index only [encSync, BitVec.getElem_extractLsb', BitVec.getLsbD_append]
  simp
  omega

theorem operand_encSync : (encSync op ix 0 false 0 0).extractLsb' 0 16 = 0 := by
  ext k hk
  simp -index only [encSync, BitVec.getElem_extractLsb', BitVec.getLsbD_append]
  simp
  omega

/-- A field inside the index is a field of the index. -/
theorem inIx_encSync {start len : Nat} (low : 16 ≤ start) (high : start + len ≤ 24) :
    (encSync op ix r ea lim sc).extractLsb' start len = ix.extractLsb' (start - 16) len := by
  rw [encSync]
  iterate 5 rw [BitVec.extractLsb'_append_eq_of_le (by omega)]
  rw [BitVec.extractLsb'_append_eq_of_add_le (by omega)]
  congr 1
end

section
variable (op : BitVec 8) (bt : BitVec 3) (c : BitVec 8) (lt : BitVec 3) (r : BitVec 6) (ea : Bool)

theorem opcode_encB : (encB op bt c lt r ea).extractLsb' 24 8 = op := by
  simp -index only [encB, BitVec.extractLsb'_append_eq_of_le, BitVec.extractLsb'_eq_self, Nat.reduceLeDiff, Nat.reduceSub, Nat.reduceAdd]

theorem target_encB : (encB op bt c lt r ea).extractLsb' 21 3 = bt := by
  simp -index only [encB, BitVec.extractLsb'_append_eq_of_le, BitVec.extractLsb'_append_eq_of_add_le, BitVec.extractLsb'_eq_self,
    Nat.reduceLeDiff, Nat.reduceSub, Nat.reduceAdd]

theorem cond_encB : (encB op bt c lt r ea).extractLsb' 13 8 = c := by
  simp -index only [encB, BitVec.extractLsb'_append_eq_of_le, BitVec.extractLsb'_append_eq_of_add_le, BitVec.extractLsb'_eq_self,
    Nat.reduceLeDiff, Nat.reduceSub, Nat.reduceAdd]

theorem link_encB : (encB op bt c lt r ea).extractLsb' 10 3 = lt := by
  simp -index only [encB, BitVec.extractLsb'_append_eq_of_le, BitVec.extractLsb'_append_eq_of_add_le, BitVec.extractLsb'_eq_self,
    Nat.reduceLeDiff, Nat.reduceSub, Nat.reduceAdd]

theorem reg_encB : (encB op bt c lt r ea).extractLsb' 4 6 = r := by
  simp -index only [encB, BitVec.extractLsb'_append_eq_of_le, BitVec.extractLsb'_append_eq_of_add_le, BitVec.extractLsb'_eq_self,
    Nat.reduceLeDiff, Nat.reduceSub, Nat.reduceAdd]

theorem ea_encB : (encB op bt c lt r ea).getLsbD 3 = ea := by
  simp -index only [encB, BitVec.getLsbD_append]
  simp

theorem reserved_encB : (encB op bt c lt r ea).extractLsb' 0 3 = 0 := by
  simp -index only [encB, BitVec.extractLsb'_append_eq_of_add_le, BitVec.extractLsb'_eq_self, Nat.reduceLeDiff, Nat.reduceAdd]
  rfl
end

/-- A branch-slot word of 3 bits and 21 bits: `PBR`, and `PBRL` with the 21 bits zero (R94). -/
def encTarget (op : BitVec 8) (bt : BitVec 3) (off : BitVec 21) : BitVec 32 := op ++ bt ++ off

theorem opcode_encTarget (op : BitVec 8) (bt off) : (encTarget op bt off).extractLsb' 24 8 = op := by
  simp -index only [encTarget, BitVec.extractLsb'_append_eq_of_le, BitVec.extractLsb'_eq_self, Nat.reduceLeDiff, Nat.reduceSub]

theorem target_encTarget (op : BitVec 8) (bt off) : (encTarget op bt off).extractLsb' 21 3 = bt := by
  simp -index only [encTarget, BitVec.extractLsb'_append_eq_of_le, BitVec.extractLsb'_append_eq_of_add_le, BitVec.extractLsb'_eq_self,
    Nat.reduceLeDiff, Nat.reduceSub, Nat.reduceAdd]

theorem offset_encTarget (op : BitVec 8) (bt off) : (encTarget op bt off).extractLsb' 0 21 = off := by
  simp -index only [encTarget, BitVec.extractLsb'_append_eq_of_add_le, BitVec.extractLsb'_eq_self, Nat.reduceLeDiff, Nat.reduceAdd]

/-- The word of `TRAP`, `BKPT` and `SYSC` (R95). -/
def encCode (op : BitVec 8) (imm : BitVec 16) : BitVec 32 := op ++ 0#8 ++ imm

theorem opcode_encCode (op : BitVec 8) (imm) : (encCode op imm).extractLsb' 24 8 = op := by
  simp -index only [encCode, BitVec.extractLsb'_append_eq_of_le, BitVec.extractLsb'_eq_self, Nat.reduceLeDiff, Nat.reduceSub]

theorem code_encCode (op : BitVec 8) (imm) : (encCode op imm).extractLsb' 0 16 = imm := by
  simp -index only [encCode, BitVec.extractLsb'_append_eq_of_add_le, BitVec.extractLsb'_eq_self, Nat.reduceLeDiff, Nat.reduceAdd]

theorem reserved_encCode (op : BitVec 8) (imm) : (encCode op imm).extractLsb' 16 8 = 0 := by
  simp -index only [encCode, BitVec.extractLsb'_append_eq_of_le, BitVec.extractLsb'_append_eq_of_add_le, BitVec.extractLsb'_eq_self,
    Nat.reduceLeDiff, Nat.reduceSub, Nat.reduceAdd]
  rfl

@[simp] theorem opcode_encSysR (op : BitVec 8) (f : SysR) : (encSysR op f).extractLsb' 24 8 = op := by
  simp -index only [encSysR, BitVec.extractLsb'_append_eq_of_le, BitVec.extractLsb'_eq_self, Nat.reduceLeDiff, Nat.reduceSub, Nat.reduceAdd]

@[simp] theorem reserved_encSysR (op : BitVec 8) (f : SysR) : (encSysR op f).extractLsb' 0 11 = 0 := by
  simp -index only [encSysR, BitVec.extractLsb'_append_eq_of_add_le, BitVec.extractLsb'_eq_self, Nat.reduceLeDiff, Nat.reduceAdd]
  rfl

@[simp] theorem operands_encSysR (op : BitVec 8) (f : SysR) :
    (⟨(encSysR op f).extractLsb' 18 6, (encSysR op f).extractLsb' 12 6, (encSysR op f).getLsbD 11⟩ : SysR) = f := by
  simp -index only [encSysR, BitVec.extractLsb'_append_eq_of_le, BitVec.extractLsb'_append_eq_of_add_le, BitVec.extractLsb'_eq_self,
    BitVec.getLsbD_append, Nat.reduceLeDiff, Nat.reduceSub, Nat.reduceAdd]
  simp

theorem decodeSlot_sy (x l0 l1 : BitVec 32) : decodeSlot .sy (x.setWidth 64) l0 l1 = decodeSync x := by
  simp [decodeSlot]

theorem decodeSlot_br (x l0 l1 : BitVec 32) : decodeSlot .br (x.setWidth 64) l0 l1 = decodeBranch x l0 l1 := by
  simp [decodeSlot]

section
variable {i : Instr} {w : BitVec 64} {l0 l1 : BitVec 32}

theorem decodeBranch_encode (h : encode i = some (.slot .br w l0 l1)) (own : sharedWord i = false) : decodeSlot .br w l0 l1 = .ok i := by
  cases i
  case pbr bt off =>
    cases h
    change decodeSlot .br ((encTarget 0x01 bt off).setWidth 64) 0 0 = _
    rw [decodeSlot_br, decodeBranch, opcode_encTarget, target_encTarget, offset_encTarget]
    rfl
  case pbrl bt lit =>
    cases h
    change decodeSlot .br ((encTarget 0x02 bt 0).setWidth 64) _ _ = _
    rw [decodeSlot_br, decodeBranch, opcode_encTarget, target_encTarget, offset_encTarget, halves_append]
    rfl
  case pbrs | br | call | ret | loop =>
    cases h
    rw [decodeSlot_br, decodeBranch, opcode_encB, target_encB, cond_encB, link_encB, reg_encB, ea_encB, reserved_encB]
    rfl
  case trap imm | bkpt imm | sysc imm =>
    cases h
    change decodeSlot .br ((encCode _ imm).setWidth 64) 0 0 = _
    rw [decodeSlot_br, decodeBranch, opcode_encCode, code_encCode, reserved_encCode]
    rfl
  case cwb | iinv | tlbinv | tlbwr | tlbprobe | ctxswSave =>
    cases h
    rw [decodeSlot_br, decodeBranch, opcode_encSysR, operands_encSysR, reserved_encSysR]
    rfl
  case dbell =>
    cases h
    rw [decodeSlot_br, decodeBranch, opcode_encSysR, operands_encSysR, reserved_encSysR]
    rfl
  case pmfcr f | pmtcr f =>
    cases h
    rw [decodeSlot_br, decodeBranch, opcode_encCrK, getCrK_encCrK]
    exact Dec.of_clear (reserved_encCrK _ _)
  case modeEx | modeIl | done | yield | tret | fbar | tlbinva | waiti =>
    cases h
    rfl
  case ctxswRestore | ctxswStop => cases own
  all_goals cases h

theorem decodeSync_encode (h : encode i = some (.slot .sy w l0 l1)) : decodeSlot .sy w l0 l1 = .ok i := by
  cases i
  case fpost k r ea | fset k r ea | fwait k r ea lim | fget k r =>
    cases h
    have flag : (0#3 ++ k : BitVec 8).extractLsb' 0 5 = k := by
      rw [BitVec.extractLsb'_append_eq_of_add_le (by decide), BitVec.extractLsb'_eq_self]
    have clear : (0#3 ++ k : BitVec 8).extractLsb' 5 3 = 0 := by
      rw [BitVec.extractLsb'_append_eq_of_le (by decide)]
      rfl
    rw [decodeSlot_sy, decodeSync, opcode_encSync, inIx_encSync _ _ _ _ _ _ (start := 16) (len := 5) (by decide) (by decide),
      inIx_encSync _ _ _ _ _ _ (start := 21) (by decide) (by decide), flag, clear, reg_encSync, ea_encSync, lim_encSync, tail_encSync]
    rfl
  case lset m r ea | lwait m lim  =>
    cases h
    have counter : (0#2 ++ m : BitVec 8).extractLsb' 0 6 = m := by
      rw [BitVec.extractLsb'_append_eq_of_add_le (by decide), BitVec.extractLsb'_eq_self]
    have clear : (0#2 ++ m : BitVec 8).extractLsb' 6 2 = 0 := by
      rw [BitVec.extractLsb'_append_eq_of_le (by decide)]
      rfl
    rw [decodeSlot_sy, decodeSync, opcode_encSync, inIx_encSync _ _ _ _ _ _ (start := 16) (len := 6) (by decide) (by decide),
      inIx_encSync _ _ _ _ _ _ (start := 22) (by decide) (by decide), counter, clear, reg_encSync, ea_encSync, lim_encSync, tail_encSync]
    rfl
  case qpush c r ea lim | qpop c r lim  =>
    cases h
    rw [decodeSlot_sy, decodeSync, opcode_encSync, ix_encSync, reg_encSync, ea_encSync, lim_encSync, tail_encSync]
    rfl
  case bar sc lim | fence sc =>
    cases h
    rw [decodeSlot_sy, decodeSync, opcode_encSync, ix_encSync, reg_encSync, ea_encSync, lim_encSync, scope_encSync, bit0_encSync]
    rfl
  case xfence pa pb =>
    cases h
    have clear : (0#2 ++ pa ++ pb : BitVec 8).extractLsb' 6 2 = 0 := by
      rw [BitVec.extractLsb'_append_eq_of_le (by decide), BitVec.extractLsb'_append_eq_of_le (by decide)]
      rfl
    have first : (0#2 ++ pa ++ pb : BitVec 8).extractLsb' 3 3 = pa := by
      rw [BitVec.extractLsb'_append_eq_of_le (by decide), BitVec.extractLsb'_append_eq_of_add_le (by decide), BitVec.extractLsb'_eq_self]
    have second : (0#2 ++ pa ++ pb : BitVec 8).extractLsb' 0 3 = pb := by
      rw [BitVec.extractLsb'_append_eq_of_add_le (by decide), BitVec.extractLsb'_eq_self]
    rw [decodeSlot_sy, decodeSync, opcode_encSync, inIx_encSync _ _ _ _ _ _ (start := 22) (by decide) (by decide),
      inIx_encSync _ _ _ _ _ _ (start := 19) (by decide) (by decide), inIx_encSync _ _ _ _ _ _ (start := 16) (len := 3) (by decide) (by decide),
       clear, first, second, operand_encSync]
    rfl
  case suspend =>
    cases h
    rfl
  all_goals cases h
end

end Sys2Proof.Machine
end


section
set_option Elab.async false
/-! OBLIGATION O55. -/

namespace Sys2Proof.Machine

variable {i : Instr} {c : Slot} {w : BitVec 64} {l0 l1 : BitVec 32}

theorem decodeSlot_encode (words : encode i = some (.slot c w l0 l1)) (own : sharedWord i = false) : decodeSlot c w l0 l1 = .ok i :=
  match c with
  | .sa => decodeScalar_encode words
  | .vx => decodeVector_encode words
  | .mx => decodeMatrix_encode words
  | .ms => decodeMemory_encode words
  | .cp => decodeCopy_encode words
  | .sy => decodeSync_encode words
  | .br => decodeBranch_encode words own
  | .pms => decodePlanMemory_encode words

/-- The word of a slot of 4 bytes is x in the low half; of another slot's nothing is said. -/
def NarrowWord (x : BitVec 32) : Option Enc → Prop
  | some (.slot c w _ _) => w = if c.bytes = 4 then x.setWidth 64 else w
  | _ => x = 0

theorem narrowWord_encode (i : Instr) : ∃ x, NarrowWord x (encode i) := by
  cases i <;> (apply Exists.intro; exact rfl)
  all_goals exact 0

/-- The word of a slot of 4 bytes is one of 32 bits. -/
theorem word_of_encode (words : encode i = some (.slot c w l0 l1)) (short : c.bytes = 4) : ∃ x : BitVec 32, w = x.setWidth 64 := by
  obtain ⟨x, narrow⟩ := narrowWord_encode i
  rw [words, NarrowWord, if_pos short] at narrow
  exact ⟨x, narrow⟩

/-- Settles O55: what `decodeSlot_encode` says of each slot; the words of `CTXSW` are those of its first row. -/
theorem slotRoundTrip : Obligations.SlotRoundTrip := by
  intro i c w l0 l1 words wf
  refine ⟨fun own => ?_, fun f shared => ?_, fun short => ?_⟩
  · have decoded := decodeSlot_encode words own
    refine ⟨decoded, ?_⟩
    rw [decoded, Dec.instr?, if_pos wf]
  · have first : encode (.ctxswSave f) = some (.slot c w l0 l1) := by
      rcases shared with rfl | rfl <;> exact words
    exact decodeSlot_encode first rfl
  · obtain ⟨x, rfl⟩ := word_of_encode words short
    rw [BitVec.toNat_setWidth_of_le (by decide)]
    exact x.isLt

end Sys2Proof.Machine
end


section
set_option Elab.async false
/-! SUPPORT. Graph words (R97 to R101): what the decoder reads of a word that the encoder wrote, and of the words that follow it. -/

namespace Sys2Proof.Machine

/-! ## Form GC -/

section
variable (op : BitVec 8) (g : GcWord)

theorem opcode_encGc : (encGc op g).extractLsb' 56 8 = op := by
  simp -index only [encGc, BitVec.extractLsb'_append_eq_of_le, BitVec.extractLsb'_eq_self, Nat.reduceLeDiff, Nat.reduceSub, Nat.reduceAdd]

theorem reserved_encGc : (encGc op g).extractLsb' 32 5 = 0 := by
  simp -index only [encGc, BitVec.extractLsb'_append_eq_of_le, BitVec.extractLsb'_append_eq_of_add_le, BitVec.extractLsb'_eq_self,
    Nat.reduceLeDiff, Nat.reduceSub, Nat.reduceAdd]
  rfl

theorem getGc_encGc : getGc (encGc op g) = g := by
  simp -index only [getGc, encGc, BitVec.extractLsb'_append_eq_of_le, BitVec.extractLsb'_append_eq_of_add_le, BitVec.extractLsb'_eq_self,
    Nat.reduceLeDiff, Nat.reduceSub, Nat.reduceAdd]

end

/-! ## Form GH -/

/-- The first word of form GH (R98): handle, the count of the words that follow, and AUX. -/
def ghWord (op : BitVec 8) (g : GhWord) : BitVec 64 := op ++ g.handle ++ BitVec.ofNat 4 g.trail.length ++ 0#8 ++ g.aux

section
variable (op : BitVec 8) (g : GhWord)

theorem opcode_ghWord : (ghWord op g).extractLsb' 56 8 = op := by
  simp -index only [ghWord, BitVec.extractLsb'_append_eq_of_le, BitVec.extractLsb'_eq_self, Nat.reduceLeDiff, Nat.reduceSub, Nat.reduceAdd]

theorem reserved_ghWord : (ghWord op g).extractLsb' 32 8 = 0 := by
  simp -index only [ghWord, BitVec.extractLsb'_append_eq_of_le, BitVec.extractLsb'_append_eq_of_add_le, BitVec.extractLsb'_eq_self,
    Nat.reduceLeDiff, Nat.reduceSub, Nat.reduceAdd]
  rfl

theorem count_ghWord (short : g.trail.length < 16) : ((ghWord op g).extractLsb' 40 4).toNat = g.trail.length := by
  simp -index only [ghWord, BitVec.extractLsb'_append_eq_of_le, BitVec.extractLsb'_append_eq_of_add_le, BitVec.extractLsb'_eq_self,
    Nat.reduceLeDiff, Nat.reduceSub, Nat.reduceAdd]
  exact (BitVec.toNat_ofNat _ _).trans (Nat.mod_eq_of_lt short)

/-- What the decoder reads of a GH word with the words that follow it. -/
theorem fields_ghWord (short : g.trail.length < 16) : (⟨(ghWord op g).extractLsb' 44 12, (ghWord op g).extractLsb' 0 32,
    g.trail.take ((ghWord op g).extractLsb' 40 4).toNat⟩ : GhWord) = g := by
  rw [count_ghWord op g short, List.take_length]
  simp -index only [ghWord, BitVec.extractLsb'_append_eq_of_le, BitVec.extractLsb'_append_eq_of_add_le, BitVec.extractLsb'_eq_self,
    Nat.reduceLeDiff, Nat.reduceSub, Nat.reduceAdd]

theorem short_of_fits {handle : Bool} {aux nw : Nat} (fits : g.fits handle aux nw = true) (small : nw < 16 := by decide) :
    g.trail.length < 16 := by
  simp only [GhWord.fits, Bool.and_eq_true, decide_eq_true_eq] at fits
  exact fits.2.trans_lt small

theorem aux_of_fits {handle : Bool} {nw : Nat} (fits : g.fits handle 0 nw = true) : g.aux = 0 := by
  simp only [GhWord.fits, Nat.and_zero, Bool.and_eq_true, decide_eq_true_eq] at fits
  exact BitVec.eq_of_toNat_eq fits.1.2.symm

end

/-! ## `BLOCK` (R100) -/

/-- The word of `BLOCK`. -/
def blockWord (nm1 : BitVec 5) (budget : BitVec 16) : BitVec 64 := 0x01#8 ++ nm1 ++ 0#19 ++ budget ++ 0#16

section
variable (nm1 : BitVec 5) (budget : BitVec 16)

theorem opcode_blockWord : (blockWord nm1 budget).extractLsb' 56 8 = 0x01 := by
  simp -index only [blockWord, BitVec.extractLsb'_append_eq_of_le, BitVec.extractLsb'_eq_self, Nat.reduceLeDiff, Nat.reduceSub, Nat.reduceAdd]
  rfl

theorem operators_blockWord : (blockWord nm1 budget).extractLsb' 51 5 = nm1 := by
  simp -index only [blockWord, BitVec.extractLsb'_append_eq_of_le, BitVec.extractLsb'_append_eq_of_add_le, BitVec.extractLsb'_eq_self,
    Nat.reduceLeDiff, Nat.reduceSub, Nat.reduceAdd]

theorem budget_blockWord : (blockWord nm1 budget).extractLsb' 16 16 = budget := by
  simp -index only [blockWord, BitVec.extractLsb'_append_eq_of_le, BitVec.extractLsb'_append_eq_of_add_le, BitVec.extractLsb'_eq_self,
    Nat.reduceLeDiff, Nat.reduceSub, Nat.reduceAdd]

theorem reserved_blockWord : (blockWord nm1 budget).extractLsb' 32 19 = 0 ∧ (blockWord nm1 budget).extractLsb' 0 16 = 0 := by
  simp -index only [blockWord, BitVec.extractLsb'_append_eq_of_le, BitVec.extractLsb'_append_eq_of_add_le, BitVec.extractLsb'_eq_self,
    Nat.reduceLeDiff, Nat.reduceSub, Nat.reduceAdd]
  decide

end

/-! ## Form GO (R98, R99) -/

theorem length_packRefs (k : Nat) (rs : List (BitVec 16)) : (packRefs k rs).length = k := by
  induction k generalizing rs with
  | zero => rfl
  | succ k ih => rw [packRefs, List.length_cons, ih]

theorem refsOf_cons (w : BitVec 64) (ws : List (BitVec 64)) : refsOf (w :: ws) =
    w.extractLsb' 0 16 :: w.extractLsb' 16 16 :: w.extractLsb' 32 16 :: w.extractLsb' 48 16 :: refsOf ws := rfl

/-- The references of handle words are those packed in them, then zeros. -/
theorem refsOf_packRefs (k : Nat) (rs : List (BitVec 16)) (fit : rs.length ≤ 4 * k) :
    refsOf (packRefs k rs) = rs ++ List.replicate (4 * k - rs.length) 0 := by
  induction k generalizing rs with
  | zero =>
    have none : rs = [] := List.eq_nil_of_length_eq_zero (by omega)
    subst none
    rfl
  | succ k ih =>
    rw [packRefs, refsOf_cons, ih _ (by simp; omega)]
    simp -index only [BitVec.extractLsb'_append_eq_of_le, BitVec.extractLsb'_append_eq_of_add_le, BitVec.extractLsb'_eq_self,
      Nat.reduceLeDiff, Nat.reduceSub, Nat.reduceAdd]
    match rs with
    | [] => simp [Nat.mul_succ, List.replicate_succ]
    | [a] => simp [Nat.mul_succ, List.replicate_succ]
    | [a, b] => simp [Nat.mul_succ, List.replicate_succ]
    | [a, b, c] => simp [Nat.mul_succ, List.replicate_succ]
    | a :: b :: c :: d :: l => simp [Nat.mul_succ]

/-- The first word of form GO: operator, the counts of references and attributes, and the output's consumers. -/
def goWord (o : OpWord) : BitVec 64 :=
  0x02#8 ++ o.opid ++ BitVec.ofNat 5 o.refs.length ++ BitVec.ofNat 5 o.attrs.length ++ 0#4 ++ o.cons

/-- The words that follow it: references four a word, then attributes. -/
def goTrail (o : OpWord) : List (BitVec 64) := packRefs ((o.refs.length + 3) / 4) o.refs ++ o.attrs

section
variable (o : OpWord)

theorem opcode_goWord : (goWord o).extractLsb' 56 8 = 0x02 := by
  simp -index only [goWord, BitVec.extractLsb'_append_eq_of_le, BitVec.extractLsb'_eq_self, Nat.reduceLeDiff, Nat.reduceSub, Nat.reduceAdd]
  rfl

theorem opid_goWord : (goWord o).extractLsb' 46 10 = o.opid := by
  simp -index only [goWord, BitVec.extractLsb'_append_eq_of_le, BitVec.extractLsb'_append_eq_of_add_le, BitVec.extractLsb'_eq_self,
    Nat.reduceLeDiff, Nat.reduceSub, Nat.reduceAdd]

theorem consumers_goWord : (goWord o).extractLsb' 0 32 = o.cons := by
  simp -index only [goWord, BitVec.extractLsb'_append_eq_of_add_le, BitVec.extractLsb'_eq_self, Nat.reduceLeDiff, Nat.reduceAdd]

theorem reserved_goWord : (goWord o).extractLsb' 32 4 = 0 := by
  simp -index only [goWord, BitVec.extractLsb'_append_eq_of_le, BitVec.extractLsb'_append_eq_of_add_le, BitVec.extractLsb'_eq_self,
    Nat.reduceLeDiff, Nat.reduceSub, Nat.reduceAdd]
  rfl

theorem refCount_goWord (few : o.refs.length ≤ 16) : ((goWord o).extractLsb' 41 5).toNat = o.refs.length := by
  simp -index only [goWord, BitVec.extractLsb'_append_eq_of_le, BitVec.extractLsb'_append_eq_of_add_le, BitVec.extractLsb'_eq_self,
    Nat.reduceLeDiff, Nat.reduceSub, Nat.reduceAdd]
  exact (BitVec.toNat_ofNat _ _).trans (Nat.mod_eq_of_lt (by omega))

theorem attrCount_goWord (few : o.attrs.length ≤ 31) : ((goWord o).extractLsb' 36 5).toNat = o.attrs.length := by
  simp -index only [goWord, BitVec.extractLsb'_append_eq_of_le, BitVec.extractLsb'_append_eq_of_add_le, BitVec.extractLsb'_eq_self,
    Nat.reduceLeDiff, Nat.reduceSub, Nat.reduceAdd]
  exact (BitVec.toNat_ofNat _ _).trans (Nat.mod_eq_of_lt (by omega))

theorem take_goTrail : (goTrail o).take ((o.refs.length + 3) / 4) = packRefs ((o.refs.length + 3) / 4) o.refs :=
  List.take_left' (length_packRefs _ _)

theorem drop_goTrail : (goTrail o).drop ((o.refs.length + 3) / 4) = o.attrs := List.drop_left' (length_packRefs _ _)

theorem length_goTrail : (goTrail o).length = (o.refs.length + 3) / 4 + o.attrs.length := by
  rw [goTrail, List.length_append, length_packRefs]

theorem refsOf_goTrail : refsOf ((goTrail o).take ((o.refs.length + 3) / 4)) =
    o.refs ++ List.replicate (4 * ((o.refs.length + 3) / 4) - o.refs.length) 0 := by
  rw [take_goTrail, refsOf_packRefs _ _ (by omega)]

theorem unusedRefsClear_goTrail : unusedRefsClear o.refs.length (goTrail o) = true := by
  rw [unusedRefsClear, refsOf_goTrail, List.drop_left]
  simp

theorem counts_of_fits (fits : o.fits = true) : o.refs.length ≤ 16 ∧ o.attrs.length ≤ 31 := by
  simp only [OpWord.fits, Bool.and_eq_true, decide_eq_true_eq] at fits
  exact fits.1

end

/-! ## Each form read back -/

theorem decodeEgb_goWord (o : OpWord) (wf : (Instr.op o).wf = true) : decodeEgb (goWord o) (goTrail o) = some (.op o) := by
  obtain ⟨refs, attrs⟩ := counts_of_fits o wf
  have read : (⟨(goWord o).extractLsb' 46 10, (goWord o).extractLsb' 0 32, (refsOf ((goTrail o).take ((o.refs.length + 3) / 4))).take o.refs.length,
      ((goTrail o).drop ((o.refs.length + 3) / 4)).take o.attrs.length⟩ : OpWord) = o := by
    rw [opid_goWord, consumers_goWord, refsOf_goTrail, List.take_left, drop_goTrail, List.take_length]
  rw [decodeEgb, opcode_goWord, refCount_goWord o refs, attrCount_goWord o attrs, reserved_goWord]
  refine (congrArg (fun x => if (0 : BitVec 4) = 0 ∧ o.refs.length ≤ 16 ∧ (o.refs.length + 3) / 4 + o.attrs.length ≤ (goTrail o).length ∧
    (Instr.op x).wf = true then some (Instr.op x) else none) read).trans ?_
  exact if_pos ⟨rfl, refs, (length_goTrail o).ge, wf⟩

variable {i : Instr} {w : BitVec 64} {trail : List (BitVec 64)}

theorem decodeEgb_encode (words : encode i = some (.egb w trail)) (wf : i.wf = true) : decodeEgb w trail = some i := by
  cases i
  case block nm1 budget =>
    cases words
    change decodeEgb (blockWord nm1 budget) [] = _
    rw [decodeEgb, opcode_blockWord, operators_blockWord, budget_blockWord]
    exact if_pos (reserved_blockWord nm1 budget)
  case op o =>
    cases words
    exact decodeEgb_goWord o wf
  case egbLoop g | endloop g | egbBr g | brc g | egbCall g | egbRet g | gend g | capbeg g | capend g | replay g | hset g | hadd g | hmul g |
      hdiv g | hmin g | hmax g | egbStep g | signal g =>
    cases words
    rw [decodeEgb, opcode_encGc, getGc_encGc, reserved_encGc]
    exact if_pos ⟨rfl, wf⟩
  case hdef g | hfree g | hreshape g | hshard g | halias g | csload g | hld g | waith g | param g =>
    cases words
    change decodeEgb (ghWord _ g) g.trail = _
    have short := short_of_fits g wf
    rw [decodeEgb, opcode_ghWord, fields_ghWord _ g short, reserved_ghWord, count_ghWord _ g short]
    exact if_pos ⟨rfl, rfl, wf⟩
  case chload g =>
    cases words
    change decodeEgb (ghWord _ g) g.trail = _
    obtain ⟨fits, -⟩ := Bool.and_eq_true_iff.mp wf
    have short := short_of_fits g fits
    have off : g.aux ≠ 1 := by
      rw [aux_of_fits g fits]
      decide
    rw [decodeEgb, opcode_ghWord, fields_ghWord _ g short, reserved_ghWord, count_ghWord _ g short]
    exact (if_neg off).trans (if_pos ⟨rfl, rfl, wf⟩)
  case chloadOff g =>
    cases words
    change decodeEgb (ghWord _ g) g.trail = _
    obtain ⟨named, off⟩ := Bool.and_eq_true_iff.mp wf
    obtain ⟨fits, -⟩ := Bool.and_eq_true_iff.mp named
    have short := short_of_fits g fits
    rw [decodeEgb, opcode_ghWord, fields_ghWord _ g short, reserved_ghWord, count_ghWord _ g short]
    exact (if_pos (of_decide_eq_true off)).trans (if_pos ⟨rfl, rfl, wf⟩)
  all_goals cases words

theorem egbTrail_encode (words : encode i = some (.egb w trail)) (wf : i.wf = true) : egbTrail w = trail.length := by
  cases i
  case block nm1 budget =>
    cases words
    change egbTrail (blockWord nm1 budget) = 0
    rw [egbTrail, opcode_blockWord]
    rfl
  case op o =>
    cases words
    obtain ⟨refs, attrs⟩ := counts_of_fits o wf
    change egbTrail (goWord o) = (goTrail o).length
    rw [length_goTrail, egbTrail, opcode_goWord, refCount_goWord o refs, attrCount_goWord o attrs]
    rfl
  case egbLoop g | endloop g | egbBr g | brc g | egbCall g | egbRet g | gend g | capbeg g | capend g | replay g | hset g | hadd g | hmul g |
      hdiv g | hmin g | hmax g | egbStep g | signal g =>
    cases words
    rw [egbTrail, opcode_encGc]
    rfl
  case hdef g | hfree g | hreshape g | hshard g | halias g | csload g | hld g | waith g | param g =>
    cases words
    change egbTrail (ghWord _ g) = g.trail.length
    rw [egbTrail, opcode_ghWord]
    exact count_ghWord _ g (short_of_fits g wf)
  case chload g =>
    cases words
    obtain ⟨fits, -⟩ := Bool.and_eq_true_iff.mp wf
    change egbTrail (ghWord _ g) = g.trail.length
    rw [egbTrail, opcode_ghWord]
    exact count_ghWord _ g (short_of_fits g fits)
  case chloadOff g =>
    cases words
    obtain ⟨named, -⟩ := Bool.and_eq_true_iff.mp wf
    obtain ⟨fits, -⟩ := Bool.and_eq_true_iff.mp named
    change egbTrail (ghWord _ g) = g.trail.length
    rw [egbTrail, opcode_ghWord]
    exact count_ghWord _ g (short_of_fits g fits)
  all_goals cases words

/-- Only `OP` has the opcode of `OP`. -/
theorem op_of_encode (words : encode i = some (.egb w trail)) (code : w.extractLsb' 56 8 = 2) : ∃ o, i = .op o := by
  cases i
  case block nm1 budget =>
    cases words
    change (blockWord nm1 budget).extractLsb' 56 8 = 2 at code
    rw [opcode_blockWord] at code
    cases code
  case op o => exact ⟨o, rfl⟩
  case egbLoop g | endloop g | egbBr g | brc g | egbCall g | egbRet g | gend g | capbeg g | capend g | replay g | hset g | hadd g | hmul g |
      hdiv g | hmin g | hmax g | egbStep g | signal g =>
    cases words
    rw [opcode_encGc] at code
    cases code
  case hdef g | hfree g | hreshape g | hshard g | halias g | csload g | hld g | waith g | param g | chload g | chloadOff g =>
    cases words
    change (ghWord _ g).extractLsb' 56 8 = 2 at code
    rw [opcode_ghWord] at code
    cases code
  all_goals cases words

end Sys2Proof.Machine
end


section
set_option Elab.async false
/-! OBLIGATION O56. -/

namespace Sys2Proof.Machine

/-- Settles O56: each form reads back what the encoder wrote, and the count it holds is that of the words that follow. -/
theorem graphRoundTrip : Obligations.GraphRoundTrip := by
  intro i w trail words wf
  refine ⟨decodeEgb_encode words wf, egbTrail_encode words wf, fun code => ?_⟩
  obtain ⟨o, rfl⟩ := op_of_encode words code
  cases words
  obtain ⟨refs, -⟩ := counts_of_fits o wf
  change unusedRefsClear ((goWord o).extractLsb' 41 5).toNat (goTrail o) = true
  rw [refCount_goWord o refs, unusedRefsClear_goTrail]

end Sys2Proof.Machine
end


section
set_option Elab.async false
/-! OBLIGATION O57. -/

namespace Sys2Proof.Machine

/-- Settles O57: the decoder is run on each word of the list. -/
theorem decodeWords : Obligations.DecodeWords := by
  unfold Obligations.DecodeWords Reads
  decide +kernel

end Sys2Proof.Machine
end


section
set_option Elab.async false
/-! SUPPORT. Scalar instructions on registers that can be read and written (R111, R124), and the comparison codes (R83). -/

namespace Sys2Proof.Machine

variable {s : State}

/-! ## Operands (R124) -/

theorem srcTaint_one (a : BitVec 6) : srcTaint s [a] = taintS s a := by simp [srcTaint, taintS]

theorem srcTaint_two (a b : BitVec 6) : srcTaint s [a, b] = taintS s a ||| taintS s b := by simp [srcTaint, taintS]

theorem srcTaint_three (a b c : BitVec 6) : srcTaint s [a, b, c] = taintS s a ||| taintS s b ||| taintS s c := by simp [srcTaint, taintS]

theorem scalar1_ready {d a : BitVec 6} (ha : Readable s (.s a.toNat)) (hd : Readable s (.s d.toNat)) (e : Bool) (lat : Nat) (op : DWord → DWord) :
    scalar1 s d a e lat op = .ok (s.result (.s d.toNat) (op (s.sv a)).toNat (srcTaint s [a]) lat 0) := by
  simp [scalar1, srcS_readable ha, dstS_readable hd, srcTaint_one, State.writeS, State.sv]

theorem scalar2_ready {d a b : BitVec 6} (ha : Readable s (.s a.toNat)) (hb : Readable s (.s b.toNat)) (hd : Readable s (.s d.toNat))
    (e f : Bool) (lat : Nat) (op : DWord → DWord → DWord) :
    scalar2 s d a e b f lat op = .ok (s.result (.s d.toNat) (op (s.sv a) (s.sv b)).toNat (srcTaint s [a, b]) lat 0) := by
  simp [scalar2, srcS_readable ha, srcS_readable hb, dstS_readable hd, srcTaint_two, State.writeS, State.sv]

theorem scalarUpd_ready {d : BitVec 6} (hd : Readable s (.s d.toNat)) (m : Taint) (op : DWord → DWord) :
    scalarUpd s d m op = .ok (s.result (.s d.toNat) (op (s.sv d)).toNat (m ||| taintS s d) 1 0) := by
  simp [scalarUpd, srcS_readable hd, State.writeS, State.sv]

theorem setPred_ready {p : BitVec 3} (hp : Readable s (.p p.toNat)) (b : Bool) (m : Taint) :
    setPred s p b m = .ok (s.result (.p p.toNat) (compareValue (.p p.toNat) b) m 1 0) := by
  simp only [setPred, destOk_readable hp, eff_ok_bind, BitVec.toNat_allOnes, compareValue]

/-! ## Comparison codes (R83) -/

/-- The signed reading of a 64-bit value. -/
theorem exactOperand_signed (x : DWord) : exactOperand x false false = x.toInt := by
  have bits : wide false = 64 := rfl
  simp only [exactOperand, bits, Bool.false_or, decide_eq_true_eq, Nat.mod_eq_of_lt x.isLt, BitVec.toInt_eq_toNat_cond]
  split <;> split <;> omega

theorem and_eq_zero_iff (a b : DWord) : a &&& b = 0 ↔ ∀ i, (a.getLsbD i && b.getLsbD i) = false := by
  constructor
  · intro none i
    rw [← BitVec.getLsbD_and, none]
    exact BitVec.getLsbD_zero
  · intro none
    apply BitVec.eq_of_getLsbD_eq
    intro i _
    rw [BitVec.getLsbD_and, none i]
    exact BitVec.getLsbD_zero.symm

/-- A code of a scalar comparison holds as R83 says, by the unsigned and signed readings. -/
theorem condHolds_iff {c : Nat} (code : c ≤ 11) (a b : DWord) : condHolds c a b = true ↔ compares c a b := by
  have signed (x y : DWord) : x.slt y = true ↔ exactOperand x false false < exactOperand y false false := by
    rw [exactOperand_signed, exactOperand_signed, BitVec.slt_iff_toInt_lt]
  have unsigned (x y : DWord) : x.ult y = true ↔ x.toNat < y.toNat := BitVec.ult_iff_toNat_lt
  match c with
  | 0 => simp [condHolds, compares, BitVec.toNat_inj]
  | 1 => simp [condHolds, compares, BitVec.toNat_inj]
  | 2 => exact signed a b
  | 3 => simp [condHolds, compares, ← not_lt, ← signed]
  | 4 => simp [condHolds, compares, ← not_lt, ← signed]
  | 5 => exact signed b a
  | 6 => exact unsigned a b
  | 7 => simp [condHolds, compares, ← not_lt, ← unsigned]
  | 8 => simp [condHolds, compares, ← not_lt, ← unsigned]
  | 9 => exact unsigned b a
  | 10 =>
    simp only [condHolds, compares, decide_eq_true_eq, ne_eq, and_eq_zero_iff, not_forall, Bool.not_eq_false, Bool.and_eq_true]
  | 11 => simp only [condHolds, compares, decide_eq_true_eq, and_eq_zero_iff]
  | _ + 12 => omega

end Sys2Proof.Machine
end


section
set_option Elab.async false
/-! OBLIGATION O5. -/

namespace Sys2Proof.Machine

/-- Settles O5: each instruction answers its result on operands that can be read, and a code of R83 holds as `compares` says. -/
theorem compareAndSelect : Obligations.CompareAndSelect := by
  refine ⟨fun s i d a bs c b rule accepts ha hbs hd => ?_, fun s f accepts ha hb hp hd => ?_, fun s f accepts ha hb hd => ?_⟩
  · have code := wf_of_accepts accepts
    refine ⟨condHolds c (s.sv a) b, ?_, ?_⟩
    · cases i <;> cases rule <;> exact condHolds_iff (of_decide_eq_true code) _ _
    cases i
    case cmp f =>
      cases rule
      have hb := hbs f.b List.mem_cons_self
      refine exec_of_body accepts (fun _ => rfl) ((scalar2_ready ha hb hd _ _ _ _).trans ?_)
      simp only [compareValue, apply_ite BitVec.toNat]
      rfl
    case cmpi f =>
      cases rule
      refine exec_of_body accepts (fun _ => rfl) ((scalar1_ready ha hd _ _ _).trans ?_)
      simp only [compareValue, apply_ite BitVec.toNat]
      rfl
    case cmpp f =>
      cases rule
      have hb := hbs f.b List.mem_cons_self
      refine exec_of_body accepts (fun _ => rfl) ?_
      simp [srcS_readable ha, srcS_readable hb, setPred_ready hd, srcTaint_two, State.sv]
    case cmppi f =>
      cases rule
      refine exec_of_body accepts (fun _ => rfl) ?_
      simp [srcS_readable ha, setPred_ready hd, srcTaint_one, State.sv]
    all_goals cases rule
  · refine exec_of_body accepts (fun _ => rfl) ?_
    simp [srcS_readable ha, srcS_readable hb, srcP_readable hp, dstS_readable hd, srcTaint_two, State.writeS, State.sv]
  · refine exec_of_body accepts (fun _ => rfl) ?_
    simp only [srcS_readable ha, srcS_readable hb, eff_ok_bind, scalarUpd_ready hd, srcTaint_three, ne_eq, ite_not]
    rfl

end Sys2Proof.Machine
end


section
set_option Elab.async false
/-! SUPPORT. Tokens of a taint mask, and the holds of its tags (R120, R123). -/

namespace Sys2Proof.Machine

/-- A field of a token: the tag's generation behind a one, where the mask names the tag. -/
theorem Core.token_field (c : Core) (m : Taint) {j : Nat} (tag : j < 16) :
    (c.token m).toNat / 2 ^ (4 * j) % 16 = if m.getLsbD j then 8 + (c.tag j).gen.toNat else 0 := by
  have gen := (c.tag j).gen.isLt
  have field := packElems_elem 4 ((List.range 16).map fun j => if m.getLsbD j then 8 + (c.tag j).gen.toNat else 0) j
  rw [Core.token, BitVec.toNat_ofNat, Nat.mod_eq_of_lt ((packElems_lt 4 _).trans_eq (by simp))]
  refine field.trans ?_
  simp only [List.getD_eq_getElem?_getD, List.getElem?_map, List.getElem?_range tag, Option.map_some, Option.getD_some]
  split <;> omega

/-- The tags a token still names: those in use whose generation is the token's. -/
theorem Core.getLsbD_tokenTags (c : Core) (v : DWord) {j : Nat} (tag : j < 16) : (c.tokenTags v).getLsbD j = true ↔
    8 + (c.tag j).gen.toNat = v.toNat / 2 ^ (4 * j) % 16 ∧ (c.tag j).st ≠ .free := by
  have gen := (c.tag j).gen.isLt
  have top : v.getLsbD (4 * j + 3) = true ↔ v.toNat / 2 ^ (4 * j) / 8 % 2 = 1 := by
    rw [BitVec.getLsbD, Nat.testBit_eq_decide_div_mod_eq, decide_eq_true_iff, Nat.pow_add, Nat.div_div_eq_div_mul]
  have low : bits v (4 * j + 2) (4 * j) = v.toNat / 2 ^ (4 * j) % 8 := by
    rw [bits, Nat.add_sub_cancel_left]
    norm_num
  rw [Core.tokenTags, getLsbD_tagMask tag, decide_eq_true_iff]
  simp only [List.mem_filter, List.mem_range, tag, true_and, Bool.and_eq_true, decide_eq_true_iff, top, low]
  constructor
  · rintro ⟨⟨one, used⟩, same⟩
    exact ⟨by omega, used⟩
  · rintro ⟨same, used⟩
    exact ⟨⟨by omega, used⟩, by omega⟩

theorem Core.tag_setTag (c : Core) (k j : Nat) (t : Tag) : (c.setTag k t).tag j = if j = k then t else c.tag j :=
  Tbl.getD_set c.tags j k t {}

theorem State.result_tags (s : State) (d : RegName) (v : Nat) (m : Taint) (L : Nat) (fp : BitVec 5) (vx : Bool) :
    (s.result d v m L fp vx).core.tags = s.core.tags := by
  unfold State.result
  split
  · rw [State.core_live]
  · rw [State.core_upd]

/-- The tags of a mask get their holds. -/
def Core.holdTags (c : Core) (m : Taint) (l : List Nat) : Core :=
  l.foldl (fun c j => if m.getLsbD j then c.setTag j { c.tag j with hold := true } else c) c

theorem Core.holdTags_frame (c : Core) (m : Taint) (l : List Nat) : c.holdTags m l = { c with tags := (c.holdTags m l).tags } := by
  induction l generalizing c with
  | nil => rfl
  | cons k l ih =>
    rw [Core.holdTags, List.foldl_cons]
    refine (ih _).trans ?_
    split <;> rfl

theorem Core.tag_holdTags (c : Core) (m : Taint) (l : List Nat) (j : Nat) :
    (c.holdTags m l).tag j = if j ∈ l ∧ m.getLsbD j = true then { c.tag j with hold := true } else c.tag j := by
  induction l generalizing c with
  | nil => simp [Core.holdTags]
  | cons k l ih =>
    rw [Core.holdTags, List.foldl_cons]
    refine (ih _).trans ?_
    by_cases named : m.getLsbD k = true
    · rw [if_pos named, Core.tag_setTag]
      by_cases e : j = k
      · subst e
        simp [named]
      · simp [e]
    · rw [if_neg named]
      by_cases e : j = k
      · subst e
        simp [named]
      · simp [e]

end Sys2Proof.Machine
end


section
set_option Elab.async false
/-! OBLIGATION O10. -/

namespace Sys2Proof.Machine

/-- Settles O10: each instruction answers at once; `TSPILL` and `TFILL` go through the fields of a token. -/
theorem taintMoves : Obligations.TaintMoves := by
  refine ⟨fun s d accepts => ?_, fun s accepts => exec_of_body accepts (fun _ => rfl) rfl, fun s f accepts hd => ?_, fun s f accepts hd => ?_,
    fun s f accepts ha hb hd => ?_⟩
  · refine ⟨_, exec_of_body accepts (fun _ => rfl) rfl, s.upd_onlyCore _, ?_, fun n => ?_⟩
    · rw [State.core_upd]
      simp only [Regs.setS]
      split <;> rfl
    · rw [State.core_upd]
      dsimp only
      by_cases zero : d.toNat = 0
      · rw [zero, Regs.setS_zero, if_neg fun h => h.2 h.1]
      · rw [Regs.sReg_setS _ _ _ _ zero]
        by_cases e : n = d.toNat
        · rw [if_pos e, if_pos ⟨e, e ▸ zero⟩, e]
        · rw [if_neg e, if_neg fun h => e h.1]
  · refine exec_of_body accepts (fun _ => rfl) ?_
    have small : (taintS s f.a).toNat + s.pre.ct.toNat * 2 ^ 16 + s.prior.core.pendingMask.toNat * 2 ^ 32 < 2 ^ 64 := by
      have := (taintS s f.a).isLt
      have := s.pre.ct.isLt
      have := s.prior.core.pendingMask.isLt
      omega
    simp only [dstS_readable hd, eff_ok_bind, State.writeS, BitVec.toNat_ofNat, Nat.mod_eq_of_lt small]
    rfl
  · intro m
    refine ⟨s.prior.core.token m, (s.result (.s f.d.toNat) (s.prior.core.token m).toNat 0 1 0).upd fun c => c.holdTags m (List.range 16),
      exec_of_body accepts (fun _ => rfl) ?_, ?_, fun j tag => Core.token_field _ m tag, fun j => ?_⟩
    · simp only [dstS_readable hd, eff_ok_bind]
      rfl
    · rw [State.core_upd]
      exact congrArg (State.setCoreAt _ _) (Core.holdTags_frame ..)
    · rw [State.core_upd, Core.tag_holdTags, Core.tag, State.result_tags]
      refine if_congr (and_iff_right_of_imp fun named => List.mem_range.mpr ?_) rfl rfl
      by_contra beyond
      rw [BitVec.getLsbD_of_ge m j (by omega)] at named
      cases named
  · refine ⟨s.prior.core.tokenTags (s.sv f.b) &&& s.core.tokenTags (s.sv f.b), exec_of_body accepts (fun _ => rfl) ?_, fun j tag => ?_⟩
    · simp only [srcS_readable ha, srcS_readable hb, eff_ok_bind, dstS_readable hd, srcTaint_two, State.writeS, State.sv]
    · rw [BitVec.getLsbD_and, Bool.and_eq_true, Core.getLsbD_tokenTags _ _ tag, Core.getLsbD_tokenTags _ _ tag, and_assoc]

end Sys2Proof.Machine
end


section
set_option Elab.async false
/-! SUPPORT. Branches: what the trace and a branch leave of their unit, and the condition of a branch (R94, R114, R118, R432, R454). -/

namespace Sys2Proof.Machine

/-! ## The trace (R432) -/

/-- d is c but for what the trace unit keeps between packets. -/
def Core.TracedTo (c d : Core) : Prop :=
  ∃ dynB staged atoms since, d = { c with dynB := dynB, staged := staged, atoms := atoms, sinceSync := since }

theorem Core.TracedTo.refl (c : Core) : c.TracedTo c := ⟨_, _, _, _, rfl⟩

theorem Core.TracedTo.trans {a b c : Core} (first : a.TracedTo b) (second : b.TracedTo c) : a.TracedTo c := by
  obtain ⟨_, _, _, _, rfl⟩ := first
  obtain ⟨_, _, _, _, rfl⟩ := second
  exact ⟨_, _, _, _, rfl⟩

theorem Core.traceBytes_tracedTo (c : Core) (bs : List Byte) : c.TracedTo (c.traceBytes bs) := by
  unfold Core.traceBytes
  split <;> exact ⟨_, _, _, _, rfl⟩

theorem Core.flushAtoms_tracedTo (c : Core) : c.TracedTo c.flushAtoms := by
  unfold Core.flushAtoms
  split
  · exact .refl c
  · exact (c.traceBytes_tracedTo _).trans ⟨_, _, _, _, rfl⟩

theorem Core.sync_tracedTo (c : Core) (cycle : Nat) : c.TracedTo (c.sync cycle) :=
  (c.flushAtoms_tracedTo.trans (Core.traceBytes_tracedTo _ _)).trans ⟨_, _, _, _, rfl⟩

theorem Core.maybeSync_tracedTo (c : Core) (cycle : Nat) : c.TracedTo (if 1024 ≤ c.sinceSync then c.sync cycle else c) := by
  split
  · exact c.sync_tracedTo cycle
  · exact .refl c

theorem Core.packet_tracedTo (c : Core) (cycle : Nat) (bs : List Byte) : c.TracedTo (c.packet cycle bs) := by
  unfold Core.packet
  split
  · exact .refl c
  · exact (c.flushAtoms_tracedTo.trans (Core.maybeSync_tracedTo _ cycle)).trans (Core.traceBytes_tracedTo _ _)

theorem Core.outcome_tracedTo (c : Core) (cycle : Nat) (taken : Bool) : c.TracedTo (c.outcome cycle taken) := by
  have held : c.TracedTo { c with atoms := c.atoms ++ [taken] } := ⟨_, _, _, _, rfl⟩
  unfold Core.outcome
  split
  · exact .refl c
  · dsimp only
    split
    · exact (held.trans (Core.maybeSync_tracedTo _ cycle)).trans (Core.flushAtoms_tracedTo _)
    · exact held

/-! ## A branch (R454) -/

variable {s t u : State}

theorem OnlyCore.trans (first : OnlyCore s t) (second : OnlyCore t u) : OnlyCore s u := by
  obtain ⟨state, others⟩ := first
  obtain ⟨state', others'⟩ := second
  have cur : t.cur = s.cur := by rw [state]
  refine ⟨state'.trans ?_, fun k hk => (others' k (cur ▸ hk)).trans (others k hk)⟩
  rw [state]

theorem OnlyFetch.trans (first : OnlyFetch s t) (second : OnlyFetch t u) : OnlyFetch s u := by
  obtain ⟨only, core⟩ := first
  obtain ⟨only', core'⟩ := second
  refine ⟨only.trans only', core'.trans ?_⟩
  rw [core]

/-- A branch-target write changes the registers and what the trace and R482 note of it. -/
theorem State.setTarget_onlyFetch (n : Nat) (v : DWord) (m : Taint) (dyn : Bool) : OnlyFetch s (s.setTarget n v m dyn) :=
  ⟨s.upd_onlyCore _, by rw [State.setTarget, State.core_upd]⟩

theorem State.setTarget_targetSet (n : Nat) (v : DWord) (m : Taint) (dyn : Bool) : TargetSet s (s.setTarget n v m dyn) n v m := by
  intro k
  rw [State.setTarget, State.core_upd]
  exact Tbl.getD_set _ _ _ _ _

theorem State.controlTaint_onlyFetch (m : Taint) : OnlyFetch s (s.controlTaint m) :=
  ⟨State.live_onlyCore _, by rw [State.controlTaint, State.core_live]⟩

theorem State.result_onlyFetch (d : RegName) (v : Nat) (m : Taint) (L : Nat) (fp : BitVec 5) (vx : Bool) : OnlyFetch s (s.result d v m L fp vx) := by
  refine ⟨State.result_onlyCore .., ?_⟩
  unfold State.result
  split
  · rw [State.core_live]
  · rw [State.core_upd]

/-- A branch redirects its unit where it is taken; else only the trace changes. -/
theorem State.branch_core (s : State) (n : Nat) (cond taken : Bool) : ∃ from_, s.now + 1 ≤ from_ ∧
    (if taken then { s.core with pc := (s.pre.bReg n).val.toNat, redirected := true, notBefore := from_ } else s.core).TracedTo
      (s.branch n cond taken).core := by
  have traced (c : Core) (cyc a : Nat) (p : Bool) :
      c.TracedTo (let c := if cond then c.outcome cyc taken else c; if p && c.dynB.contains n then c.traceTarget cyc a else c) := by
    have noted : c.TracedTo (if cond then c.outcome cyc taken else c) := by
      split
      · exact c.outcome_tracedTo cyc taken
      · exact .refl c
    dsimp only
    generalize (if cond then c.outcome cyc taken else c) = d at noted ⊢
    split
    · exact noted.trans (d.packet_tracedTo _ _)
    · exact noted
  refine ⟨max s.core.notBefore (s.now + 1 + match Tbl.get? s.core.bWrote n with
    | some u => 4 - (s.now - u)
    | none => 0), by omega, ?_⟩
  rw [State.branch, State.core_upd]
  exact traced _ _ _ taken

theorem State.branch_frame (s : State) (n : Nat) (cond taken : Bool) : OnlyFetch s (s.branch n cond taken) ∧
    Fetches s (s.branch n cond taken) n (taken = true) ∧ (s.branch n cond taken).core.live = s.core.live ∧
    (s.branch n cond taken).core.pipe = s.core.pipe := by
  obtain ⟨start, later, dynB, staged, atoms, since, core⟩ := s.branch_core n cond taken
  unfold OnlyFetch Fetches
  rw [core]
  cases taken
  · exact ⟨⟨s.upd_onlyCore _, rfl⟩, ⟨nofun, fun _ => ⟨rfl, rfl, rfl⟩⟩, rfl, rfl⟩
  · exact ⟨⟨s.upd_onlyCore _, rfl⟩, ⟨fun _ => ⟨rfl, rfl, later⟩, fun h => absurd rfl h⟩, rfl, rfl⟩

/-! ## The condition (R94) -/

theorem ofNat_field (n : Nat) : (BitVec.ofNat 6 (n % 64)).toNat = n % 64 := by
  rw [BitVec.toNat_ofNat, Nat.mod_mod]

theorem eq_zero_iff_bits {w : Nat} (x : BitVec w) : x = 0 ↔ ∀ i, x.getLsbD i = false := by
  constructor
  · rintro rfl i
    exact BitVec.getLsbD_zero
  · intro clear
    exact BitVec.eq_of_getLsbD_eq fun i _ => (clear i).trans BitVec.getLsbD_zero.symm

/-- A test of a predicate's bits (R94): bit 0, any, all, none. -/
def predTest (v : PReg) (code : Nat) : Bool :=
  match code with
  | 0 => v.getLsbD 0
  | 1 => decide (v ≠ 0)
  | 2 => decide (v = BitVec.allOnes 512)
  | _ => decide (v = 0)

theorem predTest_iff {c : BitVec 8} (pred : c.toNat / 64 = 3) :
    predTest (s.pre.pReg (c.toNat % 8)).val (c.toNat / 16 % 4) = true ↔ condition s c := by
  have code : c.toNat / 16 % 4 = 0 ∨ c.toNat / 16 % 4 = 1 ∨ c.toNat / 16 % 4 = 2 ∨ c.toNat / 16 % 4 = 3 := by omega
  unfold condition
  dsimp only
  generalize (s.pre.pReg (c.toNat % 8)).val = v
  rw [pred]
  rcases code with h | h | h | h <;> rw [h]
  · rfl
  · change decide (v ≠ 0) = true ↔ ∃ i, i < 512 ∧ v.getLsbD i = true
    rw [decide_eq_true_iff, ne_eq, eq_zero_iff_bits]
    simp only [not_forall, Bool.not_eq_false]
    exact ⟨fun ⟨i, set⟩ => ⟨i, BitVec.lt_of_getLsbD set, set⟩, fun ⟨i, _, set⟩ => ⟨i, set⟩⟩
  · change decide (v = BitVec.allOnes 512) = true ↔ ∀ i, i < 512 → v.getLsbD i = true
    have ones {i : Nat} (small : i < 512) : (BitVec.allOnes 512).getLsbD i = true := by
      rw [BitVec.getLsbD_allOnes, decide_eq_true small]
    rw [decide_eq_true_iff]
    constructor
    · rintro rfl i small
      exact ones small
    · intro full
      exact BitVec.eq_of_getLsbD_eq fun i small => (full i small).trans (ones small).symm
  · exact decide_eq_true_iff.trans (eq_zero_iff_bits v)

theorem branchCond_readable {c : BitVec 8} (readable : ∀ r, conditionReg c = some r → Readable s r) (ea : Bool) :
    ∃ b : Bool, branchCond s c ea = .ok (b, conditionTaint s c) ∧ (b = true ↔ condition s c) := by
  have code : c.toNat / 64 = 0 ∨ c.toNat / 64 = 1 ∨ c.toNat / 64 = 2 ∨ c.toNat / 64 = 3 := by
    have := c.isLt
    omega
  rcases code with h | h | h | h
  · exact ⟨true, by simp [branchCond, conditionTaint, conditionReg, h], by simp [condition, h]⟩
  · have source := readable (.s (c.toNat % 64)) (by simp [conditionReg, h])
    rw [← ofNat_field] at source
    refine ⟨decide ((s.pre.sReg (c.toNat % 64)).val ≠ 0), ?_, by simp [condition, h]⟩
    simp [branchCond, conditionTaint, conditionReg, h, srcS_readable source, taintS, Regs.taintOf]
  · have source := readable (.s (c.toNat % 64)) (by simp [conditionReg, h])
    rw [← ofNat_field] at source
    refine ⟨decide ((s.pre.sReg (c.toNat % 64)).val = 0), ?_, by simp [condition, h]⟩
    simp [branchCond, conditionTaint, conditionReg, h, srcS_readable source, taintS, Regs.taintOf]
  · have source := readable (.p (c.toNat % 8)) (by simp [conditionReg, h])
    have reg : c.toNat % 64 % 8 = c.toNat % 8 := by omega
    have test : c.toNat % 64 / 16 = c.toNat / 16 % 4 := by omega
    have answers : branchCond s c ea = .ok (predTest (s.pre.pReg (c.toNat % 8)).val (c.toNat / 16 % 4), conditionTaint s c) := by
      simp only [branchCond, conditionTaint, conditionReg, h, reg, test, source_readable source, eff_ok_map, Regs.taintOf]
      rfl
    exact ⟨_, answers, predTest_iff h⟩

/-! ## The instructions -/

theorem align4_ofInt (n : Int) (aligned : n % 4 = 0) : align4 (BitVec.ofInt 64 n) = BitVec.ofInt 64 n := by
  apply BitVec.eq_of_toNat_eq
  rw [toNat_align4, BitVec.toNat_ofInt]
  omega

/-- A branch with the taint that it adds to CT. -/
theorem State.taintedBranch_frame (s : State) (m : Taint) (n : Nat) (cond taken : Bool) :
    OnlyFetch s ((s.controlTaint m).branch n cond taken) ∧ Fetches s ((s.controlTaint m).branch n cond taken) n (taken = true) ∧
    ((s.controlTaint m).branch n cond taken).core.live = { s.core.live with ct := s.core.live.ct ||| m } ∧
    ((s.controlTaint m).branch n cond taken).core.pipe = s.core.pipe := by
  obtain ⟨only, fetches, live, pipe⟩ := (s.controlTaint m).branch_frame n cond taken
  have core : (s.controlTaint m).core = { s.core with live := { s.core.live with ct := s.core.live.ct ||| m } } := s.core_live _
  have pre : (s.controlTaint m).pre = s.pre := s.pre_live _
  refine ⟨(State.controlTaint_onlyFetch m).trans only, ?_, live.trans ?_, pipe.trans ?_⟩
  · unfold Fetches at fetches ⊢
    rwa [pre, core] at fetches
  · rw [core]
  · rw [core]

theorem State.pre_result (s : State) (d : RegName) (v : Nat) (m : Taint) (L : Nat) (fp : BitVec 5) (vx : Bool) :
    (s.result d v m L fp vx).pre = s.pre := by
  unfold State.result
  split
  · exact s.pre_live _
  · exact s.pre_upd _

theorem State.result_now (s : State) (d : RegName) (v : Nat) (m : Taint) (L : Nat) (fp : BitVec 5) (vx : Bool) :
    (s.result d v m L fp vx).now = s.now := by
  unfold State.result
  split <;> rfl

theorem Regs.put_scalar (r : Regs) (n v : Nat) (full : Bool) (m : Taint) :
    r.put (.s n) v full m = { r with s := (r.put (.s n) v full m).s } := by
  unfold Regs.put Regs.setS
  dsimp only
  split <;> rfl

/-- A result to a scalar register changes the scalar file, and nothing else of the registers. -/
theorem State.result_scalar (s : State) (n v : Nat) (m : Taint) (L : Nat) (fp : BitVec 5) (vx : Bool) :
    (s.result (.s n) v m L fp vx).core = { s.core with
      live := { s.core.live with s := (s.result (.s n) v m L fp vx).core.live.s }, pipe := (s.result (.s n) v m L fp vx).core.pipe } := by
  unfold State.result
  split
  · rw [State.core_live]
    dsimp only
    rw [← Regs.put_scalar]
  · rw [State.core_upd]
    dsimp only
    split
    · rfl
    · rw [Regs.taintTo, ← Regs.put_scalar]

/-- Two changes of a unit that do not meet may change places. -/
theorem State.upd_comm (s : State) {f g : Core → Core} (apart : ∀ c, g (f c) = f (g c)) : (s.upd f).upd g = (s.upd g).upd f := by
  simp only [State.upd, State.updAt_cur, State.updAt_updAt, apart]

theorem Regs.put_taintCt (r : Regs) (n v : Nat) (full : Bool) (t m : Taint) : ({ r with ct := r.ct ||| m } : Regs).put (.s n) v full t =
    { r.put (.s n) v full t with ct := (r.put (.s n) v full t).ct ||| m } := by
  unfold Regs.put Regs.setS
  dsimp only
  split <;> rfl

theorem Regs.taintTo_taintCt (r : Regs) (n : Nat) (t m : Taint) : ({ r with ct := r.ct ||| m } : Regs).taintTo (.s n) t =
    { r.taintTo (.s n) t with ct := (r.taintTo (.s n) t).ct ||| m } := r.put_taintCt n _ _ t m

/-- CT and a result to a scalar register are apart. -/
theorem State.result_controlTaint (s : State) (n v : Nat) (t m : Taint) (L : Nat) (fp : BitVec 5) (vx : Bool) :
    (s.controlTaint m).result (.s n) v t L fp vx = (s.result (.s n) v t L fp vx).controlTaint m := by
  have pre : (s.controlTaint m).pre = s.pre := s.pre_live _
  cases plan : isPlan s.cur with
  | true =>
    rw [result_plan (s := s.controlTaint m) plan, result_plan plan]
    unfold State.controlTaint State.live
    exact s.upd_comm fun c => congrArg (fun r => { c with live := r }) (c.live.put_taintCt n v true t m)
  | false =>
    cases mode : s.pre.exposed with
    | true =>
      rw [result_exposed (s := s.controlTaint m) plan (pre ▸ mode), result_exposed plan mode]
      unfold State.controlTaint State.live
      exact s.upd_comm fun c => rfl
    | false =>
      rw [result_interlocked (s := s.controlTaint m) plan (pre ▸ mode), result_interlocked plan mode]
      unfold State.controlTaint State.live
      refine s.upd_comm fun c => ?_
      dsimp only
      rw [Regs.taintTo_taintCt]

theorem State.controlTaint_pending (s : State) (m : Taint) (d : RegName) : (s.controlTaint m).pending d = s.pending d := by
  unfold State.pending State.found State.controlTaint
  rw [State.core_live, State.live_groupCore]
  dsimp only
  split <;> rfl

theorem branchTo_readable {bt : BitVec 3} {c : BitVec 8} (readable : ∀ r, conditionReg c = some r → Readable s r) (ea : Bool) :
    ∃ t, branchTo s bt c ea = .ok t ∧ OnlyFetch s t ∧ Fetches s t bt.toNat (condition s c) ∧
      t.core.live = { s.core.live with ct := s.core.live.ct ||| (conditionTaint s c ||| (s.pre.bReg bt.toNat).taint) } ∧
      t.core.pipe = s.core.pipe := by
  obtain ⟨b, answers, holds⟩ := branchCond_readable readable ea
  rw [branchTo, answers, ← holds]
  exact ⟨_, rfl, s.taintedBranch_frame _ _ _ _⟩

/-- A link behind a branch: the branch-target register alone changes. -/
theorem State.setTarget_core (s : State) (n : Nat) (v : DWord) (m : Taint) (dyn : Bool) :
    (s.setTarget n v m dyn).core.live = { s.core.live with b := (s.setTarget n v m dyn).core.live.b } ∧
    (s.setTarget n v m dyn).core.pipe = s.core.pipe ∧ (s.setTarget n v m dyn).core.pc = s.core.pc ∧
    (s.setTarget n v m dyn).core.redirected = s.core.redirected ∧ (s.setTarget n v m dyn).core.notBefore = s.core.notBefore := by
  rw [State.setTarget, State.core_upd]
  exact ⟨rfl, rfl, rfl, rfl, rfl⟩

theorem callTo_readable {bt lt : BitVec 3} {c : BitVec 8} (readable : ∀ r, conditionReg c = some r → Readable s r) (ea : Bool) :
    ∃ t, callTo s bt c lt ea = .ok t ∧ OnlyFetch s t ∧ Fetches s t bt.toNat (condition s c) ∧
      t.core.live = { s.core.live with ct := s.core.live.ct ||| (conditionTaint s c ||| (s.pre.bReg bt.toNat).taint), b := t.core.live.b } ∧
      t.core.pipe = s.core.pipe ∧ (condition s c → TargetSet s t lt.toNat (BitVec.ofNat 64 s.core.npc) 0) ∧
      (¬condition s c → t.core.live.b = s.core.live.b) := by
  obtain ⟨b, answers, holds⟩ := branchCond_readable readable ea
  rw [callTo, answers, ← holds]
  obtain ⟨only, fetches, live, pipe⟩ :=
    s.taintedBranch_frame (conditionTaint s c ||| (s.pre.bReg bt.toNat).taint) bt.toNat (decide (c.toNat / 64 ≠ 0)) b
  have npc : (s.controlTaint (conditionTaint s c ||| (s.pre.bReg bt.toNat).taint)).core.npc = s.core.npc := by
    rw [State.controlTaint, State.core_live]
  simp only [eff_ok_bind, npc]
  generalize (s.controlTaint (conditionTaint s c ||| (s.pre.bReg bt.toNat).taint)).branch bt.toNat (decide (c.toNat / 64 ≠ 0)) b = t
    at only fetches live pipe
  cases b
  · refine ⟨t, rfl, only, fetches, ?_, pipe, nofun, fun _ => ?_⟩
    · rw [live]
    · rw [live]
  · obtain ⟨regs, pipe', pc, redirected, notBefore⟩ := t.setTarget_core lt.toNat (BitVec.ofNat 64 s.core.npc) 0 false
    refine ⟨t.setTarget lt.toNat (BitVec.ofNat 64 s.core.npc) 0 false, rfl, only.trans (State.setTarget_onlyFetch _ _ _ _), ?_, ?_, pipe'.trans pipe,
      fun _ k => (State.setTarget_targetSet _ _ _ _ k).trans ?_, fun h => absurd rfl h⟩
    · unfold Fetches
      rwa [pc, redirected, notBefore]
    · rw [regs, live]
    · rw [live]
      rfl

theorem loopTo_readable {bt : BitVec 3} {r : BitVec 6} (readable : Readable s (.s r.toNat)) (ea : Bool) :
    ∃ t, loopTo s bt r ea = .ok t ∧ OnlyFetch s t ∧ Fetches s t bt.toNat (1 < (s.sv r).toNat) ∧
      t.core.live = { s.core.live with ct := s.core.live.ct ||| (taintS s r ||| (s.pre.bReg bt.toNat).taint), s := t.core.live.s } ∧
      (s.sv r = 0 → t.core.live.s = s.core.live.s ∧ t.core.pipe = s.core.pipe) ∧
      (s.sv r ≠ 0 → t.core.live.s = (s.result (.s r.toNat) (s.sv r - 1).toNat (taintS s r) 1 0).core.live.s ∧
        t.core.pipe = (s.result (.s r.toNat) (s.sv r - 1).toNat (taintS s r) 1 0).core.pipe) := by
  let m := taintS s r ||| (s.pre.bReg bt.toNat).taint
  have pre : (s.controlTaint m).pre = s.pre := s.pre_live _
  rw [loopTo, srcS_readable readable, eff_ok_bind]
  by_cases zero : s.sv r = 0
  · obtain ⟨only, fetches, live, pipe⟩ := s.taintedBranch_frame m bt.toNat true false
    refine ⟨(s.controlTaint m).branch bt.toNat true false, if_pos zero, only, ?_, ?_, fun _ => ⟨?_, pipe⟩, fun h => absurd zero h⟩
    · have none : (false = true) = (1 < (s.sv r).toNat) := by rw [zero, eq_iff_iff]; decide
      rwa [none] at fetches
    · rw [live]
    · rw [live]
  · let q := s.result (.s r.toNat) (s.sv r - 1).toNat (taintS s r) 1 0
    have more : (decide (s.sv r - 1 ≠ 0) = true) = (1 < (s.sv r).toNat) := by
      rw [decide_eq_true_iff, eq_iff_iff]
      bv_omega
    have ready : Readable (s.controlTaint m) (.s r.toNat) := by
      rwa [Readable, pre, State.controlTaint_pending]
    obtain ⟨only, fetches, live, pipe⟩ := q.taintedBranch_frame m bt.toNat true (decide (s.sv r - 1 ≠ 0))
    have frame : q.core = _ := s.result_scalar r.toNat (s.sv r - 1).toNat (taintS s r) 1 0 false
    have pre' : q.pre = s.pre := s.pre_result ..
    have now : q.now = s.now := s.result_now ..
    refine ⟨(q.controlTaint m).branch bt.toNat true (decide (s.sv r - 1 ≠ 0)), ?_, (State.result_onlyFetch ..).trans only, ?_, ?_,
      fun h => absurd h zero, fun _ => ⟨?_, pipe⟩⟩
    · refine (if_neg zero).trans ?_
      rw [dstS_readable ready, eff_ok_bind, State.writeS, State.result_controlTaint]
      rfl
    · unfold Fetches at fetches ⊢
      rw [more, pre', now, frame] at fetches
      exact fetches
    · rw [live, frame]
    · rw [live]

end Sys2Proof.Machine
end


section
set_option Elab.async false
/-! OBLIGATION O42. -/

namespace Sys2Proof.Machine

/-- Settles O42: each instruction's body answers, and its state is that of `State.setTarget`, of `State.branch` with the taint it adds, or of both. -/
theorem branches : Obligations.Branches := by
  refine ⟨fun s bt off lit r ea => ?_, fun s bt lt cond ea readable => ?_, fun s bt r ea accepts readable => ?_⟩
  · have target (v : DWord) (m : Taint) (dyn : Bool) : OnlyFetch s (s.setTarget bt.toNat v m dyn) ∧
        TargetSet s (s.setTarget bt.toNat v m dyn) bt.toNat v m ∧
        (s.setTarget bt.toNat v m dyn).core.live = { s.core.live with b := (s.setTarget bt.toNat v m dyn).core.live.b } ∧
        (s.setTarget bt.toNat v m dyn).core.pc = s.core.pc ∧ (s.setTarget bt.toNat v m dyn).core.pipe = s.core.pipe := by
      obtain ⟨live, pipe, pc, -, -⟩ := s.setTarget_core bt.toNat v m dyn
      exact ⟨State.setTarget_onlyFetch _ _ _ _, State.setTarget_targetSet _ _ _ _, live, pc, pipe⟩
    refine ⟨fun accepts aligned => ?_, fun accepts => ⟨_, exec_of_body accepts (fun _ => rfl) rfl, target lit 0 false⟩, fun accepts readable => ?_⟩
    · have value : align4 (BitVec.ofNat 64 s.core.bpc + BitVec.ofInt 64 (4 * off.toInt)) = BitVec.ofInt 64 (s.core.bpc + 4 * off.toInt) := by
        rw [← BitVec.ofInt_natCast, ← BitVec.ofInt_add, align4_ofInt _ (by omega)]
      exact ⟨_, exec_of_body accepts (fun _ => rfl) rfl, value ▸ target _ 0 false⟩
    · refine ⟨_, exec_of_body accepts (fun _ => rfl) ?_, target (s.sv r &&& 0xFFFFFFFFFFFFFFFC#64) (s.pre.sReg r.toNat).taint true⟩
      rw [srcS_readable readable, eff_ok_bind]
      rfl
  · refine ⟨fun i which accepts => ?_, fun accepts => ?_⟩
    · obtain ⟨t, answers, spec⟩ := branchTo_readable (bt := bt) readable ea
      rcases which with rfl | rfl
      · exact ⟨t, exec_of_body accepts (fun _ => rfl) answers, spec⟩
      · exact ⟨t, exec_of_body accepts (fun _ => rfl) answers, spec⟩
    · obtain ⟨t, answers, spec⟩ := callTo_readable (bt := bt) (lt := lt) readable ea
      exact ⟨t, exec_of_body accepts (fun _ => rfl) answers, spec⟩
  · obtain ⟨t, answers, spec⟩ := loopTo_readable (bt := bt) readable ea
    exact ⟨t, exec_of_body accepts (fun _ => rfl) answers, spec⟩

end Sys2Proof.Machine
end


section
set_option Elab.async false
/-! SUPPORT. Slots that hold their group until accesses are performed (R76, R253, R266, R267), and tasks that leave their core (R300). -/

namespace Sys2Proof.Machine

variable {s t : State} {i : Instr} {a : After}

theorem stops_of_body {body : State → Eff State} {e : Stop} (accepts : Accepts s i) (meaning : ∀ s, exec i s = run i s body)
    (stops : body s = .error e) : Stops s i e :=
  ⟨_, (meaning s).trans (run_accepted accepts body), stops ▸ settle_error_sig e⟩

/-! ## What stands before the group, and what the group itself adds -/

theorem State.prior_alone (alone : s.core.inGroup = false) : s.prior = s := by simp [State.prior, alone]

theorem State.clear_ok (before : s.prior.afterWait a = (false, false)) : s.clear a = .ok () := by simp [State.clear, before, need]

theorem holdFor_passes (before : s.prior.afterWait a = (false, false)) (now : s.afterWait a = (false, false)) : s.holdFor a = .ok (s.passed a) := by
  simp [State.holdFor, State.clear_ok before, now]

theorem holdFor_leaves (before : s.prior.afterWait a = (false, false)) (now : s.afterWait a ≠ (false, false)) :
    s.holdFor a = .ok (s.upd fun c => { c with after := a.into c.after }) := by
  have group : s.core.inGroup = true := by
    by_contra alone
    exact now (State.prior_alone (Bool.not_eq_true _ ▸ alone) ▸ before)
  have left : ((s.afterWait a).1 || (s.afterWait a).2) = true := by
    by_contra none
    exact now (Prod.ext (by simpa using And.left (by simpa using none)) (by simpa using And.right (by simpa using none)))
  simp [State.holdFor, State.clear_ok before, left, State.leave, group]

theorem holdFor_withheld (before : (s.prior.afterWait a).1 = true) : s.holdFor a = .error (.wait .plain true false) := by
  simp [State.holdFor, State.clear, before, need]

theorem holdFor_stalls (released : (s.prior.afterWait a).1 = false) (left : (s.prior.afterWait a).2 = true) : s.holdFor a = .error stall := by
  simp [State.holdFor, State.clear, released, left, need]

theorem After.mem_into (l : List After) : a ∈ a.into l := by simp [After.into]

/-! ## `FENCE` (R266) -/

theorem afterWait_fence_iff : s.afterWait .fence = (false, false) ↔ s.core.wb = [] ∧ s.core.pendingMask = 0 := by
  simp only [State.afterWait, Prod.mk.injEq, Core.unreleased, Bool.or_eq_false_iff, decide_eq_false_iff_not, not_not, Bool.not_eq_false',
    List.isEmpty_iff]
  exact ⟨fun h => h.2, fun h => ⟨by rw [h.1]; rfl, h⟩⟩

theorem Core.unreleased_iff (c : Core) : c.unreleased = true ↔ ∃ e ∈ c.wb, e.released = false := by simp [Core.unreleased]

theorem Core.unreleased_false (c : Core) (h : ∀ e ∈ c.wb, e.released = true) : c.unreleased = false := by simpa [Core.unreleased] using h

/-! ## `XFENCE` (R253, R267) -/

/-- No entry is of a kind, unreleased or released. -/
theorem none_of_kind {l : List WEntry} {p q : WEntry → Bool} {P : WEntry → Prop} (each : ∀ e, p e = false ∧ q e = false ↔ P e) :
    l.any p = false ∧ l.any q = false ↔ ∀ e ∈ l, P e := by
  simp only [List.any_eq_false, ← forall₂_and, Bool.not_eq_true, each]

/-- The copies of the unit that have not been performed are of a kind, or none of them is left. -/
theorem copies_iff (u : Nat) {p : Copy → Bool} :
    ((((s.dieAt (dieOf u)).copyq.any fun x => decide (x.u = u) && p x) ||
      s.units.any fun x => decide (x.copy.u = u) && !x.copy.stopped && p x.copy) = false) ↔
    (∀ x ∈ (s.dieAt (dieOf u)).copyq, x.u = u → p x = false) ∧ ∀ x ∈ s.units, x.copy.u = u → x.copy.stopped = false → p x.copy = false := by
  simp

theorem busy_iff {x y z : Bool} : (x, y || z) = (false, false) ↔ (x = false ∧ y = false) ∧ z = false := by
  simp only [Prod.mk.injEq, Bool.or_eq_false_iff, and_assoc]

/-- What is left to be performed on a path is what `PathQuiet` says there is none of (R253, R267). -/
theorem pathBusy_iff (path : Nat) : s.pathBusy s.cur path = (false, false) ↔ PathQuiet s path := by
  unfold State.pathBusy PathQuiet
  match path with
  | 0 =>
    refine (busy_iff.trans (and_congr_left' (none_of_kind fun e => ?_))).trans (and_comm.trans (and_congr_left' ?_))
    · cases e.k <;> cases e.released <;> simp [-Bool.forall_bool]
    · exact decide_eq_false_iff_not.trans not_not
  | 1 =>
    refine (busy_iff.trans (and_congr (none_of_kind fun e => ?_) (copies_iff _))).trans (and_comm.trans (and_congr_left' ?_))
    · cases e.k <;> cases e.released <;> simp [Option.isSome_iff_ne_none]
    · simp [Option.isSome_iff_ne_none]
  | 2 => simp [State.core]
  | 3 =>
    refine busy_iff.trans (and_congr (none_of_kind fun e => ?_) ?_)
    · cases e.k <;> cases e.released <;> simp
    · simp
  | _ + 4 =>
    refine (Prod.mk.injEq ..).to_iff.trans ((and_iff_right rfl).trans (Bool.or_eq_false_iff.trans (and_comm.trans (and_congr ?_ ?_))))
    · exact (copies_iff _).trans (by simp)
    · simp [State.core]

theorem afterWait_xfence_iff (pa pb : Nat) : s.afterWait (.xfence pa pb) = (false, false) ↔ PathQuiet s pa ∧ PathQuiet s pb := by
  rw [← pathBusy_iff, ← pathBusy_iff]
  simp only [State.afterWait, Prod.ext_iff, Bool.or_eq_false_iff]
  exact and_and_and_comm

/-! ## Acquires (R262, R266) -/

theorem State.writeLate_cur (p : Unit64 → Bool) : (s.writeLate p).cur = s.cur := by
  have each (l : List Unit64) (s : State) : (l.foldl (fun (s : State) x => s.updAt x.u fun c => c.land x) s).cur = s.cur := by
    induction l generalizing s with
    | nil => rfl
    | cons x l ih => exact ih _
  exact each _ _

theorem State.settle_cur (u : Nat) : (s.settle u).cur = s.cur := s.writeLate_cur _

theorem State.acquire_acquired : Acquired s (s.acquire s.cur) :=
  ⟨rfl, fun _ other => State.coreAt_updAt_ne _ _ other, State.coreAt_updAt_same (s := { s with seq := s.seq + 1 }) _ _⟩

theorem State.settle_acquired : Acquired (s.settle s.cur) ((s.settle s.cur).acquire s.cur) := by
  have acquired := (s.settle s.cur).acquire_acquired
  rwa [State.settle_cur] at acquired

/-! ## What waits for the group's completion (R76) -/

/-- The slot's effect has joined those that the group's completion waits for, and nothing else has changed. -/
theorem into_after (a : After) : ∃ t, s.upd (fun c => { c with after := a.into c.after }) = t ∧ OnlyCore s t ∧
    t.core = { s.core with after := t.core.after } ∧ a ∈ t.core.after := by
  refine ⟨_, rfl, s.upd_onlyCore _, ?_, ?_⟩ <;> rw [State.core_upd]
  exact After.mem_into _

/-! ## What a checkpoint leaves (R440), seen through any view of the core that it does not touch -/

section Views

variable {β : Type} (view : Core → β) (c : Core)

theorem Core.count_keeps (counters : ∀ c o p n l, view { c with ovfNow := o, pmc := p, pmcNow := n, pmsel := l } = view c) (ev k : Nat) :
    view (c.count ev k) = view c := by
  unfold Core.count
  split
  · rfl
  · refine Core.foldl_keeps view (fun c n => ?_) _ c
    split
    · exact counters c _ _ _ _
    · rfl

theorem Core.releasePoint_keeps (slots : ∀ c x, view { c with slots := x } = view c) : view c.releasePoint = view c := by
  refine Core.foldl_keeps view (fun c n => ?_) _ c
  dsimp only
  split
  · exact iteInduction (motive := fun d => view d = view c) (fun _ => (slots _ _).trans (slots _ _)) fun _ => slots _ _
  · rfl

theorem Core.performFrees_keeps (grans : ∀ c g f, view { c with grans := g, freeing := f } = view c) : view c.performFrees = view c :=
  (grans _ _ _).trans (Core.foldl_keeps view (f := Core.freeRegion) (fun c _ => grans c _ c.freeing) _ c)

theorem Core.freeTags_keeps (tags : ∀ c t, view { c with tags := t } = view c) : view c.freeTags = view c :=
  Core.foldl_keeps view (fun c _ => iteInduction (motive := fun d => view d = view c) (fun _ => rfl) fun _ => tags c _) _ c

end Views

/-- What a departure reads of its core: the registers, the results on their way, the task with its deadline, the positions, the next group. -/
def Core.standing (c : Core) : Regs × Bool × Bool × Option Task × Tbl ResumePos × Option Nat × Nat :=
  (c.live, c.prods.isEmpty, c.pipe.isEmpty, c.task, c.resume, c.deadline, c.pc)

theorem Core.checkpoint_standing (c : Core) (r : Regs) (a : Nat) : (c.checkpoint r a).standing = c.standing := by
  have released : c.releasePoint.performFrees.standing = c.standing :=
    (Core.performFrees_keeps _ _ fun _ _ _ => rfl).trans (Core.releasePoint_keeps _ _ fun _ _ => rfl)
  rw [← released]
  unfold Core.checkpoint
  generalize c.releasePoint.performFrees = d
  rw [Core.freeTags_keeps Core.standing _ fun _ _ => rfl]
  simp only [Core.standing, List.isEmpty_map]

theorem Core.checkpoint_shadow (c : Core) (r : Regs) (a : Nat) : (c.checkpoint r a).shadow.regs = r ∧ (c.checkpoint r a).shadow.addr = a := by
  unfold Core.checkpoint
  generalize c.releasePoint.performFrees = d
  rw [Core.freeTags_keeps Core.shadow _ fun _ _ => rfl]
  exact ⟨rfl, rfl⟩

/-! ## Pending tags (R115, R121) -/

theorem Core.pendingMask_eq_zero_iff (c : Core) : c.pendingMask = 0 ↔ ∀ j, j < 16 → (c.tag j).st ≠ .pending := by
  have bit {j : Nat} (tag : j < 16) := getLsbD_tagsIn c (fun t => decide (t.st = .pending)) tag
  refine ⟨fun none j tag pending => ?_, fun none => BitVec.eq_of_getLsbD_eq fun j tag => ?_⟩
  · have named := (bit tag).trans (decide_eq_true pending)
    rw [show tagMask (c.tagsIn fun t => decide (t.st = .pending)) = 0 from none] at named
    simp at named
  · exact (bit tag).trans ((decide_eq_false (none j tag)).trans BitVec.getLsbD_zero.symm)

theorem Core.setTag_free_pendingMask {c : Core} (j : Nat) (none : c.pendingMask = 0) :
    (c.setTag j { c.tag j with st := .free }).pendingMask = 0 := by
  refine (Core.pendingMask_eq_zero_iff _).mpr fun k tag => ?_
  rw [Core.tag_setTag]
  split
  · exact TagState.noConfusion
  · exact (Core.pendingMask_eq_zero_iff _).mp none k tag

/-- Tags that become Free make none Pending. -/
theorem Core.freeTags_pendingMask {c : Core} (none : c.pendingMask = 0) : c.freeTags.pendingMask = 0 :=
  List.foldlRecOn (motive := fun c : Core => c.pendingMask = 0) _ _ none fun _ none j _ =>
    iteInduction (motive := fun c : Core => c.pendingMask = 0) (fun _ => none) fun _ => Core.setTag_free_pendingMask j none

theorem Core.checkpoint_pendingMask {c : Core} (r : Regs) (a : Nat) (none : c.pendingMask = 0) : (c.checkpoint r a).pendingMask = 0 := by
  have released : c.releasePoint.performFrees.pendingMask = 0 :=
    ((Core.performFrees_keeps Core.pendingMask _ fun _ _ _ => rfl).trans (Core.releasePoint_keeps Core.pendingMask _ fun _ _ => rfl)).trans none
  unfold Core.checkpoint
  generalize c.releasePoint.performFrees = d at released
  exact Core.freeTags_pendingMask released

/-! ## A task that leaves its core (R300) -/

theorem Core.still_iff (c : Core) : c.still = true ↔
    c.standing.1.allFull = true ∧ c.standing.2.1 = true ∧ c.standing.2.2.1 = true ∧ c.pendingMask = 0 := by
  simp only [Core.still, Core.standing, Bool.and_eq_true, decide_eq_true_eq, and_assoc]

theorem Core.checkpoint_still {c : Core} (r : Regs) (a : Nat) (still : c.still = true) : (c.checkpoint r a).still = true := by
  rw [Core.still_iff] at still ⊢
  obtain ⟨full, prods, pipe, tags⟩ := still
  rw [Core.checkpoint_standing]
  exact ⟨full, prods, pipe, Core.checkpoint_pendingMask r a tags⟩

/-- After the checkpoint of a departure: what it reads is as before, and the shadow set holds the registers and the next group (R300, R440). -/
theorem State.ckHere_core (ev : Nat) : (s.ckHere ev).core.standing = s.core.standing ∧ (s.ckHere ev).core.shadow.regs = s.core.live ∧
    (s.ckHere ev).core.shadow.addr = s.core.pc ∧ (s.core.still = true → (s.ckHere ev).core.still = true) := by
  unfold State.ckHere
  rw [State.core_upd]
  have counted {β : Type} (view : Core → β) := Core.count_keeps view (s.core.checkpoint s.core.live s.core.pc)
  generalize ck : s.core.checkpoint s.core.live s.core.pc = d at counted
  obtain ⟨regs, addr⟩ := s.core.checkpoint_shadow s.core.live s.core.pc
  rw [ck] at regs addr
  have standing : (d.count ev 1).standing = s.core.standing := by
    rw [counted Core.standing fun _ _ _ _ _ => rfl, ← ck, Core.checkpoint_standing]
  have shadow : (d.count ev 1).shadow = d.shadow := counted Core.shadow (fun _ _ _ _ _ => rfl) ev 1
  have still : (d.count ev 1).still = d.still := counted Core.still (fun _ _ _ _ _ => rfl) ev 1
  generalize d.count ev 1 = c at standing shadow still ⊢
  refine ⟨standing, ?_, ?_, fun h => ?_⟩
  · rw [← regs, ← shadow]
  · rw [← addr, ← shadow]
  · rw [← ck, Core.checkpoint_still _ _ h] at still
    exact still

theorem State.engineFill_cur (d tsid va : Nat) : (s.engineFill d tsid va).cur = s.cur := by
  unfold State.engineFill
  split
  · rfl
  · split <;> rfl

theorem State.engineStore_cur {d tsid n va : Nat} {bs : List Byte} (written : s.engineStore d tsid n va bs = .ok t) : t.cur = s.cur := by
  induction n generalizing s va bs with
  | zero => cases written; rfl
  | succ n ih =>
    simp only [State.engineStore] at written
    split at written
    · cases written; rfl
    split at written
    · cases written
    · exact (ih written).trans (s.engineFill_cur d tsid va)

theorem State.writeRuns_cur {d tsid base : Nat} {l : List (Nat × List Byte)} (written : s.writeRuns d tsid base l = .ok t) : t.cur = s.cur := by
  induction l generalizing s with
  | nil => cases written; rfl
  | cons r l ih =>
    simp only [State.writeRuns] at written
    split at written
    · cases written
    · next one => exact (ih written).trans (State.engineStore_cur one)

/-- A task whose save frame has been written leaves its core: its record stands ready at its position (R295, R300). -/
theorem State.suspend_leaves {w : State} {u st k rpc : Nat} {tk : Task} (task : (s.coreAt u).task = some tk)
    (position : Tbl.free (s.coreAt u).resume 16 = some k)
    (frame : s.writeRuns (dieOf u) tk.r.ctx (frameAddr (s.ctxAt (dieOf u) tk.r.ctx).desc.savebase (u % 128) k)
      (s.coreAt u).shadow.regs.frameRuns = .ok w) :
    let t := s.suspend u st 0 0 0 rpc true
    t.cur = s.cur ∧ t.mem = w.mem ∧ (t.coreAt u).task = none ∧ (t.coreAt u).run = .idle ∧
      ∃ p, Tbl.get? (t.coreAt u).resume k = some p ∧ p.ready = true ∧ p.id = tk.id ∧
        p.r = { tk.r with st := st, enq := w.cycle48 (dieOf u), saveix := k, rpc := rpc, wkind := 0, wix := 0, wtgt := 0, timedOut := false
                          dlv := (s.coreAt u).deadline.isSome, dline := (s.coreAt u).deadline.getD 0 } := by
  have cur := State.writeRuns_cur frame
  dsimp only
  generalize left : s.suspend u st 0 0 0 rpc true = t
  unfold State.suspend at left
  -- The frame's writes are a variable from here on: to compare two forms of the match on them the kernel would run them.
  obtain ⟨writes, are⟩ : ∃ writes, writes = State.writeRuns := ⟨_, rfl⟩
  rw [← are] at left frame
  simp only [task, position, frame] at left
  subst left
  rw [State.updAt_cur, State.updAt_mem, State.coreAt_updAt_same, State.settle_cur, cur, State.settle_mem]
  dsimp only
  generalize ((((w.settle u).coreAt u).traceLeave _ 3).count 0x0F 1).releasePoint.performFrees.taintBoundary false = c
  exact ⟨rfl, rfl, rfl, rfl, _, Tbl.get?_set_same .., rfl, rfl, rfl⟩

/-- The state of a departure, as the core of its unit shows it: only that of `ckHere` with the wait for the checkpoint marked (R300). -/
theorem State.leaving_core : s.leaving.core = { (s.ckHere 0x06).core with waitCk := true, after := [] } :=
  (State.core_upd _ _).trans (congrArg (fun c : Core => { c with after := [] }) (State.core_upd _ _))

theorem leaveTask_departs (st : Nat) (early : s.core.waitCk = false) (checked : s.core.mmaUnchecked = false) (still : s.core.still = true) :
    s.leaveTask st = s.leaving.suspend s.cur st 0 0 0 s.core.pc true := by
  obtain ⟨-, -, addr, kept⟩ := State.ckHere_core (s := s) 0x06
  have now : ((s.ckHere 0x06).upd fun c => { c with waitCk := true }).core = { (s.ckHere 0x06).core with waitCk := true } := State.core_upd _ _
  have stillNow := kept still
  unfold State.leaveTask
  simp only [early, checked, Bool.or_self, Bool.false_eq_true, if_false, now]
  generalize (s.ckHere 0x06).core = c at addr stillNow ⊢
  rw [show Core.still { c with waitCk := true } = true from stillNow, if_pos (by rfl), addr]
  rfl

theorem leaveTask_leaves {st k : Nat} {tk : Task} {w : State} (position : Tbl.free s.core.resume 16 = some k) (can : CanLeave s k tk w) :
    LeavesCore s (s.leaveTask st) w st k tk := by
  obtain ⟨-, task, early, checked, still, frame⟩ := can
  obtain ⟨standing, regs, -, -⟩ := State.ckHere_core (s := s) 0x06
  have core : s.leaving.coreAt s.cur = _ := State.leaving_core
  rw [leaveTask_departs st early checked still]
  generalize (s.ckHere 0x06).core = c at standing regs core
  simp only [Core.standing, Prod.mk.injEq] at standing
  obtain ⟨-, -, -, sameTask, sameResume, sameDeadline, -⟩ := standing
  have taskNow : (s.leaving.coreAt s.cur).task = some tk := by rw [core, ← task, ← sameTask]
  have positionNow : Tbl.free (s.leaving.coreAt s.cur).resume 16 = some k := by rw [core, ← position, ← sameResume]
  have shadowNow : (s.leaving.coreAt s.cur).shadow.regs = s.core.live := by rw [core, ← regs]
  have deadlineNow : (s.leaving.coreAt s.cur).deadline = s.core.deadline := by rw [core, ← sameDeadline]
  obtain ⟨cur, mem, gone, idle, record⟩ := State.suspend_leaves (st := st) (rpc := s.core.pc) taskNow positionNow (shadowNow ▸ frame)
  rw [deadlineNow] at record
  generalize s.leaving.suspend s.cur st 0 0 0 s.core.pc true = t at cur mem gone idle record ⊢
  have at_ : t.core = t.coreAt s.cur := congrArg t.coreAt cur
  rw [LeavesCore, at_]
  exact ⟨mem, gone, idle, record⟩

end Sys2Proof.Machine
end

section
set_option Elab.async false
/-! OBLIGATION O41. -/

namespace Sys2Proof.Machine

variable {s : State}

/-! ## Fences -/

theorem exec_fence {sc : BitVec 3} (accepts : Accepts s (.fence sc)) {t : State} (answers : fence s sc.toNat = .ok t) :
    exec (.fence sc) s = .next t :=
  exec_of_body accepts (fun _ => rfl) answers

theorem fence_held {n : Nat} (beyond : 0 < n) : fence s n = s.holdFor .fence := if_neg (Nat.ne_of_gt beyond)

theorem fence_clauses {sc : BitVec 3} (accepts : Accepts s (.fence sc)) :
    let i : Instr := .fence sc
    let p := s.prior.core
    let quiet (c : Core) : Prop := c.wb = [] ∧ c.pendingMask = 0
    (sc.toNat = 0 → exec i s = .next (s.upd fun c => { c with acqWaits := c.acqWaits ||| c.pendingMask })) ∧
    (0 < sc.toNat → quiet p → quiet s.core → ∃ t, exec i s = .next t ∧ Acquired (s.settle s.cur) t) ∧
    (0 < sc.toNat → quiet p → ¬quiet s.core → ∃ t, exec i s = .next t ∧ OnlyCore s t ∧ t.core = { s.core with after := t.core.after } ∧
      .fence ∈ t.core.after) ∧
    (0 < sc.toNat → (∃ e ∈ p.wb, e.released = false) → Stops s i (.wait .plain true false)) ∧
    (0 < sc.toNat → (∀ e ∈ p.wb, e.released = true) → ¬quiet p → Stops s i (.wait .plain false false)) := by
  intro i p quiet
  have held (beyond : 0 < sc.toNat) := fence_held (s := s) beyond
  refine ⟨fun own => exec_fence accepts (if_pos own), fun beyond before now => ⟨_, exec_fence accepts ?_, State.settle_acquired⟩,
    fun beyond before now => ?_, fun beyond withheld => stops_of_body accepts (fun _ => rfl) ?_,
    fun beyond released left => stops_of_body accepts (fun _ => rfl) ?_⟩
  · exact (held beyond).trans (holdFor_passes (afterWait_fence_iff.mpr before) (afterWait_fence_iff.mpr now))
  · obtain ⟨t, is, only, core, waits⟩ := into_after (s := s) .fence
    exact ⟨t, exec_fence accepts ((held beyond).trans ((holdFor_leaves (afterWait_fence_iff.mpr before)
      fun none => now (afterWait_fence_iff.mp none)).trans (congrArg _ is))), only, core, waits⟩
  · exact (held beyond).trans (holdFor_withheld ((Core.unreleased_iff _).mpr withheld))
  · have none := Core.unreleased_false _ released
    refine (held beyond).trans (holdFor_stalls none ?_)
    by_contra empty
    exact left (afterWait_fence_iff.mp (Prod.ext none (Bool.not_eq_true _ ▸ empty)))

theorem xfence_clauses {pa pb : BitVec 3} (accepts : Accepts s (.xfence pa pb)) :
    let i : Instr := .xfence pa pb
    let quiet (s : State) : Prop := PathQuiet s pa.toNat ∧ PathQuiet s pb.toNat
    (quiet s.prior → quiet s → (pa = 0 ∨ pb = 0) → ∃ t, exec i s = .next t ∧ Acquired (s.settle s.cur) t) ∧
    (quiet s.prior → quiet s → pa ≠ 0 → pb ≠ 0 → exec i s = .next s) ∧
    (quiet s.prior → ¬quiet s → ∃ t, exec i s = .next t ∧ OnlyCore s t ∧ t.core = { s.core with after := t.core.after } ∧
      .xfence pa.toNat pb.toNat ∈ t.core.after) ∧
    (¬quiet s.prior → ∃ b, Stops s i (.wait .plain b false)) := by
  intro i quiet
  have answers {t : State} (is : s.holdFor (.xfence pa.toNat pb.toNat) = .ok t) : exec i s = .next t := exec_of_body accepts (fun _ => rfl) is
  have stops {e : Stop} (is : s.holdFor (.xfence pa.toNat pb.toNat) = .error e) : Stops s i e := stops_of_body accepts (fun _ => rfl) is
  have zero (p : BitVec 3) : p.toNat = 0 ↔ p = 0 := BitVec.toNat_inj (y := 0#3)
  have passes (before : quiet s.prior) (now : quiet s) : s.holdFor (.xfence pa.toNat pb.toNat) =
      .ok (if pa = 0 ∨ pb = 0 then (s.settle s.cur).acquire s.cur else s) := by
    rw [holdFor_passes ((afterWait_xfence_iff _ _).mpr before) ((afterWait_xfence_iff _ _).mpr now)]
    simp only [State.passed, zero]
  refine ⟨fun before now path => ⟨_, answers ((passes before now).trans (congrArg _ (if_pos path))), State.settle_acquired⟩,
    fun before now a b => answers ((passes before now).trans (congrArg _ (if_neg (not_or.mpr ⟨a, b⟩)))), fun before now => ?_, fun left => ?_⟩
  · obtain ⟨t, is, only, core, waits⟩ := into_after (s := s) (.xfence pa.toNat pb.toNat)
    exact ⟨t, answers ((holdFor_leaves ((afterWait_xfence_iff _ _).mpr before)
      fun none => now ((afterWait_xfence_iff _ _).mp none)).trans (congrArg _ is)), only, core, waits⟩
  · cases withheld : (s.prior.afterWait (.xfence pa.toNat pb.toNat)).1 with
    | true => exact ⟨true, stops (holdFor_withheld withheld)⟩
    | false =>
      refine ⟨false, stops (holdFor_stalls withheld ?_)⟩
      by_contra empty
      exact left ((afterWait_xfence_iff _ _).mp (Prod.ext withheld (Bool.not_eq_true _ ▸ empty)))

/-! ## `SUSPEND` -/

theorem exec_suspend (accepts : Accepts s .suspend) {t : State} (answers : suspendNow s = .ok t) : exec .suspend s = .next t :=
  exec_of_body accepts (fun _ => rfl) answers

theorem State.upd_congr {f g : Core → Core} (same : f s.core = g s.core) : s.upd f = s.upd g := congrArg (s.setCoreAt s.cur) same

theorem finish_suspend : s.finish [.suspend] = s.leaveTask 1 := by simp [State.finish, State.afterWait]

theorem suspend_clauses (accepts : Accepts s .suspend) :
    ((∀ n, n < 16 → (Tbl.get? s.core.resume n).isSome = true) → exec .suspend s = .next s) ∧
    (∀ k, Tbl.free s.core.resume 16 = some k → s.core.tlevel = 0 →
      (s.core.inGroup = true → s.core.after = [] → exec .suspend s = .next (s.upd fun c => { c with after := [.suspend] })) ∧
      (∀ tk w, CanLeave s k tk w → ∃ t, exec .suspend s = .next t ∧ LeavesCore s t w 1 k tk)) := by
  refine ⟨fun full => exec_suspend accepts ?_, fun k position level => ?_⟩
  · have none : Tbl.free s.core.resume 16 = none :=
      List.find?_eq_none.mpr fun n low => by simp [Option.isSome_iff_ne_none.mp (full n (List.mem_range.mp low))]
    simp [suspendNow, none]
  have leaves : suspendNow s = .ok (s.leave .suspend) := by simp [suspendNow, position, level]
  refine ⟨fun group empty => exec_suspend accepts (leaves.trans (congrArg _ ?_)), fun tk w can => ?_⟩
  · rw [State.leave, if_pos group]
    exact State.upd_congr (congrArg (fun l => { s.core with after := After.into .suspend l }) empty)
  · obtain ⟨alone, -⟩ := id can
    refine ⟨_, exec_suspend accepts (leaves.trans (congrArg _ ?_)), leaveTask_leaves position can⟩
    rw [State.leave, if_neg (Bool.not_eq_true _ ▸ alone), finish_suspend]

/-- Settles O41: a slot that holds its group asks what stood before the group and then what the group added; a departure is its
checkpoint followed by the save of its record. -/
theorem fencesAndSuspend : Obligations.FencesAndSuspend := by
  unfold Obligations.FencesAndSuspend
  exact ⟨fun _ _ => fence_clauses, fun _ _ _ => xfence_clauses, fun _ => suspend_clauses⟩

end Sys2Proof.Machine
end


section
set_option Elab.async false
/-! SUPPORT. What every meaning is: a slot behind its decode checks, or an event or a graph word, which answers (R77, R78). -/

namespace Sys2Proof.Machine

variable {s : State} {i : Instr}

/-! ## Answers -/

/-- A next state, or a unit that does not exist. -/
def Answers (o : Host.Outcome State Fault Refusal) : Prop := (∃ t, o = .next t) ∨ ∃ u, o = .fault (.noSuchUnit u)

theorem run_answers (i : Instr) (s : State) (body : State → Eff State) : Answers (run i s body) := by
  unfold run
  split
  · exact .inl ⟨_, rfl⟩
  · exact .inr ⟨_, rfl⟩

theorem happen_answers (s : State) (enabled : Bool) (t : State) : Answers (happen s enabled t) := .inl ⟨_, rfl⟩

theorem atUnit_answers (s : State) (u : Nat) (enabled : Bool) (t : State) : Answers (atUnit s u enabled t) := by
  unfold atUnit
  split
  · exact happen_answers ..
  · exact .inr ⟨_, rfl⟩

theorem ethWrite_answers (s : State) (p r : Nat) (v : DWord) : Answers (ethWrite s p r v) := happen_answers ..

theorem accept_answers (s : State) (n : Nat) (isOp : Bool) (body : State → Nat → Nat → Ctx → Acc State) : Answers (accept s n isOp body) := by
  unfold accept
  split
  · dsimp only
    split
    · exact .inl ⟨_, rfl⟩
    · split <;> exact .inl ⟨_, rfl⟩
  · exact .inr ⟨_, rfl⟩

theorem shapeWord_answers (s : State) (g : GcWord) (fn : DWord → DWord → Acc DWord) : Answers (shapeWord s g fn) := accept_answers ..

/-! ## The dispatch -/

/-- A slot word stands for the instruction. -/
def hasSlotWord (i : Instr) : Bool :=
  match encode i with
  | some (.slot _ _ _ _) => true
  | _ => false

/-- Nothing that the decode checks look for in a slot. -/
def Unchecked (i : Instr) : Prop := computeOnly i = false ∧ copyDec i = false ∧ privilegedForm i = none ∧ hasSlotWord i = false

theorem execMatrixStart_answers (s : State) : Answers (execMatrixStart s) := by
  unfold execMatrixStart
  dsimp only
  split
  · exact atUnit_answers ..
  · split <;> exact atUnit_answers ..

theorem execPageWalkComplete_answers (s : State) : Answers (execPageWalkComplete s) := by
  unfold execPageWalkComplete
  split
  · split <;> exact happen_answers ..
  · exact happen_answers ..

theorem execContextSave_answers (s : State) : Answers (execContextSave s) := by
  unfold execContextSave
  dsimp only
  split <;> exact happen_answers ..

theorem execOperatorIssue_answers (s : State) : Answers (execOperatorIssue s) := by
  unfold execOperatorIssue
  dsimp only
  split
  · split <;> exact happen_answers ..
  · exact happen_answers ..

theorem execRingStop_answers (s : State) : Answers (execRingStop s) := by
  unfold execRingStop
  dsimp only
  split <;> exact ethWrite_answers ..

/-- A meaning is that of a slot behind its decode checks, or of an event or a graph word. -/
theorem exec_slot_or_answers (i : Instr) : (∃ body, ∀ s, exec i s = run i s body) ∨ Unchecked i ∧ ∀ s, Answers (exec i s) := by
  cases i
  -- Events that look up what they concern.
  case drainRowDelivery | loadBind | producerWriteback | storePerform | deadlineExpiry | preemptBoundExpiry | tileWriteComplete |
      waitLimitExpiry | fillComplete =>
    refine .inr ⟨⟨rfl, rfl, rfl, rfl⟩, fun s => ?_⟩
    simp only [exec, execDrainRowDelivery, execLoadBind, execProducerWriteback, execStorePerform, execDeadlineExpiry,
        execPreemptBoundExpiry, execTileWriteComplete, execWaitLimitExpiry, execFillComplete]
    split <;> exact atUnit_answers ..
  case copyPerform | landingUnitArrival | flagPostArrival | qpushArrival | contributionArrival | memberCompletion | abortTokenArrival |
      shootdownComplete | agePromotion | pointComplete | operatorComplete | blockCommit | registerWrite | attestationRequest =>
    refine .inr ⟨⟨rfl, rfl, rfl, rfl⟩, fun s => ?_⟩
    simp only [exec, execCopyPerform, execLandingUnitArrival, execFlagPostArrival, execQpushArrival, execContributionArrival,
        execMemberCompletion, execAbortTokenArrival, execShootdownComplete, execAgePromotion, execPointComplete, execOperatorComplete,
        execBlockCommit, execRegisterWrite, execAttestationRequest]
    split <;> exact happen_answers ..
  case matrixStart => exact .inr ⟨⟨rfl, rfl, rfl, rfl⟩, execMatrixStart_answers⟩
  case pageWalkComplete => exact .inr ⟨⟨rfl, rfl, rfl, rfl⟩, execPageWalkComplete_answers⟩
  case contextSave => exact .inr ⟨⟨rfl, rfl, rfl, rfl⟩, execContextSave_answers⟩
  case operatorIssue => exact .inr ⟨⟨rfl, rfl, rfl, rfl⟩, execOperatorIssue_answers⟩
  case ringStop => exact .inr ⟨⟨rfl, rfl, rfl, rfl⟩, execRingStop_answers⟩
  -- Events of one effect.
  case trapEntry | recordTake | cctlOffline | cctlOnline | cctlRestart | spvWarnClear | traceEnable | traceDisable | firmwareUpdate |
      emptyBundle => exact .inr ⟨⟨rfl, rfl, rfl, rfl⟩, fun _ => atUnit_answers ..⟩
  case erxtailWrite | etxtailWrite | ringEnable | estatClr => exact .inr ⟨⟨rfl, rfl, rfl, rfl⟩, fun _ => ethWrite_answers ..⟩
  case pointFire | glaunchWrite | gpatchWrite | gstatFaultClear | dsvcDrain | dsvcReenable | frameReceive | frameTransmit | hostBar2Access |
      powerOnReset | dieReset | laneRetrain | rowSparing | flitRetry | linkRetryLimit | thermalTrip | stackSparesExhausted | illegalWord =>
    exact .inr ⟨⟨rfl, rfl, rfl, rfl⟩, fun _ => happen_answers ..⟩
  -- Graph words.
  case block | op | egbLoop | endloop | egbBr | brc | egbCall | egbRet | gend | capbeg | capend | replay | hld | hdef |
      hfree | hreshape | hshard | halias | chload | chloadOff | param | egbStep | waith | signal | csload =>
    exact .inr ⟨⟨rfl, rfl, rfl, rfl⟩, fun s => by simp only [exec]; exact accept_answers s _ _ _⟩
  case hset | hadd | hmul | hdiv | hmin | hmax =>
    exact .inr ⟨⟨rfl, rfl, rfl, rfl⟩, fun s => by simp only [exec]; exact shapeWord_answers s _ _⟩
  -- Slots.
  all_goals exact .inl ⟨_, fun _ => rfl⟩

theorem exec_answers (i : Instr) (s : State) : Answers (exec i s) := by
  rcases exec_slot_or_answers i with ⟨body, is⟩ | ⟨-, answers⟩
  · exact is s ▸ run_answers i s body
  · exact answers s

/-! ## Slots that the decode checks turn away (R77) -/

/-- The checks that i can fail are those of a slot. -/
theorem exec_slot (checked : ¬Unchecked i) : ∃ body, ∀ s, exec i s = run i s body :=
  (exec_slot_or_answers i).resolve_right fun other => checked other.1

theorem stops_of_guard {e : Stop} (slot : ∃ body, ∀ s, exec i s = run i s body) (issues : s.issues = true) (refused : guard i s = .error e) :
    Stops s i e := by
  obtain ⟨body, is⟩ := slot
  refine ⟨settle s (.error e), ?_, settle_error_sig e⟩
  rw [is, run, if_pos issues, refused]
  rfl

/-- The range of R204 that `MFCR` and `MTCR` move under privilege, as the model and as the manual's words give it. -/
theorem crnPrivileged_eq (n : Nat) :
    crnPrivileged n = (if (0x100 ≤ n ∧ n ≤ 0x105) ∨ (0x110 ≤ n ∧ n ≤ 0x113) then some n else none : Option Nat).isSome := by
  unfold crnPrivileged
  split
  · exact decide_eq_true (by omega)
  · exact decide_eq_false (by omega)

/-- Check 4 of R77 looks for the privileged forms. -/
theorem needsPrivilege_eq (i : Instr) : needsPrivilege i = (privilegedForm i).isSome := by
  cases i
  case mfcr f | mtcr f => exact crnPrivileged_eq f.crn.toNat
  all_goals exact rfl

/-- It reports the control register that they move. -/
theorem crnInfo_eq (i : Instr) : crnInfo i = ((privilegedForm i).map (· * 65536)).getD (crnInfo i) := by
  cases i
  case mfcr f | mtcr f =>
    change _ = ((if _ then some f.crn.toNat else none : Option Nat).map _).getD _
    split <;> rfl
  all_goals exact rfl

theorem compute_kind {u : Nat} (compute : isCompute u = true) : isControl u = false ∧ isPlan u = false := by
  simp only [isCompute, isControl, isPlan, decide_eq_true_eq, decide_eq_false_iff_not] at *
  omega

theorem control_kind {u : Nat} (control : isControl u = true) : isPlan u = false := by
  simp only [isControl, isPlan, decide_eq_true_eq, decide_eq_false_iff_not] at *
  omega

theorem guard_privileged (compute : isCompute s.cur = true) (level : s.core.tlevel = 0) (form : needsPrivilege i = true) :
    guard i s = .error (.trap 0x04 (BitVec.ofNat 64 (s.core.slot + crnInfo i))) := by
  obtain ⟨control, plan⟩ := compute_kind compute
  simp [guard, plan, control, compute, level, form]

theorem guard_foreign (control : isControl s.cur = true) (foreign : computeOnly i = true ∨ copyDec i = true) :
    guard i s = .error (.trap 0x02 (BitVec.ofNat 64 (s.core.slot + opcodeOf i * 256 + (computeOnly i).toNat * 65536))) := by
  have checked : (computeOnly i || copyDec i) = true := by simpa using foreign
  simp [guard, control_kind control, control, checked]

theorem guard_reserved (compute : isCompute s.cur = true) (form : needsPrivilege i = false) (reserved : i.wf = false) :
    guard i s = .error (illegalOperand s) := by
  obtain ⟨control, plan⟩ := compute_kind compute
  simp [guard, plan, control, form, operandsOk, reserved]

end Sys2Proof.Machine
end


section
set_option Elab.async false
/-! OBLIGATION O8. -/

namespace Sys2Proof.Machine

variable {s : State} {i : Instr}

theorem privileged_traps {n : Nat} (form : privilegedForm i = some n) (issues : s.issues = true) (compute : isCompute s.cur = true)
    (level : s.core.tlevel = 0) : Stops s i (.trap 0x04 (BitVec.ofNat 64 (s.core.slot + n * 65536))) := by
  have slot : ¬Unchecked i := fun ⟨_, _, unprivileged, _⟩ => by simp [unprivileged] at form
  have number : crnInfo i = n * 65536 := (crnInfo_eq i).trans (by rw [form]; rfl)
  exact number ▸ stops_of_guard (exec_slot slot) issues (guard_privileged compute level ((needsPrivilege_eq i).trans (by rw [form]; rfl)))

theorem foreign_traps (foreign : computeOnly i = true ∨ copyDec i = true) (issues : s.issues = true) (control : isControl s.cur = true) :
    Stops s i (.trap 0x02 (BitVec.ofNat 64 (s.core.slot + opcodeOf i * 256 + if computeOnly i then 65536 else 0))) := by
  have slot : ¬Unchecked i := fun ⟨only, dec, _, _⟩ => by simp [only, dec] at foreign
  have bit : (computeOnly i).toNat * 65536 = if computeOnly i then 65536 else 0 := by cases computeOnly i <;> rfl
  exact bit ▸ stops_of_guard (exec_slot slot) issues (guard_foreign control foreign)

theorem reserved_traps {c : Slot} {w : BitVec 64} {l0 l1 : BitVec 32} (words : encode i = some (.slot c w l0 l1)) (reserved : i.wf = false)
    (issues : s.issues = true) (compute : isCompute s.cur = true) (form : privilegedForm i = none) :
    Stops s i (.trap 0x03 (BitVec.ofNat 64 s.core.slot)) := by
  have free : needsPrivilege i = false := (needsPrivilege_eq i).trans (by rw [form]; rfl)
  exact stops_of_guard (exec_slot fun ⟨_, _, _, wordless⟩ => by simp [hasSlotWord, words] at wordless) issues (guard_reserved compute free reserved)

/-! ## Sources and destinations of the operations of R126 -/

theorem exec_arith {f : ArithR} {op : Int → Int → Int} (rule : arithRule i = some (f, op)) :
    ∃ lat fn, ∀ s, exec i s = run i s fun s => arith s f lat fn := by
  unfold arithRule at rule
  split at rule <;> cases rule <;> exact ⟨_, _, fun _ => rfl⟩

section

variable {f : ArithR} {op : Int → Int → Int} {e : Stop} (rule : arithRule i = some (f, op)) (accepts : Accepts s i)
include rule accepts

theorem arith_stops_first (stops : source s (.s f.a.toNat) f.e = .error e) : Stops s i e := by
  obtain ⟨lat, fn, meaning⟩ := exec_arith rule
  exact stops_of_body accepts meaning (by simp [arith, scalar2, srcS, stops])

theorem arith_stops_second (first : Readable s (.s f.a.toNat)) (stops : source s (.s f.b.toNat) f.f = .error e) : Stops s i e := by
  obtain ⟨lat, fn, meaning⟩ := exec_arith rule
  exact stops_of_body accepts meaning (by simp [arith, scalar2, srcS, source_readable first, stops])

theorem arith_stops_destination (first : Readable s (.s f.a.toNat)) (second : Readable s (.s f.b.toNat))
    (stops : destOk s (.s f.d.toNat) = .error e) : Stops s i e := by
  obtain ⟨lat, fn, meaning⟩ := exec_arith rule
  exact stops_of_body accepts meaning (by simp [arith, scalar2, srcS_readable first, srcS_readable second, dstS, stops])

end

theorem not_readable {r : RegName} (interlocked : s.pre.exposed = false) (empty : s.pre.fullOf r = false) : ¬Readable s r := by
  simp [Readable, interlocked, empty]

/-- What an empty source stops its group with (R78). -/
theorem source_empty_scalar {n : BitVec 6} (interlocked : s.pre.exposed = false) (arrived : s.pending (.s n.toNat) = false)
    (empty : (s.pre.sReg n.toNat).full = false) (e : Bool) :
    source s (.s n.toNat) e = .error (if e then .trap 0x05 (BitVec.ofNat 64 (s.core.slot + n.toNat * 256)) else .wait .regs false false) :=
  source_empty (not_readable (r := .s n.toNat) interlocked empty) arrived e

theorem destOk_pending {r : RegName} (interlocked : s.pre.exposed = false) (pending : s.pending r = true) : destOk s r = .error stall := by
  simp [destOk, interlocked, pending]

/-- Settles O8: the decode checks stop a slot before its meaning; the operations of R126 ask for their sources and then their destination. -/
theorem slotChecks : Obligations.SlotChecks := by
  unfold Obligations.SlotChecks
  refine ⟨fun s i n => privileged_traps, fun s i => foreign_traps, fun s i c w l0 l1 words _ => reserved_traps words,
    fun s i => exec_answers i s, fun s i f op rule accepts interlocked => ?_⟩
  intro ready stops
  have reads {n : BitVec 6} (now : ready n) : Readable s (.s n.toNat) := .inr now
  exact ⟨fun pending => arith_stops_first rule accepts (source_pending interlocked pending _),
    fun arrived empty => arith_stops_first rule accepts (source_empty_scalar interlocked arrived empty _),
    fun a pending => arith_stops_second rule accepts (reads a) (source_pending interlocked pending _),
    fun a arrived empty => arith_stops_second rule accepts (reads a) (source_empty_scalar interlocked arrived empty _),
    fun a b pending => arith_stops_destination rule accepts (reads a) (reads b) (destOk_pending interlocked pending),
    fun a b arrived empty => arith_stops_destination rule accepts (reads a) (reads b)
      (destOk_empty (not_readable (r := .s f.d.toNat) interlocked empty) arrived)⟩

end Sys2Proof.Machine
end


section
set_option Elab.async false
/-! OBLIGATION O49. -/

namespace Sys2Proof.Machine

/-- Die 0 as reset leaves it but for its context 0, Running at an address no word can have, with FAULT at 1: a launch takes a Free context
whose FAULT nobody has cleared and leaves it so (R333, R334). The event is `ILLEGAL_WORD` of that context. -/
def runsFaulted : State := { dies := [(0, { ctxs := [(0, { st := .running, fault := true, pc := 4 })] })], ev := { v := 4 } }

/-- The context stops, and as FAULT stood before, no interrupt is raised (R334, R336). -/
theorem illegalWord_runsFaulted {t : State} (stopped : exec .illegalWord runsFaulted = .next t) : (t.coreAt 72).irqPend = 0 := by
  have effect : exec .illegalWord runsFaulted = .next (runsFaulted.graphFault 0 0 0x01 4 0 0 0) := rfl
  rw [effect] at stopped
  cases stopped
  decide

/-- Refutes O49: an unknown word does not set `IRQ_PEND` bit 1 where FAULT of its Running context stands at 1. -/
theorem not_graphBlocks : ¬ Obligations.GraphBlocks := by
  unfold Obligations.GraphBlocks
  intro holds
  obtain ⟨-, -, unknown⟩ := holds
  obtain ⟨t, stopped, -, -, -, -, -, -, -, noted⟩ := unknown runsFaulted (by decide) (by decide) (by decide) (Or.inl (by decide))
  have pending := noted 72 (Or.inl rfl)
  rw [show runsFaulted.ev.u * 128 + 72 = 72 from rfl, illegalWord_runsFaulted stopped] at pending
  exact absurd pending (by decide)

end Sys2Proof.Machine
end

section
set_option Elab.async false
/-! SUPPORT. Operands and results of the scalar slot as integers (R124), quotients (R127). -/

namespace Sys2Proof.Machine

variable {s : State}

/-! ## Operands and results (R124) -/

theorem opnd_eq (x : DWord) (w u : Bool) : opnd x w u = exactOperand x w u := by
  match w, u with
  | false, false => exact (exactOperand_signed x).symm
  | false, true => exact congrArg Nat.cast (Nat.mod_eq_of_lt x.isLt).symm
  | true, true => exact congrArg Nat.cast (BitVec.toNat_setWidth 32 x)
  | true, false =>
    have bits : wide true = 32 := rfl
    simp only [opnd, exactOperand, bits, if_true, Bool.false_eq_true, if_false, Bool.false_or, decide_eq_true_eq, BitVec.toInt_eq_toNat_cond,
      BitVec.toNat_setWidth]
    exact if_congr (by omega) rfl rfl

/-- At 64 bits wrapping is the reading modulo 2^64. -/
theorem wrapped_64 (r : Int) (u : Bool) : wrapped r false u = BitVec.ofInt 64 r := by
  have bits : (r % (2 ^ wide false : Nat)).toNat = (BitVec.ofInt 64 r).toNat := (BitVec.toNat_ofInt r).symm
  simp only [wrapped, bits]
  generalize BitVec.ofInt 64 r = x
  have same : 2 ^ 64 - 2 ^ wide false + x.toNat = x.toNat := by simp [wide]
  rw [same, ite_self, BitVec.ofNat_toNat, BitVec.setWidth_eq]

theorem res64_eq (r : Int) (w u : Bool) : res64 r w u = wrapped r w u := by
  cases w with
  | true => exact (wrapped_eq r u).symm
  | false => exact (wrapped_64 r u).symm

/-- Results that differ by a multiple of the width are wrapped alike. -/
theorem wrapped_congr {a b : Int} {w : Bool} (u : Bool) (same : a % (2 ^ wide w : Nat) = b % (2 ^ wide w : Nat)) : wrapped a w u = wrapped b w u := by
  simp only [wrapped, same]

/-! ## Quotient and remainder (R127) -/

theorem divRem_zero (a : Int) (w u : Bool) : divRem a 0 w u = (-1, a) := rfl

/-- The signed overflow case answers the dividend, which is the quotient wrapped. -/
theorem divRem_nonzero {a b : Int} (h : b ≠ 0) (w u : Bool) :
    wrapped (divRem a b w u).1 w u = wrapped (a.tdiv b) w u ∧ (divRem a b w u).2 = a.tmod b := by
  unfold divRem
  rw [if_neg h]
  by_cases overflow : (!u) = true ∧ b = -1 ∧ a = -((if w then 2 ^ 31 else 2 ^ 63 : Nat) : Int)
  · rw [if_pos overflow]
    obtain ⟨-, rfl, is⟩ := overflow
    refine ⟨wrapped_congr u ?_, by simp⟩
    cases w <;> simp [wide] at is ⊢ <;> omega
  · rw [if_neg overflow]
    exact ⟨rfl, rfl⟩

/-- The truncated quotient leaves a remainder with the sign of the dividend. -/
theorem truncated_division {a b : Int} (h : b ≠ 0) : a = b * a.tdiv b + a.tmod b ∧ (a.tmod b).natAbs < b.natAbs ∧
    (a.tmod b ≠ 0 → (0 < a.tmod b ↔ 0 < a)) := by
  refine ⟨(Int.mul_tdiv_add_tmod a b).symm, ?_, fun left => ?_⟩
  · rw [Int.natAbs_tmod]
    exact Nat.mod_lt _ (Int.natAbs_pos.mpr h)
  · rcases le_or_gt 0 a with up | down
    · have := Int.tmod_nonneg b up
      have pos : a ≠ 0 := by rintro rfl; simp at left
      omega
    · have := Int.tmod_nonneg b (a := -a) (by omega)
      rw [Int.neg_tmod] at this
      omega

theorem divide_ready {f : ArithR} (pick : Int × Int → Int) (ha : Readable s (.s f.a.toNat)) (hb : Readable s (.s f.b.toNat))
    (hd : Readable s (.s f.d.toNat)) :
    let n := if f.w then 20 else 36
    let start := max s.now s.core.divFree
    divide s f pick = .ok ((s.produce (.s f.d.toNat)
      (wrapped (pick (divRem (exactOperand (s.sv f.a) f.w f.u) (exactOperand (s.sv f.b) f.w f.u) f.w f.u)) f.w f.u).toNat (srcTaint s [f.a, f.b])
      (start - s.now + n) 0).upd fun c => { c with divFree := start + n }) := by
  simp only [divide, srcS_readable ha, srcS_readable hb, dstS_readable hd, eff_ok_bind, srcTaint_two, State.sv, opnd_eq, res64_eq]

end Sys2Proof.Machine
end

section
set_option Elab.async false
/-! OBLIGATION O1. -/

namespace Sys2Proof.Machine

variable {s : State}

theorem arith_ready {f : ArithR} (ha : Readable s (.s f.a.toNat)) (hb : Readable s (.s f.b.toNat)) (hd : Readable s (.s f.d.toNat)) (lat : Nat)
    (op : Int → Int → Int) : arith s f lat op = .ok (s.result (.s f.d.toNat)
      (wrapped (op (exactOperand (s.sv f.a) f.w f.u) (exactOperand (s.sv f.b) f.w f.u)) f.w f.u).toNat (srcTaint s [f.a, f.b]) lat 0) := by
  simp only [arith, scalar2_ready ha hb hd, opnd_eq, res64_eq]

/-- Settles O1: each operation reads its operands as integers and writes its exact result wrapped. -/
theorem scalarArithmetic : Obligations.ScalarArithmetic := by
  intro s i f op rule accepts ha hb hd
  have answers {lat : Nat} {fn : Int → Int → Int} (meaning : ∀ s, exec i s = run i s fun s => arith s f lat fn)
      (exact_ : ∀ a b, fn a b = op a b) (latency : lat = scalarLatency i) : exec i s = .next (s.result (.s f.d.toNat)
        (wrapped (op (exactOperand (s.sv f.a) f.w f.u) (exactOperand (s.sv f.b) f.w f.u)) f.w f.u).toNat (srcTaint s [f.a, f.b]) (scalarLatency i) 0) := by
    rw [← latency, ← exact_]
    exact exec_of_body accepts meaning (arith_ready ha hb hd lat fn)
  unfold arithRule at rule
  split at rule <;> cases rule
  case h_1 => exact answers (fun _ => rfl) (fun _ _ => rfl) rfl
  case h_2 => exact answers (fun _ => rfl) (fun _ _ => rfl) rfl
  case h_3 => exact answers (fun _ => rfl) (fun _ _ => rfl) rfl
  case h_4 => exact answers (fun _ => rfl) (fun a b => by cases h : f.w <;> simp [mulHigh, wide]) rfl
  case h_5 => exact answers (fun _ => rfl) (fun a b => by simp only [← not_lt, ite_not]) rfl
  case h_6 => exact answers (fun _ => rfl) (fun a b => by simp only [← not_lt, ite_not]) rfl

end Sys2Proof.Machine
end

section
set_option Elab.async false
/-! OBLIGATION O2. -/

namespace Sys2Proof.Machine

/-- Settles O2: the model's quotient differs from the truncated one in the signed overflow case alone, where both are wrapped alike. -/
theorem division : Obligations.Division := by
  intro s f rem i a b accepts ha hb hd n start
  have answers (v : DWord) (is : v = wrapped (if rem then (divRem a b f.w f.u).2 else (divRem a b f.w f.u).1) f.w f.u) :
      exec i s = .next ((s.produce (.s f.d.toNat) v.toNat (srcTaint s [f.a, f.b]) (start - s.now + n) 0).upd fun c =>
        { c with divFree := start + n }) := by
    subst is
    cases rem with
    | false => exact exec_of_body accepts (fun _ => rfl) (divide_ready Prod.fst ha hb hd)
    | true => exact exec_of_body accepts (fun _ => rfl) (divide_ready Prod.snd ha hb hd)
  by_cases zero : b = 0
  · refine ⟨-1, a, fun _ => ⟨rfl, rfl⟩, fun h => absurd zero h, answers _ ?_⟩
    rw [zero, divRem_zero]
  · obtain ⟨quotient, remainder⟩ := divRem_nonzero (a := a) zero f.w f.u
    refine ⟨a.tdiv b, a.tmod b, fun h => absurd h zero, fun _ => truncated_division zero, answers _ ?_⟩
    cases rem with
    | false => exact quotient.symm
    | true => exact congrArg (wrapped · f.w f.u) remainder.symm

end Sys2Proof.Machine
end

section
set_option Elab.async false
/-! OBLIGATION O3. -/

namespace Sys2Proof.Machine

variable {s : State}

theorem sub_eq_ofInt (x y : DWord) : x - y = BitVec.ofInt 64 (x.toNat - y.toNat) := by
  refine BitVec.eq_of_toNat_eq ?_
  rw [BitVec.toNat_sub, BitVec.toNat_ofInt]
  omega

theorem immed_ready {f : ImmI} (ha : Readable s (.s f.a.toNat)) (hd : Readable s (.s f.d.toNat)) (lat : Nat) (op : DWord → DWord → DWord) :
    immed s f lat op = .ok (s.result (.s f.d.toNat) (op (s.sv f.a) (f.imm.signExtend 64)).toNat (srcTaint s [f.a]) lat 0) :=
  scalar1_ready ha hd ..

/-- Settles O3: each operation is the 64-bit one of its rule; a shifted index is a multiple of it modulo 2^64. -/
theorem immediateAndLea : Obligations.ImmediateAndLea := by
  refine ⟨fun s i f op rule accepts ha hd => ?_, fun s f accepts ha hb hd => exec_of_body accepts (fun _ => rfl) ?_⟩
  · have answers {lat : Nat} {fn : DWord → DWord → DWord} (meaning : ∀ s, exec i s = run i s fun s => immed s f lat fn)
        (exact_ : ∀ a b, fn a b = op a b) (latency : lat = scalarLatency i) : exec i s = .next (s.result (.s f.d.toNat)
          (op (s.sv f.a) (f.imm.signExtend 64)).toNat (srcTaint s [f.a]) (scalarLatency i) 0) := by
      rw [← latency, ← exact_]
      exact exec_of_body accepts meaning (immed_ready ha hd lat fn)
    unfold immRule at rule
    split at rule <;> cases rule
    case h_1 => exact answers (fun _ => rfl) (fun _ _ => rfl) rfl
    case h_2 => exact answers (fun _ => rfl) (fun a i => sub_eq_ofInt i a) rfl
    case h_3 => exact answers (fun _ => rfl) (fun _ _ => rfl) rfl
    case h_4 => exact answers (fun _ => rfl) (fun _ _ => rfl) rfl
    case h_5 => exact answers (fun _ => rfl) (fun _ _ => rfl) rfl
    case h_6 => exact answers (fun _ => rfl) (fun _ _ => rfl) rfl
  · rw [scalar2_ready ha hb hd, BitVec.toNat_add, BitVec.toNat_shiftLeft, Nat.add_mod_mod, Nat.shiftLeft_eq]

end Sys2Proof.Machine
end

section
set_option Elab.async false
/-! SUPPORT. Bits of the logic, shift and rotate results and of the bit fields (R130, R131, R134). -/

namespace Sys2Proof.Machine

/-! ## Shifts and rotates (R130) -/

/-- Bit i of a shifted or rotated n-bit value (R130). -/
def ShiftOp.bit (op : ShiftOp) (n : Nat) (a : Nat → Bool) (c i : Nat) : Bool :=
  match op with
  | .shl => decide (c ≤ i) && a (i - c)
  | .shr => decide (i + c < n) && a (i + c)
  | .sar => a (min (i + c) (n - 1))
  | .rol => a ((i + n - c) % n)
  | .ror => a ((i + c) % n)

theorem ShiftOp.getLsbD_apply (op : ShiftOp) {n : Nat} (x : BitVec n) {c i : Nat} (hc : c < n) (hi : i < n) :
    (op.apply x c).getLsbD i = op.bit n x.getLsbD c i := by
  cases op with
  | shl =>
    simp only [ShiftOp.apply, ShiftOp.bit, BitVec.getLsbD_shiftLeft, hi, decide_true, Bool.true_and, ← not_lt, decide_not]
  | shr =>
    simp only [ShiftOp.apply, ShiftOp.bit, BitVec.getLsbD_ushiftRight, Nat.add_comm c i]
    by_cases inside : i + c < n
    · simp [inside]
    · simp [inside, BitVec.getLsbD_of_ge x _ (not_lt.mp inside)]
  | sar =>
    simp only [ShiftOp.apply, ShiftOp.bit, BitVec.getLsbD_sshiftRight, not_le.mpr hi, decide_false, Bool.not_false, Bool.true_and]
    rw [Nat.add_comm c i]
    split
    · rw [min_eq_left (by omega)]
    · rw [min_eq_right (by omega)]
      exact BitVec.msb_eq_getLsbD_last x
  | rol =>
    simp only [ShiftOp.apply, ShiftOp.bit, BitVec.getLsbD_rotateLeft, Bool.cond_decide, Nat.mod_eq_of_lt hc]
    by_cases low : i < c
    · rw [if_pos low, Nat.mod_eq_of_lt (by omega)]
      congr 1
      omega
    · rw [if_neg low]
      simp only [hi, decide_true, Bool.true_and]
      congr 1
      rw [show i + n - c = i - c + n by omega, Nat.add_mod_right, Nat.mod_eq_of_lt (by omega)]
  | ror =>
    simp only [ShiftOp.apply, ShiftOp.bit, BitVec.getLsbD_rotateRight, Bool.cond_decide, Nat.mod_eq_of_lt hc]
    by_cases low : i < n - c
    · rw [if_pos low, Nat.mod_eq_of_lt (by omega), Nat.add_comm]
    · rw [if_neg low]
      simp only [hi, decide_true, Bool.true_and]
      congr 1
      rw [Nat.mod_eq_sub_mod (by omega), Nat.mod_eq_of_lt (by omega)]
      omega

/-- A rule for bits below n reads no bit of its operand from n up. -/
theorem ShiftOp.bit_congr (op : ShiftOp) {n : Nat} {a b : Nat → Bool} {c i : Nat} (hi : i < n) (same : ∀ k, k < n → a k = b k) :
    op.bit n a c i = op.bit n b c i := by
  have n0 : 0 < n := by omega
  cases op with
  | shl => exact congrArg (decide (c ≤ i) && ·) (same _ (by omega))
  | shr =>
    simp only [ShiftOp.bit]
    by_cases inside : i + c < n
    · rw [same _ inside]
    · simp [inside]
  | sar => exact same _ (by omega)
  | rol => exact same _ (Nat.mod_lt _ n0)
  | ror => exact same _ (Nat.mod_lt _ n0)

/-- Sign extension from bit 31. -/
theorem getLsbD_signExtend_word (x : BitVec 32) {k : Nat} (hk : k < 64) : (x.signExtend 64).getLsbD k = x.getLsbD (min k 31) := by
  rw [BitVec.getLsbD_signExtend, decide_eq_true hk, Bool.true_and]
  split
  · rw [min_eq_left (by omega)]
  · rw [min_eq_right (by omega)]
    exact BitVec.msb_eq_getLsbD_last x

theorem getLsbD_shiftBy (op : ShiftOp) (w : Bool) (a b : DWord) {k : Nat} (hk : k < 64) :
    (shiftBy op w a b).getLsbD k = op.bit (wide w) a.getLsbD (b.toNat % wide w) (min k (wide w - 1)) := by
  cases w with
  | false =>
    have whole : min k (wide false - 1) = k := min_eq_left (by simp only [wide, Bool.false_eq_true, if_false]; omega)
    rw [whole]
    exact op.getLsbD_apply a (Nat.mod_lt _ (by decide)) hk
  | true =>
    have low : min k 31 < 32 := by omega
    simp only [shiftBy, if_true]
    rw [getLsbD_signExtend_word _ hk, op.getLsbD_apply _ (Nat.mod_lt _ (by decide)) low]
    exact op.bit_congr low fun j hj => by rw [BitVec.getLsbD_setWidth, decide_eq_true hj, Bool.true_and]

theorem getLsbD_logicBy (f : DWord → DWord → DWord) (w : Bool) (a b : DWord) {k : Nat} (hk : k < 64) :
    (logicBy f w a b).getLsbD k = (f a b).getLsbD (min k (wide w - 1)) := by
  cases w with
  | false =>
    have whole : min k (wide false - 1) = k := min_eq_left (by simp only [wide, Bool.false_eq_true, if_false]; omega)
    rw [whole]
    rfl
  | true =>
    have low : min k 31 < 32 := by omega
    simp only [logicBy, if_true]
    rw [getLsbD_signExtend_word _ hk, BitVec.getLsbD_setWidth, decide_eq_true low, Bool.true_and]
    rfl

/-! ## Counts (R131) -/

theorem popCount_eq (x : DWord) : popCount x = (List.range 64).countP fun k => x.getLsbD k := List.countP_eq_length_filter.symm

theorem popCount_le (x : DWord) : popCount x ≤ 64 := by
  rw [popCount_eq]
  exact List.countP_le_length.trans (by simp)

/-- The 0 bits above the highest 1 bit. -/
theorem leadingZeros_spec (x : DWord) : leadingZeros x ≤ 64 ∧ (∀ k, 64 - leadingZeros x ≤ k → x.getLsbD k = false) ∧
    (leadingZeros x < 64 → x.getLsbD (63 - leadingZeros x) = true) := by
  unfold leadingZeros
  by_cases zero : x = 0
  · subst zero
    simp
  · have positive : x.toNat ≠ 0 := fun h => zero (BitVec.eq_of_toNat_eq h)
    have high : Nat.log2 x.toNat < 64 := (Nat.log2_lt positive).mpr x.isLt
    rw [if_neg zero]
    refine ⟨by omega, fun k above => ?_, fun _ => ?_⟩
    · rw [← BitVec.testBit_toNat]
      refine Nat.testBit_lt_two_pow ((Nat.log2_lt positive).mp ?_)
      omega
    · rw [show 63 - (63 - Nat.log2 x.toNat) = Nat.log2 x.toNat by omega, ← BitVec.testBit_toNat]
      exact Nat.testBit_log2 positive

/-! ## Sign extension and fields (R134) -/

/-- Sign extension of a number's low n bits is that of the n-bit value. -/
theorem sextN_eq_signExtend {n : Nat} (positive : 0 < n) (fits : n ≤ 64) (x : Nat) : sextN n x = (BitVec.ofNat n x).signExtend 64 := by
  have whole : 2 ^ n ≤ 2 ^ 64 := Nat.pow_le_pow_right (by decide) fits
  have low : x % 2 ^ n < 2 ^ n := Nat.mod_lt _ (Nat.two_pow_pos n)
  have half : 2 ^ (n - 1) * 2 = 2 ^ n := by rw [← Nat.pow_succ, Nat.succ_eq_add_one, Nat.sub_add_cancel positive]
  refine BitVec.eq_of_toNat_eq ?_
  simp only [sextN, BitVec.toNat_signExtend, BitVec.msb_eq_decide, BitVec.toNat_setWidth, BitVec.toNat_ofNat, decide_eq_true_eq]
  by_cases small : x % 2 ^ n < 2 ^ (n - 1)
  · rw [if_pos small, if_neg (not_le.mpr small), BitVec.toNat_ofNat, Nat.add_zero]
  · rw [if_neg small, if_pos (not_lt.mp small), BitVec.toNat_ofNat, Nat.mod_eq_of_lt (by omega), Nat.mod_eq_of_lt (low.trans_le whole)]
    omega

/-- Bits of a sign-extended number: above it its highest one. -/
theorem getLsbD_sextN {n : Nat} (positive : 0 < n) (fits : n ≤ 64) (x : Nat) {k : Nat} (hk : k < 64) :
    (sextN n x).getLsbD k = x.testBit (min k (n - 1)) := by
  rw [sextN_eq_signExtend positive fits, BitVec.getLsbD_signExtend, decide_eq_true hk, Bool.true_and]
  by_cases below : k < n
  · rw [if_pos below, BitVec.getLsbD_ofNat, decide_eq_true below, Bool.true_and, min_eq_left (by omega)]
  · rw [if_neg below, BitVec.msb_eq_getLsbD_last, BitVec.getLsbD_ofNat, decide_eq_true (by omega), Bool.true_and, min_eq_right (by omega)]

/-- A field extracted, bit by bit: above a sign-extended field its highest bit. -/
theorem getLsbD_bfExtract (x : DWord) (ofs : Nat) {wid : Nat} (hw : wid < 64) (sgn : Bool) {k : Nat} (hk : k < 64) :
    (bfExtract x ofs wid sgn).getLsbD k = extractBit x ofs wid sgn k := by
  have field (j : Nat) : (x.toNat / 2 ^ ofs % 2 ^ wid).testBit j = (decide (j < wid ∧ ofs + j ≤ 63) && x.getLsbD (ofs + j)) := by
    rw [Nat.testBit_mod_two_pow, Nat.testBit_div_two_pow, BitVec.testBit_toNat, Nat.add_comm j ofs]
    by_cases inside : ofs + j ≤ 63
    · simp [inside]
    · simp [BitVec.getLsbD_of_ge x (ofs + j) (by omega)]
  cases sgn with
  | false =>
    simp only [bfExtract, extractBit, Bool.false_eq_true, if_false, Bool.false_and, BitVec.getLsbD_ofNat, hk, decide_true, Bool.true_and, field]
    by_cases below : k < wid
    · rw [if_pos below]
    · simp [below]
  | true =>
    simp only [bfExtract, extractBit, if_true, Bool.true_and]
    by_cases none : wid = 0
    · simp [none]
    · rw [if_neg none, getLsbD_sextN (by omega) (by omega) _ hk, field]
      by_cases below : k < wid
      · rw [if_pos below, min_eq_left (by omega)]
      · rw [if_neg below, min_eq_right (by omega), decide_eq_true (Nat.pos_of_ne_zero none), Bool.true_and]

theorem getLsbD_bfInsert (d v : DWord) (ofs wid : Nat) {k : Nat} (hk : k < 64) :
    (bfInsert d v ofs wid).getLsbD k = insertBit d v ofs wid k := by
  have mask : (BitVec.ofNat 64 ((2 ^ wid - 1) * 2 ^ ofs)).getLsbD k = decide (ofs ≤ k ∧ k < ofs + wid) := by
    rw [BitVec.getLsbD_ofNat, decide_eq_true hk, Bool.true_and, Nat.testBit_mul_two_pow, Nat.testBit_two_pow_sub_one, ← Bool.decide_and]
    exact decide_eq_decide.mpr (by omega)
  simp only [bfInsert, insertBit, BitVec.getLsbD_or, BitVec.getLsbD_and, BitVec.getLsbD_not, BitVec.getLsbD_shiftLeft, mask, decide_eq_true hk,
    Bool.true_and]
  by_cases inside : ofs ≤ k ∧ k < ofs + wid
  · simp [inside]
  · simp [inside]

end Sys2Proof.Machine
end

section
set_option Elab.async false
/-! OBLIGATION O4. -/

namespace Sys2Proof.Machine

variable {s : State}

/-- A logic, shift or rotate instruction is one function of its operands whose bits its rule gives. -/
theorem exec_logicRule {i : Instr} {f : LogicR} {op : Nat → (Nat → Bool) → (Nat → Bool) → Nat → Nat → Bool} (rule : logicRule i = some (f, op)) :
    ∃ fn : DWord → DWord → DWord, (∀ s, exec i s = run i s fun s => scalar2 s f.d f.a f.e f.b f.f 1 fn) ∧
      ∀ a b k, k < 64 → (fn a b).getLsbD k = op (wide f.w) a.getLsbD b.getLsbD (b.toNat % wide f.w) (min k (wide f.w - 1)) := by
  have complement (b : DWord) {k j : Nat} (hk : k < 64) : (~~~b).getLsbD (min k j) = !b.getLsbD (min k j) := by
    rw [BitVec.getLsbD_not, decide_eq_true (by omega), Bool.true_and]
  unfold logicRule at rule
  split at rule <;> cases rule
  case h_1 => exact ⟨_, fun _ => rfl, fun a b k hk => (getLsbD_logicBy _ _ a b hk).trans BitVec.getLsbD_and⟩
  case h_2 => exact ⟨_, fun _ => rfl, fun a b k hk => (getLsbD_logicBy _ _ a b hk).trans BitVec.getLsbD_or⟩
  case h_3 => exact ⟨_, fun _ => rfl, fun a b k hk => (getLsbD_logicBy _ _ a b hk).trans BitVec.getLsbD_xor⟩
  case h_4 => exact ⟨_, fun _ => rfl, fun a b k hk => (getLsbD_logicBy _ _ a b hk).trans (by rw [BitVec.getLsbD_and, complement b hk])⟩
  case h_5 => exact ⟨_, fun _ => rfl, fun a b k hk => (getLsbD_logicBy _ _ a b hk).trans (by rw [BitVec.getLsbD_or, complement b hk])⟩
  case h_6 => exact ⟨_, fun _ => rfl, fun a b k hk => getLsbD_shiftBy .shl _ a b hk⟩
  case h_7 => exact ⟨_, fun _ => rfl, fun a b k hk => getLsbD_shiftBy .shr _ a b hk⟩
  case h_8 => exact ⟨_, fun _ => rfl, fun a b k hk => getLsbD_shiftBy .sar _ a b hk⟩
  case h_9 => exact ⟨_, fun _ => rfl, fun a b k hk => getLsbD_shiftBy .rol _ a b hk⟩
  case h_10 => exact ⟨_, fun _ => rfl, fun a b k hk => getLsbD_shiftBy .ror _ a b hk⟩

/-- The same of the shifts by an immediate. -/
theorem exec_shiftRule {i : Instr} {f : ShiftI} {op : (Nat → Bool) → Nat → Nat → Bool} (rule : shiftRule i = some (f, op)) :
    ∃ sh : ShiftOp, (∀ s, exec i s = run i s fun s => shiftImm s f sh) ∧ ∀ a c k, sh.bit 64 a c k = op a c k := by
  unfold shiftRule at rule
  split at rule <;> cases rule
  case h_1 => exact ⟨.shl, fun _ => rfl, fun _ _ _ => rfl⟩
  case h_2 => exact ⟨.shr, fun _ => rfl, fun _ _ _ => rfl⟩
  case h_3 => exact ⟨.sar, fun _ => rfl, fun _ _ _ => rfl⟩
  case h_4 => exact ⟨.ror, fun _ => rfl, fun _ _ _ => rfl⟩

/-- Settles O4: the bits of each result are those of `logicBy` and `shiftBy`; `CLZ` finds the highest 1 bit by the logarithm. -/
theorem logicAndShifts : Obligations.LogicAndShifts := by
  refine ⟨fun s i f op rule accepts ha hb hd => ?_, fun s i f op rule accepts ha hd => ?_, fun s f ha hd => ⟨fun accepts => ?_, fun accepts => ?_⟩⟩
  · obtain ⟨fn, meaning, bits⟩ := exec_logicRule rule
    exact ⟨_, exec_of_body accepts meaning (scalar2_ready ha hb hd ..), bits _ _⟩
  · obtain ⟨sh, meaning, bits⟩ := exec_shiftRule rule
    refine ⟨_, exec_of_body accepts meaning (scalar1_ready ha hd ..), fun k hk => ?_⟩
    rw [← bits]
    exact sh.getLsbD_apply _ f.c.isLt hk
  · refine exec_of_body accepts (fun _ => rfl) ((scalar1_ready ha hd ..).trans ?_)
    rw [BitVec.toNat_ofNat, Nat.mod_eq_of_lt ((popCount_le _).trans_lt (by decide)), popCount_eq]
  · obtain ⟨few, zeros, one⟩ := leadingZeros_spec (s.sv f.a)
    refine ⟨_, few, exec_of_body accepts (fun _ => rfl) ((scalar1_ready ha hd ..).trans ?_), zeros, one⟩
    rw [BitVec.toNat_ofNat, Nat.mod_eq_of_lt (few.trans_lt (by decide))]

end Sys2Proof.Machine
end

section
set_option Elab.async false
/-! OBLIGATION O6. -/

namespace Sys2Proof.Machine

variable {s : State}

/-- A field instruction on registers that can be read and written: its value has the bits of its rule. -/
theorem exec_fieldRule {i : Instr} {d : BitVec 6} {l : List (BitVec 6)} {bit : Nat → Bool} (rule : fieldRule s i = some (d, l, bit)) (accepts : Accepts s i)
    (hl : ∀ n ∈ l, Readable s (.s n.toNat)) (hd : Readable s (.s d.toNat)) :
    ∃ v : DWord, exec i s = .next (s.result (.s d.toNat) v.toNat (srcTaint s l) 1 0) ∧ ∀ k, k < 64 → v.getLsbD k = bit k := by
  unfold fieldRule at rule
  have short (b : DWord) : b.toNat / 64 % 64 < 64 := Nat.mod_lt _ (by decide)
  split at rule <;> cases rule <;> simp only [List.forall_mem_cons] at hl
  case h_1 =>
    obtain ⟨ha, hb, -⟩ := hl
    exact ⟨_, exec_of_body accepts (fun _ => rfl) (scalar2_ready ha hb hd ..), fun k => getLsbD_bfExtract _ _ (short _) _⟩
  case h_2 =>
    obtain ⟨ha, hb, -⟩ := hl
    exact ⟨_, exec_of_body accepts (fun _ => rfl) (scalar2_ready ha hb hd ..), fun k => getLsbD_bfExtract _ _ (short _) _⟩
  case h_3 f =>
    obtain ⟨ha, -⟩ := hl
    exact ⟨_, exec_of_body accepts (fun _ => rfl) (scalar1_ready ha hd ..), fun k => getLsbD_bfExtract _ _ f.wid.isLt _⟩
  case h_4 f =>
    obtain ⟨ha, -⟩ := hl
    exact ⟨_, exec_of_body accepts (fun _ => rfl) (scalar1_ready ha hd ..), fun k => getLsbD_bfExtract _ _ f.wid.isLt _⟩
  case h_5 =>
    obtain ⟨ha, hb, -⟩ := hl
    refine ⟨_, exec_of_body accepts (fun _ => rfl) ?_, fun k => getLsbD_bfInsert _ _ _ _⟩
    simp only [srcS_readable ha, srcS_readable hb, eff_ok_bind, scalarUpd_ready hd, srcTaint_three]
    rfl
  case h_6 =>
    obtain ⟨ha, -⟩ := hl
    refine ⟨_, exec_of_body accepts (fun _ => rfl) ?_, fun k => getLsbD_bfInsert _ _ _ _⟩
    simp only [srcS_readable ha, eff_ok_bind, scalarUpd_ready hd, srcTaint_two]
    rfl

/-- Settles O6: the bits of a field are those of a quotient by a power of two, or of a mask; a constant is its sign extension. -/
theorem fieldsAndConstants : Obligations.FieldsAndConstants := by
  refine ⟨fun s i d l bit rule accepts hl hd => exec_fieldRule rule accepts hl hd, fun s d hd => ⟨fun imm accepts => ?_, fun lit accepts => ?_⟩⟩
  · refine exec_of_body accepts (fun _ => rfl) ?_
    rw [wrapped_64]
    simp only [dstS_readable hd, eff_ok_bind, State.writeS]
    rfl
  · refine exec_of_body accepts (fun _ => rfl) ?_
    simp only [dstS_readable hd, eff_ok_bind, State.writeS]

end Sys2Proof.Machine
end

section
set_option Elab.async false
/-! SUPPORT. Registers by name after a write, and after a change of every taint mask (R108, R119). -/

namespace Sys2Proof.Machine

variable (r : Regs) (d k : RegName) (v : Nat) (full : Bool) (m : Taint)

/-- Another register than the one written. -/
theorem Regs.put_other {k d : RegName} (other : k ≠ d) : (r.put d v full m).valOf k = r.valOf k ∧ (r.put d v full m).fullOf k = r.fullOf k ∧
    (r.put d v full m).taintOf k = r.taintOf k := by
  cases k with
  | s n =>
    have same : (r.put d v full m).sReg n = r.sReg n := by rw [Regs.sReg_put, if_neg fun h => other h.1.symm]
    simp only [Regs.valOf, Regs.fullOf, Regs.taintOf, same, and_self]
  | v n =>
    have same : (r.put d v full m).vReg n = r.vReg n := by rw [Regs.vReg_put, if_neg fun h => other h.symm]
    simp only [Regs.valOf, Regs.fullOf, Regs.taintOf, same, and_self]
  | p n =>
    have same : (r.put d v full m).pReg n = r.pReg n := by rw [Regs.pReg_put, if_neg fun h => other h.symm]
    simp only [Regs.valOf, Regs.fullOf, Regs.taintOf, same, and_self]

/-- The register written, which `s0` never is. -/
theorem Regs.put_same {d : RegName} (real : d ≠ .s 0) : (r.put d v full m).fullOf d = full ∧ (r.put d v full m).taintOf d = m := by
  cases d with
  | s n =>
    have same : (r.put (.s n) v full m).sReg n = _ := (Regs.sReg_put ..).trans (if_pos ⟨rfl, fun zero => real (congrArg _ zero)⟩)
    simp only [Regs.fullOf, Regs.taintOf, same, and_self]
  | v n =>
    have same : (r.put (.v n) v full m).vReg n = _ := (Regs.vReg_put ..).trans (if_pos rfl)
    simp only [Regs.fullOf, Regs.taintOf, same, and_self]
  | p n =>
    have same : (r.put (.p n) v full m).pReg n = _ := (Regs.pReg_put ..).trans (if_pos rfl)
    simp only [Regs.fullOf, Regs.taintOf, same, and_self]

theorem Regs.put_flag : (r.put d v full m).flag = r.flag ∧ (r.put d v full m).fp = r.fp := by
  rw [Regs.put_frame]
  exact ⟨rfl, rfl⟩

theorem Tbl.get?_mapV {α : Type} (f : α → α) (t : Tbl α) (n : Nat) : Tbl.get? (Tbl.mapV f t) n = (Tbl.get? t n).map f :=
  Tbl.get?_map (F := fun p => (p.1, f p.2)) (fun _ => rfl) t n

/-- A change of taint masks leaves values and full/empty bits. -/
theorem Regs.mapTaint_values (f : Taint → Taint) : (r.mapTaint f).valOf k = r.valOf k ∧ (r.mapTaint f).fullOf k = r.fullOf k := by
  cases k with
  | s n =>
    simp only [Regs.valOf, Regs.fullOf, Regs.sReg, Regs.mapTaint, Tbl.getD, Tbl.get?_mapV]
    split
    · exact ⟨rfl, rfl⟩
    · cases Tbl.get? r.s n <;> exact ⟨rfl, rfl⟩
  | v n =>
    simp only [Regs.valOf, Regs.fullOf, Regs.vReg, Regs.mapTaint, Tbl.getD, Tbl.get?_mapV]
    cases Tbl.get? r.v n <;> exact ⟨rfl, rfl⟩
  | p n =>
    simp only [Regs.valOf, Regs.fullOf, Regs.pReg, Regs.mapTaint, Tbl.getD, Tbl.get?_mapV]
    cases Tbl.get? r.p n <;> exact ⟨rfl, rfl⟩

end Sys2Proof.Machine
end

section
set_option Elab.async false
/-! SUPPORT. Global accesses of a core: addresses (R233), translations (R284 to R286), load tags (R115, R119) and loads that issue (R110). -/

namespace Sys2Proof.Machine

variable {s : State}

/-! ## Addresses (R233) -/

theorem effAddr_eq (base idx : DWord) (sh : BitVec 3) (disp : BitVec 16) (n : Nat) :
    effAddr base idx sh disp n = (((base.toNat + idx.toNat * 2 ^ sh.toNat + disp.toInt * n : Int) % 2 ^ 64).toNat) := by
  simp only [effAddr, BitVec.toNat_add, BitVec.toNat_shiftLeft, BitVec.toNat_ofInt, Nat.shiftLeft_eq]
  have scaled : (idx.toNat : Int) * 2 ^ sh.toNat = ((idx.toNat * 2 ^ sh.toNat : Nat) : Int) := by push_cast; rfl
  rw [scaled]
  generalize idx.toNat * 2 ^ sh.toNat = x
  generalize disp.toInt * (n : Int) = y
  omega

theorem memAddress_ready {f : MemWord} (ready : AddressReady s f) (n : Nat) : memAddress s f n = .ok (address s f n) := by
  obtain ⟨base, idx⟩ := ready
  simp only [memAddress, srcS_readable base, srcS_readable idx, eff_ok_bind, effAddr_eq, address, State.sv]

theorem gaddr_aligned {a n : Nat} (plan : Bool) (kind : Nat) (small : n ≤ 64) (inside : a < 2 ^ 56) (aligned : a % n = 0) :
    gaddr plan a n kind = .ok a := by
  simp only [gaddr, min_eq_left small, not_le.mpr inside, aligned, if_false, not_true_eq_false, ne_eq]

theorem gaddr_misaligned {a n : Nat} (plan : Bool) (kind : Nat) (small : n ≤ 64) (inside : a < 2 ^ 56) (misaligned : a % n ≠ 0) :
    gaddr plan a n kind = .error (.trap 0x09 (BitVec.ofNat 64 a)) := by
  simp only [gaddr, min_eq_left small, not_le.mpr inside, misaligned, if_false, if_true, not_false_eq_true, ne_eq]

theorem gaddr_beyond {a : Nat} (plan : Bool) (n kind : Nat) (beyond : 2 ^ 56 ≤ a) : gaddr plan a n kind = .error (xlTrap plan a kind (.reason 0)) := by
  simp only [gaddr, if_pos beyond]

/-! ## Translation (R284 to R286) -/

/-- A piece at an address that translates to memory. -/
theorem piece_reaches {a kind pa : Nat} (reaches : Reaches s a kind pa) (off len : Nat) (dev : Bool) :
    ∃ e, s.piece off a len kind dev = .ok (⟨off, a, pa, len⟩, e) ∧ e.dev = false := by
  obtain ⟨inside, e, found, allowed, memory, rfl, home, healthy, clean⟩ := reaches
  have translated : s.translate s.cur a kind = .ok e := by
    simp only [State.translate, not_le.mpr inside, if_false]
    rw [show (s.coreAt s.cur).tlb = s.core.tlb from rfl, found]
    simp only [allowed, if_true]
  have unharmed : (decide (kind ≠ 1) && s.core.l1Bad (e.phys a)) = false := by
    rcases clean with write | good
    · simp [write]
    · simp [TlbEnt.phys, good]
  refine ⟨e, ?_, memory⟩
  have home' : s.homeOk (dieOf s.cur) (e.phys a) = true := home
  have healthy' : s.poisoned (e.phys a) = false := healthy
  simp only [State.piece, translated, memory, home', healthy', unharmed]
  rfl

theorem State.tlbFill_core (e : TlbEnt) : ∃ l, (s.tlbFill s.cur e).core = { s.core with tlb := l } := by
  unfold State.tlbFill
  rw [State.core, State.updAt_cur, State.coreAt_updAt_same]
  split
  · exact ⟨_, rfl⟩
  · exact ⟨_, rfl⟩

theorem State.pre_tlbFill (e : TlbEnt) : (s.tlbFill s.cur e).pre = s.pre := by
  obtain ⟨l, filled⟩ := s.tlbFill_core e
  rw [State.pre, filled]
  rfl

theorem State.tlbFill_onlyCore (e : TlbEnt) : OnlyCore s (s.tlbFill s.cur e) := s.upd_onlyCore _

/-! ## Load tags (R115, R119) -/

/-- What a core has beside its tags and taint masks and its L1 lines, as far as a load concerns it: values, full/empty bits, flags, and
what is on its way. -/
def Core.besideTags (c : Core) : (RegName → Nat) × (RegName → Bool) × Tbl Nat × BitVec 5 × List Load × List WEntry × List PipeWrite × List Producer :=
  (c.live.valOf, c.live.fullOf, c.live.flag, c.live.fp, c.loads, c.wb, c.pipe.map fun w => { w with taint := 0 },
    c.prods.map fun p => { p with taint := 0 })

theorem Core.freeTags_besideTags (c : Core) : c.freeTags.besideTags = c.besideTags := c.freeTags_keeps _ fun _ _ => rfl

/-- The bits of a mask leave every taint mask of a core (R119). -/
def Core.untaint (c : Core) (m : Taint) : Core :=
  { c with
    live := c.live.mapTaint fun t => t &&& ~~~m, pre := c.pre.mapTaint fun t => t &&& ~~~m
    shadow := { c.shadow with regs := c.shadow.regs.mapTaint fun t => t &&& ~~~m }
    pipe := c.pipe.map fun w => { w with taint := w.taint &&& ~~~m }
    prods := c.prods.map fun p => { p with taint := p.taint &&& ~~~m }
    crw := Tbl.mapV (fun w => (w.1, w.2 &&& ~~~m)) c.crw }

/-- Tags become Free and lose their holds (R119). -/
def Core.freeThese (c : Core) (l : List Nat) : Core := l.foldl (fun c j => c.setTag j { c.tag j with st := .free, hold := false }) c

theorem Core.collapse_eq (c : Core) :
    let js := c.tagsIn fun t => decide (t.st = .bound)
    c.collapse = (((c.dropL1Before (c.boundTime (tagMask js))).untaint (tagMask js)).freeThese js).count 0x09 1 := rfl

theorem Core.untaint_besideTags (c : Core) (m : Taint) : (c.untaint m).besideTags = c.besideTags := by
  have values (k : RegName) := c.live.mapTaint_values k fun t => t &&& ~~~m
  have value : (c.untaint m).live.valOf = c.live.valOf := funext fun k => (values k).1
  have full : (c.untaint m).live.fullOf = c.live.fullOf := funext fun k => (values k).2
  simp only [Core.besideTags, value, full]
  simp only [Core.untaint, List.map_map]
  rfl

theorem Core.freeThese_besideTags (c : Core) (l : List Nat) : (c.freeThese l).besideTags = c.besideTags :=
  Core.foldl_keeps Core.besideTags (f := fun c j => c.setTag j { c.tag j with st := .free, hold := false }) (fun _ _ => rfl) l c

theorem Core.collapse_besideTags (c : Core) : c.collapse.besideTags = c.besideTags := by
  rw [Core.collapse_eq, Core.count_keeps Core.besideTags _ fun _ _ _ _ _ => rfl, Core.freeThese_besideTags, Core.untaint_besideTags]
  rfl

theorem Core.mem_tagsIn {c : Core} {f : Tag → Bool} {j : Nat} : j ∈ c.tagsIn f ↔ j < 16 ∧ f (c.tag j) = true := by
  simp [Core.tagsIn]

/-- A tag that is not Pending stays so as named tags become Free. -/
theorem Core.freeTags_notPending {c : Core} {j : Nat} (idle : (c.tag j).st ≠ .pending) : (c.freeTags.tag j).st ≠ .pending := by
  refine List.foldlRecOn (motive := fun d : Core => (d.tag j).st ≠ .pending) _ _ idle fun d still k _ => ?_
  refine iteInduction (motive := fun d : Core => (d.tag j).st ≠ .pending) (fun _ => still) fun _ => ?_
  rw [Core.tag_setTag]
  split
  · exact TagState.noConfusion
  · exact still

theorem Core.freeThese_frees {c : Core} {l : List Nat} {j : Nat} (named : j ∈ l ∨ (c.tag j).st = .free) : ((c.freeThese l).tag j).st = .free := by
  induction l generalizing c with
  | nil => exact named.resolve_left List.not_mem_nil
  | cons k l ih =>
    refine ih ?_
    by_cases same : j = k
    · exact .inr (by rw [Core.tag_setTag, if_pos same])
    · refine named.imp (fun one => (List.mem_cons.mp one).resolve_left same) fun free => ?_
      rwa [Core.tag_setTag, if_neg same]

/-- A collapse frees every Bound tag. -/
theorem Core.collapse_frees {c : Core} {j : Nat} (tag : j < 16) (bound : (c.tag j).st = .bound) : (c.collapse.tag j).st = .free := by
  have counted (d : Core) (ev k : Nat) : (d.count ev k).tag j = d.tag j :=
    congrArg (fun t : Tbl Tag => Tbl.getD t j {}) (Core.count_keeps Core.tags d (fun _ _ _ _ _ => rfl) ev k)
  rw [Core.collapse_eq, counted]
  exact Core.freeThese_frees (.inl (Core.mem_tagsIn.mpr ⟨tag, decide_eq_true bound⟩))

/-- The lowest Free tag becomes Pending. -/
def Core.takeFree (c : Core) : Option (Nat × Core) :=
  match c.tagsIn fun t => decide (t.st = .free) with
  | j :: _ => some (j, c.setTag j { c.tag j with st := .pending, gen := (c.tag j).gen + 1 })
  | [] => none

theorem Core.takeFree_takes {c : Core} {j : Nat} (tag : j < 16) (free : (c.tag j).st = .free) :
    ∃ k d, c.takeFree = some (k, d) ∧ k < 16 ∧ (d.tag k).st = .pending ∧ d.besideTags = c.besideTags := by
  have named : j ∈ c.tagsIn fun t => decide (t.st = .free) := Core.mem_tagsIn.mpr ⟨tag, decide_eq_true free⟩
  unfold Core.takeFree
  cases found : c.tagsIn fun t => decide (t.st = .free) with
  | nil => simp [found] at named
  | cons k l =>
    have low : k ∈ c.tagsIn fun t => decide (t.st = .free) := by simp [found]
    exact ⟨k, _, rfl, (Core.mem_tagsIn.mp low).1, by rw [Core.tag_setTag, if_pos rfl], rfl⟩

theorem Core.takeTag_eq (c : Core) : c.takeTag = match c.freeTags.takeFree with
    | some x => some x
    | none => match c.freeTags.tagsIn fun t => decide (t.st = .bound) with
      | [] => none
      | _ => c.freeTags.collapse.takeFree := by
  unfold Core.takeTag Core.takeFree
  dsimp only
  cases c.freeTags.tagsIn fun t => decide (t.st = .free) <;> rfl

/-- Where not every tag is Pending a load has one, after a collapse if need be. -/
theorem Core.takeTag_takes {c : Core} {j : Nat} (tag : j < 16) (idle : (c.tag j).st ≠ .pending) :
    ∃ k d, c.takeTag = some (k, d) ∧ k < 16 ∧ (d.tag k).st = .pending ∧ d.besideTags = c.besideTags := by
  rw [Core.takeTag_eq, ← c.freeTags_besideTags]
  have idle' := Core.freeTags_notPending idle
  generalize c.freeTags = c at idle'
  by_cases free : ∃ i, i < 16 ∧ (c.tag i).st = .free
  · obtain ⟨i, low, is⟩ := free
    obtain ⟨k, d, takes, rest⟩ := Core.takeFree_takes low is
    exact ⟨k, d, by rw [takes], rest⟩
  · have full : c.takeFree = none := by
      unfold Core.takeFree
      cases found : c.tagsIn fun t => decide (t.st = .free) with
      | nil => rfl
      | cons k l =>
        obtain ⟨low, is⟩ := Core.mem_tagsIn.mp (show k ∈ c.tagsIn fun t => decide (t.st = .free) by simp [found])
        exact absurd ⟨k, low, of_decide_eq_true is⟩ free
    have bound : (c.tag j).st = .bound := by
      cases st : (c.tag j).st with
      | free => exact absurd ⟨j, tag, st⟩ free
      | pending => exact absurd st idle'
      | bound => rfl
    have named : j ∈ c.tagsIn fun t => decide (t.st = .bound) := Core.mem_tagsIn.mpr ⟨tag, decide_eq_true bound⟩
    rw [full, ← c.collapse_besideTags]
    cases some_ : c.tagsIn fun t => decide (t.st = .bound) with
    | nil => simp [some_] at named
    | cons k l => exact Core.takeFree_takes tag (Core.collapse_frees tag bound)

/-! ## A load that issues (R110, R115) -/

theorem getLsbD_tagBit {j k : Nat} (tag : k < 16) : (tagBit j).getLsbD k = decide (k = j) := by
  simp only [tagBit, BitVec.getLsbD_ofNat, Nat.testBit_two_pow, decide_eq_true tag, Bool.true_and, eq_comm]

/-- The load that issues with tag j of the core c, which has taken it. -/
def issuedLoad (s : State) (c : Core) (j : Nat) (ps : List Piece) (a : LoadArgs) : Load :=
  let m := accessTaint s a.taint
  { tag := j, dest := a.dest, size := a.size, sext := a.sext, pieces := ps, fwd := a.inactive ++ c.forward ps, fixed := a.fixed
    waits := (m &&& c.pendingMask &&& ~~~tagBit j) ||| c.overlapping ps ||| c.acqWaits, minFill := max (c.boundTime m) c.l1Floor
    sent := s.now, least := a.least
    far := if a.acq ∧ 0 < a.scope ∧ a.fixed = none then scopeLatency (dieOf s.cur) a.scope a.far ps else a.far
    beyond := a.acq && decide (0 < a.scope), acq := a.acq, acqWide := a.acq && decide (0 < a.scope) }

/-- The core as that load leaves it: its destination is empty, with the taint of its tag and of what it keeps (R110, R115). -/
def withLoad (s : State) (c : Core) (j : Nat) (ps : List Piece) (a : LoadArgs) : Core :=
  { c with
    live := c.live.put a.dest (s.pre.valOf a.dest) false (tagBit j ||| (a.keep &&& tagMask (c.tagsIn fun t => decide (t.st ≠ .free))))
    loads := c.loads ++ [issuedLoad s c j ps a]
    acqWaits := if a.acq then c.acqWaits ||| tagBit j else c.acqWaits }

theorem globalLoad_eq {j : Nat} {c : Core} (takes : s.core.takeTag = some (j, c)) (ps : List Piece) (a : LoadArgs) :
    s.globalLoad ps a = .ok (s.setCoreAt s.cur (withLoad s c j ps a)) := by
  rw [State.globalLoad, takes]
  rfl

/-- What a load that issues in a cycle carries. -/
structure Carries (now : Nat) (ps : List Piece) (a : LoadArgs) (l : Load) : Prop where
  size : l.size = a.size
  sext : l.sext = a.sext
  pieces : l.pieces = ps
  fixed : l.fixed = a.fixed
  acq : l.acq = a.acq
  sent : l.sent = now
  least : l.least = a.least
  plain : a.acq = false → l.far = a.far ∧ l.beyond = false

theorem issuedLoad_carries (s : State) (c : Core) (j : Nat) (ps : List Piece) (a : LoadArgs) : Carries s.now ps a (issuedLoad s c j ps a) :=
  ⟨rfl, rfl, rfl, rfl, rfl, rfl, rfl, fun plain => by simp [issuedLoad, plain]⟩

/-- A global load issues where not every tag is Pending. -/
theorem globalLoad_issues (free : TagFree s) (ps : List Piece) (a : LoadArgs) :
    ∃ t l, s.globalLoad ps a = .ok t ∧ LoadIssued s t a.dest a.keep l ∧ Carries s.now ps a l := by
  obtain ⟨i, low, idle⟩ := free
  obtain ⟨j, c, takes, tag, pending, beside⟩ := Core.takeTag_takes low idle
  simp only [Core.besideTags, Prod.mk.injEq] at beside
  obtain ⟨val, full, flag, fp, loads, wb, pipe, prods⟩ := beside
  refine ⟨_, issuedLoad s c j ps a, globalLoad_eq takes ps a, ?_, issuedLoad_carries ..⟩
  have core : (s.setCoreAt s.cur (withLoad s c j ps a)).core = withLoad s c j ps a := s.coreAt_setCoreAt_same ..
  unfold LoadIssued
  rw [core]
  obtain ⟨putFlag, putFp⟩ := c.live.put_flag a.dest (s.pre.valOf a.dest) false (tagBit j ||| (a.keep &&& tagMask (c.tagsIn fun t => decide (t.st ≠ .free))))
  refine ⟨⟨rfl, fun u other => ?_⟩, congrArg (· ++ _) loads, rfl, tag, pending, fun real => ?_, fun r other => ?_, putFlag.trans flag, putFp.trans fp, wb, pipe,
    prods⟩
  · rw [State.coreAt_setCoreAt, if_neg other]
  · obtain ⟨empty, taint⟩ := c.live.put_same (s.pre.valOf a.dest) false (tagBit j ||| (a.keep &&& tagMask (c.tagsIn fun t => decide (t.st ≠ .free)))) real
    refine ⟨empty, fun k low => ?_⟩
    simp only [withLoad, taint, BitVec.getLsbD_or, BitVec.getLsbD_and, getLsbD_tagBit low, getLsbD_tagsIn c _ low, Bool.or_eq_true, Bool.and_eq_true,
      decide_eq_true_eq]
    rfl
  · obtain ⟨value, fullness, -⟩ := c.live.put_other (s.pre.valOf a.dest) false (tagBit j ||| (a.keep &&& tagMask (c.tagsIn fun t => decide (t.st ≠ .free)))) other
    exact ⟨value.trans (congrFun val r), fullness.trans (congrFun full r)⟩

/-- A translation that the core's TLB keeps is no part of what `LoadIssued` speaks of. -/
theorem LoadIssued.of_tlbFill {t : State} {d : RegName} {keep : Taint} {l : Load} {e : TlbEnt} (issued : LoadIssued (s.tlbFill s.cur e) t d keep l) :
    LoadIssued s t d keep l := by
  obtain ⟨tlb, filled⟩ := s.tlbFill_core e
  obtain ⟨only, rest⟩ := issued
  rw [filled] at rest
  exact ⟨(s.tlbFill_onlyCore e).trans only, rest⟩

end Sys2Proof.Machine
end

section
set_option Elab.async false
/-! SUPPORT. Scalar loads (R235) of a core and of a plan routine (R375). -/

namespace Sys2Proof.Machine

variable {s : State} {i : Instr} {f : MemWord} {sext : Bool}

/-- Sizes of a scalar access. -/
theorem memBytes_le (sizes : f.sz.toNat ≤ 3) : memBytes f ≤ 64 := (Nat.pow_le_pow_right (by decide) sizes).trans (by decide)

theorem exec_load (rule : loadRule i = some (f, sext)) (accepts : Accepts s i) : (∀ s, exec i s = run i s fun s => scalarLoad s f sext) ∧ f.sz.toNat ≤ 3 := by
  have wf := wf_of_accepts accepts
  have sizes {l : List Nat} {x : Nat} (mem : l.contains x = true) (small : ∀ y ∈ l, y ≤ 3) : x ≤ 3 := small x (List.contains_iff_mem.mp mem)
  unfold loadRule at rule
  split at rule <;> cases rule
  all_goals
    simp only [Instr.wf, MemWord.fits, memAddr, Bool.and_eq_true] at wf
    exact ⟨fun _ => rfl, sizes wf.1.2 (by decide)⟩

/-- Memory that a routine's access reaches (R375). -/
theorem planPlace_memory {va kind pa : Nat} (place : s.enginePa (dieOf s.cur) (s.tsid s.cur) va kind = .ok pa) (n : Nat) :
    s.planPlace va n kind = .ok (.inl pa) := by
  have reached := place
  unfold State.enginePa at reached
  unfold State.planPlace
  dsimp only
  cases found : s.engineXl (dieOf s.cur) (s.tsid s.cur) va kind with
  | error e => simp [found] at reached
  | ok e =>
    cases memory : e.dev with
    | true => simp [found, memory] at reached
    | false => simp only [memory, Bool.false_eq_true, if_false, place]

theorem TagFree.tlbFill (free : TagFree s) (e : TlbEnt) : TagFree (s.tlbFill s.cur e) := by
  obtain ⟨l, filled⟩ := s.tlbFill_core e
  rw [TagFree, filled]
  exact free

/-- What a scalar load names besides its piece. -/
def loadArgs (s : State) (f : MemWord) (sext : Bool) : LoadArgs :=
  { dest := .s f.dr.toNat, size := memBytes f, sext := sext, taint := addressTaint s f, acq := isAcq f, scope := f.scope.toNat }

theorem scalarLoad_issues (sizes : f.sz.toNat ≤ 3) (ready : AddressReady s f) (aligned : address s f (memBytes f) % memBytes f = 0)
    (core : isPlan s.cur = false) (dest : Readable s (.s f.dr.toNat)) (free : TagFree s) {pa : Nat} (reaches : Reaches s (address s f (memBytes f)) 0 pa) :
    ∃ t l, scalarLoad s f sext = .ok t ∧ LoadIssued s t (.s f.dr.toNat) 0 l ∧
      Carries s.now [⟨0, address s f (memBytes f), pa, memBytes f⟩] (loadArgs s f sext) l := by
  obtain ⟨e, piece, memory⟩ := piece_reaches reaches 0 (memBytes f) true
  have args : loadArgs (s.tlbFill s.cur e) f sext = loadArgs s f sext := by simp only [loadArgs, addressTaint, taintS, State.pre_tlbFill]
  obtain ⟨t, l, loads, issued, carries⟩ := globalLoad_issues (free.tlbFill e) [⟨0, address s f (memBytes f), pa, memBytes f⟩] (loadArgs (s.tlbFill s.cur e) f sext)
  refine ⟨t, l, ?_, issued.of_tlbFill, args ▸ carries⟩
  have size : 2 ^ f.sz.toNat = memBytes f := rfl
  have inside : address s f (memBytes f) < 2 ^ 56 := reaches.1
  simp only [scalarLoad, size, memAddress_ready ready, eff_ok_bind, gaddr_aligned _ _ (memBytes_le sizes) inside aligned, core, Bool.false_eq_true,
    if_false, dstS_readable dest, piece, memory]
  exact loads

/-- A routine's load reads at once (R375). -/
theorem scalarLoad_plan (sizes : f.sz.toNat ≤ 3) (ready : AddressReady s f) (inside : address s f (memBytes f) < 2 ^ 56)
    (aligned : address s f (memBytes f) % memBytes f = 0) (plan : isPlan s.cur = true) {pa : Nat}
    (place : s.enginePa (dieOf s.cur) (s.tsid s.cur) (address s f (memBytes f)) 0 = .ok pa) :
    scalarLoad s f sext = .ok (s.writeS f.dr (extend sext (memBytes f) (leNat (Memory.readN s.mem pa (memBytes f)))) 0 1) := by
  have size : 2 ^ f.sz.toNat = memBytes f := rfl
  simp only [scalarLoad, size, memAddress_ready ready, eff_ok_bind, gaddr_aligned _ _ (memBytes_le sizes) inside aligned, plan, if_true, planLoad,
    planPlace_memory place]
  rfl

theorem scalarLoad_address {e : Stop} (ready : AddressReady s f)
    (stops : gaddr (isPlan s.cur) (address s f (memBytes f)) (memBytes f) 0 = .error e) : scalarLoad s f sext = .error e := by
  have size : 2 ^ f.sz.toNat = memBytes f := rfl
  simp only [scalarLoad, size, memAddress_ready ready, eff_ok_bind, stops, eff_error_bind]

end Sys2Proof.Machine
end

section
set_option Elab.async false
/-! OBLIGATION O22. -/

namespace Sys2Proof

open Machine

/-- Settles O22: a load of a core takes a tag, one of a routine reads; the checks of its address come before both. -/
theorem scalarLoad : Obligations.ScalarLoad := by
  intro s i f sext rule accepts ready n a
  obtain ⟨meaning, sizes⟩ := exec_load rule accepts
  have small : n ≤ 64 := memBytes_le sizes
  have stops {e : Stop} (h : gaddr (isPlan s.cur) a n 0 = .error e) : Stops s i e := stops_of_body accepts meaning (scalarLoad_address ready h)
  refine ⟨fun aligned core dest free pa reaches => ?_, fun inside aligned plan pa place => exec_of_body accepts meaning
    (scalarLoad_plan sizes ready inside aligned plan place), fun inside misaligned => stops (gaddr_misaligned _ _ small inside misaligned),
    fun beyond core => ?_, fun beyond plan => ?_⟩
  · obtain ⟨t, l, loads, issued, c⟩ := scalarLoad_issues (sext := sext) sizes ready aligned core dest free reaches
    exact ⟨t, l, exec_of_body accepts meaning loads, issued, c.size, c.sext, c.pieces, c.fixed, c.acq, c.sent, c.least, fun plain => c.plain (c.acq ▸ plain)⟩
  · obtain ⟨t, answers, sig⟩ := stops (gaddr_beyond _ n 0 beyond)
    exact ⟨t, xlInfo a 0 0, answers, by rw [sig, core]; rfl⟩
  · obtain ⟨t, answers, sig⟩ := stops (gaddr_beyond _ n 0 beyond)
    exact ⟨t, (xlInfo a 0 0).toNat % 65536, answers, by rw [sig, plan]; rfl⟩

end Sys2Proof
end

section
set_option Elab.async false
/-! SUPPORT. What is on its way: loads that bind (R115, R218), results that arrive (R110), stores that are performed (R257). -/

namespace Sys2Proof.Machine

variable {s : State} {u : Nat} {l : Load}

/-! ## The bytes of a load -/

theorem State.readPiece_keeps {β : Type} (view : Core → β) (lines : ∀ c x, view { c with l1 := x } = view c)
    (counters : ∀ c o p n l, view { c with ovfNow := o, pmc := p, pmcNow := n, pmsel := l } = view c) (s : State) (u : Nat) (l : Load) (p : Piece) :
    view ((s.readPiece u l p).1.coreAt u) = view (s.coreAt u) := by
  unfold State.readPiece
  dsimp only
  split
  · rfl
  · rw [State.coreAt_updAt_same, Core.count_keeps view _ counters]
    exact lines _ _

theorem State.readPieces_keeps {β : Type} (view : Core → β) (lines : ∀ c x, view { c with l1 := x } = view c)
    (counters : ∀ c o p n l, view { c with ovfNow := o, pmc := p, pmcNow := n, pmsel := l } = view c) (s : State) (u : Nat) (l : Load) (ps : List Piece)
    (done : List (Piece × List Byte)) : view ((s.readPieces u l ps done).1.coreAt u) = view (s.coreAt u) := by
  induction ps generalizing s done with
  | nil => rfl
  | cons p ps ih => exact (ih _ _).trans (State.readPiece_keeps view lines counters s u l p)

theorem zip_range_eq (bs : List Byte) : (List.range bs.length).zip bs = (List.range bs.length).map fun i => (i, bs.getD i 0) := by
  refine List.ext_getElem (by simp) fun i _ inside => ?_
  have low : i < bs.length := by simpa using inside
  simp [low]

theorem map_getD_range (bs : List Byte) : (List.range bs.length).map (fun i => bs.getD i 0) = bs := by
  refine List.ext_getElem (by simp) fun i _ inside => ?_
  simp [inside]

/-- The one piece of a load that no L1 line holds is read from memory, byte by byte. -/
theorem State.readPieces_one {p : Piece} (absent : ∀ x ∈ (s.coreAt u).l1, x.pa ≠ p.pa / 128 * 128) {i : Nat} (inside : i < p.len) :
    Tbl.getD (s.readPieces u l [p] []).2 (p.off + i) 0 = (Memory.readN s.mem p.pa p.len).getD i 0 := by
  have missed : ((s.coreAt u).l1.find? fun x => decide (x.pa = p.pa / 128 * 128) && decide (l.minFill ≤ x.fill) && !l.beyond) = none :=
    List.find?_eq_none.mpr fun x held => by simp [absent x held]
  have length : (Memory.readN s.mem p.pa p.len).length = p.len := Memory.length_readFrom ..
  have read : (s.readPiece u l p).2 = Memory.readN s.mem p.pa p.len := by
    simp only [State.readPiece, missed]
    rfl
  simp only [State.readPieces, List.any_nil, Bool.false_eq_true, if_false, List.foldl_cons, List.foldl_nil, read]
  rw [show (List.range p.len).zip (Memory.readN s.mem p.pa p.len) = _ from length ▸ zip_range_eq (Memory.readN s.mem p.pa p.len), List.foldl_map]
  refine (Tbl.getD_foldl_set [] p.off (fun i => (Memory.readN s.mem p.pa p.len).getD i 0) (List.range _) i 0).trans (if_pos (List.mem_range.mpr ?_))
  exact length ▸ inside

/-! ## A load that binds (R115) -/

/-- The state in which a binding load reads (R116). -/
def State.bindsIn (s : State) : State := { s with seq := s.seq + 1 }

/-- What its reads give where it has not been cancelled: the state after them, and the bytes by offset. -/
def State.bindRead (s : State) (u : Nat) (l : Load) : State × Tbl Byte :=
  match l.fixed with
  | some _ => (s.bindsIn, [])
  | none => s.bindsIn.readPieces u l l.pieces []

/-- The value of a load that binds: the one fixed at its issue, or that of its bytes. -/
def State.bindRaw (s : State) (u : Nat) (l : Load) : Nat :=
  match l.fixed with
  | some v => v
  | none => leNat ((List.range l.size).map fun i => match Tbl.get? l.fwd i with
    | some b => b
    | none => Tbl.getD (s.bindRead u l).2 i 0)

/-- What it writes into its destination. -/
def State.bindVal (s : State) (u : Nat) (l : Load) : Nat :=
  match l.dest with
  | .s _ => (extend l.sext l.size (s.bindRaw u l)).toNat
  | _ => s.bindRaw u l

/-- What the core becomes once its load has bound and has not been cancelled. -/
def Core.bound (c : Core) (l : Load) (time val : Nat) : Core :=
  let put (g : Regs) : Regs := g.put l.dest val true (g.taintOf l.dest)
  let c := Core.bindTag { c with loads := c.loads.filter fun x => !decide (x.tag = l.tag) } l.tag time l.acqWide
  { c with live := put c.live, shadow := if l.preCk then { c.shadow with regs := put c.shadow.regs } else c.shadow }

theorem State.bindLoad_eq (alive : l.cancelled = false) : (s.bindLoad u l).coreAt u =
    ((s.bindRead u l).1.coreAt u).bound l (s.seq + 1) (s.bindVal u l) := by
  have written : s.bindLoad u l = (((s.bindRead u l).1.updAt u fun c => c.bound l (s.seq + 1) (s.bindVal u l)).updDie (dieOf u) fun x =>
      { x with copyq := x.copyq.map fun (y : Copy) => if y.u = u then { y with waits := y.waits &&& ~~~tagBit l.tag } else y }) := by
    simp only [State.bindLoad, alive, Bool.false_eq_true, if_false]
    rfl
  rw [written, State.coreAt_updDie, State.coreAt_updAt_same]

/-- Binding touches no register but the destination: the reads before it change L1 lines and counters alone. -/
theorem State.bindRead_keeps {β : Type} (view : Core → β) (lines : ∀ c x, view { c with l1 := x } = view c)
    (counters : ∀ c o p n l, view { c with ovfNow := o, pmc := p, pmcNow := n, pmsel := l } = view c) (s : State) (u : Nat) (l : Load) :
    view ((s.bindRead u l).1.coreAt u) = view (s.coreAt u) := by
  unfold State.bindRead
  split
  · rfl
  · exact State.readPieces_keeps view lines counters s.bindsIn u l _ _

theorem Core.bound_tag (c : Core) (l : Load) (time val : Nat) : ((c.bound l time val).tag l.tag).st = .bound :=
  congrArg Tag.st (Tbl.getD_set_same c.tags l.tag _ {})

theorem Core.bound_loads (c : Core) (l : Load) (time val : Nat) : ∀ x ∈ (c.bound l time val).loads, x.tag ≠ l.tag := by
  intro x held
  obtain ⟨y, kept, rfl⟩ := List.mem_map.mp held
  have other : y.tag ≠ l.tag := by simpa using (List.mem_filter.mp kept).2
  split
  · exact other
  · exact other

theorem Core.bound_live (c : Core) (l : Load) (time val : Nat) : (c.bound l time val).live = c.live.put l.dest val true (c.live.taintOf l.dest) := rfl

theorem State.bindLoad_live (alive : l.cancelled = false) :
    ((s.bindLoad u l).coreAt u).live = (s.coreAt u).live.put l.dest (s.bindVal u l) true ((s.coreAt u).live.taintOf l.dest) := by
  rw [State.bindLoad_eq alive, Core.bound_live, State.bindRead_keeps Core.live (fun _ _ => rfl) fun _ _ _ _ _ => rfl]

theorem State.bindVal_fixed {v k : Nat} (fixed : l.fixed = some v) (unsigned : l.sext = false) (dest : l.dest = .s k) : s.bindVal u l = v % 2 ^ 64 := by
  simp only [State.bindVal, dest, State.bindRaw, fixed, extend, unsigned, Bool.false_eq_true, if_false, BitVec.toNat_ofNat]

/-- A load of one piece, with nothing forwarded and no line of the L1, has the bytes of memory. -/
theorem State.bindVal_memory {p : Piece} {k : Nat} (loose : l.fixed = none) (one : l.pieces = [p]) (start : p.off = 0) (whole : p.len = l.size)
    (bare : l.fwd = []) (absent : ∀ x ∈ (s.coreAt u).l1, x.pa ≠ p.pa / 128 * 128) (dest : l.dest = .s k) :
    s.bindVal u l = (extend l.sext l.size (leNat (Memory.readN s.mem p.pa l.size))).toNat := by
  have byte {i : Nat} (inside : i < l.size) : Tbl.getD (s.bindRead u l).2 i 0 = (Memory.readN s.mem p.pa l.size).getD i 0 := by
    have read := State.readPieces_one (s := s.bindsIn) (u := u) (l := l) (p := p) absent (whole ▸ inside)
    rw [start, Nat.zero_add, whole] at read
    simp only [State.bindRead, loose, one]
    exact read
  have bytes : ((List.range l.size).map fun i => Tbl.getD (s.bindRead u l).2 i 0) = Memory.readN s.mem p.pa l.size := by
    have length : (Memory.readN s.mem p.pa l.size).length = l.size := Memory.length_readFrom ..
    rw [List.map_congr_left fun i low => byte (List.mem_range.mp low)]
    exact (congrArg (fun n => (List.range n).map _) length.symm).trans (map_getD_range _)
  simp only [State.bindVal, dest, State.bindRaw, loose, bare, Tbl.get?, bytes]

theorem exec_loadBind (exist : unitExists s.ev.u = true) (named : ((s.coreAt s.ev.u).loads.find? fun x => decide (x.tag = s.ev.k)) = some l)
    (free : l.waits = 0) (whole : s.ev.m = 0) :
    exec .loadBind s = .next (if l.first (s.coreAt s.ev.u) ≤ s.now then s.bindLoad s.ev.u l else s) := by
  simp only [exec, execLoadBind, named, whole, ne_eq, not_true_eq_false, if_false]
  rw [atUnit_enabled exist (decide_eq_true free)]
  exact congrArg _ (if_congr decide_eq_true_iff rfl rfl)

theorem loadBind_early (exist : unitExists s.ev.u = true) (named : ((s.coreAt s.ev.u).loads.find? fun x => decide (x.tag = s.ev.k)) = some l)
    (free : l.waits = 0) (whole : s.ev.m = 0) (early : s.now < l.first (s.coreAt s.ev.u)) : exec .loadBind s = .next s := by
  rw [exec_loadBind exist named free whole, if_neg (not_le.mpr early)]

theorem Regs.val_put_scalar (r : Regs) {k : Nat} (real : k ≠ 0) (v : Nat) (full : Bool) (m : Taint) :
    ((r.put (.s k) v full m).sReg k).val = BitVec.ofNat 64 v := by
  rw [Regs.sReg_put, if_pos ⟨rfl, real⟩]

theorem loadBind_binds (exist : unitExists s.ev.u = true) (named : ((s.coreAt s.ev.u).loads.find? fun x => decide (x.tag = s.ev.k)) = some l)
    (free : l.waits = 0) (alive : l.cancelled = false) (whole : s.ev.m = 0) (due : l.first (s.coreAt s.ev.u) ≤ s.now) :
    let c := s.coreAt s.ev.u
    ∃ t, exec .loadBind s = .next t ∧ t.mem = s.mem ∧
      let c' := t.coreAt s.ev.u
      (c'.tag l.tag).st = .bound ∧ (∀ x ∈ c'.loads, x.tag ≠ l.tag) ∧ (l.dest ≠ .s 0 → c'.live.fullOf l.dest = true) ∧
      (∀ r, r ≠ l.dest → c'.live.valOf r = c.live.valOf r ∧ c'.live.fullOf r = c.live.fullOf r ∧ c'.live.taintOf r = c.live.taintOf r) ∧
      (∀ v, l.fixed = some v → l.sext = false → ∀ k, l.dest = .s k → k ≠ 0 → (c'.live.sReg k).val.toNat = v % 2 ^ 64) ∧
      (∀ p, l.fixed = none → l.pieces = [p] → p.off = 0 → p.len = l.size → l.fwd = [] → s.memOk = true →
        (∀ x ∈ c.l1, x.pa ≠ p.pa / 128 * 128) → ∀ k, l.dest = .s k → k ≠ 0 →
        (c'.live.sReg k).val = if l.sext then sextN (8 * l.size) (leNat (Memory.readN s.mem p.pa l.size))
          else BitVec.ofNat 64 (leNat (Memory.readN s.mem p.pa l.size))) := by
  intro c
  refine ⟨s.bindLoad s.ev.u l, (exec_loadBind exist named free whole).trans (congrArg _ (if_pos due)), s.bindLoad_mem _ _, ?_⟩
  have core := State.bindLoad_eq (s := s) (u := s.ev.u) alive
  have live := State.bindLoad_live (s := s) (u := s.ev.u) alive
  refine ⟨by rw [core]; exact Core.bound_tag _ _ _ _, by rw [core]; exact Core.bound_loads _ _ _ _, fun real => ?_, fun r other => ?_,
    fun v fixed unsigned k dest real => ?_, fun p loose one start len bare _ absent k dest real => ?_⟩
  all_goals rw [live]
  · exact (c.live.put_same _ true _ real).1
  · exact c.live.put_other _ true _ other
  · rw [dest, Regs.val_put_scalar _ real, State.bindVal_fixed fixed unsigned dest, BitVec.toNat_ofNat, Nat.mod_mod]
  · rw [dest, Regs.val_put_scalar _ real, State.bindVal_memory loose one start len bare absent dest, BitVec.ofNat_toNat, BitVec.setWidth_eq]
    rfl

/-! ## A result that arrives (R110) -/

theorem producer_early {p : Producer} (exist : unitExists s.ev.u = true)
    (named : ((s.coreAt s.ev.u).prods.find? fun x => decide (x.id = s.ev.k)) = some p) (early : s.now < p.minDue) :
    exec .producerWriteback s = .next s := by
  simp only [exec, execProducerWriteback, named, atUnit, if_pos exist, happen, decide_eq_false (not_le.mpr early), Bool.and_false, Bool.false_eq_true,
    if_false]

theorem producer_arrives {p : Producer} (exist : unitExists s.ev.u = true)
    (named : ((s.coreAt s.ev.u).prods.find? fun x => decide (x.id = s.ev.k)) = some p) (known : p.waiting = false) (interlocked : p.exposed = false)
    (due : p.minDue ≤ s.now) : exec .producerWriteback s = .next (s.updAt s.ev.u fun c => c.writeBack p) := by
  simp only [exec, execProducerWriteback, named]
  exact atUnit_enabled exist (by simp [known, interlocked, due]) _

theorem Core.writeBack_frame (c : Core) (p : Producer) : c.writeBack p =
    { c with live := (c.writeBack p).live, prods := (c.writeBack p).prods, shadow := { c.shadow with regs := (c.writeBack p).shadow.regs } } := by
  unfold Core.writeBack
  cases p.preCk <;> rfl

/-! ## What the core's own writes leave alone: its settled scratchpad (R261) and its L1 lines (R216) -/

section
variable {β : Type} (view : Core → β)

theorem State.updAt_keeps {f : Core → Core} (keeps : ∀ c, view (f c) = view c) (s : State) (u v : Nat) :
    view ((s.updAt u f).coreAt v) = view (s.coreAt v) := by
  rw [State.coreAt_updAt]
  split
  · next same => rw [same, keeps]
  · rfl

section
variable (spads : ∀ c a b q, view { c with spad := a, spadBad := b, spq := q } = view c)
include spads

theorem Core.spadPut_keeps (c : Core) (a : Nat) (b : Byte) : view (c.spadPut a b) = view c :=
  spads c _ _ c.spq

theorem Core.spadWrite_keeps (c : Core) (a : Nat) (bs : List Byte) : view (c.spadWrite a bs) = view c :=
  Core.foldl_keeps (f := fun c (p : Nat × Byte) => c.spadPut (a + p.1) p.2) view (fun c _ => Core.spadPut_keeps view spads c _ _) _ c

theorem Core.land_keeps (c : Core) (x : Unit64) : view (c.land x) = view c := by
  unfold Core.land
  split <;> exact Core.spadWrite_keeps view spads c _ _

theorem Core.banked_keeps (c : Core) : view c.banked = view c :=
  (spads _ _ _ _).trans <| Core.foldl_keeps (f := fun c (w : Tbl Byte) => w.foldl (fun c b => c.spadPut b.1 b.2) c) view
    (fun c w => Core.foldl_keeps (f := fun c b => c.spadPut b.1 b.2) view (fun c _ => Core.spadPut_keeps view spads c _ _) w c) _ c

theorem State.writeLate_keeps (s : State) (p : Unit64 → Bool) (v : Nat) : view ((s.writeLate p).coreAt v) = view (s.coreAt v) := by
  suffices landing : ∀ (xs : List Unit64) (s : State),
      view ((xs.foldl (fun (s : State) x => s.updAt x.u fun c => c.land x) s).coreAt v) = view (s.coreAt v) from landing _ _
  intro xs
  induction xs with
  | nil => exact fun _ => rfl
  | cons x xs ih => exact fun s => (ih _).trans (State.updAt_keeps view (fun c => Core.land_keeps view spads c x) s x.u v)

theorem State.settle_keeps (s : State) (u v : Nat) : view ((s.settle u).coreAt v) = view (s.coreAt v) :=
  (State.updAt_keeps view (Core.banked_keeps view spads) _ u v).trans (State.writeLate_keeps view spads s _ v)

end

end

/-! ## A store that is performed (R257) -/

/-- One byte of a withheld store of unit u is written, in memory and in the unit's own L1 lines. -/
def State.putByte (u : Nat) (ps : List Piece) (minFill : Nat) (s : State) (b : Nat × Byte) : State :=
  match ps.find? fun p => decide (p.off ≤ b.1 ∧ b.1 < p.off + p.len) with
  | some p => (s.writeMem (p.pa + (b.1 - p.off)) [b.2]).updAt u fun c => c.l1Store (p.pa + (b.1 - p.off)) minFill [b.2]
  | none => s

section
variable {ps : List Piece} {minFill : Nat}

theorem State.putBytes_keeps {β : Type} (view : Core → β) (lines : ∀ c x, view { c with l1 := x } = view c) (data : List (Nat × Byte)) (s : State) :
    view ((data.foldl (State.putByte u ps minFill) s).coreAt u) = view (s.coreAt u) := by
  induction data generalizing s with
  | nil => rfl
  | cons b data ih =>
    refine (ih _).trans ?_
    unfold State.putByte
    split
    · exact (congrArg view (State.coreAt_updAt_same _ _ _)).trans (lines _ _)
    · rfl

/-- A byte of the store is written at its place in its piece, and no other. -/
theorem State.putByte_mem (canonical : s.memOk = true) (b : Nat × Byte) : (State.putByte u ps minFill s b).memOk = true ∧
    ∀ x, Memory.read (State.putByte u ps minFill s b).mem x =
      match ps.find? fun p => decide (p.off ≤ b.1 ∧ b.1 < p.off + p.len) with
      | some p => if x = p.pa + (b.1 - p.off) then b.2 else Memory.read s.mem x
      | none => Memory.read s.mem x := by
  unfold State.putByte
  split
  · next p _ =>
    refine ⟨Memory.writeN_wf canonical _ _, fun x => (Memory.read_writeN canonical _ x [b.2]).trans ?_⟩
    by_cases here : x = p.pa + (b.1 - p.off)
    · simp [here]
    · rw [if_neg (by simp; omega), if_neg here]
  · exact ⟨canonical, fun _ => rfl⟩

/-- Bytes of a store change nothing outside its pieces. -/
theorem State.putBytes_outside (canonical : s.memOk = true) (data : List (Nat × Byte)) {x : Nat} (outside : ∀ p ∈ ps, x < p.pa ∨ p.pa + p.len ≤ x) :
    Memory.read (data.foldl (State.putByte u ps minFill) s).mem x = Memory.read s.mem x := by
  induction data generalizing s with
  | nil => rfl
  | cons b data ih =>
    obtain ⟨still, read⟩ := State.putByte_mem (u := u) (ps := ps) (minFill := minFill) canonical b
    refine (ih still).trans ((read x).trans ?_)
    split
    · next p found =>
      have held := of_decide_eq_true (List.find?_some (p := fun (p : Piece) => decide (p.off ≤ b.1 ∧ b.1 < p.off + p.len)) found)
      have := outside p (List.mem_of_find?_eq_some found)
      exact if_neg (by omega)
    · rfl

/-- The bytes of a store of one piece, from offset i, stand in memory one after the other. -/
theorem State.putBytes_one {p : Piece} (start : p.off = 0) (bs : List Byte) (canonical : s.memOk = true) (i : Nat) (inside : i + bs.length ≤ p.len) (x : Nat) :
    Memory.read (((List.range' i bs.length).zip bs).foldl (State.putByte u [p] minFill) s).mem x =
      if p.pa + i ≤ x ∧ x < p.pa + i + bs.length then bs.getD (x - (p.pa + i)) 0 else Memory.read s.mem x := by
  induction bs generalizing s i with
  | nil => rw [if_neg (by simp)]; rfl
  | cons b bs ih =>
    rw [List.length_cons] at inside
    obtain ⟨still, read⟩ := State.putByte_mem (u := u) (ps := [p]) (minFill := minFill) canonical (i, b)
    have found : [p].find? (fun p => decide (p.off ≤ i ∧ i < p.off + p.len)) = some p := by simp; omega
    rw [List.length_cons, List.range'_succ, List.zip_cons_cons, List.foldl_cons, ih still (i + 1) (by omega), read x]
    simp only [found, start, Nat.sub_zero]
    by_cases first : x = p.pa + i
    · subst first
      simp
    · by_cases later : p.pa + (i + 1) ≤ x ∧ x < p.pa + (i + 1) + bs.length
      · rw [if_pos later, if_pos (by omega), show x - (p.pa + i) = x - (p.pa + (i + 1)) + 1 by omega]
        rfl
      · rw [if_neg later, if_neg first, if_neg (by omega)]

theorem State.putBytes_memOk (canonical : s.memOk = true) (data : List (Nat × Byte)) : (data.foldl (State.putByte u ps minFill) s).memOk = true := by
  induction data generalizing s with
  | nil => exact canonical
  | cons b data ih => exact ih (State.putByte_mem canonical b).1

/-- What a store of one piece has written is read back whole. -/
theorem State.putBytes_readBack (canonical : s.memOk = true) (a pa : Nat) (bs : List Byte) :
    Memory.readN (((List.range bs.length).zip bs).foldl (State.putByte u [⟨0, a, pa, bs.length⟩] minFill) s).mem pa bs.length = bs := by
  rw [Memory.readN_eq (State.putBytes_memOk canonical _)]
  refine (List.map_congr_left fun k low => ?_).trans (map_getD_range bs)
  have inside := List.mem_range.mp low
  rw [List.range_eq_range', State.putBytes_one (p := ⟨0, a, pa, bs.length⟩) rfl bs canonical 0 (by simp), if_pos (by dsimp only; omega)]
  exact congrArg (bs.getD · 0) (by dsimp only; omega)

end

/-- The state from which the bytes of a withheld store are written. -/
def State.storesFrom (s : State) (u : Nat) (e : WEntry) : State :=
  let s := s.updAt u fun c => { c with wb := c.wb.filter fun x => !decide (x.serial = e.serial) }
  if e.releases then s.settle u else s

theorem State.storesFrom_keeps {β : Type} (view : Core → β) (spads : ∀ c a b q, view { c with spad := a, spadBad := b, spq := q } = view c) (e : WEntry) :
    view ((s.storesFrom u e).coreAt u) = view { s.coreAt u with wb := (s.coreAt u).wb.filter fun x => !decide (x.serial = e.serial) } := by
  unfold State.storesFrom
  dsimp only
  split
  · exact (State.settle_keeps view spads _ u u).trans (congrArg view (State.coreAt_updAt_same _ _ _))
  · exact congrArg view (State.coreAt_updAt_same _ _ _)

theorem State.storesFrom_mem (e : WEntry) : (s.storesFrom u e).mem = s.mem := by
  unfold State.storesFrom
  dsimp only
  split
  · exact State.settle_mem _ _
  · rfl

theorem State.storesFrom_memOk (canonical : s.memOk = true) (e : WEntry) : (s.storesFrom u e).memOk = true := by
  rw [State.memOk_iff, State.storesFrom_mem]
  exact canonical

theorem storePerform_performs {e : WEntry} {ps : List Piece} {data : Tbl Byte} {rel wide : Bool} (exist : unitExists s.ev.u = true)
    (named : ((s.coreAt s.ev.u).wb.find? fun x => decide (x.serial = s.ev.k)) = some e) (kind : e.k = .store ps data rel wide)
    (released : e.released = true) (free : e.waits = 0) (pass : ∀ x ∈ (s.coreAt s.ev.u).wb, x.serial < e.serial → e.mayPass x = true) (whole : s.ev.m = 0) :
    exec .storePerform s = .next (data.foldl (State.putByte s.ev.u ps e.minFill) (s.storesFrom s.ev.u e)) := by
  have can : s.canPerform s.ev.u e = true := by
    simp only [State.canPerform, released, free, kind, decide_true, Bool.true_and, Bool.and_true, List.all_eq_true, List.mem_filter, decide_eq_true_eq]
    exact fun x ⟨held, earlier⟩ => pass x held earlier
  have performed : s.perform s.ev.u e = data.foldl (State.putByte s.ev.u ps e.minFill) (s.storesFrom s.ev.u e) := by
    simp only [State.perform, kind]
    rfl
  simp only [exec, execStorePerform, named, if_pos whole]
  exact (atUnit_enabled exist can _).trans (congrArg _ performed)

end Sys2Proof.Machine
end

section
set_option Elab.async false
/-! OBLIGATION O26. -/

namespace Sys2Proof.Machine

/-- Settles O26: a load fills its destination from what is fixed or from memory, read through a view of the core that its reads keep; the
bytes of a withheld store go one by one to their places in its pieces. -/
theorem pendingEffects : Obligations.PendingEffects := by
  intro s exist
  refine ⟨fun l named free whole early => loadBind_early exist named free whole early,
    fun l named free alive whole due => loadBind_binds exist named free alive whole due,
    fun p named early => producer_early exist named early,
    fun p named known interlocked due => ⟨_, producer_arrives exist named known interlocked due, ?_⟩,
    fun e ps data rel wide named kind released free pass canonical whole =>
      ⟨_, storePerform_performs exist named kind released free pass whole, ?_, ?_, fun x outside => ?_, fun a pa bs one list => ?_⟩⟩
  · dsimp only
    rw [State.coreAt_updAt_same]
    exact ⟨rfl, rfl, congrArg (s.setCoreAt s.ev.u) (Core.writeBack_frame _ p)⟩
  · exact (State.putBytes_keeps Core.wb (fun _ _ => rfl) data _).trans (State.storesFrom_keeps Core.wb (fun _ _ _ _ => rfl) e)
  · exact (State.putBytes_keeps Core.live (fun _ _ => rfl) data _).trans (State.storesFrom_keeps Core.live (fun _ _ _ _ => rfl) e)
  · exact (State.putBytes_outside (State.storesFrom_memOk canonical e) data outside).trans (congrArg (Memory.read · x) (State.storesFrom_mem e))
  · subst one list
    exact State.putBytes_readBack (State.storesFrom_memOk canonical e) a pa bs

end Sys2Proof.Machine
end

section
set_option Elab.async false
/-! SUPPORT. Atomics (R238): what they wait for (R116, R220), what they write, and the load that carries the old value. -/

namespace Sys2Proof.Machine

variable {s t : State} {i : Instr} {f : MemWord} {op : AtOp}

/-! ## The rule of each atomic -/

/-- A comparison key of the model is the two's-complement or unsigned value of the rule. -/
theorem sintN_eq_laneKey {w x : Nat} (fits : x < 2 ^ w) : sintN w x = atomicRule.laneKey w false x := by
  simp only [sintN, atomicRule.laneKey, Nat.mod_eq_of_lt fits, Bool.false_eq_true, if_false]
  by_cases low : x < 2 ^ (w - 1)
  · rw [if_pos low, if_neg (not_le.mpr low)]
  · rw [if_neg low, if_pos (not_lt.mp low)]

theorem key_eq_laneKey {w x : Nat} (u : Bool) (fits : x < 2 ^ w) :
    (if u then (x : Int) else sintN w x) = atomicRule.laneKey w u x := by
  cases u
  · exact sintN_eq_laneKey fits
  · rfl

theorem AtOp.new_lt {w old v c : Nat} {u : Bool} (hold : old < 2 ^ w) (hv : v < 2 ^ w) : op.new w u old v c < 2 ^ w := by
  cases op with
  | add => exact Nat.mod_lt _ (Nat.two_pow_pos w)
  | xch => exact hv
  | min => exact iteInduction (motive := (· < 2 ^ w)) (fun _ => hold) fun _ => hv
  | max => exact iteInduction (motive := (· < 2 ^ w)) (fun _ => hv) fun _ => hold
  | cas => exact iteInduction (motive := (· < 2 ^ w)) (fun _ => hv) fun _ => hold

theorem laneKey_injective {w x y : Nat} {u : Bool} (hx : x < 2 ^ w) (hy : y < 2 ^ w) (same : atomicRule.laneKey w u x = atomicRule.laneKey w u y) : x = y := by
  unfold atomicRule.laneKey at same
  generalize 2 ^ (w - 1) = half at same
  generalize 2 ^ w = all at same hx hy
  split at same
  · omega
  · split at same <;> split at same <;> omega

/-- What the atomics have in common: an operation, which compares with a third operand in `ATCAS` alone, and sizes of 4 and 8 bytes. -/
theorem exec_atomic {cas : Bool} {new : Nat → Bool → Nat → Nat → Nat → Nat} (rule : atomicRule i = some (f, cas, new)) (accepts : Accepts s i) :
    ∃ op : AtOp, (∀ s, exec i s = run i s fun s => atomic s f op) ∧ cas = decide (op = .cas) ∧ f.sz.toNat ≤ 3 ∧
      ∀ w u old v c c', old < 2 ^ w → v < 2 ^ w → (cas = true → c = c') → op.new w u old v c = new w u old v c' := by
  have wf := wf_of_accepts accepts
  have sizes {x : Nat} (mem : [2, 3].contains x = true) : x ≤ 3 := by
    rcases List.mem_pair.mp (List.contains_iff_mem.mp mem) with rfl | rfl <;> decide
  unfold atomicRule at rule
  split at rule <;> cases rule
  all_goals simp only [Instr.wf, MemWord.fits, memAtomic, Bool.and_eq_true] at wf
  · exact ⟨.add, fun _ => rfl, rfl, sizes wf.1.2, fun _ _ _ _ _ _ _ _ _ => rfl⟩
  · refine ⟨.min, fun _ => rfl, rfl, sizes wf.1.2, fun w u old v _ _ hold hv _ => ?_⟩
    simp only [AtOp.new, key_eq_laneKey u hold, key_eq_laneKey u hv, ← not_lt, ite_not]
  · refine ⟨.max, fun _ => rfl, rfl, sizes wf.1.2, fun w u old v _ _ hold hv _ => ?_⟩
    simp only [AtOp.new, key_eq_laneKey u hold, key_eq_laneKey u hv]
    rcases lt_trichotomy (atomicRule.laneKey w u old) (atomicRule.laneKey w u v) with below | same | above
    · rw [if_pos below.le, if_pos below]
    · rw [if_pos same.le, if_neg same.not_lt]
      exact (laneKey_injective hold hv same).symm
    · rw [if_neg (not_le.mpr above), if_neg above.not_gt]
  · exact ⟨.xch, fun _ => rfl, rfl, sizes wf.1.2, fun _ _ _ _ _ _ _ _ _ => rfl⟩
  · exact ⟨.cas, fun _ => rfl, rfl, sizes wf.1.2, fun _ _ _ _ _ _ _ _ same => by rw [AtOp.new, same rfl]⟩

/-! ## What an atomic waits for (R116, R220, R261) -/

theorem settled_ok {ps : List Piece} {m : Taint} {release : Bool} (settled : Settled s ps m release) : s.settled ps m release = .ok () := by
  obtain ⟨bound, apart, acquired, earlier, stores⟩ := settled
  have tags : (accessTaint s m &&& s.core.pendingMask) ||| s.core.overlapping ps ||| s.core.acqWaits ||| (if release then s.core.pendingMask else 0) = 0 := by
    rw [accessTaint, bound, apart, acquired]
    cases release with
    | false => simp
    | true => simp [earlier rfl]
  unfold State.settled
  dsimp only
  rw [tags, List.filter_eq_nil_iff.mpr fun e held => ?_]
  · rfl
  · split
    · next qs data r w kind =>
      obtain ⟨plain, apart⟩ := stores e held qs data r w kind
      simp [plain, apart]
    · exact Bool.false_ne_true

theorem Settled.tlbFill {ps : List Piece} {m : Taint} {release : Bool} (settled : Settled s ps m release) (e : TlbEnt) :
    Settled (s.tlbFill s.cur e) ps m release := by
  obtain ⟨l, filled⟩ := s.tlbFill_core e
  rw [Settled, State.pre_tlbFill, filled]
  exact settled

theorem CanCheckpoint.tlbFill (can : CanCheckpoint s) (e : TlbEnt) : CanCheckpoint (s.tlbFill s.cur e) := by
  obtain ⟨l, filled⟩ := s.tlbFill_core e
  rw [CanCheckpoint, filled]
  exact can

theorem Core.count_tag (c : Core) (ev k j : Nat) : (c.count ev k).tag j = c.tag j :=
  congrArg (fun t : Tbl Tag => Tbl.getD t j {}) (Core.count_keeps Core.tags c (fun _ _ _ _ _ => rfl) ev k)

theorem Core.checkpoint_notPending {c : Core} {j : Nat} (r : Regs) (a : Nat) (idle : (c.tag j).st ≠ .pending) :
    ((c.checkpoint r a).tag j).st ≠ .pending := by
  have kept : c.releasePoint.performFrees.tag j = c.tag j :=
    (Core.performFrees_keeps (fun c => c.tag j) _ fun _ _ _ => rfl).trans (Core.releasePoint_keeps (fun c => c.tag j) _ fun _ _ => rfl)
  rw [← kept] at idle
  unfold Core.checkpoint
  generalize c.releasePoint.performFrees = d at idle
  exact Core.freeTags_notPending idle

/-- A checkpoint changes no load on its way, but that it is older than the checkpoint (R440). -/
theorem Core.checkpoint_loads (c : Core) (r : Regs) (a : Nat) : (c.checkpoint r a).loads = c.loads.map fun l => { l with preCk := true } := by
  have kept : c.releasePoint.performFrees.loads = c.loads :=
    (Core.performFrees_keeps Core.loads _ fun _ _ _ => rfl).trans (Core.releasePoint_keeps Core.loads _ fun _ _ => rfl)
  rw [← kept]
  unfold Core.checkpoint
  generalize c.releasePoint.performFrees = d
  rw [Core.freeTags_keeps Core.loads _ fun _ _ => rfl]

/-- What an effect that comes before the load of an atomic leaves: the memory, the cycle, the unit in progress and a tag to take. -/
structure LeavesForLoad (s t : State) : Prop where
  mem : t.mem = s.mem
  now : t.now = s.now
  cur : t.cur = s.cur
  tags : TagFree s → TagFree t

theorem LeavesForLoad.trans {r : State} (first : LeavesForLoad s r) (second : LeavesForLoad r t) : LeavesForLoad s t :=
  ⟨second.mem.trans first.mem, second.now.trans first.now, second.cur.trans first.cur, fun free => second.tags (first.tags free)⟩

theorem State.tlbFill_leaves (e : TlbEnt) : LeavesForLoad s (s.tlbFill s.cur e) := ⟨rfl, rfl, rfl, fun free => TagFree.tlbFill free e⟩

theorem State.ckBefore_leaves (ev : Nat) : LeavesForLoad s (s.ckBefore ev) := by
  refine ⟨rfl, rfl, rfl, fun ⟨j, low, idle⟩ => ⟨j, low, ?_⟩⟩
  have tag := Core.checkpoint_notPending s.core.pre s.core.gpc idle
  rw [← Core.count_tag _ ev 1 j] at tag
  rw [State.ckBefore, State.core_upd]
  generalize (s.core.checkpoint s.core.pre s.core.gpc).count ev 1 = d at tag ⊢
  exact tag

theorem needCk_leaves (can : CanCheckpoint s) : ∃ t, s.needCk = .ok t ∧ LeavesForLoad s t := by
  unfold State.needCk
  by_cases taken : s.core.ckDone = true
  · exact ⟨s, if_pos taken, rfl, rfl, rfl, id⟩
  · obtain ⟨alone, checked⟩ := can.resolve_left taken
    exact ⟨_, by rw [if_neg taken, alone, checked]; rfl, s.ckBefore_leaves _⟩

theorem State.writeLate_now (p : Unit64 → Bool) : (s.writeLate p).now = s.now := by
  have each (l : List Unit64) (s : State) : (l.foldl (fun (s : State) x => s.updAt x.u fun c => c.land x) s).now = s.now := by
    induction l generalizing s with
    | nil => rfl
    | cons x l ih => exact ih _
  exact each _ _

theorem State.settle_leaves (u : Nat) : LeavesForLoad s (s.settle u) := by
  refine ⟨State.settle_mem _ _, State.writeLate_now _, State.settle_cur _, fun free => ?_⟩
  have tags : (s.settle u).core.tag = s.core.tag :=
    (congrArg (fun v => ((s.settle u).coreAt v).tag) (State.settle_cur u)).trans (State.settle_keeps Core.tag (fun _ _ _ _ => rfl) s u s.cur)
  rw [TagFree, tags]
  exact free

theorem TagFree.afterStore (free : TagFree s) (pa minFill : Nat) (bs : List Byte) : TagFree (s.storeNow pa minFill bs) := by
  rw [TagFree, State.storeNow, State.core_upd]
  exact free

/-- The checkpoint at the end of an atomic marks its load and changes no live register (R220). -/
theorem State.ckEnd_load {l : Load} (last : s.core.loads.getLast? = some l) :
    s.ckEnd.core.live = s.core.live ∧ ∃ b, s.ckEnd.core.loads.getLast? = some { l with preCk := b } := by
  unfold State.ckEnd
  split
  · rw [State.core_upd]
    exact ⟨rfl, l.preCk, last⟩
  · refine ⟨congrArg Prod.fst (s.ckHere_core 0x06).1, true, ?_⟩
    rw [State.ckHere, State.core_upd]
    have loads := (Core.count_keeps Core.loads (s.core.checkpoint s.core.live s.core.pc) (fun _ _ _ _ _ => rfl) 0x06 1).trans (Core.checkpoint_loads ..)
    generalize (s.core.checkpoint s.core.live s.core.pc).count 0x06 1 = d at loads ⊢
    exact (congrArg List.getLast? loads).trans (by rw [List.getLast?_map, last]; rfl)

/-! ## An atomic of a core and of a plan routine (R238, R375) -/

/-- The operands of an atomic can be read. -/
structure AtomicReady (s : State) (f : MemWord) (op : AtOp) : Prop where
  base : Readable s (.s f.base.toNat)
  data : Readable s (.s f.dr.toNat)
  compare : op = .cas → Readable s (.s f.idx.toNat)

theorem srcS_sv {n : BitVec 6} (readable : Readable s (.s n.toNat)) (e : Bool) : srcS s n e = .ok (s.sv n) := srcS_readable readable e

/-- The operand that `ATCAS` compares with. -/
def compared (s : State) (f : MemWord) (op : AtOp) : DWord := if op = .cas then s.sv f.idx else 0

/-- The value that an atomic writes over an old one. -/
def atomicValue (s : State) (f : MemWord) (op : AtOp) (old : Nat) : Nat :=
  op.new (8 * memBytes f) f.u old ((s.sv f.dr).toNat % 2 ^ (8 * memBytes f)) ((compared s f op).toNat % 2 ^ (8 * memBytes f))

/-- The value at pa of the width of an atomic. -/
def valueAt (s : State) (f : MemWord) (pa : Nat) : Nat := leNat (Memory.readN s.mem pa (memBytes f))

/-- Its access taint without the control taint. -/
def atomicTaint (s : State) (f : MemWord) (op : AtOp) : Taint := srcTaint s (if op = .cas then [f.base, f.dr, f.idx] else [f.base, f.dr])

theorem atomicTaint_eq : atomicTaint s f op = taintS s f.base ||| taintS s f.dr ||| (if op = .cas then taintS s f.idx else 0) := by
  unfold atomicTaint
  split
  · exact srcTaint_three ..
  · exact (srcTaint_two ..).trans BitVec.or_zero.symm

theorem valueAt_lt (s : State) (f : MemWord) (pa : Nat) : valueAt s f pa < 2 ^ (8 * memBytes f) := by
  refine (leNat_lt _).trans_eq ?_
  rw [show (Memory.readN s.mem pa (memBytes f)).length = memBytes f from Memory.length_readFrom ..]

theorem atomicValue_lt {old : Nat} (fits : old < 2 ^ (8 * memBytes f)) : atomicValue s f op old < 2 ^ (8 * memBytes f) :=
  AtOp.new_lt fits (Nat.mod_lt _ (Nat.two_pow_pos _))

/-- What an atomic leaves in memory: the new value in its bytes, every other byte as before. -/
theorem written_value {n pa value : Nat} (canonical : s.memOk = true) (fits : value < 2 ^ (8 * n)) (mem : t.mem = Memory.writeN s.mem pa (toBytes n value)) :
    SameOutside s t pa n ∧ leNat (Memory.readN t.mem pa n) = value := by
  have read (x : Nat) : Memory.read t.mem x = if pa ≤ x ∧ x < pa + n then (toBytes n value).getD (x - pa) 0 else Memory.read s.mem x := by
    rw [mem, Memory.read_writeN canonical, length_toBytes]
  refine ⟨fun x outside => (read x).trans (if_neg (by omega)), ?_⟩
  have bytes : Memory.readN t.mem pa n = toBytes n value := by
    rw [Memory.readN_eq (by rw [mem]; exact Memory.writeN_wf canonical _ _)]
    refine (List.map_congr_left fun k low => ?_).trans ((congrArg (fun m => (List.range m).map _) (length_toBytes n value).symm).trans (map_getD_range _))
    have inside := List.mem_range.mp low
    rw [read, if_pos (by omega), Nat.add_sub_cancel_left]
  rw [bytes, leNat_toBytes]
  exact Nat.mod_eq_of_lt (fits.trans_eq (pow_mul 2 8 n))

/-- What the load that carries the old value names, where the atomic is performed from the state r. -/
def atomicArgs (s r : State) (f : MemWord) (op : AtOp) (pa : Nat) : LoadArgs :=
  let far := scopeLatency (dieOf r.cur) f.scope.toNat 40 [⟨0, (s.sv f.base).toNat, pa, memBytes f⟩]
  { dest := .s f.dr.toNat, size := memBytes f, taint := atomicTaint s f op, acq := isAcq f, scope := f.scope.toNat, fixed := some (valueAt r f pa),
    least := far, far := far }

/-- The state r after the write of the atomic. -/
def atomicWritten (s r : State) (f : MemWord) (op : AtOp) (pa : Nat) : State :=
  r.storeNow pa (r.core.boundTime (accessTaint r (atomicTaint s f op))) (toBytes (memBytes f) (atomicValue s f op (valueAt r f pa)))

theorem atomic_issues {pa : Nat} (sizes : f.sz.toNat ≤ 3) (ready : AtomicReady s f op) (aligned : (s.sv f.base).toNat % memBytes f = 0)
    (core : isPlan s.cur = false) (free : TagFree s) (can : CanCheckpoint s) (reaches : Reaches s (s.sv f.base).toNat 2 pa)
    (settled : Settled s [⟨0, (s.sv f.base).toNat, pa, memBytes f⟩] (atomicTaint s f op) (isRel f)) :
    ∃ t l, atomic s f op = .ok t ∧ t.mem = Memory.writeN s.mem pa (toBytes (memBytes f) (atomicValue s f op (valueAt s f pa))) ∧
      t.core.loads.getLast? = some l ∧ l.dest = .s f.dr.toNat ∧ l.size = memBytes f ∧ l.fixed = some (valueAt s f pa) ∧ l.sent = s.now ∧
      (f.scope.toNat ≤ 2 → l.least = 40) ∧ (f.dr ≠ 0 → (t.core.live.sReg f.dr.toNat).full = false) := by
  have size : 2 ^ f.sz.toNat = memBytes f := rfl
  obtain ⟨e, piece, memory⟩ := piece_reaches reaches 0 (memBytes f) false
  obtain ⟨r, checkpoint, before⟩ := needCk_leaves (can.tlbFill e)
  have leaves : LeavesForLoad s (if isRel f then r.settle r.cur else r) := by
    refine (State.tlbFill_leaves e).trans (before.trans ?_)
    split
    · exact State.settle_leaves _
    · exact ⟨rfl, rfl, rfl, id⟩
  have body : atomic s f op = (do
      let t ← (atomicWritten s (if isRel f then r.settle r.cur else r) f op pa).globalLoad [⟨0, (s.sv f.base).toNat, pa, memBytes f⟩]
        (atomicArgs s (if isRel f then r.settle r.cur else r) f op pa)
      .ok t.ckEnd) := by
    have address := gaddr_aligned (isPlan s.cur) 2 (memBytes_le sizes) reaches.1 aligned
    have waits := settled_ok (settled.tlbFill e)
    rw [atomicTaint_eq] at waits
    rw [core] at address
    by_cases cas : op = .cas
    · rw [if_pos cas] at waits
      simp only [atomicWritten, atomicArgs, atomicTaint_eq, atomicValue, compared, atomic, if_pos cas, size, srcS_sv ready.base, srcS_sv ready.data,
        srcS_sv (ready.compare cas), core, address, piece, waits, checkpoint, eff_ok_bind]
      rfl
    · rw [if_neg cas] at waits
      simp only [atomicWritten, atomicArgs, atomicTaint_eq, atomicValue, compared, atomic, if_neg cas, size, srcS_sv ready.base, srcS_sv ready.data,
        core, address, piece, waits, checkpoint, eff_ok_bind]
      rfl
  generalize (if isRel f then r.settle r.cur else r) = r at body leaves
  obtain ⟨mem, now, cur, tags⟩ := leaves
  have old : valueAt r f pa = valueAt s f pa := by rw [valueAt, mem]; rfl
  obtain ⟨t, l, loads, ⟨only, appended, dest, -, -, empty, -⟩, carries⟩ := globalLoad_issues (s := atomicWritten s r f op pa) ((tags free).afterStore _ _ _)
    [⟨0, (s.sv f.base).toNat, pa, memBytes f⟩] (atomicArgs s r f op pa)
  obtain ⟨live, b, last⟩ := State.ckEnd_load (s := t) (l := l) (by rw [appended, List.getLast?_concat])
  refine ⟨t.ckEnd, _, by rw [body, loads]; rfl, ?_, last, dest, carries.size, carries.fixed.trans (congrArg some old), carries.sent.trans now, fun near => ?_, fun real => ?_⟩
  · rw [State.ckEnd_mem, only.1, ← old, ← mem]
    rfl
  · exact carries.least.trans (if_pos near)
  · rw [live]
    exact (empty fun zero => real (BitVec.eq_of_toNat_eq (RegName.s.inj zero))).1

theorem atomic_plan {pa : Nat} (sizes : f.sz.toNat ≤ 3) (ready : AtomicReady s f op) (inside : (s.sv f.base).toNat < 2 ^ 56)
    (aligned : (s.sv f.base).toNat % memBytes f = 0) (plan : isPlan s.cur = true)
    (place : s.enginePa (dieOf s.cur) (s.tsid s.cur) (s.sv f.base).toNat 2 = .ok pa) :
    atomic s f op = .ok ((s.writeMem pa (toBytes (memBytes f) (atomicValue s f op (valueAt s f pa)))).result (.s f.dr.toNat)
      (valueAt s f pa % 2 ^ 64) 0 1 0) := by
  have size : 2 ^ f.sz.toNat = memBytes f := rfl
  have address := gaddr_aligned true 2 (memBytes_le sizes) inside aligned
  have memory := planPlace_memory place (memBytes f)
  by_cases cas : op = .cas
  · simp only [atomicValue, compared, atomic, if_pos cas, size, srcS_sv ready.base, srcS_sv ready.data, srcS_sv (ready.compare cas), plan, address, memory,
      eff_ok_bind]
    rfl
  · simp only [atomicValue, compared, atomic, if_neg cas, size, srcS_sv ready.base, srcS_sv ready.data, plan, address, memory, eff_ok_bind]
    rfl

theorem atomic_misaligned (sizes : f.sz.toNat ≤ 3) (ready : AtomicReady s f op) (inside : (s.sv f.base).toNat < 2 ^ 56)
    (misaligned : (s.sv f.base).toNat % memBytes f ≠ 0) :
    atomic s f op = .error (.trap 0x09 (BitVec.ofNat 64 (s.sv f.base).toNat)) := by
  have size : 2 ^ f.sz.toNat = memBytes f := rfl
  have address := gaddr_misaligned (isPlan s.cur) 2 (memBytes_le sizes) inside misaligned
  by_cases cas : op = .cas
  · simp only [atomic, if_pos cas, size, srcS_sv ready.base, srcS_sv ready.data, srcS_sv (ready.compare cas), address, eff_ok_bind, eff_error_bind]
  · simp only [atomic, if_neg cas, size, srcS_sv ready.base, srcS_sv ready.data, address, eff_ok_bind, eff_error_bind]

end Sys2Proof.Machine
end

section
set_option Elab.async false
/-! OBLIGATION O25. -/

namespace Sys2Proof.Machine

/-- Settles O25: an atomic of a core writes between its checkpoints and issues a load whose value is fixed; one of a routine does both at once. -/
theorem atomics : Obligations.Atomics := by
  intro s i f cas new rule accepts base data compare canonical n a low m value
  obtain ⟨op, meaning, is, sizes, law⟩ := exec_atomic rule accepts
  have ready : AtomicReady s f op := ⟨base, data, fun h => compare (is.trans (decide_eq_true h))⟩
  have taint : atomicTaint s f op = m := by
    simp only [atomicTaint, m, is, decide_eq_true_eq]
  have new_eq (pa : Nat) : atomicValue s f op (valueAt s f pa) = value pa :=
    law _ _ _ _ _ _ (valueAt_lt s f pa) (Nat.mod_lt _ (Nat.two_pow_pos _)) fun h => by
      rw [compared, if_pos (of_decide_eq_true (is.symm.trans h))]
  have fits (pa : Nat) : value pa < 2 ^ (8 * n) := new_eq pa ▸ atomicValue_lt (valueAt_lt s f pa)
  refine ⟨fun aligned core free can pa reaches settled => ?_, fun inside aligned plan pa place => ?_, fun inside misaligned =>
    stops_of_body accepts meaning (atomic_misaligned sizes ready inside misaligned)⟩
  · obtain ⟨t, l, answers, mem, load⟩ := atomic_issues sizes ready aligned core free can reaches (taint.symm ▸ settled)
    rw [new_eq] at mem
    obtain ⟨outside, here⟩ := written_value canonical (fits pa) mem
    exact ⟨t, l, exec_of_body accepts meaning answers, outside, here, load⟩
  · have answers := exec_of_body accepts meaning (atomic_plan sizes ready inside aligned plan place)
    rw [new_eq] at answers
    obtain ⟨outside, here⟩ := written_value (t := s.writeMem pa (toBytes n (value pa))) canonical (fits pa) rfl
    exact ⟨_, answers, rfl, outside, here⟩

end Sys2Proof.Machine
end

section
set_option Elab.async false
/-! SUPPORT. Control instructions that wait for their group (R76), the change of mode (R455), the ends of a task, a routine and a handler
(R447, R452, R456), calls and the return from a handler (R457). -/

namespace Sys2Proof.Machine

variable {s t : State} {i : Instr} {a : After}

/-! ## Beside other slots (R76) -/

theorem After.into_between {l e : List After} (low : ∀ x ∈ l, x.rank ≤ a.rank) (high : ∀ x ∈ e, a.rank < x.rank) : a.into (l ++ e) = l ++ a :: e := by
  have kept : (l ++ e).filter (fun x => decide (x.rank ≤ a.rank)) = l := by
    rw [List.filter_append, List.filter_eq_self.mpr fun x h => decide_eq_true (low x h),
      List.filter_eq_nil_iff.mpr fun x h => by simpa using high x h, List.append_nil]
  have later : (l ++ e).filter (fun x => decide (a.rank < x.rank)) = e := by
    rw [List.filter_append, List.filter_eq_nil_iff.mpr fun x h => by simpa using low x h,
      List.filter_eq_self.mpr fun x h => decide_eq_true (high x h), List.nil_append]
  rw [After.into, kept, later]

theorem leaves_of_leave (answers : exec i s = .next (s.leave a)) (group : s.core.inGroup = true) : Leaves s i a := by
  intro l e split low high
  rw [answers, State.leave, if_pos group]
  exact congrArg _ (State.upd_congr (congrArg (fun l => { s.core with after := l }) (split ▸ After.into_between low high)))

theorem leave_alone (alone : s.core.inGroup = false) : s.leave a = s.finish [a] := by
  rw [State.leave, alone]
  rfl

/-- The state in which what a slot leaves is done: nothing waits for its group any more. -/
def State.emptied (s : State) : State := s.upd fun c => { c with after := [] }

theorem State.emptied_core : s.emptied.core = { s.core with after := [] } := State.core_upd ..

theorem State.emptied_onlyCore : OnlyCore s s.emptied := s.upd_onlyCore _

/-! ## `MODE` (R111, R455) -/

theorem afterWait_mode_iff (b : Bool) : s.afterWait (.mode b) = (false, false) ↔ Complete s.core s.now := by
  have due (g : Bool) (d : Nat) : s.now + (!g).toNat < d ↔ ¬d ≤ if g = true then s.now else s.now + 1 := by cases g <;> simp
  simp only [State.afterWait, Complete, Prod.mk.injEq, true_and, Bool.or_eq_false_iff, Bool.not_eq_false', Bool.and_eq_false_iff, List.any_eq_false,
    decide_eq_true_eq, due, not_not]

theorem exec_mode {b : Bool} (accepts : Accepts s (if b then .modeEx else .modeIl)) (before : Complete s.prior.core s.now) :
    exec (if b then .modeEx else .modeIl) s = .next (s.leave (.mode b)) := by
  have answers : setMode s b = .ok (s.leave (.mode b)) := by
    rw [setMode, State.clear_ok ((afterWait_mode_iff b).mpr (State.prior_now (s := s) ▸ before))]
    rfl
  cases b <;> exact exec_of_body accepts (fun _ => rfl) answers

theorem mode_stalls {b : Bool} (accepts : Accepts s (if b then .modeEx else .modeIl)) (left : ¬Complete s.prior.core s.now) :
    Stops s (if b then .modeEx else .modeIl) (.wait .plain false false) := by
  have waits : (s.prior.afterWait (.mode b)).2 = true := by
    by_contra none
    exact left (State.prior_now (s := s) ▸ (afterWait_mode_iff b).mp (Prod.ext rfl (Bool.not_eq_true _ ▸ none)))
  have stops : setMode s b = .error stall := by
    rw [setMode, State.clear, waits]
    rfl
  cases b <;> exact stops_of_body accepts (fun _ => rfl) stops

theorem finish_mode {b : Bool} (complete : Complete s.core s.now) : OnlyCore s (s.finish [.mode b]) ∧
    (s.finish [.mode b]).core = { s.core with live := { s.core.live with exposed := b }, after := [], holding := false } := by
  have done_ : s.finish [.mode b] = (s.live fun r => { r with exposed := b }).upd fun c => { c with after := [], holding := false } := by
    simp only [State.finish, (afterWait_mode_iff b).mpr complete]
    rfl
  rw [done_]
  exact ⟨(s.live_onlyCore _).trans (State.upd_onlyCore _), by rw [State.core_upd, State.core_live]⟩

theorem mode_clauses (b : Bool) : let i : Instr := if b then .modeEx else .modeIl
    Accepts s i →
      (s.core.inGroup = false → Complete s.core s.now → ∃ t, exec i s = .next t ∧ OnlyCore s t ∧
        t.core = { s.core with live := { s.core.live with exposed := b }, after := [], holding := false }) ∧
      (Complete s.prior.core s.now → s.core.inGroup = true → Leaves s i (.mode b)) ∧
      (¬Complete s.prior.core s.now → Stops s i (.wait .plain false false)) := by
  intro i accepts
  refine ⟨fun alone complete => ⟨_, ?_, finish_mode complete⟩, fun before group => leaves_of_leave (exec_mode accepts before) group, mode_stalls accepts⟩
  rw [← leave_alone alone]
  exact exec_mode accepts ((State.prior_alone alone).symm ▸ complete)

/-! ## What each of the others leaves -/

theorem exec_done (accepts : Accepts s .done) : exec .done s = .next (s.leave .done) := exec_of_body accepts (fun _ => rfl) rfl

theorem exec_tret (accepts : Accepts s .tret) : exec .tret s = .next (s.leave .tret) := exec_of_body accepts (fun _ => rfl) rfl

theorem exec_call {cause : Nat} {imm : BitVec 16} (rule : callRule i = some (cause, imm)) (accepts : Accepts s i) :
    exec i s = .next (s.leave (.call cause (imm.setWidth 64))) := by
  unfold callRule at rule
  split at rule <;> cases rule
  · exact exec_of_body accepts (fun _ => rfl) rfl
  · exact exec_of_body accepts (fun _ => rfl) rfl
  · exact exec_of_body accepts (fun _ => rfl) rfl

theorem end_leaves (names : (i = .done ∧ a = .done) ∨ (∃ imm cause, callRule i = some (cause, imm) ∧ a = .call cause (imm.setWidth 64)) ∨ (i = .tret ∧ a = .tret))
    (accepts : Accepts s i) (group : s.core.inGroup = true) : Leaves s i a := by
  rcases names with ⟨rfl, rfl⟩ | ⟨imm, cause, rule, rfl⟩ | ⟨rfl, rfl⟩
  · exact leaves_of_leave (exec_done accepts) group
  · exact leaves_of_leave (exec_call rule accepts) group
  · exact leaves_of_leave (exec_tret accepts) group

theorem finish_call {cause : Nat} {info : DWord} (checked : s.core.mmaUnchecked = false) :
    s.finish [.call cause info] = s.emptied.takeTrap cause info s.core.othersDone := by
  simp only [State.finish, State.afterWait, checked]
  rfl

theorem finish_tret (checked : s.core.mmaUnchecked = false) : s.finish [.tret] = s.emptied.trapReturn := by
  simp only [State.finish, State.afterWait, checked]
  rfl

theorem finish_done (ready : s.afterWait .done = (false, false)) : s.finish [.done] = s.emptied.doneTask := by
  simp only [State.finish, ready]
  rfl

/-! ## `YIELD` (R456) -/

theorem finish_yield : s.finish [.yield] = s.leaveTask 2 := by simp [State.finish, State.afterWait]

theorem yield_clauses (accepts : Accepts s .yield) :
    ((∀ n, n < 16 → (Tbl.get? s.core.resume n).isSome = true) → exec .yield s = .next s) ∧
    (∀ k, Tbl.free s.core.resume 16 = some k →
      (s.core.inGroup = true → Leaves s .yield .yield) ∧
      (∀ tk x, CanLeave s k tk x → ∃ t, exec .yield s = .next t ∧ LeavesCore s t x 2 k tk)) := by
  have answers : exec .yield s = .next (if (Tbl.free s.core.resume 16).isSome then s.leave .yield else s) := exec_of_body accepts (fun _ => rfl) rfl
  refine ⟨fun full => ?_, fun k position => ?_⟩
  · have none : Tbl.free s.core.resume 16 = none :=
      List.find?_eq_none.mpr fun n low => by simp [Option.isSome_iff_ne_none.mp (full n (List.mem_range.mp low))]
    simpa [none] using answers
  have leaves : exec .yield s = .next (s.leave .yield) := by simpa [position] using answers
  refine ⟨leaves_of_leave leaves, fun tk x can => ⟨_, leaves.trans (congrArg _ ?_), leaveTask_leaves position can⟩⟩
  obtain ⟨alone, -⟩ := id can
  rw [leave_alone alone, finish_yield]

/-! ## Checkpoints that a return and an end take (R440, R452, R457) -/

/-- What a return from a handler restores, and what it leaves to the next group. -/
def Core.returned (c : Core) : Nat × Nat × Regs × Nat × List DWord := (c.tlevel, c.pc, c.live, c.notBefore, c.records)

theorem Core.checkpoint_returned (c : Core) (r : Regs) (a : Nat) : (c.checkpoint r a).returned = c.returned := by
  have released : c.releasePoint.performFrees.returned = c.returned :=
    (Core.performFrees_keeps _ _ fun _ _ _ => rfl).trans (Core.releasePoint_keeps _ _ fun _ _ => rfl)
  rw [← released]
  unfold Core.checkpoint
  generalize c.releasePoint.performFrees = d
  exact Core.freeTags_keeps Core.returned _ fun _ _ => rfl

/-- A checkpoint releases every withheld entry (R440). -/
theorem Core.checkpoint_releases (c : Core) (r : Regs) (a : Nat) : ∀ e ∈ (c.checkpoint r a).wb, e.released = true := by
  unfold Core.checkpoint
  generalize c.releasePoint.performFrees = d
  rw [Core.freeTags_keeps Core.wb _ fun _ _ => rfl]
  intro e held
  obtain ⟨_, -, rfl⟩ := List.mem_map.mp held
  rfl

/-- A counted checkpoint of registers r at address a: what it keeps, its shadow set, and the entries it releases. -/
theorem Core.checkpoint_counted (c : Core) (r : Regs) (a ev : Nat) :
    let d := (c.checkpoint r a).count ev 1
    d.returned = c.returned ∧ d.shadow.regs = r ∧ d.shadow.addr = a ∧ ∀ e ∈ d.wb, e.released = true := by
  have counted {β : Type} (view : Core → β) := Core.count_keeps view (c.checkpoint r a)
  obtain ⟨regs, addr⟩ := c.checkpoint_shadow r a
  dsimp only
  rw [counted Core.returned fun _ _ _ _ _ => rfl, counted Core.shadow fun _ _ _ _ _ => rfl, counted Core.wb fun _ _ _ _ _ => rfl]
  exact ⟨c.checkpoint_returned r a, regs, addr, c.checkpoint_releases r a⟩

/-! ## `TRET` (R457) -/

theorem six_of_length {α : Type} {l : List α} (length : l.length = 6) : ∃ a b c d e f, l = [a, b, c, d, e, f] := by
  match l, length with
  | [a, b, c, d, e, f], _ => exact ⟨a, b, c, d, e, f, rfl⟩

/-- The return state of the level below (R457). -/
def Core.returnState (c : Core) : RetState := if c.tlevel = 2 then c.ret1 else c.ret0

/-- The core with the state of the level below, before its checkpoint. -/
def Core.restored (c : Core) : Core :=
  let rs := c.returnState
  let c := { c with tlevel := c.tlevel - 1, live := { c.live with latch := rs.latch, exposed := rs.exposed }, pc := rs.ckpt }
  if c.tlevel = 1 then match rs.recs with
    | [a, b, x, d, e, f] => { c with trecPc := a, trecCause := b, trecOp := x, trecTile := d, trecInfo := e, trecCkpt := f }
    | _ => c
  else c

theorem Core.restored_returned (c : Core) : c.restored.tlevel = c.tlevel - 1 ∧ c.restored.pc = c.returnState.ckpt ∧
    c.restored.live = { c.live with latch := c.returnState.latch, exposed := c.returnState.exposed } ∧
    (c.tlevel = 1 → c.restored.records = c.records) ∧ (c.tlevel = 2 → c.returnState.recs.length = 6 → c.restored.records = c.returnState.recs) := by
  unfold Core.restored
  dsimp only
  split
  · next second =>
    split
    · next six => exact ⟨rfl, rfl, rfl, fun first => by omega, fun _ _ => six.symm⟩
    · next other =>
      refine ⟨rfl, rfl, rfl, fun _ => rfl, fun _ length => ?_⟩
      obtain ⟨x0, x1, x2, x3, x4, x5, six⟩ := six_of_length length
      exact absurd six (other _ _ _ _ _ _)
  · next first => exact ⟨rfl, rfl, rfl, fun _ => rfl, fun second => by omega⟩

/-- The core as its return leaves it. -/
theorem State.trapReturn_core : ∃ d, ((s.core.restored.checkpoint s.core.restored.live s.core.returnState.ckpt).count 0x06 1).TracedTo d ∧
    s.trapReturn.core = { d with waitCk := true, ckHere := true, notBefore := max s.core.restored.notBefore (s.now + 2) } :=
  ⟨_, Core.packet_tracedTo _ _ _, State.core_upd _ _⟩

/-- What a return from a handler leaves. -/
structure Returned (s t : State) : Prop where
  only : OnlyCore s t
  tlevel : t.core.tlevel = s.core.tlevel - 1
  pc : t.core.pc = s.core.returnState.ckpt
  live : t.core.live = { s.core.live with latch := s.core.returnState.latch, exposed := s.core.returnState.exposed }
  shadow : t.core.shadow.regs = t.core.live ∧ t.core.shadow.addr = s.core.returnState.ckpt
  released : ∀ e ∈ t.core.wb, e.released = true
  checkpoint : t.core.ckHere = true ∧ t.core.waitCk = true ∧ s.now + 2 ≤ t.core.notBefore
  kept : s.core.tlevel = 1 → t.core.records = s.core.records
  saved : s.core.tlevel = 2 → s.core.returnState.recs.length = 6 → t.core.records = s.core.returnState.recs

theorem State.trapReturn_returned : Returned s s.trapReturn := by
  obtain ⟨d, traced, core⟩ := s.trapReturn_core
  obtain ⟨tlevel, pc, live, records, saved⟩ := s.core.restored_returned
  obtain ⟨returned, regs, addr, released⟩ := Core.checkpoint_counted s.core.restored s.core.restored.live s.core.returnState.ckpt 0x06
  generalize (Core.checkpoint _ _ _).count 0x06 1 = c at traced returned regs addr released
  obtain ⟨_, _, _, _, rfl⟩ := traced
  simp only [Core.returned, Prod.mk.injEq] at returned
  obtain ⟨tlevel', pc', live', -, records'⟩ := returned
  refine ⟨State.upd_onlyCore _, ?_, ?_, ?_, ?_, ?_, ?_, fun first => ?_, fun second six => ?_⟩
  all_goals rw [core]
  · exact tlevel'.trans tlevel
  · exact pc'.trans pc
  · exact live'.trans live
  · exact ⟨regs.trans live'.symm, addr⟩
  · exact released
  · exact ⟨rfl, rfl, le_max_right _ _⟩
  · exact records'.trans (records first)
  · exact records'.trans (saved second six)

theorem Returned.of_emptied (returned : Returned s.emptied t) : Returned s t := by
  obtain ⟨only, tlevel, pc, live, shadow, released, checkpoint, kept, saved⟩ := returned
  have same : s.emptied.core.returnState = s.core.returnState := by rw [State.emptied_core]; rfl
  rw [same] at pc live shadow saved
  rw [State.emptied_core] at tlevel live kept saved
  exact ⟨State.emptied_onlyCore.trans only, tlevel, pc, live, shadow, released, checkpoint, kept, saved⟩

/-! ## `DONE` of a task (R452, R456) -/

theorem compute_not_plan {u : Nat} (compute : isCompute u = true) : isPlan u = false := by
  simp only [isCompute, decide_eq_true_eq] at compute
  exact decide_eq_false (by omega)

theorem afterWait_done_iff (compute : isCompute s.cur = true) (level : s.core.tlevel = 0) : s.afterWait .done = (false, false) ↔ MayEnd s.core := by
  simp only [State.afterWait, compute_not_plan compute, level, MayEnd, Prod.mk.injEq, true_and, Bool.not_false, decide_true, Bool.true_and,
    Bool.or_eq_false_iff, decide_eq_false_iff_not, not_not, List.any_eq_false, List.mem_range, decide_eq_true_eq, and_assoc]

theorem doneTask_ends (compute : isCompute s.cur = true) (level : s.core.tlevel = 0) :
    let t := s.doneTask
    OnlyCore s t ∧ t.core.run = .ending ∧ t.core.endKind = 0 ∧ t.core.endTo = .idle ∧ t.core.live = s.core.live ∧ t.core.shadow.regs = s.core.live ∧
      t.core.shadow.addr = s.core.pc ∧ ∀ e ∈ t.core.wb, e.released = true := by
  have ended : s.doneTask = (s.ckHere 0x06).upd fun c => (c.traceLeave (s.cycle48 (dieOf s.cur)) 2).beginEnd 0 .idle := by
    rw [State.doneTask, compute_not_plan compute, level]
    rfl
  have traced (c : Core) (cycle what : Nat) : c.TracedTo (c.traceLeave cycle what) := by
    unfold Core.traceLeave
    split
    · exact .refl c
    · exact Core.packet_tracedTo ..
  have core : (s.ckHere 0x06).core = { (s.core.checkpoint s.core.live s.core.pc).count 0x06 1 with ckHere := true } := State.core_upd ..
  obtain ⟨returned, regs, addr, released⟩ := s.core.checkpoint_counted s.core.live s.core.pc 0x06
  generalize (Core.checkpoint _ _ _).count 0x06 1 = c at core returned regs addr released
  simp only [Core.returned, Prod.mk.injEq] at returned
  obtain ⟨-, -, live, -, -⟩ := returned
  dsimp only
  rw [ended, State.core_upd, core]
  obtain ⟨_, _, _, _, d⟩ := traced { c with ckHere := true } (s.cycle48 (dieOf s.cur)) 2
  rw [d]
  exact ⟨(s.upd_onlyCore _).trans (State.upd_onlyCore _), rfl, rfl, rfl, live, regs, addr, released⟩

theorem finish_done_waits (left : (s.afterWait .done).2 = true) : OnlyCore s (s.finish [.done]) ∧
    (s.finish [.done]).core = { s.core with holding := true, held := .plain, after := [.done] } := by
  have stays : s.finish [.done] = s.upd fun c => { c with holding := true, held := .plain, after := [.done] } := by
    simp only [State.finish, left, Bool.or_true, if_true]
    rfl
  rw [stays]
  exact ⟨s.upd_onlyCore _, State.core_upd ..⟩

/-! ## `DONE` of a handler (R447) -/

theorem State.coreAt_irq (u bit v : Nat) : (s.irq u bit).coreAt v =
    if v = u then { s.coreAt u with irqPend := (s.coreAt u).irqPend ||| BitVec.ofNat 6 (2 ^ bit) } else s.coreAt v :=
  State.coreAt_updAt ..

theorem State.irqDie_eq (d bit : Nat) : s.irqDie d bit = (s.irq (d * 128 + 72) bit).irq (d * 128 + 73) bit := rfl

theorem State.irqDie_alerts (d : Nat) : Alerted (s.irqDie d 2) d := by
  have two (x : BitVec 6) : (x ||| BitVec.ofNat 6 (2 ^ 2)).getLsbD 2 = true := by rw [BitVec.getLsbD_or]; exact Bool.or_true _
  rintro k (rfl | rfl)
  · rw [State.irqDie_eq, State.coreAt_irq, if_neg (by omega), State.coreAt_irq, if_pos rfl]
    exact two _
  · rw [State.irqDie_eq, State.coreAt_irq, if_pos rfl]
    exact two _

/-- An interrupt at the control cores is none of a compute core. -/
theorem State.coreAt_irqDie {u : Nat} (compute : isCompute u = true) (d bit : Nat) : (s.irqDie d bit).coreAt u = s.coreAt u := by
  simp only [isCompute, decide_eq_true_eq] at compute
  rw [State.irqDie_eq, State.coreAt_irq, if_neg (by omega), State.coreAt_irq, if_neg (by omega)]

theorem State.ctxAt_irqDie (d k c bit : Nat) : (s.irqDie d bit).ctxAt k c = s.ctxAt k c := rfl

/-- A graph fault leaves its record and its context stopped (R335, R336). -/
theorem State.graphFault_records (d ctx code addr opid handle info : Nat) :
    let x := (s.graphFault d ctx code addr opid handle info).ctxAt d ctx
    x.st = .faulted ∧ x.recA = BitVec.ofNat 64 (code * 2 ^ 56 + addr % 2 ^ 56) ∧
      x.recB = BitVec.ofNat 64 (opid % 1024 * 2 ^ 48 + handle % 4096 * 2 ^ 32 + info % 65536) := by
  unfold State.graphFault
  dsimp only
  generalize State.abortInsts _ _ _ _ = r
  split
  · rw [State.ctxAt_updCtx_same]
    exact ⟨rfl, rfl, rfl⟩
  · rw [State.ctxAt_irqDie, State.ctxAt_updCtx_same]
    exact ⟨rfl, rfl, rfl⟩

section
variable {tk : Task} {u why addr info : Nat} {dest : Run}

/-- A task of class 1 ends and its point restarts (R446). -/
theorem State.endByClass_restarts (task : (s.coreAt u).task = some tk) (class_ : tk.r.rclass = 1) :
    s.endByClass u why addr info dest = s.updAt u fun c => c.abort 1 dest := by
  simp only [State.endByClass, task, restarts, class_]
  rfl

/-- A task of another class, which no pre-emption waits for, stops its context where a trap ends it (R446). -/
theorem State.endByClass_stops (task : (s.coreAt u).task = some tk) (class_ : tk.r.rclass ≠ 1) (bound : tk.r.rclass = 2 → s.boundPassed u = false) :
    ∃ (r : State) (op h : Nat), s.endByClass u 0 addr info dest = r.graphFault (dieOf u) tk.r.ctx 0x09 addr op h info := by
  have stays : (restarts tk.r.rclass 0 || (s.boundPassed u && restarts tk.r.rclass 2)) = false := by
    by_cases two : tk.r.rclass = 2
    · simp [restarts, two, bound two]
    · simp [restarts, class_, two]
  simp only [State.endByClass, task, stays]
  exact ⟨_, _, _, rfl⟩

/-- The task of a handler that abandons it is ended by its class (R447). -/
theorem State.abandon_restarts {cause : Nat} {inPlace byHandler : Bool} (compute : isCompute u = true) (task : (s.coreAt u).task = some tk)
    (class_ : tk.r.rclass = 1) :
    let t := s.abandon u cause inPlace byHandler
    t.cur = s.cur ∧ (t.coreAt u).run = .ending ∧ (t.coreAt u).endKind = 1 ∧ (t.coreAt u).tlevel = 0 ∧ Alerted t (dieOf u) := by
  have taskNow : ((s.updAt u fun c => { c with tlevel := 0 }).coreAt u).task = some tk := by rw [State.coreAt_updAt_same]; exact task
  dsimp only
  refine ⟨?_, ?_, ?_, ?_, State.irqDie_alerts _⟩
  · rw [State.abandon, State.endByClass_restarts taskNow class_]
    rfl
  all_goals rw [State.abandon, State.coreAt_irqDie compute, State.endByClass_restarts taskNow class_, State.coreAt_updAt_same]; rfl

theorem State.abandon_stops {cause : Nat} {inPlace byHandler : Bool} (task : (s.coreAt u).task = some tk) (class_ : tk.r.rclass ≠ 1)
    (bound : tk.r.rclass = 2 → s.boundPassed u = false) :
    let t := s.abandon u cause inPlace byHandler
    let x := t.ctxAt (dieOf u) tk.r.ctx
    x.st = .faulted ∧ x.recA = BitVec.ofNat 64 (0x09 * 2 ^ 56 + (s.coreAt u).trecPc.toNat % 2 ^ 56) ∧
      x.recB.toNat % 2 ^ 16 = cause % 256 + inPlace.toNat * 256 + byHandler.toNat * 512 ∧ Alerted t (dieOf u) := by
  have core : (s.updAt u fun c => { c with tlevel := 0 }).coreAt u = { s.coreAt u with tlevel := 0 } := State.coreAt_updAt_same ..
  have taskNow : ((s.updAt u fun c => { c with tlevel := 0 }).coreAt u).task = some tk := by rw [core]; exact task
  have boundNow : (s.updAt u fun c => { c with tlevel := 0 }).boundPassed u = s.boundPassed u := by rw [State.boundPassed, core]; rfl
  obtain ⟨r, op, h, ended⟩ := State.endByClass_stops (addr := (s.coreAt u).trecPc.toNat)
    (info := cause % 256 + inPlace.toNat * 256 + byHandler.toNat * 512) (dest := .idle) taskNow class_ fun two => boundNow.trans (bound two)
  obtain ⟨st, recA, recB⟩ := r.graphFault_records (dieOf u) tk.r.ctx 0x09 (s.coreAt u).trecPc.toNat op h (cause % 256 + inPlace.toNat * 256 + byHandler.toNat * 512)
  dsimp only
  refine ⟨?_, ?_, ?_, State.irqDie_alerts _⟩
  all_goals rw [State.abandon, State.ctxAt_irqDie, ended]
  · exact st
  · exact recA
  · rw [recB, BitVec.toNat_ofNat]
    have small (b : Bool) : b.toNat ≤ 1 := Bool.toNat_le b
    have := small inPlace
    have := small byHandler
    omega

end

theorem doneTask_abandons (compute : isCompute s.cur = true) (level : 0 < s.core.tlevel) :
    s.doneTask = s.abandon s.cur (bits s.core.trecCause 15 0) false true := by
  rw [State.doneTask, compute_not_plan compute, if_neg Bool.false_ne_true, if_pos level]

/-! ## `DONE` of a plan routine (R377) -/

theorem doneTask_plan (plan : isPlan s.cur = true) : s.doneTask = s.planEnd s.cur := by rw [State.doneTask, if_pos plan]

theorem planEnd_ends :
    let t := s.planEnd s.cur
    t.mem = s.mem ∧ t.core.planRun = false ∧ t.core.run = .idle ∧
      ∀ b ∈ (s.ctxAt (dieOf s.cur) s.core.planCtx).blocks, b.serial = s.core.planBlk → ∀ e, b.entries[s.core.planEnt]? = some e →
        ∃ b' ∈ (t.ctxAt (dieOf s.cur) s.core.planCtx).blocks, b'.serial = b.serial ∧ b'.entries[s.core.planEnt]? = some { e with planDone := true } := by
  intro t
  have core : t.core = { s.core with planRun := false, run := .idle, holding := false } := (State.core_updCtx _ _ _ _).trans (State.coreAt_updAt_same _ _ _)
  refine ⟨rfl, by rw [core], by rw [core], fun b held serial e entry => ?_⟩
  have ctx : t.ctxAt (dieOf s.cur) s.core.planCtx = _ := State.ctxAt_updCtx_same ..
  rw [ctx, State.ctxAt_updAt]
  refine ⟨_, List.mem_map.mpr ⟨b, held, if_pos serial⟩, rfl, ?_⟩
  obtain ⟨inside, -⟩ := List.getElem?_eq_some_iff.mp entry
  have paired : ((List.range b.entries.length).zip b.entries)[s.core.planEnt]? = some (s.core.planEnt, e) :=
    List.getElem?_zip_eq_some.mpr ⟨List.getElem?_range inside, entry⟩
  rw [List.getElem?_map, paired]
  exact congrArg some (if_pos rfl)

end Sys2Proof.Machine
end

section
set_option Elab.async false
/-! OBLIGATION O43. -/

namespace Sys2Proof.Machine

variable {s : State}

theorem done_task (accepts : Accepts s .done) (alone : s.core.inGroup = false) (compute : isCompute s.cur = true) :
    (s.core.tlevel = 0 → MayEnd s.core →
      ∃ t, exec .done s = .next t ∧ OnlyCore s t ∧ t.core.run = .ending ∧ t.core.endKind = 0 ∧ t.core.endTo = .idle ∧
        t.core.live = s.core.live ∧ t.core.shadow.regs = s.core.live ∧ t.core.shadow.addr = s.core.pc ∧ ∀ e ∈ t.core.wb, e.released = true) ∧
    (s.core.tlevel = 0 → ¬MayEnd s.core → ∃ t, exec .done s = .next t ∧ OnlyCore s t ∧
      t.core = { s.core with holding := true, held := .plain, after := [.done] }) := by
  have answers : exec .done s = .next (s.finish [.done]) := leave_alone alone ▸ exec_done accepts
  refine ⟨fun level may => ?_, fun level left => ⟨_, answers, finish_done_waits ?_⟩⟩
  · rw [finish_done ((afterWait_done_iff compute level).mpr may)] at answers
    have ends := doneTask_ends (s := s.emptied) compute (by rw [State.emptied_core]; exact level)
    obtain ⟨only, rest⟩ := ends
    rw [State.emptied_core] at rest
    exact ⟨_, answers, State.emptied_onlyCore.trans only, rest⟩
  · by_contra none
    exact left ((afterWait_done_iff compute level).mp (Prod.ext rfl (Bool.not_eq_true _ ▸ none)))

theorem done_handler (accepts : Accepts s .done) (alone : s.core.inGroup = false) (compute : isCompute s.cur = true) {tk : Task} (level : 0 < s.core.tlevel)
    (task : s.core.task = some tk) :
    (tk.r.rclass = 1 → ∃ t, exec .done s = .next t ∧ t.mem = s.mem ∧
      t.core.run = .ending ∧ t.core.endKind = 1 ∧ t.core.tlevel = 0 ∧ Alerted t (dieOf s.cur)) ∧
    (tk.r.rclass ≠ 1 → (tk.r.rclass = 2 → s.boundPassed s.cur = false) → ∃ t, exec .done s = .next t ∧
      (t.ctxAt (dieOf s.cur) tk.r.ctx).st = .faulted ∧
      (t.ctxAt (dieOf s.cur) tk.r.ctx).recA = BitVec.ofNat 64 (0x09 * 2 ^ 56 + s.core.trecPc.toNat % 2 ^ 56) ∧
      (t.ctxAt (dieOf s.cur) tk.r.ctx).recB.toNat % 2 ^ 16 = s.core.trecCause.toNat % 256 + 512 ∧ Alerted t (dieOf s.cur)) := by
  have ready : s.afterWait .done = (false, false) := by simp [State.afterWait, Nat.ne_of_gt level]
  have core : s.emptied.coreAt s.cur = { s.core with after := [] } := State.emptied_core
  have answers : exec .done s = .next (s.emptied.abandon s.cur (bits s.core.trecCause 15 0) false true) := by
    have abandons := doneTask_abandons (s := s.emptied) compute (by rw [State.emptied_core]; exact level)
    rw [State.emptied_core] at abandons
    rw [exec_done accepts, leave_alone alone, finish_done ready, abandons]
    rfl
  have taskNow : (s.emptied.coreAt s.cur).task = some tk := by rw [core]; exact task
  refine ⟨fun class_ => ⟨_, answers, State.abandon_mem _ _ _ _ _, ?_⟩, fun class_ bound => ⟨_, answers, ?_⟩⟩
  · obtain ⟨cur, ends⟩ := s.emptied.abandon_restarts (cause := bits s.core.trecCause 15 0) (inPlace := false) (byHandler := true) compute taskNow class_
    rw [State.core, cur]
    exact ends
  · have boundNow : s.emptied.boundPassed s.cur = s.boundPassed s.cur := by rw [State.boundPassed, core]; rfl
    obtain ⟨st, recA, recB, alerted⟩ := s.emptied.abandon_stops (cause := bits s.core.trecCause 15 0) (inPlace := false) (byHandler := true) taskNow class_
      fun two => boundNow.trans (bound two)
    rw [core] at recA
    refine ⟨st, recA, recB.trans ?_, alerted⟩
    simp only [bits, Bool.toNat_false, Bool.toNat_true]
    omega

theorem done_plan (accepts : Accepts s .done) (alone : s.core.inGroup = false) (plan : isPlan s.cur = true) :
    ∃ t, exec .done s = .next t ∧ t.mem = s.mem ∧ t.core.planRun = false ∧ t.core.run = .idle ∧
      ∀ b ∈ (s.ctxAt (dieOf s.cur) s.core.planCtx).blocks, b.serial = s.core.planBlk → ∀ e, b.entries[s.core.planEnt]? = some e →
        ∃ b' ∈ (t.ctxAt (dieOf s.cur) s.core.planCtx).blocks, b'.serial = b.serial ∧ b'.entries[s.core.planEnt]? = some { e with planDone := true } := by
  have ready : s.afterWait .done = (false, false) := by simp [State.afterWait, plan]
  have ends := planEnd_ends (s := s.emptied)
  rw [State.emptied_core] at ends
  refine ⟨s.emptied.planEnd s.cur, ?_, ends⟩
  rw [exec_done accepts, leave_alone alone, finish_done ready, doneTask_plan (s := s.emptied) plan]
  rfl

/-- Settles O43: beside other slots each joins what its group leaves; alone it is what its end does, which takes its checkpoint through views
of the core that the checkpoint keeps. -/
theorem modesAndEnds : Obligations.ModesAndEnds := by
  intro s w
  refine ⟨mode_clauses, fun i a names accepts group => end_leaves names accepts group, fun accepts alone compute => ?_, done_plan, yield_clauses,
    fun i cause imm rule accepts alone checked => ?_, fun accepts alone checked level => ?_⟩
  · obtain ⟨ends, waits⟩ := done_task accepts alone compute
    exact ⟨ends, waits, fun tk level task => (done_handler accepts alone compute level task).1,
      fun tk level task => (done_handler accepts alone compute level task).2⟩
  · rw [exec_call rule accepts, leave_alone alone, finish_call checked]
    rfl
  · have returned := (State.trapReturn_returned (s := s.emptied)).of_emptied
    rw [← finish_tret checked, ← leave_alone alone] at returned
    obtain ⟨only, tlevel, pc, live, ⟨regs, addr⟩, released, ⟨here, waiting, later⟩, kept, saved⟩ := returned
    exact ⟨_, exec_tret accepts, only, tlevel, pc, live, regs, addr, released, here, waiting, later, kept, saved⟩

end Sys2Proof.Machine
end

section
set_option Elab.async false
/-! SUPPORT. Logic, shifts, selection and permutation (R148, R149, R151, R153, R159 to R162), element by element and, for pairs, register by register. -/

namespace Sys2Proof.Machine

variable {s : State}

/-! ## Bit patterns (R148, R151) -/

theorem testBit_elem (w : Nat) (x : VReg) (i j : Nat) : (elem w x i).testBit j = (decide (j < w) && x.getLsbD (w * i + j)) := by
  rw [elem, Nat.testBit_mod_two_pow, Nat.testBit_div_two_pow, Nat.add_comm j, BitVec.testBit_toNat]

theorem elem_mod (w : Nat) (x : VReg) (i : Nat) : elem w x i % 2 ^ w = elem w x i := Nat.mod_mod _ _

theorem elem_and (w : Nat) (x y : VReg) (i : Nat) : (elem w x i &&& elem w y i) % 2 ^ w = elem w (x &&& y) i := by
  refine Nat.eq_of_testBit_eq fun j => ?_
  simp only [Nat.testBit_mod_two_pow, Nat.testBit_and, testBit_elem, BitVec.getLsbD_and]
  cases decide (j < w) <;> simp

theorem elem_or (w : Nat) (x y : VReg) (i : Nat) : (elem w x i ||| elem w y i) % 2 ^ w = elem w (x ||| y) i := by
  refine Nat.eq_of_testBit_eq fun j => ?_
  simp only [Nat.testBit_mod_two_pow, Nat.testBit_or, testBit_elem, BitVec.getLsbD_or]
  cases decide (j < w) <;> simp

theorem elem_xor (w : Nat) (x y : VReg) (i : Nat) : (elem w x i ^^^ elem w y i) % 2 ^ w = elem w (x ^^^ y) i := by
  refine Nat.eq_of_testBit_eq fun j => ?_
  simp only [Nat.testBit_mod_two_pow, Nat.testBit_xor, testBit_elem, BitVec.getLsbD_xor]
  cases decide (j < w) <;> simp

theorem elem_not {w i : Nat} (hi : i < 4096 / w) (x : VReg) : (2 ^ w - 1 - elem w x i) % 2 ^ w = elem w (~~~x) i := by
  have fits := lane_fits hi
  refine Nat.eq_of_testBit_eq fun j => ?_
  rw [Nat.testBit_mod_two_pow, Nat.sub_sub, Nat.add_comm 1, Nat.testBit_two_pow_sub_succ (elem_lt w x i), testBit_elem, testBit_elem, BitVec.getLsbD_not]
  by_cases below : j < w
  · simp [below, show w * i + j < 4096 by omega]
  · simp [below]

theorem shl_mod (w a b : Nat) : (if b < w then a * 2 ^ b else 0) % 2 ^ w = a * 2 ^ b % 2 ^ w := by
  split
  · rfl
  · next past => rw [Nat.zero_mod, Nat.mod_eq_zero_of_dvd (Dvd.dvd.mul_left (Nat.pow_dvd_pow 2 (not_lt.mp past)) a)]

theorem shr_mod {w a : Nat} (ha : a < 2 ^ w) (b : Nat) : (if b < w then a / 2 ^ b else 0) % 2 ^ w = a / 2 ^ b := by
  split
  · exact Nat.mod_eq_of_lt ((Nat.div_le_self ..).trans_lt ha)
  · next past => rw [Nat.zero_mod, Nat.div_eq_of_lt (ha.trans_le (Nat.pow_le_pow_right (by decide) (not_lt.mp past)))]

/-- The two's-complement value of a w-bit pattern (R79). -/
theorem toInt_ofNat_word {w a : Nat} (hw : 0 < w) (ha : a < 2 ^ w) :
    (BitVec.ofNat w a).toInt = if 2 ^ (w - 1) ≤ a then (a : Int) - (2 ^ w : Nat) else a := by
  have half : 2 ^ (w - 1) * 2 = 2 ^ w := by rw [← Nat.pow_succ, Nat.succ_eq_add_one, Nat.sub_add_cancel hw]
  rw [BitVec.toInt_eq_toNat_cond, BitVec.toNat_ofNat, Nat.mod_eq_of_lt ha]
  split <;> split <;> omega

/-- An arithmetic shift of a w-bit value is a floor division, however far it goes (R148). -/
theorem sar_mod {w a : Nat} (hw : 0 < w) (ha : a < 2 ^ w) (b : Nat) :
    (if b < w then ((BitVec.ofNat w a).sshiftRight b).toNat else if a < 2 ^ (w - 1) then 0 else 2 ^ w - 1) % 2 ^ w =
      ((if 2 ^ (w - 1) ≤ a then (a : Int) - (2 ^ w : Nat) else a) / (2 ^ b : Nat) % (2 ^ w : Nat)).toNat := by
  have half : 2 ^ (w - 1) * 2 = 2 ^ w := by rw [← Nat.pow_succ, Nat.succ_eq_add_one, Nat.sub_add_cancel hw]
  split
  · rw [Nat.mod_eq_of_lt (BitVec.isLt _), ← BitVec.toNat_ofInt, ← toInt_ofNat_word hw ha]
    have shifted := BitVec.toInt_sshiftRight (x := BitVec.ofNat w a) (n := b)
    rw [Int.shiftRight_eq_div_pow] at shifted
    rw [← shifted, BitVec.ofInt_toInt]
  · next past =>
    have far : 2 ^ w ≤ 2 ^ b := Nat.pow_le_pow_right (by decide) (not_lt.mp past)
    by_cases low : a < 2 ^ (w - 1)
    · rw [if_pos low, if_neg (not_le.mpr low), Int.ediv_eq_zero_of_lt (by omega) (by omega)]
      simp
    · rw [if_neg low, if_pos (not_lt.mp low)]
      have minus : ((a : Int) - (2 ^ w : Nat)) / (2 ^ b : Nat) = -1 := by
        rw [Int.ediv_eq_iff_of_pos (by omega)]
        omega
      rw [minus, Nat.mod_eq_of_lt (by omega)]
      have : (-1 : Int) % (2 ^ w : Nat) = (2 ^ w : Nat) - 1 := by
        rw [← Int.add_emod_right, Int.emod_eq_of_lt (by omega) (by omega)]
        omega
      rw [this]
      omega

/-! ## Elementwise instructions (R148, R149, R151, R153, R159, R160, R162) -/

/-- An operation on the bit patterns of two sources follows the rule that names the same patterns. -/
theorem vbits_two {f : VWord} {op : Nat → Nat → Nat → Nat} {val : VReg → VReg → Nat → Nat}
    (agree : ∀ x y i, i < 4096 / typeW f.typ.toNat →
      op (typeW f.typ.toNat) (elem (typeW f.typ.toNat) x i) (elem (typeW f.typ.toNat) y i) % 2 ^ typeW f.typ.toNat = val x y i)
    (ready : (laneRule s f true true false 2 1 [] [] fun a b _ i => (val a b i, 0)).ready s) :
    vbits s f useAB op = .ok ((laneRule s f true true false 2 1 [] [] fun a b _ i => (val a b i, 0)).next s) := by
  unfold vbits
  refine elementwise_laneRule (u := useAB) ready (by simp [srcTaint]) fun x x' y y' z z' i hx hy _ hi => ?_
  rw [hx rfl, hy rfl, agree x' y' i hi]

/-- The same of one source. -/
theorem vbits_one {f : VWord} {op : Nat → Nat → Nat → Nat} {val : VReg → Nat → Nat}
    (agree : ∀ x i b, i < 4096 / typeW f.typ.toNat →
      op (typeW f.typ.toNat) (elem (typeW f.typ.toNat) x i) b % 2 ^ typeW f.typ.toNat = val x i)
    (ready : (laneRule s f true false false 2 1 [] [] fun a _ _ i => (val a i, 0)).ready s) :
    vbits s f useA op = .ok ((laneRule s f true false false 2 1 [] [] fun a _ _ i => (val a i, 0)).next s) := by
  unfold vbits
  refine elementwise_laneRule (u := useA) ready (by simp [srcTaint]) fun x x' y y' z z' i hx _ _ hi => ?_
  rw [hx rfl, agree x' i _ hi]

theorem width_pos {w i : Nat} (hi : i < 4096 / w) : 0 < w := Nat.pos_of_ne_zero fun e => by simp [e] at hi

theorem dot4_width {f : VWord} (wf : (Instr.vdot4 f).wf = true) : typeW f.typ.toNat = 32 := by
  simp only [Instr.wf, VWord.fits, TyClass.has, Bool.and_eq_true, decide_eq_true_eq] at wf
  have word : f.typ.toNat = 6 ∨ f.typ.toNat = 7 := by tauto
  rcases word with e | e <;> rw [e] <;> rfl

/-- The sum of R149, one product at a time. -/
theorem dot4_rule {f : VWord} (word : typeW f.typ.toNat = 32) :
    let byte (t : Nat) (x : VReg) (j : Nat) : Int := laneInt t (elem 8 x j)
    let ta := if f.imm.getLsbD 0 then 3 else 2
    let tb := if f.imm.getLsbD 1 then 3 else 2
    let r := laneRule s f true true true 4 1 [] [] fun a b c i =>
      (fitInt f.typ.toNat f.sat (laneInt f.typ.toNat (elem 32 c i) + byte ta a (4 * i + 0) * byte tb b (4 * i + 0) +
        byte ta a (4 * i + 1) * byte tb b (4 * i + 1) + byte ta a (4 * i + 2) * byte tb b (4 * i + 2) + byte ta a (4 * i + 3) * byte tb b (4 * i + 3)), 0)
    r.ready s → dot4 s f = .ok (r.next s) := by
  intro byte ta tb r ready
  have of_byte (u : Bool) (x : VReg) (j : Nat) :
      (if u then (elem 8 x j : Int) else sintN 8 (elem 8 x j)) = laneInt (if u then 3 else 2) (elem 8 x j) := by
    cases u with
    | true => rfl
    | false => exact intOf_elem 2 x j
  unfold dot4
  refine elementwise_laneRule (u := useABC) ready (by simp [srcTaint]) fun x x' y y' z z' i hx hy hz _ => ?_
  rw [hx rfl, hy rfl, hz rfl]
  simp only [of_byte, intTo_eq_fitInt, ← word, intOf_elem]
  rfl

theorem select_rule {f : VWord} :
    let w := typeW f.typ.toNat
    let r := laneRule s f true true false 2 1 [] [f.vc.setWidth 3] fun a b _ i =>
      (elem w (if (s.pre.pReg (f.vc.toNat % 8)).val.getLsbD (w * i / 8) then a else b) i, 0)
    r.ready s → vselect s f = .ok (r.next s) := by
  intro w r ready
  have name : (f.vc.setWidth 3).toNat = f.vc.toNat % 8 := by simp
  have predicates := ready.2.2
  have chosen := predicates (f.vc.setWidth 3) (by simp [r, laneRule])
  rw [vselect, predOf_field (name ▸ chosen), eff_ok_bind]
  refine elementwise_laneRule (u := useAB) ready (by simp [srcTaint]) fun x x' y y' z z' i hx hy _ _ => ?_
  rw [hx rfl, hy rfl, apply_ite (elem w · i)]
  rfl

theorem rotate_rule {f : VWord} :
    let w := typeW f.typ.toNat
    let r := laneRule s f true false false 3 1 (if f.bs then [f.vb] else []) [] fun a _ _ i =>
      (elem w a ((i + if f.bs then (s.sv f.vb).toNat % (4096 / w) else f.imm.toNat) % (4096 / w)), 0)
    r.ready s → vrotate s f = .ok (r.next s) := by
  intro w r ready
  have scalars := ready.2.1
  have turned : vrotate s f = elementwise s f useA (if f.bs then taintS s f.vb else 0) 3 1 fun a _ _ i =>
      (elem w a ((i + if f.bs then (s.sv f.vb).toNat % (4096 / w) else f.imm.toNat) % (4096 / w)), 0) := by
    unfold vrotate
    cases bs : f.bs with
    | false => rfl
    | true =>
      rw [srcS_readable (scalars f.vb (by simp [r, laneRule, bs]))]
      rfl
  rw [turned]
  refine elementwise_laneRule (u := useA) ready ?_ fun x x' y y' z z' i hx _ _ _ => by rw [hx rfl]
  cases f.bs <;> simp [srcTaint, taintS]

theorem permute_rule {f : VWord} :
    let w := typeW f.typ.toNat
    let r := laneRule s f true true false 3 1 [] [] fun a b _ i =>
      let x := elem w b i
      (elem w a (if w = 8 then 256 * (i / 256) + x % 256 else x % (4096 / w)), 0)
    r.ready s → vpermute s f = .ok (r.next s) := by
  intro w r ready
  unfold vpermute
  exact elementwise_laneRule (u := useAB) ready (by simp [srcTaint]) fun x x' y y' z z' i hx hy _ _ => by rw [hx rfl, hy rfl]

/-- An instruction without a source (R153, R162). -/
theorem constant_rule {f : VWord} {lat : Nat} {val : Nat → Nat} (ready : (laneRule s f false false false lat 1 [] [] fun _ _ _ i => (val i, 0)).ready s) :
    (elementwise s f {} 0 lat 1 fun _ _ _ i => (val i, 0)) = .ok ((laneRule s f false false false lat 1 [] [] fun _ _ _ i => (val i, 0)).next s) :=
  elementwise_laneRule (u := {}) ready (by simp [srcTaint]) fun _ _ _ _ _ _ _ _ _ _ _ => rfl

/-- `VBCST` from an element of a register or from a scalar (R162). -/
theorem broadcast_rule {f : VWord} {r : RepRule} (rule : vectorMove s (.vbcst f) = some r) (ready : r.ready s) : vbroadcast s f = .ok (r.next s) := by
  unfold vbroadcast
  simp only [vectorMove, Option.some.injEq] at rule
  subst rule
  cases bs : f.bs with
  | true =>
    simp only [bs, if_true] at ready ⊢
    exact elementwise_laneRule (u := { b := true }) ready (by simp [srcTaint]) fun x x' y y' z z' i _ hy _ _ => by rw [hy rfl]
  | false =>
    simp only [bs, Bool.false_eq_true, if_false] at ready ⊢
    exact elementwise_laneRule (u := useA) ready (by simp [srcTaint]) fun x x' y y' z z' i hx _ _ _ => by rw [hx rfl]

/-! ## One element replaced (R162) -/

/-- `VINS` writes one element of its destination and keeps the others. -/
def insertRule (s : State) (f : VWord) : RepRule :=
  { f := f, lat := 3, scal := [f.vb], reads := fun k => [f.vd.toNat + k], dests := fun k => [f.vd.toNat + k]
    outs := fun file k =>
      let w := typeW f.typ.toNat
      ([lanes w fun i => if i = f.imm.toNat then (s.sv f.vb).toNat % 2 ^ w else elem w (file (f.vd.toNat + k)) i], 0) }

theorem insert_rule {f : VWord} (ready : (insertRule s f).ready s) : vinsert s f = .ok ((insertRule s f).next s) := by
  refine RepRule.repeats_meets (r := insertRule s f) ⟨fun _ _ => rfl, fun k prior hk => ?_⟩ ready
  obtain ⟨vectors, scalars, -⟩ := ready
  have old : Readable s (.v (f.vd.toNat + k)) := vectors k hk _ (by simp [insertRule])
  have value : Readable s (.s f.vb.toNat) := scalars f.vb (by simp [insertRule])
  rw [srcS_readable value, Rep.src_ready prior true (fun _ => old)]
  simp only [eff_ok_bind, if_true, RepRule.out, RepRule.one, insertRule, lanes]
  simp [srcTaint, taintS, State.sv]

/-! ## Pairs of registers (R161) -/

/-- Elements in turn from two lists. -/
theorem interleave_range (n : Nat) (a b : Nat → Nat) :
    interleave ((List.range n).map a) ((List.range n).map b) = (List.range (2 * n)).map fun j => if j % 2 = 0 then a (j / 2) else b (j / 2) := by
  induction n generalizing a b with
  | zero => rfl
  | succ n ih =>
    rw [Nat.mul_succ, List.range_succ_eq_map (n := n), List.range_succ_eq_map (n := 2 * n + 1), List.range_succ_eq_map (n := 2 * n)]
    simp only [List.map_cons, List.map_map, interleave]
    have rest := ih (a ∘ Nat.succ) (b ∘ Nat.succ)
    rw [rest]
    simp [Function.comp_def, Nat.add_assoc]

theorem split2_range (n : Nat) (c : Nat → Nat) :
    split2 ((List.range (2 * n)).map c) = ((List.range n).map fun i => c (2 * i), (List.range n).map fun i => c (2 * i + 1)) := by
  induction n generalizing c with
  | zero => rfl
  | succ n ih =>
    rw [Nat.mul_succ, List.range_succ_eq_map (n := n), List.range_succ_eq_map (n := 2 * n + 1), List.range_succ_eq_map (n := 2 * n)]
    simp only [List.map_cons, List.map_map, split2]
    have rest := ih (c ∘ Nat.succ ∘ Nat.succ)
    rw [rest]
    simp [Function.comp_def, Nat.mul_succ]

/-- Two registers from the elements of two others. -/
def pairRule (f : VWord) (pick : (Nat → Nat) → (Nat → Nat) → (Nat → Nat) × (Nat → Nat)) : RepRule :=
  { f := f, lat := 3, reads := fun k => [f.va.toNat + k, f.vb.toNat + k], dests := fun k => [f.vd.toNat + 2 * k, f.vd.toNat + 2 * k + 1]
    outs := fun file k =>
      let w := typeW f.typ.toNat
      let p := pick (elem w (file (f.va.toNat + k))) (elem w (file (f.vb.toNat + k)))
      ([lanes w p.1, lanes w p.2], 0) }

/-- A pair of lists picked from two lists of n elements is the pair of functions of the index. -/
def Picks (n : Nat) (picked : List Nat → List Nat → List Nat × List Nat) (pick : (Nat → Nat) → (Nat → Nat) → (Nat → Nat) × (Nat → Nat)) : Prop :=
  ∀ a b, picked ((List.range n).map a) ((List.range n).map b) = ((List.range n).map (pick a b).1, (List.range n).map (pick a b).2)

theorem pair_rule {f : VWord} {picked : List Nat → List Nat → List Nat × List Nat} {pick : (Nat → Nat) → (Nat → Nat) → (Nat → Nat) × (Nat → Nat)}
    (picks : Picks (4096 / typeW f.typ.toNat) picked pick) (ready : (pairRule f pick).ready s) :
    pairwise s f picked = .ok ((pairRule f pick).next s) := by
  refine RepRule.repeats_meets (r := pairRule f pick) ⟨fun _ _ => rfl, fun k prior hk => ?_⟩ ready
  obtain ⟨vectors, -, -⟩ := ready
  have reads (m : Nat) (h : m ∈ (pairRule f pick).reads k) : Readable s (.v m) := vectors k hk m (List.mem_append_left _ h)
  rw [Rep.src_ready prior true (fun _ => reads _ (.head _)), Rep.src_ready prior true (fun _ => reads _ (.tail _ (.head _)))]
  simp only [eff_ok_bind, if_true, RepRule.out, RepRule.one, pairRule, lanes, elems, picks _ _]
  simp [srcTaint]

/-- The elements of two registers in turn: the first half, and the second. -/
def zipPick (n : Nat) (a b : Nat → Nat) : (Nat → Nat) × (Nat → Nat) :=
  let c (j : Nat) : Nat := if j % 2 = 0 then a (j / 2) else b (j / 2)
  (c, fun i => c (n + i))

/-- The elements of two registers behind each other: those of even index, and those of odd index. -/
def unzipPick (n : Nat) (a b : Nat → Nat) : (Nat → Nat) × (Nat → Nat) :=
  let c (j : Nat) : Nat := if j < n then a j else b (j - n)
  (fun i => c (2 * i), fun i => c (2 * i + 1))

theorem zip_picks (n : Nat) : Picks n (fun a b => let c := interleave a b; (c.take a.length, c.drop a.length)) (zipPick n) := by
  intro a b
  have double : List.range (2 * n) = List.range n ++ (List.range n).map (n + ·) := by rw [Nat.two_mul, List.range_add]
  simp only [interleave_range, zipPick, double, List.map_append, List.length_map, List.length_range]
  rw [List.take_left' (by simp), List.drop_left' (by simp), List.map_map]
  rfl

theorem unzip_picks (n : Nat) : Picks n (fun a b => split2 (a ++ b)) (unzipPick n) := by
  intro a b
  have joined : (List.range n).map a ++ (List.range n).map b = (List.range (2 * n)).map fun j => if j < n then a j else b (j - n) := by
    rw [Nat.two_mul, List.range_add, List.map_append, List.map_map]
    refine congrArg₂ _ (List.map_congr_left fun i hi => (if_pos (List.mem_range.mp hi)).symm) (List.map_congr_left fun i _ => ?_)
    simp
  exact (congrArg split2 joined).trans (split2_range n _)

theorem zip_rule {f : VWord} {r : RepRule} (rule : vectorMove s (.vzip f) = some r) : r = pairRule f (zipPick (4096 / typeW f.typ.toNat)) := by
  cases rule
  have chosen (w : Nat) (file : Nat → VReg) (even : Prop) [Decidable even] (a b i : Nat) :
      elem w (file (if even then a else b)) i = if even then elem w (file a) i else elem w (file b) i := by split <;> rfl
  simp only [pairRule, zipPick, chosen]

theorem unzip_rule {f : VWord} {r : RepRule} (rule : vectorMove s (.vunzip f) = some r) : r = pairRule f (unzipPick (4096 / typeW f.typ.toNat)) := by
  cases rule
  rfl

end Sys2Proof.Machine
end


section
set_option Elab.async false
/-! OBLIGATION O13. -/

namespace Sys2Proof.Machine

/-- Settles O13, instruction by instruction: each body does in every repetition what its rule says. -/
theorem vectorMoves : Obligations.VectorMoves := by
  unfold Obligations.VectorMoves
  intro s i r rule accepts ready
  have meets {body : State → Eff State} (meaning : ∀ s, exec i s = run i s body) (answers : body s = .ok (r.next s)) : exec i s = .next (r.next s) :=
    exec_of_body accepts meaning answers
  cases i with
  | vzip f => obtain rfl := zip_rule rule; exact meets (fun _ => rfl) (pair_rule (zip_picks _) ready)
  | vunzip f => obtain rfl := unzip_rule rule; exact meets (fun _ => rfl) (pair_rule (unzip_picks _) ready)
  | vbcst f => exact meets (fun _ => rfl) (broadcast_rule rule ready)
  | vand f => cases rule; exact meets (fun _ => rfl) (vbits_two (fun x y i _ => elem_and _ x y i) ready)
  | vor f => cases rule; exact meets (fun _ => rfl) (vbits_two (fun x y i _ => elem_or _ x y i) ready)
  | vxor f => cases rule; exact meets (fun _ => rfl) (vbits_two (fun x y i _ => elem_xor _ x y i) ready)
  | vnot f => cases rule; exact meets (fun _ => rfl) (vbits_one (fun x i _ hi => elem_not hi x) ready)
  | vmov f => cases rule; exact meets (fun _ => rfl) (vbits_one (fun x i _ _ => elem_mod _ x i) ready)
  | vshl f => cases rule; exact meets (fun _ => rfl) (vbits_two (fun x y i _ => shl_mod _ _ _) ready)
  | vshr f => cases rule; exact meets (fun _ => rfl) (vbits_two (fun x y i _ => shr_mod (elem_lt _ x i) _) ready)
  | vsar f => cases rule; exact meets (fun _ => rfl) (vbits_two (fun x y i hi => sar_mod (width_pos hi) (elem_lt _ x i) _) ready)
  | vdot4 f => cases rule; exact meets (fun _ => rfl) (dot4_rule (dot4_width (wf_of_accepts accepts)) ready)
  | vsel f => cases rule; exact meets (fun _ => rfl) (select_rule ready)
  | viota f => cases rule; exact meets (fun _ => rfl) (constant_rule ready)
  | vbcsti f lit => cases rule; exact meets (fun _ => rfl) (constant_rule ready)
  | vperm f => cases rule; exact meets (fun _ => rfl) (permute_rule ready)
  | vrot f => cases rule; exact meets (fun _ => rfl) (rotate_rule ready)
  | vins f => cases rule; exact meets (fun _ => rfl) (insert_rule ready)
  | _ => cases rule

end Sys2Proof.Machine
end


section
set_option Elab.async false
/-! SUPPORT. Vector accesses (R143, R236, R237): their units and elements, what their translations leave, and the writes of a scatter. -/

namespace Sys2Proof.Machine

variable {s t : State} {f : MemWord}

/-! ## What translations leave (R286) -/

/-- t is s but for translations that the core's TLB has taken. -/
structure OnlyTlb (s t : State) : Prop where
  only : OnlyCore s t
  core : ∃ l, t.core = { s.core with tlb := l }

namespace OnlyTlb

theorem refl (s : State) : OnlyTlb s s := ⟨.refl s, s.core.tlb, rfl⟩

theorem tlbFill_trans {e : TlbEnt} (rest : OnlyTlb (s.tlbFill s.cur e) t) : OnlyTlb s t := by
  obtain ⟨k, filled⟩ := s.tlbFill_core e
  obtain ⟨only, l, core⟩ := rest
  exact ⟨(s.tlbFill_onlyCore e).trans only, l, by rw [core, filled]⟩

theorem pre (same : OnlyTlb s t) : t.pre = s.pre := by
  obtain ⟨-, l, core⟩ := same
  rw [State.pre, core]
  rfl

theorem fields (same : OnlyTlb s t) : t.cur = s.cur ∧ t.mem = s.mem ∧ t.now = s.now := by
  obtain ⟨⟨cores, -⟩, -⟩ := same
  rw [cores]
  exact ⟨rfl, rfl, rfl⟩

theorem tagFree (same : OnlyTlb s t) (free : TagFree s) : TagFree t := by
  obtain ⟨-, l, core⟩ := same
  rw [TagFree, core]
  exact free

theorem canCheckpoint (same : OnlyTlb s t) (can : CanCheckpoint s) : CanCheckpoint t := by
  obtain ⟨-, l, core⟩ := same
  rw [CanCheckpoint, core]
  exact can

theorem settled (same : OnlyTlb s t) {ps : List Piece} {m : Taint} {release : Bool} (settled : Settled s ps m release) : Settled t ps m release := by
  have pre := same.pre
  obtain ⟨-, l, core⟩ := same
  rw [Settled, pre, core]
  exact settled

theorem loadIssued {r : State} (same : OnlyTlb s r) {d : RegName} {keep : Taint} {l : Load} (issued : LoadIssued r t d keep l) : LoadIssued s t d keep l := by
  obtain ⟨first, tlb, core⟩ := same
  obtain ⟨only, rest⟩ := issued
  rw [core] at rest
  exact ⟨first.trans only, rest⟩

end OnlyTlb

theorem State.pieces_onlyTlb {kind : Nat} {l : List (Nat × Nat × Nat)} {ps : List Piece} (h : s.pieces kind l = .ok (ps, t)) : OnlyTlb s t := by
  induction l generalizing s ps with
  | nil => cases h; exact .refl _
  | cons a l ih =>
    simp only [State.pieces] at h
    split at h
    · cases h
    · split at h
      · cases h
      · next rest => cases h; exact (ih rest).tlbFill_trans

theorem State.piece_off {off va len kind : Nat} {dev : Bool} {p : Piece} {e : TlbEnt} (h : s.piece off va len kind dev = .ok (p, e)) : p.off = off := by
  unfold State.piece at h
  split at h
  · cases h
  · dsimp only at h
    repeat' split at h
    all_goals cases h
    all_goals rfl

/-- The elements of an access that translate: each piece is an element of the list, and the TLB alone has changed. -/
theorem State.elements_ok {kind n : Nat} {l : List (Nat × Nat)} {ps : List Piece} (h : s.elements kind n l = .ok (ps, t)) :
    OnlyTlb s t ∧ ∀ p ∈ ps, ∃ x ∈ l, p.off = x.1 := by
  induction l generalizing s ps with
  | nil => cases h; exact ⟨.refl _, fun p hp => absurd hp List.not_mem_nil⟩
  | cons a l ih =>
    simp only [State.elements] at h
    split at h
    · cases h
    split at h
    · cases h
    next one =>
    split at h
    · cases h
    next rest =>
    cases h
    obtain ⟨same, offsets⟩ := ih rest
    refine ⟨same.tlbFill_trans, fun p hp => ?_⟩
    rcases List.mem_cons.mp hp with rfl | hp
    · exact ⟨a, List.mem_cons_self .., State.piece_off one⟩
    · obtain ⟨x, hx, off⟩ := offsets p hp
      exact ⟨x, List.mem_cons_of_mem _ hx, off⟩

/-! ## Operands -/

theorem gaddr_units {a : Nat} (plan : Bool) (kind : Nat) (inside : a < 2 ^ 56) (aligned : a % 64 = 0) : gaddr plan a 512 kind = .ok a := by
  simp only [gaddr, not_le.mpr inside, if_false, show min 512 64 = 64 from rfl, aligned, ne_eq, not_true_eq_false]

/-- The governing predicate of an access, with its taint (R143). -/
theorem predOf_memPred (ready : f.pen = true → Readable s (.p f.pg.toNat)) :
    predOf s f.pen f.pg = .ok (memPred s f, if f.pen then (s.pre.pReg f.pg.toNat).taint else 0) := predOf_ready ready

/-- What the destination of a predicated load keeps (R115). -/
def keptTaint (s : State) (f : MemWord) : Taint := if f.pen then (s.pre.vReg f.dr.toNat).taint ||| (s.pre.pReg f.pg.toNat).taint else 0

/-- The old value that the inactive bytes of a predicated load keep (R143). -/
def oldValue (s : State) (f : MemWord) : VReg := if f.pen then (s.pre.vReg f.dr.toNat).val else 0

/-- A predicate bit of each byte of an element. -/
theorem gatherList_eq : gatherList (s.sv f.base) (s.pre.vReg f.idx.toNat).val f (memPred s f) = elementList s f := by
  have bit (i : Nat) : activeIn (memPred s f) (8 * 2 ^ f.sz.toNat) i = (memPred s f).getLsbD (2 ^ f.sz.toNat * i) := by
    rw [activeIn, Nat.mul_assoc, Nat.mul_div_cancel_left _ (by decide)]
  simp only [gatherList, bit]
  rfl

/-! ## Loads and gathers -/

/-- What a vector load names besides its pieces. -/
def vectorLoadArgs (s : State) (f : MemWord) : LoadArgs :=
  { dest := .v f.dr.toNat, size := 512, taint := addressTaint s f ||| predTaint f (if f.pen then (s.pre.pReg f.pg.toNat).taint else 0), keep := keptTaint s f
    acq := isAcq f, scope := f.scope.toNat, inactive := maskedBytes (~~~memPred s f) (oldValue s f) }

theorem vectorLoad_eq (pred : f.pen = true → Readable s (.p f.pg.toNat)) (ready : AddressReady s f) (inside : address s f 512 < 2 ^ 56)
    (aligned : address s f 512 % 64 = 0) (dest : Readable s (.v f.dr.toNat)) {ps : List Piece} {r : State}
    (units : s.pieces 0 (vectorUnits s f (address s f 512)) = .ok (ps, r)) : vectorLoad s f = r.globalLoad ps (vectorLoadArgs s f) := by
  have units' : s.pieces 0 ((activeUnits (memPred s f)).map fun k => (64 * k, address s f 512 + 64 * k, 64)) = .ok (ps, r) := units
  have governed := predOf_memPred pred
  unfold vectorLoad vectorLoadArgs keptTaint oldValue
  simp only [memAddress_ready ready, gaddr_units _ _ inside aligned, governed, srcV_readable dest, destOk_readable dest, eff_ok_bind, units']
  cases f.pen <;> rfl

/-- What a gather names besides its pieces. -/
def gatherArgs (s : State) (f : MemWord) : LoadArgs :=
  { dest := .v f.dr.toNat, size := 512, least := 8
    taint := taintS s f.base ||| (s.pre.vReg f.idx.toNat).taint ||| predTaint f (if f.pen then (s.pre.pReg f.pg.toNat).taint else 0)
    keep := keptTaint s f
    inactive := (dataOf (vecBytes (oldValue s f))).filter fun x => !activeIn (memPred s f) (8 * memBytes f) (x.1 / memBytes f) }

theorem gather_eq (pred : f.pen = true → Readable s (.p f.pg.toNat)) (base : Readable s (.s f.base.toNat)) (index : Readable s (.v f.idx.toNat))
    (dest : Readable s (.v f.dr.toNat)) {ps : List Piece} {r : State}
    (elements : s.elements 0 (memBytes f) (elementList s f) = .ok (ps, r)) : gather s f = r.globalLoad ps (gatherArgs s f) := by
  have size : 2 ^ f.sz.toNat = memBytes f := rfl
  have governed := predOf_memPred pred
  unfold gather gatherArgs keptTaint oldValue
  simp only [size, srcS_sv base, srcV_readable index, governed, srcV_readable dest, destOk_readable dest, gatherList_eq, eff_ok_bind, elements]
  cases f.pen <;> rfl

/-! ## Stores -/

theorem Tbl.get?_map_range {α : Type} (g : Nat → α) (n k : Nat) : Tbl.get? ((List.range n).map fun i => (i, g i)) k = if k < n then some (g k) else none := by
  have from_start (l : List Nat) : Tbl.get? (l.map fun i => (i, g i)) k = if k ∈ l then some (g k) else none := by
    induction l with
    | nil => rfl
    | cons i l ih =>
      rw [List.map_cons, Tbl.get?, ih]
      by_cases here : i = k
      · simp [here]
      · simp [here, Ne.symm here]
  simpa using from_start (List.range n)

theorem vecBytes_getD (v : VReg) {k : Nat} (hk : k < 512) : (vecBytes v).getD k 0 = BitVec.ofNat 8 (v.toNat / 256 ^ k) := by
  rw [vecBytes, toBytes_eq_map]
  simp [List.getD_eq_getElem?_getD, hk]

/-- The active bytes of a register, by offset (R236). -/
theorem get?_maskedBytes (p : PReg) (v : VReg) {k : Nat} (hk : k < 512) :
    Tbl.get? (maskedBytes p v) k = if p.getLsbD k then some (BitVec.ofNat 8 (v.toNat / 256 ^ k)) else none := by
  have bytes : dataOf (vecBytes v) = (List.range 512).map fun i => (i, (vecBytes v).getD i 0) := by
    rw [dataOf, zip_range_eq, vecBytes, length_toBytes]
  rw [maskedBytes, Tbl.get?_filter _ p.getLsbD, bytes, Tbl.get?_map_range, if_pos hk, vecBytes_getD v hk]

/-- A store enters the buffer where it has room (R219, R442). -/
theorem globalStore_enters (ps : List Piece) (data : Tbl Byte) (m : Taint) (release wide : Bool) (real : ps ≠ []) (room : BufferRoom s ps.length) :
    ∃ t e, s.globalStore ps data m release wide = .ok t ∧ StoreIssued s t e ∧ e.k = .store ps data release wide := by
  have size : max 1 ps.length = ps.length := max_eq_right (List.length_pos_iff.mpr real)
  refine ⟨_, _, if_neg ?_, ⟨s.upd_onlyCore _, by rw [State.core_upd]; rfl, rfl⟩, rfl⟩
  simp only [List.map_cons, List.map_nil, List.foldl_cons, List.foldl_nil, WKind.size, size, Nat.zero_add]
  exact not_lt.mpr room

theorem OnlyTlb.storeIssued {r : State} (same : OnlyTlb s r) {e : WEntry} (issued : StoreIssued r t e) : StoreIssued s t e := by
  obtain ⟨first, tlb, core⟩ := same
  obtain ⟨only, rest, withheld⟩ := issued
  rw [core] at rest
  exact ⟨first.trans only, rest, withheld⟩

theorem OnlyTlb.bufferRoom (same : OnlyTlb s t) {n : Nat} (room : BufferRoom s n) : BufferRoom t n := by
  obtain ⟨-, l, core⟩ := same
  rw [BufferRoom, core]
  exact room

theorem vectorStore_eq (pred : f.pen = true → Readable s (.p f.pg.toNat)) (ready : AddressReady s f) (inside : address s f 512 < 2 ^ 56)
    (aligned : address s f 512 % 64 = 0) (data : Readable s (.v f.dr.toNat)) {ps : List Piece} {r : State}
    (units : s.pieces 1 (vectorUnits s f (address s f 512)) = .ok (ps, r)) :
    vectorStore s f = if ps.isEmpty then .ok r else r.globalStore ps (maskedBytes (memPred s f) (s.pre.vReg f.dr.toNat).val)
      (addressTaint s f ||| (s.pre.vReg f.dr.toNat).taint ||| predTaint f (if f.pen then (s.pre.pReg f.pg.toNat).taint else 0)) (isRel f)
      (decide (2 < f.scope.toNat)) := by
  have units' : s.pieces 1 ((activeUnits (memPred s f)).map fun k => (64 * k, address s f 512 + 64 * k, 64)) = .ok (ps, r) := units
  have governed := predOf_memPred pred
  unfold vectorStore
  simp only [memAddress_ready ready, gaddr_units _ _ inside aligned, governed, srcV_readable data, eff_ok_bind, units']

/-! ## Scatters -/

/-- The memory after the writes of a list of pieces, in their order. -/
def written (m : Memory) (data : Piece → List Byte) (ps : List Piece) : Memory := ps.foldl (fun m q => Memory.writeN m q.pa (data q)) m

theorem foldl_storeNow_mem (bt : Nat) (data : Piece → List Byte) (ps : List Piece) (s : State) :
    (ps.foldl (fun (s : State) q => s.storeNow q.pa bt (data q)) s).mem = written s.mem data ps := by
  induction ps generalizing s with
  | nil => rfl
  | cons q ps ih => exact ih _

section
variable {m : Memory} {data : Piece → List Byte} {n : Nat}

theorem written_wf (canonical : Memory.wf m = true) (ps : List Piece) : Memory.wf (written m data ps) = true := by
  induction ps generalizing m with
  | nil => exact canonical
  | cons q ps ih => exact ih (Memory.writeN_wf canonical _ _)

/-- A byte that none of the pieces holds is as before. -/
theorem read_written_outside (canonical : Memory.wf m = true) {ps : List Piece} (whole : ∀ q ∈ ps, (data q).length = n) {x : Nat}
    (outside : ∀ q ∈ ps, x < q.pa ∨ q.pa + n ≤ x) : Memory.read (written m data ps) x = Memory.read m x := by
  induction ps generalizing m with
  | nil => rfl
  | cons q ps ih =>
    have rest := ih (Memory.writeN_wf canonical q.pa (data q)) (fun p hp => whole p (.tail _ hp)) fun p hp => outside p (.tail _ hp)
    have first := outside q (.head _)
    refine rest.trans ?_
    rw [Memory.read_writeN canonical, whole q (.head _), if_neg (by omega)]

/-- A byte of a piece that no later piece holds is that of the piece. -/
theorem read_written_last (canonical : Memory.wf m = true) {before after : List Piece} {q : Piece} {k : Nat}
    (whole : ∀ p ∈ before ++ q :: after, (data p).length = n) (hk : k < n) (last : ∀ p ∈ after, q.pa + k < p.pa ∨ p.pa + n ≤ q.pa + k) :
    Memory.read (written m data (before ++ q :: after)) (q.pa + k) = (data q).getD k 0 := by
  have canonical' := written_wf (data := data) canonical before
  have split : written m data (before ++ q :: after) = written (Memory.writeN (written m data before) q.pa (data q)) data after := by
    simp only [written, List.foldl_append, List.foldl_cons]
  have length := whole q (by simp)
  rw [split, read_written_outside (Memory.writeN_wf canonical' _ _) (fun p hp => whole p (by simp [hp])) last, Memory.read_writeN canonical', length,
    if_pos (by omega), Nat.add_sub_cancel_left]

end

/-- The bytes of an element of a register. -/
def elementBytes (v : VReg) (n : Nat) (q : Piece) : List Byte := ((vecBytes v).drop q.off).take n

theorem elementBytes_getD {v : VReg} {n : Nat} {q : Piece} (inside : q.off + n ≤ 512) {k : Nat} (hk : k < n) :
    (elementBytes v n q).getD k 0 = BitVec.ofNat 8 (v.toNat / 256 ^ (q.off + k)) := by
  rw [← vecBytes_getD v (by omega), elementBytes]
  simp [List.getD_eq_getElem?_getD, hk]

theorem length_elementBytes {v : VReg} {n : Nat} {q : Piece} (inside : q.off + n ≤ 512) : (elementBytes v n q).length = n := by
  rw [elementBytes, List.length_take, List.length_drop, vecBytes, length_toBytes]
  omega

theorem elementList_inside {x : Nat × Nat} (hx : x ∈ elementList s f) : x.1 + memBytes f ≤ 512 := by
  obtain ⟨i, hi, rfl⟩ := List.mem_map.mp hx
  have low : i < 512 / memBytes f := List.mem_range.mp (List.mem_of_mem_filter hi)
  calc i * memBytes f + memBytes f = (i + 1) * memBytes f := (Nat.succ_mul ..).symm
    _ ≤ 512 := (Nat.mul_le_mul_right _ low).trans (Nat.div_mul_le_self ..)

/-- Taint of a scatter's access without the control taint. -/
def scatterTaint (s : State) (f : MemWord) : Taint :=
  (s.pre.sReg f.base.toNat).taint ||| (s.pre.vReg f.idx.toNat).taint ||| (s.pre.vReg f.dr.toNat).taint |||
    (if f.pen then (s.pre.pReg f.pg.toNat).taint else 0)

theorem scatter_writes (pred : f.pen = true → Readable s (.p f.pg.toNat)) (base : Readable s (.s f.base.toNat)) (index : Readable s (.v f.idx.toNat))
    (data : Readable s (.v f.dr.toNat)) (can : CanCheckpoint s) {ps : List Piece} {r : State}
    (elements : s.elements 1 (memBytes f) (elementList s f) = .ok (ps, r)) (settled : Settled s ps (scatterTaint s f) false) :
    ∃ t, scatter s f = .ok t ∧ t.mem = written s.mem (elementBytes (s.pre.vReg f.dr.toNat).val (memBytes f)) ps := by
  have size : 2 ^ f.sz.toNat = memBytes f := rfl
  have governed := predOf_memPred pred
  obtain ⟨same, -⟩ := State.elements_ok elements
  obtain ⟨t, checkpoint, leaves⟩ := needCk_leaves (same.canCheckpoint can)
  have taint : taintS s f.base ||| (s.pre.vReg f.idx.toNat).taint ||| (s.pre.vReg f.dr.toNat).taint |||
      predTaint f (if f.pen then (s.pre.pReg f.pg.toNat).taint else 0) = scatterTaint s f := by
    unfold scatterTaint predTaint
    cases f.pen <;> rfl
  have body : scatter s f = .ok (ps.foldl (fun r q => r.storeNow q.pa (t.core.boundTime (accessTaint s (scatterTaint s f)))
      (elementBytes (s.pre.vReg f.dr.toNat).val (memBytes f) q)) t).ckEnd := by
    unfold scatter
    simp only [size, srcS_sv base, srcV_readable index, governed, srcV_readable data, gatherList_eq, eff_ok_bind, elements, taint,
      settled_ok (same.settled settled), checkpoint]
    rfl
  refine ⟨_, body, ?_⟩
  rw [State.ckEnd_mem, foldl_storeNow_mem, leaves.mem, same.fields.2.1]

end Sys2Proof.Machine
end


section
set_option Elab.async false
/-! OBLIGATION O24. -/

namespace Sys2Proof.Machine

/-- Settles O24: the pieces of an access are translated first; then a load issues, a store is withheld, or a scatter writes piece after piece. -/
theorem vectorAccess : Obligations.VectorAccess := by
  unfold Obligations.VectorAccess
  intro s f pred a d keep n
  refine ⟨fun accepts ready inside aligned dest free ps r units => ?_, fun accepts ready inside aligned data ps r units room => ?_,
    fun accepts base index dest free ps r elements => ?_, fun accepts base index data canonical can ps r elements settled => ?_⟩
  · have same := State.pieces_onlyTlb units
    obtain ⟨t, l, loads, issued, c⟩ := globalLoad_issues (same.tagFree free) ps (vectorLoadArgs s f)
    exact ⟨t, l, exec_of_body accepts (fun _ => rfl) ((vectorLoad_eq pred ready inside aligned dest units).trans loads), same.loadIssued issued,
      c.size, c.pieces, c.fixed, c.sent.trans same.fields.2.2, c.least⟩
  · have same := State.pieces_onlyTlb units
    have body := vectorStore_eq pred ready inside aligned data units
    refine ⟨fun none => ?_, fun real => ?_⟩
    · rw [none] at body
      exact exec_of_body accepts (fun _ => rfl) body
    · rw [List.isEmpty_eq_false_iff.mpr real] at body
      obtain ⟨t, e, enters, issued, kind⟩ := globalStore_enters ps (maskedBytes (memPred s f) (s.pre.vReg f.dr.toNat).val) _ _ _ real (same.bufferRoom room)
      exact ⟨t, e, _, exec_of_body accepts (fun _ => rfl) (body.trans enters), same.storeIssued issued, kind, fun k hk => get?_maskedBytes _ _ hk⟩
  · obtain ⟨same, -⟩ := State.elements_ok elements
    obtain ⟨t, l, loads, issued, c⟩ := globalLoad_issues (same.tagFree free) ps (gatherArgs s f)
    exact ⟨t, l, exec_of_body accepts (fun _ => rfl) ((gather_eq pred base index dest elements).trans loads), same.loadIssued issued,
      c.size, c.pieces, c.fixed, c.sent.trans same.fields.2.2, c.least⟩
  · obtain ⟨-, offsets⟩ := State.elements_ok elements
    have inside (q : Piece) (hq : q ∈ ps) : q.off + n ≤ 512 := by
      obtain ⟨x, hx, off⟩ := offsets q hq
      exact off ▸ elementList_inside hx
    have whole (q : Piece) (hq : q ∈ ps) : (elementBytes (s.pre.vReg d).val n q).length = n := length_elementBytes (inside q hq)
    obtain ⟨t, body, mem⟩ := scatter_writes pred base index data can elements settled
    refine ⟨t, exec_of_body accepts (fun _ => rfl) body, fun x outside => ?_, fun before q after k split hk last => ?_⟩
    · rw [mem, read_written_outside canonical whole outside]
    · rw [mem, ← elementBytes_getD (inside q (by simp [split])) hk]
      subst split
      exact read_written_last canonical whole hk last

end Sys2Proof.Machine
end


section
set_option Elab.async false
/-! SUPPORT. Line moves (R165 to R168) and queue rows (R169): the queue that a line move enters, the cells of a line, the value that a waiting
producer gets. -/

namespace Sys2Proof.Machine

variable {s : State} {c : Core} {f : VWord} {e : MxEnt} {tile : Nat}

/-! ## The queue (R168) -/

/-- A line move behind entries that name its tile waits. -/
theorem settleLines_waits (now : Nat) (l done : List MxEnt) (busy : List Nat) (c : Core) (plain : ∀ x ∈ l, x.op.isLine = false)
    (tiles : e.op.tiles = [tile]) (named : tile ∈ busy ∨ ∃ x ∈ l, tile ∈ x.op.tiles) :
    settleLines now done busy (l ++ [e]) c = { c with mxq := done ++ (l ++ [e]) } := by
  induction l generalizing done busy with
  | nil =>
    have before : tile ∈ busy := named.resolve_right fun ⟨x, hx, _⟩ => absurd hx List.not_mem_nil
    simp [settleLines, tiles, before]
  | cons x l ih =>
    have earlier : tile ∈ x.op.tiles ++ busy ∨ ∃ y ∈ l, tile ∈ y.op.tiles := by
      rcases named with before | ⟨y, hy, names⟩
      · exact .inl (List.mem_append_right _ before)
      · rcases List.mem_cons.mp hy with rfl | hy
        · exact .inl (List.mem_append_left _ names)
        · exact .inr ⟨y, hy, names⟩
    rw [List.cons_append, settleLines, plain x (.head _), Bool.false_and, if_neg Bool.false_ne_true, ih _ _ (fun y hy => plain y (.tail _ hy)) earlier]
    simp

/-- A line move whose tile no entry names is performed. -/
theorem settleLines_moves (now : Nat) (l done : List MxEnt) (busy : List Nat) (c : Core) (plain : ∀ x ∈ l, x.op.isLine = false)
    (line : e.op.isLine = true) (tiles : e.op.tiles = [tile]) (free : tile ∉ busy) (unnamed : ∀ x ∈ l, tile ∉ x.op.tiles) :
    settleLines now done busy (l ++ [e]) c = { c.moveLine now e with mxq := done ++ l } := by
  induction l generalizing done busy with
  | nil => simp [settleLines, line, tiles, free]
  | cons x l ih =>
    have still : tile ∉ x.op.tiles ++ busy := by simp [free, unnamed x]
    rw [List.cons_append, settleLines, plain x (.head _), Bool.false_and, if_neg Bool.false_ne_true,
      ih _ _ (fun y hy => plain y (.tail _ hy)) still fun y hy => unnamed y (.tail _ hy)]
    simp

theorem State.enqueueMx_onlyCore (op : MxOp) (checked : Bool) (fills : List Nat) : OnlyCore s (s.enqueueMx op checked fills) := s.upd_onlyCore _

/-- The entry of a line move, and the core that has it at the end of its queue. -/
def lineEntry (c : Core) (op : MxOp) : MxEnt := { id := c.nextId, op := op, pc := c.gpc }

def Core.withLine (c : Core) (op : MxOp) : Core := { c with mxq := c.mxq ++ [lineEntry c op], nextId := c.nextId + 1 }

theorem enqueueMx_waits {op : MxOp} (plain : NoLines s.core) (tiles : op.tiles = [tile]) (named : ∃ x ∈ s.core.mxq, tile ∈ x.op.tiles) :
    (s.enqueueMx op true []).core = s.core.withLine op := by
  rw [State.enqueueMx, State.core_upd]
  exact settleLines_waits (e := lineEntry s.core op) s.now s.core.mxq [] [] _ plain tiles (.inr named)

theorem enqueueMx_moves {op : MxOp} (plain : NoLines s.core) (line : op.isLine = true) (tiles : op.tiles = [tile])
    (unnamed : ∀ x ∈ s.core.mxq, tile ∉ x.op.tiles) :
    (s.enqueueMx op true []).core = { (s.core.withLine op).moveLine s.now (lineEntry s.core op) with mxq := s.core.mxq } := by
  rw [State.enqueueMx, State.core_upd]
  exact settleLines_moves (e := lineEntry s.core op) s.now s.core.mxq [] [] _ plain line tiles List.not_mem_nil unnamed

/-! ## The cells of a line (R165) -/

theorem lineCell_eq (dir x i : Nat) : lineCell dir x i = lineElem dir x i := by
  unfold lineCell lineElem
  split
  · rfl
  · rfl
  · rfl
  · next not0 not1 not2 => rw [if_neg not0, if_neg not1, if_neg not2, Nat.add_comm 128]

theorem lineElem_injective {dir x i j : Nat} (same : lineElem dir x i = lineElem dir x j) : i = j := by
  unfold lineElem at same
  split at same
  · exact (Prod.mk.inj same).2
  · split at same
    · exact (Prod.mk.inj same).1
    · split at same <;> exact (Prod.mk.inj same).1

theorem lineElem_lt {dir x i : Nat} (hx : x < 128) (hi : i < 128) : (lineElem dir x i).1 < 128 ∧ (lineElem dir x i).2 < 128 := by
  unfold lineElem
  split
  · exact ⟨hx, hi⟩
  · split
    · exact ⟨hi, hx⟩
    · split <;> exact ⟨hi, Nat.mod_lt _ (by decide)⟩

theorem line_lanes (g : Nat → Nat) : vecOf 32 ((List.range 128).map g) = lanes 32 g := rfl

theorem elem_line {g : Nat → Nat} (low : ∀ i, g i % 2 ^ 32 = g i) {i : Nat} (hi : i < 128) : elem 32 (lanes 32 g) i = g i := by
  rw [elem_lanes (by simpa using hi), low]

/-- A tile's element has 32 bits. -/
theorem Core.acc_mod (c : Core) (t i j : Nat) : c.acc t i j % 2 ^ 32 = c.acc t i j := elem_mod 32 _ j

/-- The element of a line, active or not, under a predicate (R143). -/
theorem activeIn_line (pen : Bool) (p : PReg) {i : Nat} (hi : i < 128) :
    activeIn (if pen then p else BitVec.allOnes 512) 32 i = (!pen || p.getLsbD (4 * i)) := by
  rw [activeIn_pred pen p (by simpa using hi), show 32 * i / 8 = 4 * i by omega]

/-! ## A line written (R167) -/

/-- The active index of a line that names a cell. -/
def lineHit (dir x : Nat) (act : PReg) (r j : Nat) : Option Nat :=
  (List.range 128).find? fun i => activeIn act 32 i && decide (lineElem dir x i = (r, j))

theorem lineHit_of_active {dir x i r j : Nat} {act : PReg} (hi : i < 128) (active : activeIn act 32 i = true) (cell : lineElem dir x i = (r, j)) :
    lineHit dir x act r j = some i := by
  unfold lineHit
  cases found : (List.range 128).find? fun i => activeIn act 32 i && decide (lineElem dir x i = (r, j)) with
  | none => simpa [active, cell] using List.find?_eq_none.mp found i (List.mem_range.mpr hi)
  | some k =>
    have names := List.find?_some found
    simp only [Bool.and_eq_true, decide_eq_true_eq] at names
    rw [lineElem_injective (names.2.trans cell.symm)]

theorem lineHit_none {dir x r j : Nat} {act : PReg} (missed : ∀ i, i < 128 → activeIn act 32 i = true → lineElem dir x i ≠ (r, j)) :
    lineHit dir x act r j = none := by
  refine List.find?_eq_none.mpr fun i hi names => ?_
  simp only [Bool.and_eq_true, decide_eq_true_eq] at names
  exact missed i (List.mem_range.mp hi) names.1 names.2

theorem Core.acc_putLine (c : Core) {t dir x r j : Nat} (ht : t < 4) (act : PReg) (v : VReg) (pre : Bool) (hr : r < 128) (hj : j < 128) :
    (c.putLine t dir x act v pre).acc t r j = (lineHit dir x act r j).elim (c.acc t r j) (elem 32 v) := by
  unfold Core.putLine
  simp only [lineCell_eq]
  rw [Core.acc_putTile c ht pre _ hr, line_lanes, elem_line (fun k => ?_) hj]
  · unfold lineHit
    split
    · next found => rw [found]; rfl
    · next found => rw [found]; rfl
  · split
    · exact elem_mod ..
    · exact Core.acc_mod ..

theorem Core.acc_putLine_active (c : Core) {t dir x i : Nat} (ht : t < 4) (hx : x < 128) {act : PReg} (v : VReg) (pre : Bool) (hi : i < 128)
    (active : activeIn act 32 i = true) :
    (c.putLine t dir x act v pre).acc t (lineElem dir x i).1 (lineElem dir x i).2 = elem 32 v i := by
  obtain ⟨hr, hj⟩ := lineElem_lt (dir := dir) hx hi
  rw [Core.acc_putLine c ht act v pre hr hj, lineHit_of_active hi active Prod.mk.eta.symm]
  rfl

theorem Core.acc_putLine_other (c : Core) {t dir x r j : Nat} (ht : t < 4) {act : PReg} (v : VReg) (pre : Bool) (hr : r < 128) (hj : j < 128)
    (missed : ∀ i, i < 128 → activeIn act 32 i = true → lineElem dir x i ≠ (r, j)) : (c.putLine t dir x act v pre).acc t r j = c.acc t r j := by
  rw [Core.acc_putLine c ht act v pre hr hj, lineHit_none missed]
  rfl

/-! ## A line read (R166) -/

/-- The value of the newest producer is known: it waits no longer, or in exposed mode is on its way (R475). -/
theorem Core.deliver_newest {c : Core} {ps : List Producer} {p : Producer} (prods : c.prods = ps ++ [p]) (newest : ∀ q ∈ ps, q.id ≠ p.id) (now val : Nat) :
    c.deliver now p.id val = if p.exposed then { c with
        prods := ps
        pipe := c.pipe ++ [{ due := max p.minDue (now + p.lag), sent := p.sent, dest := some p.dest, val := val, taint := p.taint, vx := p.vx, preCk := p.preCk }] }
      else { c with prods := ps ++ [{ p with val := val, waiting := false, minDue := max p.minDue (now + p.lag) }] } := by
  have found : c.prods.find? (fun q => decide (q.id = p.id)) = some p := by
    rw [prods, List.find?_append, List.find?_eq_none.mpr fun q hq => by simp [newest q hq]]
    simp
  have others : (ps.filter fun q => !decide (q.id = p.id)) = ps := List.filter_eq_self.mpr fun q hq => by simp [newest q hq]
  have kept (F : Producer → Producer) : (ps.map fun q => if q.id = p.id then F q else q) = ps :=
    (List.map_congr_left fun q hq => if_neg (newest q hq)).trans (List.map_id' ps)
  unfold Core.deliver
  simp only [found]
  split
  · simp [prods, others]
  · simp only [prods, List.map_append, kept, List.map_cons, List.map_nil, if_true]

/-! ## `VMOVS` (R162) -/

/-- An element of a register in a scalar one: sign-extended where its type is signed. -/
theorem scalar_of_elem {t : Nat} (low : t ≤ 12) (x : VReg) (i : Nat) :
    (if !typeIsFp t && typeSigned t then sextN (typeW t) (elem (typeW t) x i) else BitVec.ofNat 64 (elem (typeW t) x i)) =
      BitVec.ofInt 64 (if typeIsFp t then (elem (typeW t) x i : Int) else laneInt t (elem (typeW t) x i)) := by
  have small : elem (typeW t) x i < 2 ^ typeW t := elem_lt ..
  have width : 0 < typeW t ∧ typeW t ≤ 64 := by interval_cases t <;> decide
  generalize elem (typeW t) x i = y at small
  cases fp : typeIsFp t with
  | true => simp
  | false =>
    simp only [Bool.not_false, Bool.true_and, Bool.false_eq_true, if_false, laneInt, typeSigned, decide_eq_true_eq]
    by_cases signed : t % 2 = 0
    · rw [if_pos signed, sextN_eq_signExtend width.1 width.2, BitVec.signExtend, toInt_ofNat_word width.1 small]
      simp [signed]
    · simp [signed]

theorem vmoveS_ready (low : f.typ.toNat ≤ 12) (source : Readable s (.v f.va.toNat)) (dest : Readable s (.s f.vd.toNat)) :
    vmoveS s f = .ok (s.result (.s f.vd.toNat) (BitVec.ofInt 64 (if typeIsFp f.typ.toNat then (laneA s f f.imm.toNat : Int)
      else laneInt f.typ.toNat (laneA s f f.imm.toNat))).toNat (s.pre.vReg f.va.toNat).taint 3 0 true) := by
  unfold vmoveS
  simp only [Rep.src_ready (s := s) (k := 0) [] true (fun _ => source), dstS_readable dest, eff_ok_bind, if_true, fileOf_nil, scalar_of_elem low]
  rfl

/-! ## `VRDA` (R166, R168) -/

/-- Taint of a line that a predicate governs. -/
def lineTaint (s : State) (f : VWord) : Taint := if f.pen then (s.pre.pReg f.pg.toNat).taint ||| (s.pre.vReg f.vd.toNat).taint else 0

/-- The producer of a line that has not been read yet. -/
def lineReader (s : State) (f : VWord) : Producer :=
  { id := s.core.nextId, dest := .v f.vd.toNat, val := 0, taint := lineTaint s f, waiting := true, vx := true
    exposed := s.pre.exposed, sent := s.now, minDue := s.now + 6, lag := 4 }

/-- The queue's operation for it. -/
def readOp (s : State) (f : VWord) : MxOp :=
  .rda (f.va.toNat % 4) (f.va.toNat / 4) f.imm.toNat (if f.pen then (s.pre.pReg f.pg.toNat).val else BitVec.allOnes 512) s.core.nextId
    (if f.pen then (s.pre.vReg f.vd.toNat).val else 0)

/-- The registers of the unit once a `VRDA` has issued: in interlocked mode its destination is empty (R110). -/
def readLive (s : State) (f : VWord) : Regs :=
  if s.pre.exposed then s.core.live else s.core.live.put (.v f.vd.toNat) (s.pre.vReg f.vd.toNat).val.toNat false (lineTaint s f)

/-- The state in which the line move enters the queue. -/
def readIssued (s : State) (f : VWord) : State :=
  s.upd fun c => { c with live := readLive s f, prods := s.core.prods ++ [lineReader s f], nextId := s.core.nextId + 1 }

theorem readIssued_core : (readIssued s f).core =
    { s.core with live := readLive s f, prods := s.core.prods ++ [lineReader s f], nextId := s.core.nextId + 1 } := by rw [readIssued, State.core_upd]

theorem vrda_eq (pred : f.pen = true → Readable s (.p f.pg.toNat)) (dest : Readable s (.v f.vd.toNat)) :
    vrda s f = .ok ((readIssued s f).enqueueMx (readOp s f) true []) := by
  have taint : (if f.pen then (s.pre.pReg f.pg.toNat).taint else 0) ||| (if f.pen then (s.pre.vReg f.vd.toNat).taint else 0) = lineTaint s f := by
    unfold lineTaint
    cases f.pen <;> simp
  unfold vrda
  simp only [predOf_ready pred, Rep.src_ready (s := s) (k := 0) [] f.pen (fun _ => dest), destOk_readable dest, eff_ok_bind, fileOf_nil, taint]
  rfl

/-- The elements of a line in a register, the inactive ones as they were. -/
def lineValue (s : State) (f : VWord) : VReg :=
  lanes 32 fun i => if !f.pen || (s.pre.pReg f.pg.toNat).val.getLsbD (4 * i) then
      s.core.acc (f.va.toNat % 4) (lineElem (f.va.toNat / 4) f.imm.toNat i).1 (lineElem (f.va.toNat / 4) f.imm.toNat i).2
    else elem 32 (s.pre.vReg f.vd.toNat).val i

/-- In exposed mode, its write in the sixth cycle (R475). -/
def lineWrite (s : State) (f : VWord) : PipeWrite :=
  { due := s.now + 6, sent := s.now, dest := some (.v f.vd.toNat), val := (lineValue s f).toNat, taint := lineTaint s f, vx := true }

theorem Core.acc_of_tiles {c d : Core} (tiles : d.tiles = c.tiles) (live : d.live.live = c.live.live) : d.acc = c.acc := by
  funext t i j
  unfold Core.acc Core.tileRow
  rw [tiles, live]

theorem readLive_live : (readLive s f).live = s.core.live.live := by
  unfold readLive
  split
  · rfl
  · rw [Regs.put_frame]

/-- A line that is read: its producer gets the elements as the tile holds them. -/
theorem moveLine_read {c : Core} (tiles : c.tiles = s.core.tiles) (live : c.live.live = s.core.live.live) (now : Nat) (id : Nat) :
    c.moveLine now { id := id, op := readOp s f, pc := c.gpc } = c.deliver now s.core.nextId (lineValue s f).toNat := by
  have value : (blend (if f.pen then (s.pre.pReg f.pg.toNat).val else BitVec.allOnes 512) 32 (if f.pen then (s.pre.vReg f.vd.toNat).val else 0)
      fun i => (elem 32 (c.line (f.va.toNat % 4) (f.va.toNat / 4) f.imm.toNat) i, 0)).1 = lineValue s f := by
    rw [blend_eq]
    refine lanes_congr fun i hi => ?_
    have hi : i < 128 := by simpa using hi
    rw [activeIn_line f.pen _ hi, Core.line, line_lanes, elem_line (fun k => Core.acc_mod ..) hi, lineCell_eq, Core.acc_of_tiles tiles live]
    cases f.pen <;> rfl
  exact congrArg (fun v : VReg => c.deliver now s.core.nextId v.toNat) value

/-- What a `VRDA` leaves where no queued entry names its tile. -/
theorem read_performed (plain : NoLines s.core) (fresh : ∀ p ∈ s.core.prods, p.id < s.core.nextId)
    (unnamed : ∀ e ∈ s.core.mxq, f.va.toNat % 4 ∉ e.op.tiles) :
    ((readIssued s f).enqueueMx (readOp s f) true []).core = if s.pre.exposed then
      { s.core with
        live := readLive s f, nextId := s.core.nextId + 2
        pipe := s.core.pipe ++ [lineWrite s f] }
    else { s.core with
      live := readLive s f, nextId := s.core.nextId + 2
      prods := s.core.prods ++ [{ lineReader s f with val := (lineValue s f).toNat, waiting := false }] } := by
  have queue : (readIssued s f).core.mxq = s.core.mxq := by rw [readIssued_core]
  rw [enqueueMx_moves (tile := f.va.toNat % 4) (by rw [NoLines, queue]; exact plain) rfl rfl (by rw [queue]; exact unnamed), queue]
  have read := moveLine_read (s := s) (f := f) (c := (readIssued s f).core.withLine (readOp s f)) (by rw [readIssued_core]; rfl)
    (by rw [readIssued_core]; exact readLive_live) (readIssued s f).now (readIssued s f).core.nextId
  have newest : ((readIssued s f).core.withLine (readOp s f)).prods = s.core.prods ++ [lineReader s f] := by rw [readIssued_core]; rfl
  have delivered := Core.deliver_newest newest (fun q hq => (fresh q hq).ne) (readIssued s f).now (lineValue s f).toNat
  have due : max (s.now + 6) (s.now + 4) = s.now + 6 := by omega
  have id : (lineReader s f).id = s.core.nextId := rfl
  have step : ((readIssued s f).core.withLine (readOp s f)).moveLine (readIssued s f).now (lineEntry (readIssued s f).core (readOp s f)) = _ :=
    read.trans (id ▸ delivered)
  have mode : (lineReader s f).exposed = s.pre.exposed := rfl
  rw [step, readIssued_core, mode]
  split
  · simp only [lineReader, lineWrite, Core.withLine, readIssued, State.upd_now, due]
  · simp only [lineReader, Core.withLine, readIssued, State.upd_now, due]

/-- What it leaves behind an entry that names its tile. -/
theorem read_waits (plain : NoLines s.core) (named : ∃ e ∈ s.core.mxq, f.va.toNat % 4 ∈ e.op.tiles) :
    ((readIssued s f).enqueueMx (readOp s f) true []).core = { s.core with
      live := readLive s f, nextId := s.core.nextId + 2, prods := s.core.prods ++ [lineReader s f]
      mxq := s.core.mxq ++ [lineEntry (readIssued s f).core (readOp s f)] } := by
  have queue : (readIssued s f).core.mxq = s.core.mxq := by rw [readIssued_core]
  rw [enqueueMx_waits (tile := f.va.toNat % 4) (by rw [NoLines, queue]; exact plain) rfl (by rw [queue]; exact named), readIssued_core]
  rfl

/-! ## `VWRA` (R167, R168) -/

/-- The queue's operation for a line that is written. -/
def writeOp (s : State) (f : VWord) : MxOp :=
  .wra (f.vd.toNat % 4) (f.vd.toNat / 4) f.imm.toNat (if f.pen then (s.pre.pReg f.pg.toNat).val else BitVec.allOnes 512) (s.pre.vReg f.vb.toNat).val

theorem vwra_eq (pred : f.pen = true → Readable s (.p f.pg.toNat)) (source : Readable s (.v f.vb.toNat)) :
    vwra s f = .ok (s.enqueueMx (writeOp s f) true []) := by
  unfold vwra
  simp only [predOf_ready pred, Rep.src_ready (s := s) (k := 0) [] true (fun _ => source), eff_ok_bind, fileOf_nil]
  rfl

theorem line_index (wf : (Instr.vwra f).wf = true) : f.imm.toNat < 128 := by
  simp only [Instr.wf, VWord.fits, Bool.and_eq_true, decide_eq_true_eq] at wf
  have mask : f.imm.toNat &&& 0x7F = f.imm.toNat := by tauto
  exact mask ▸ Nat.and_lt_two_pow _ (by decide : 0x7F < 2 ^ 7)

/-- A tile that is written becomes LIVE; beside it, only what a rollback would need changes (R179). -/
theorem Core.putTile_frame (c : Core) (t : Nat) (row : Nat → VReg) : ∃ tiles live, c.putTile t row false = { c with
    tiles := tiles, live := { c.live with live := live }
    shadow := { c.shadow with tileHit := c.shadow.tileHit || c.shadow.regs.live.getLsbD t } } := by
  unfold Core.putTile
  generalize (List.range 128).foldl _ c.tiles = tiles
  exact ⟨tiles, _, rfl⟩

/-- The active elements of a line have been written to a tile, which is LIVE, and nothing else of the core has changed but what a rollback
would need. -/
structure LineWritten (c d : Core) (t dir x : Nat) (act : PReg) (v : VReg) : Prop where
  frame : ∃ tiles live, d = { c with
    tiles := tiles, live := { c.live with live := live }
    shadow := { c.shadow with tileHit := c.shadow.tileHit || c.shadow.regs.live.getLsbD t } }
  live : d.live.live.getLsbD t = true
  active : ∀ i, i < 128 → activeIn act 32 i = true → d.acc t (lineElem dir x i).1 (lineElem dir x i).2 = elem 32 v i
  other : ∀ r j, r < 128 → j < 128 → (∀ i, i < 128 → activeIn act 32 i = true → lineElem dir x i ≠ (r, j)) → d.acc t r j = c.acc t r j

theorem Core.putLine_written (c : Core) {t x : Nat} (ht : t < 4) (hx : x < 128) (dir : Nat) (act : PReg) (v : VReg) :
    LineWritten c (c.putLine t dir x act v false) t dir x act v where
  frame := c.putTile_frame t _
  live := Core.live_setLive _ ht false true
  active _ hi active := c.acc_putLine_active ht hx v false hi active
  other _ _ hr hj missed := c.acc_putLine_other ht v false hr hj missed

/-- What a `VWRA` leaves where no queued entry names its tile. -/
theorem write_performed (index : f.imm.toNat < 128) (plain : NoLines s.core) (unnamed : ∀ e ∈ s.core.mxq, f.vd.toNat % 4 ∉ e.op.tiles) :
    ∃ d, (s.enqueueMx (writeOp s f) true []).core = { d with mxq := s.core.mxq } ∧
      LineWritten (s.core.withLine (writeOp s f)) d (f.vd.toNat % 4) (f.vd.toNat / 4) f.imm.toNat
        (if f.pen then (s.pre.pReg f.pg.toNat).val else BitVec.allOnes 512) (s.pre.vReg f.vb.toNat).val := by
  rw [enqueueMx_moves (tile := f.vd.toNat % 4) plain rfl rfl unnamed]
  exact ⟨_, rfl, Core.putLine_written _ (Nat.mod_lt _ (by decide)) index ..⟩

/-! ## `VPOPQ` (R169) -/

/-- The place of the oldest row of a queue. -/
def headRow (s : State) (q : Nat) : Nat := q * 2 ^ 32 + Tbl.getD s.core.live.rqHead q 0

/-- The instructions that wait for a row of a queue. -/
def rowWaits (s : State) (q : Nat) : Nat := (s.core.prods.filter fun p => p.waiting && decide (p.fromRq = some q)).length

section
variable (dest : Readable s (.v f.vd.toNat))
include dest

theorem vpopq_row (held : Tbl.getD s.core.live.rqHead f.va.toNat 0 < Tbl.getD s.core.live.rqTail f.va.toNat 0) :
    vpopq s f = if s.core.rowsBad.contains (headRow s f.va.toNat) then .error (.trap 0x0B 0)
      else .ok ((s.live fun r => { r with rqHead := Tbl.set r.rqHead f.va.toNat (Tbl.getD s.core.live.rqHead f.va.toNat 0 + 1) }).produce (.v f.vd.toNat)
        (Tbl.getD s.core.rows (headRow s f.va.toNat) 0).toNat 0 2 0 true) := by
  unfold vpopq headRow
  simp only [destOk_readable dest, eff_ok_bind, if_pos held]
  cases s.core.rowsBad.contains (f.va.toNat * 2 ^ 32 + Tbl.getD s.core.live.rqHead f.va.toNat 0) <;> rfl

theorem vpopq_empty (empty : Tbl.getD s.core.live.rqTail f.va.toNat 0 ≤ Tbl.getD s.core.live.rqHead f.va.toNat 0) :
    vpopq s f = if rowWaits s f.va.toNat < Tbl.getD s.core.promised f.va.toNat 0 then .ok (s.upd fun c => { c with
        live := if s.pre.exposed then c.live else c.live.put (.v f.vd.toNat) (s.pre.valOf (.v f.vd.toNat)) false 0
        prods := c.prods ++ [{ id := c.nextId, dest := .v f.vd.toNat, val := 0, waiting := true, vx := true, fromRq := some f.va.toNat
                               exposed := s.pre.exposed, sent := s.now, minDue := s.now + 2, lag := 2 }]
        nextId := c.nextId + 1 })
      else .error (queueFault s 1 f.va.toNat 0) := by
  unfold vpopq rowWaits
  simp only [destOk_readable dest, eff_ok_bind, if_neg (not_lt.mpr empty)]

end

end Sys2Proof.Machine
end


section
set_option Elab.async false
/-! OBLIGATION O17. -/

namespace Sys2Proof.Machine

/-- Settles O17: a line move is performed as it enters a queue where no entry names its tile, and waits behind one that does; a row is taken, awaited or missed. -/
theorem linesAndRows : Obligations.LinesAndRows := by
  unfold Obligations.LinesAndRows
  refine ⟨fun s f accepts source dest => ?_, fun s f accepts pred dest plain fresh => ?_, fun s f accepts pred source plain => ?_, fun s f accepts dest => ?_⟩
  · have wf := wf_of_accepts accepts
    simp only [Instr.wf, VWord.fits, TyClass.has, Bool.and_eq_true, decide_eq_true_eq] at wf
    exact exec_of_body accepts (fun _ => rfl) (vmoveS_ready (by tauto) source dest)
  · refine ⟨_, exec_of_body accepts (fun _ => rfl) (vrda_eq pred dest), (s.upd_onlyCore _).trans (State.enqueueMx_onlyCore ..), ?_⟩
    by_cases named : ∃ e ∈ s.core.mxq, f.va.toNat % 4 ∈ e.op.tiles
    · rw [read_waits plain named]
      obtain ⟨e, held, names⟩ := named
      exact ⟨rfl, rfl, fun free => absurd names (free e held), fun _ => ⟨rfl, rfl, _, rfl, rfl, rfl⟩⟩
    · have unnamed : ∀ e ∈ s.core.mxq, f.va.toNat % 4 ∉ e.op.tiles := fun e held names => named ⟨e, held, names⟩
      have performed := read_performed plain fresh unnamed
      by_cases exposed : s.pre.exposed = true
      · rw [if_pos exposed] at performed
        rw [performed]
        exact ⟨rfl, rfl, fun _ => ⟨rfl, fun h => absurd exposed (Bool.not_eq_true _ ▸ h), fun _ => ⟨rfl, rfl⟩⟩, fun h => absurd h named⟩
      · rw [if_neg exposed] at performed
        rw [performed]
        exact ⟨rfl, rfl, fun _ => ⟨rfl, fun _ => ⟨rfl, rfl⟩, fun h => absurd h exposed⟩, fun h => absurd h named⟩
  · refine ⟨_, exec_of_body accepts (fun _ => rfl) (vwra_eq pred source), State.enqueueMx_onlyCore .., fun unnamed => ?_, fun named => ?_⟩
    · obtain ⟨d, performed, ⟨tiles, live, frame⟩, isLive, active, other⟩ := write_performed (line_index (wf_of_accepts accepts)) plain unnamed
      rw [performed]
      refine ⟨by rw [frame]; rfl, isLive, by rw [frame]; rfl, fun i hi act => active i hi ((activeIn_line _ _ hi).trans act), fun r j hr hj missed => ?_⟩
      exact other r j hr hj fun i hi act => missed i hi ((activeIn_line _ _ hi).symm.trans act)
    · rw [enqueueMx_waits plain rfl named]
      exact ⟨_, rfl, rfl, rfl⟩
  · refine ⟨fun held bad => ?_, fun held good => ?_, fun empty promised => ?_, fun empty none => ?_⟩
    · exact stops_of_body accepts (fun _ => rfl) ((vpopq_row dest held).trans (if_pos bad))
    · exact exec_of_body accepts (fun _ => rfl) ((vpopq_row dest held).trans (if_neg (Bool.not_eq_true _ ▸ good)))
    · refine ⟨_, exec_of_body accepts (fun _ => rfl) ((vpopq_empty dest empty).trans (if_pos promised)), s.upd_onlyCore _, ?_⟩
      rw [State.core_upd]
      exact ⟨rfl, rfl, rfl⟩
    · obtain ⟨t, answers, sig⟩ := stops_of_body accepts (fun _ => rfl) ((vpopq_empty dest empty).trans (if_neg (not_lt.mpr none)))
      exact ⟨t, _, answers, sig⟩

end Sys2Proof.Machine
end
